-- ==== Sys2Proof/Word.lean ====
section
/-! DEFINITION. The machine's word types and their plainest readings (R7, R122, R123). -/

namespace Sys2Proof

/-- One byte. -/
abbrev Byte := BitVec 8
/-- A 32-bit register word, one lane of a vector register (R123). -/
abbrev Word := BitVec 32
/-- A 64-bit scalar register, control register or address (R54). -/
abbrev DWord := BitVec 64

end Sys2Proof
end

