-- ==== Sys2Proof/Config.lean ====
section
/-! DEFINITION. What the spec leaves to keys, chance or the makers: uninterpreted functions without a body (so a
claim about them holds whatever they are), and the machine's fixed figures (R3). -/

namespace Sys2Proof.Config

/-- The keyed check over a ticket's bits [47:0] under the session key of the given number (R278). (DESIGN CHOICE: notes/assumptions/102.) -/
opaque ticketCheck : Nat → Nat → BitVec 16
/-- The keyed check over a counter handle's bits [50:0] (R306); its low 13 bits are used. (DESIGN CHOICE: notes/assumptions/102.) -/
opaque handleCheck : Nat → Nat → BitVec 16
/-- The keyed check over the other 510 bytes of a flume state record (R338). -/
opaque recordCheck : Nat → List Byte → BitVec 16

/-- The module's serial number (R450). -/
opaque serialNo : Nat
/-- The identity key's private half, 32 bytes (R450). -/
opaque identitySeed : Nat
/-- The certificate chain's bytes (R450). -/
opaque certChain : List (BitVec 8)
/-- SHA-512 of the mask ROM (R453). -/
opaque romHash : Nat
/-- The n-th random draw: a remote key or a nonce (R431, R451). (DESIGN CHOICE: notes/assumptions/82.) -/
opaque draw : Nat → Nat
/-- Flits that a port sends (0) or receives (1) in a cycle (R460). (DESIGN CHOICE: notes/assumptions/10.) -/
opaque flits : Nat → Nat → Nat → Nat
/-- The matrix engines that the running task of a number keeps busy in a cycle (R460). (DESIGN CHOICE: notes/assumptions/10.) -/
opaque busyCycles : Nat → Nat → Nat
/-- Stored bytes that a slice reads from HBM in a cycle (R460). (DESIGN CHOICE: notes/assumptions/10.) -/
opaque hbmReads : Nat → Nat → Nat
/-- Whether the hardware runs the operation issued in a cycle on a scalar unit (R26). (DESIGN CHOICE: notes/assumptions/9.) -/
opaque scalarUnit : Nat → Nat → Bool

/-- The coordinate of the tile that a packed image holds: its header has none; a decode fault names it (R178), and its edge elements are
zero (R78, R301). (DESIGN CHOICE: notes/assumptions/31.) (DESIGN CHOICE: notes/assumptions/38.) -/
opaque imageCoord : Nat → BitVec 64

/-- The spare row that a repair of a channel chooses, by the channel and the entry it fills (R471). (DESIGN CHOICE: notes/assumptions/93.) -/
opaque spareRow : Nat → Nat → BitVec 16

/-- The granule of a channel, counted ascending, that stands k-th in a row of a bank (R426, R471). (DESIGN CHOICE: notes/assumptions/93.) -/
opaque rowGranule : Nat → Nat → Nat → Nat → Nat

/-- Whether a request that goes unanswered was performed by its landing or module, by its number (R98, R115). -/
opaque answerLost : Nat → Bool

/-- Whether another module refuses the counter handle of a bulk, by the operation's number (R306, R308). -/
opaque handleRefused : Nat → Bool

/-- The physical address of the staged bytes of a ticket's lane: which staging units an entry takes is the table's choice (R279).
(DESIGN CHOICE: notes/assumptions/145.) -/
opaque stagingPa : Nat → Nat → Nat

/-- What the supply buffer holds for a lane for which a faulted load fetched nothing, by warp, cycle and lane (R336).
(DESIGN CHOICE: notes/assumptions/123.) -/
opaque supplyLeft : Nat → Nat → Nat → Nat

/-- 800 cycles are one microsecond (R4). -/
def cyclesPerUs : Nat := 800

end Sys2Proof.Config
end

