-- ==== Sys2Proof/Machine/Map.lean ====
section
/-! DEFINITION. Finite tables by number, sets of lanes, and byte strings: the containers the state is made of. -/

namespace Sys2Proof.Machine

/-- A table by number: pairs in rising order of key; a key that is not listed holds the type's default. -/
abbrev FMap (α : Type) := List (Nat × α)

/-- The entry of a key, if the table lists it. -/
def FMap.find {α : Type} (m : FMap α) (k : Nat) : Option α :=
  match m with
  | [] => none
  | (j, a) :: t => if j = k then some a else FMap.find t k

/-- The value of a key. -/
def FMap.get {α : Type} [Inhabited α] (m : FMap α) (k : Nat) : α := (m.find k).getD default

/-- The table with the key's value set. -/
def FMap.set {α : Type} (m : FMap α) (k : Nat) (a : α) : FMap α :=
  match m with
  | [] => [(k, a)]
  | (j, b) :: t => if k < j then (k, a) :: (j, b) :: t else if k = j then (k, a) :: t else (j, b) :: FMap.set t k a

/-- The table without the key. -/
def FMap.del {α : Type} (m : FMap α) (k : Nat) : FMap α := m.filter fun p => p.1 != k

/-- The keys of a table. -/
def FMap.keys {α : Type} (m : FMap α) : List Nat := m.map (·.1)

/-- The least number, counted from `from_`, that no listed key uses. -/
def FMap.fresh {α : Type} (m : FMap α) (from_ : Nat) : Nat :=
  match m with
  | [] => from_
  | (j, _) :: t => if j < from_ then FMap.fresh t from_ else if j = from_ then FMap.fresh t (from_ + 1) else from_

/-- A set of lanes of one warp: bit l is lane l. -/
abbrev LaneSet := BitVec 32

/-- The lanes of a set in ascending order (R10). -/
def lanesOf (m : LaneSet) : List Nat := (List.range 32).filter fun l => m.getLsbD l

/-- The set holding one lane. -/
def laneBit (l : Nat) : LaneSet := BitVec.ofNat 32 (2 ^ l)

/-- The set of the lanes of a list. -/
def laneSet (ls : List Nat) : LaneSet := ls.foldl (fun m l => m ||| laneBit l) 0

/-- The number of lanes in a set. -/
def laneCount (m : LaneSet) : Nat := (lanesOf m).length

/-- The lowest lane of a set (lane 0 for the empty set). -/
def leader (m : LaneSet) : Nat := (lanesOf m).headD 0

/-- Little-endian number of a byte string (R7). -/
def bytesToNat (bs : List Byte) : Nat :=
  match bs with
  | [] => 0
  | b :: t => b.toNat + 256 * bytesToNat t

/-- The `n` low bytes of a number, lowest first (R7). -/
def natToBytes (n x : Nat) : List Byte :=
  match n with
  | 0 => []
  | k + 1 => BitVec.ofNat 8 x :: natToBytes k (x / 256)

/-- Bits [hi:lo] of a number (R7). -/
def bits (x hi lo : Nat) : Nat := x / 2 ^ lo % 2 ^ (hi + 1 - lo)

/-- Two's complement reading of the low `n` bits. -/
def signedOf (n x : Nat) : Int := if x % 2 ^ n < 2 ^ (n - 1) then (x % 2 ^ n : Int) else (x % 2 ^ n : Int) - 2 ^ n

/-- The low `n` bits of an integer (R124). -/
def wrapNat (n : Nat) (x : Int) : Nat := (x % (2 : Int) ^ n).toNat

/-- Insertion sort by a numeric key, stable: ties keep their order. -/
def insertBy {α : Type} (f : α → Nat) (a : α) : List α → List α
  | [] => [a]
  | b :: t => if f a < f b then a :: b :: t else b :: insertBy f a t

/-- A list sorted by a numeric key. -/
def sortBy {α : Type} (f : α → Nat) (l : List α) : List α := l.foldl (fun acc a => insertBy f a acc) []

/-- The first element with the least key. -/
def leastBy {α : Type} (f : α → Nat) : List α → Option α
  | [] => none
  | a :: t =>
    match leastBy f t with
    | none => some a
    | some b => if f b < f a then some b else some a

/-- A list without repeats, first occurrences kept. -/
def dedup (l : List Nat) : List Nat := l.foldl (fun acc a => if acc.contains a then acc else acc ++ [a]) []

end Sys2Proof.Machine
end

