-- ==== Sys2Proof/Syntax.lean ====
section
/-! DEFINITION. The syntax of every step of the machine: program instructions with decoded operands, and
the hardware and host steps of the opcode table, whose operands name the object they act on. -/

namespace Sys2Proof

/-- An operand code (R186): a vector register, a scalar register (s48 to s63 included, R192), a small
constant (R188, numbered 0 to 7), an operand word (R15), the sink z, or a literal (R193). -/
inductive Operand where
  | v (n : Nat)
  | s (n : Nat)
  | k (n : Nat)
  | lane
  | warp
  | crew
  | tid
  | z
  | lit32 (w : Word)
  | lit64 (w : DWord)
  deriving DecidableEq, Repr, Inhabited

/-- The integer types (R122). -/
inductive IntTy where
  | i8 | i16 | i32 | i64 | n8 | n16 | n32 | n64
  deriving DecidableEq, Repr, Inhabited

/-- The IEEE types (R125). -/
inductive FTy where
  | f32 | f16 | bf16
  deriving DecidableEq, Repr, Inhabited

/-- An 8-bit format (R128 to R130): precision K, unsigned family or not, infinities enabled or not. -/
structure F8Ty where
  k : Nat
  uns : Bool
  inf : Bool
  deriving DecidableEq, Repr, Inhabited

/-- A type of a register value (R194), without the scale type .sx8, which no register operand takes. -/
inductive Ty where
  | int (t : IntTy)
  | flt (t : FTy)
  | f8 (t : F8Ty)
  deriving DecidableEq, Repr, Inhabited

/-- Rounding modifier (R185): fpmode.rm, or a named mode. -/
inductive RMod where
  | mode | rne | rz | rd | ru
  deriving DecidableEq, Repr, Inhabited

/-- Scopes (R13). -/
inductive Scope where
  | thread | warp | crew | gang | device | pool | system
  deriving DecidableEq, Repr, Inhabited

/-- Order modifiers (R185). -/
inductive Order where
  | none | acq | rel | acqrel
  deriving DecidableEq, Repr, Inhabited

/-- Integer comparison conditions (R219). -/
inductive Cond where
  | eq | ne | lt | le | gt | ge
  deriving DecidableEq, Repr, Inhabited

/-- Float comparison conditions (R248). -/
inductive FCond where
  | eq | ne | lt | le | gt | ge | un | ord
  deriving DecidableEq, Repr, Inhabited

/-- The operations of the typed integer form (R218); the immediate forms carry their raw byte. -/
inductive IntOp where
  | add | sub | mul | mulh | mad | div | rem | min | max | and | or | xor | not
  | shl | shr | sar | rot | bfx | bfi
  | shlImm (n : Nat) | shrImm (n : Nat) | sarImm (n : Nat) | rotImm (n : Nat)
  | clz | ctz | popc
  | addImm (n : Nat)
  deriving DecidableEq, Repr, Inhabited

/-- The operations of the typed float form other than fcvt (R254). -/
inductive FOp where
  | fsqrt | frsq | frcp | fexp2 | flog2 | fround
  | fadd | fsub | fmul | ffma | fmax | fmin | fgate | fclamp | fdiv | fscale
  deriving DecidableEq, Repr, Inhabited

/-- The typed float form's function (R254): an operation in one format, or a conversion. -/
inductive FTyped where
  | op (o : FOp) (t : FTy)
  | cvt (d s : Ty)
  deriving DecidableEq, Repr, Inhabited

/-- Vote kinds (R224). -/
inductive VoteKind where
  | all | any | ballot | eq
  deriving DecidableEq, Repr, Inhabited

/-- Reduction operations (R225). -/
inductive RedOp where
  | add | min | max | and | or | xor
  deriving DecidableEq, Repr, Inhabited

/-- The type of a reduction (R225). -/
inductive RedTy where
  | int (t : IntTy)
  | flt (t : FTy)
  deriving DecidableEq, Repr, Inhabited

/-- FM width codes (R184). -/
inductive Width where
  | n8 | i8 | n16 | i16 | w32 | w64 | w128
  deriving DecidableEq, Repr, Inhabited

/-- Atomic operations (R273). -/
inductive AtomOp where
  | add | min | max | and | or | xor | exch | cas
  deriving DecidableEq, Repr, Inhabited

/-- The type of an atomic (R273). -/
inductive AtomTy where
  | int (t : IntTy)
  | flt (t : FTy)
  | w128
  deriving DecidableEq, Repr, Inhabited

/-- What a packed load delivers (R299, the type field of cpy.ld). -/
inductive CpyTy where
  | raw
  | values (t : FTy)
  | codes
  deriving DecidableEq, Repr, Inhabited

/-- The forms of cpy.ld's checks: none, .crc, .held (R299). -/
inductive CpyMod where
  | plain | crc | held
  deriving DecidableEq, Repr, Inhabited

/-- The element class of a matrix plane (R313). -/
inductive MTy where
  | f8 (t : F8Ty)
  | f16
  | bf16
  deriving DecidableEq, Repr, Inhabited

/-- The forms of mload (R313). -/
inductive MLoad where
  | packed (t : F8Ty)
  | tile (t : MTy)
  | image (t : F8Ty)
  | acc (j : Nat)
  deriving DecidableEq, Repr, Inhabited

/-- The forms of mdrain (R313). -/
inductive MDrain where
  | xf32 | xbf16 | vreg | glob | globAdd
  deriving DecidableEq, Repr, Inhabited

/-- The header of a command message as the management core sees it (R433): queue pair, tag and context. -/
structure Hdr where
  qp : Nat
  tag : DWord
  ctx : Nat
  deriving DecidableEq, Repr, Inhabited

/-- A request that another module performs on this module's HBM (R92, R439). -/
inductive RemoteOp where
  | read (n : Nat)
  | write (bytes : List Byte)
  | atom (op : AtomOp) (ty : AtomTy) (b c : Nat)
  /-- an update of a packed block by another module's engine, arriving at a fabric port: the 16 bytes of the entry that it merged
  into, its writes to the slot, and the new entry's 16 bytes (R110, R179) -/
  | update (port : Nat) (old : List Byte) (slot : List (Nat × List Byte)) (new : List Byte)
  deriving DecidableEq, Repr, Inhabited

/-- Such a request as it arrives: the cycles that its count has left, and what it asks (R439). -/
structure RemoteReq where
  left : Nat
  op : RemoteOp
  deriving DecidableEq, Repr, Inhabited

/-- A landing's answer to a pool instruction (R287 to R289). -/
inductive PoolAnswer where
  | granted (offset : Nat)
  | noRoom
  | quota
  | lost
  | timeout
  | quotaLeft (bytes : Nat)
  | freed
  deriving DecidableEq, Repr, Inhabited

set_option maxRecDepth 4000 in
/-- Every step of spec/opcode_table.json, in the table's order but for the last eight. In the float one-word forms the first
argument is the chain bit (R195). A `Nat` operand of a step without an encoding names the object the step
acts on: `w` a warp (crew token times 64 plus warp slot), `core`, `q` a copy queue, `crew` a crew token,
`req` an outstanding request, `hdr` the header of the command message. -/
inductive Instr where
  -- integer, F3 (R213, R214, R216)
  | add (d a b : Operand)
  | sub (d a b : Operand)
  | mul (d a b : Operand)
  | mulh (d a b : Operand)
  | mad (d a b : Operand)
  | div (d a b : Operand)
  | rem (d a b : Operand)
  | min (d a b : Operand)
  | max (d a b : Operand)
  | and (d a b : Operand)
  | or (d a b : Operand)
  | xor (d a b : Operand)
  | not (d a : Operand)
  | shl (d a b : Operand)
  | shr (d a b : Operand)
  | sar (d a b : Operand)
  | rot (d a b : Operand)
  | shlImm (d a : Operand) (n : Nat)
  | shrImm (d a : Operand) (n : Nat)
  | sarImm (d a : Operand) (n : Nat)
  | rotImm (d a : Operand) (n : Nat)
  | clz (d a : Operand)
  | ctz (d a : Operand)
  | popc (d a : Operand)
  | bfx (d a b : Operand)
  | bfi (d a b : Operand)
  | addImm (d a : Operand) (n : Nat)
  | movi (d : Operand) (n : Nat)
  | sel (t : Option Ty) (d c a b : Operand)
  | cmp (cc : Cond) (t : IntTy) (d a b : Operand)
  | lea (t : IntTy) (sh : Nat) (d a b c : Operand)
  | intTyped (op : IntOp) (t : IntTy) (sat : Bool) (d a b c : Operand)
  -- float, F3 and F2I (R245 to R251)
  | faddF32 (ch : Bool) (d a b : Operand)
  | faddF16 (ch : Bool) (d a b : Operand)
  | faddBf16 (ch : Bool) (d a b : Operand)
  | fsubF32 (ch : Bool) (d a b : Operand)
  | fsubF16 (ch : Bool) (d a b : Operand)
  | fsubBf16 (ch : Bool) (d a b : Operand)
  | fmulF32 (ch : Bool) (d a b : Operand)
  | fmulF16 (ch : Bool) (d a b : Operand)
  | fmulBf16 (ch : Bool) (d a b : Operand)
  | ffmaF32 (ch : Bool) (d a b : Operand)
  | ffmaF16 (ch : Bool) (d a b : Operand)
  | ffmaBf16 (ch : Bool) (d a b : Operand)
  | fmaxF32 (ch : Bool) (d a b : Operand)
  | fmaxF16 (ch : Bool) (d a b : Operand)
  | fmaxBf16 (ch : Bool) (d a b : Operand)
  | fminF32 (ch : Bool) (d a b : Operand)
  | fminF16 (ch : Bool) (d a b : Operand)
  | fminBf16 (ch : Bool) (d a b : Operand)
  | fgateF32 (ch : Bool) (d a b : Operand)
  | fgateF16 (ch : Bool) (d a b : Operand)
  | fgateBf16 (ch : Bool) (d a b : Operand)
  | fclampF32 (ch : Bool) (d a b : Operand)
  | fclampF16 (ch : Bool) (d a b : Operand)
  | fclampBf16 (ch : Bool) (d a b : Operand)
  | fdivF32 (ch : Bool) (d a b : Operand)
  | fsqrt (ch : Bool) (t : FTy) (d a : Operand)
  | frsq (ch : Bool) (t : FTy) (d a : Operand)
  | frcp (ch : Bool) (t : FTy) (d a : Operand)
  | fexp2 (ch : Bool) (t : FTy) (d a : Operand)
  | flog2 (ch : Bool) (t : FTy) (d a : Operand)
  | fround (ch : Bool) (t : FTy) (d a : Operand)
  | fcvt (ch : Bool) (dt st : Ty) (d a : Operand)
  | fscaleF32 (ch : Bool) (d a b : Operand)
  | fcmp (cc : FCond) (t : FTy) (d a b : Operand)
  | fquant (dt : F8Ty) (st : FTy) (d a : Operand)
  | fdequant (dt : FTy) (st : F8Ty) (m : RMod) (d a : Operand)
  | floatTyped (f : FTyped) (m : RMod) (d a b c : Operand)
  | flumeWriteback (w port : Nat)
  -- lanes and masks (R222 to R227)
  | vshfl (d a b : Operand)
  | vbcast (d a : Operand) (l : Nat)
  | vvote (kind : VoteKind) (d a : Operand)
  | vshflMasked (d a b m : Operand)
  | vbcastMasked (d a : Operand) (l : Nat) (m : Operand)
  | vvoteMasked (kind : VoteKind) (d a m : Operand)
  | vred (op : RedOp) (t : RedTy) (sat : Bool) (rm : RMod) (d a m : Operand)
  | vscan (op : RedOp) (t : RedTy) (excl sat : Bool) (rm : RMod) (d a m : Operand)
  | mjoin (k : Nat)
  | mleave (k : Nat)
  | mwait (k : Nat)
  | mwaitt (d a : Operand) (k : Nat)
  | mwaittDeadline (w lane : Nat)
  -- control (R228 to R238)
  | bra (off : Nat)
  | brc (c : Operand) (off : Nat)
  | brcZ (c : Operand) (off : Nat)
  | call (c : Operand) (off : Nat)
  | ret (a : Operand)
  | exit
  | reform (a : Operand) (k : Nat)
  | reformageExpiry (core bin : Nat)
  | binBuildOnFreeSlot (core bin : Nat)
  | stagenext (d : Operand)
  | qput (d a b : Operand)
  | qtake (d b : Operand)
  | bar (a : Operand) (id : Nat)
  | barArrive (a : Operand) (id : Nat)
  | barGang (a : Operand) (id : Nat)
  | barGangArrive (a : Operand) (id : Nat)
  | yieldOp
  | sleep (a : Operand)
  | sleepExpiry (w lane : Nat)
  | nop
  -- memory, atomics, tickets, pool (R264 to R289)
  | ldG (w : Width) (ord : Order) (sc : Scope) (d a : Operand)
  | ldX (w : Width) (ord : Order) (sc : Scope) (d a : Operand)
  | stG (w : Width) (ord : Order) (sc : Scope) (d a : Operand)
  | stX (w : Width) (ord : Order) (sc : Scope) (d a : Operand)
  | prf (w : Width) (a : Operand)
  | ldOffset (x : Bool) (w : Width) (ord : Order) (sc : Scope) (d a b : Operand)
  | stOffset (x : Bool) (w : Width) (ord : Order) (sc : Scope) (d a b : Operand)
  | atomG (op : AtomOp) (t : AtomTy) (ord : Order) (sc : Scope) (d a b c : Operand)
  | atomX (op : AtomOp) (t : AtomTy) (ord : Order) (sc : Scope) (d a b c : Operand)
  | fence (sc : Scope)
  | ldt (try_ : Bool) (w : Width) (d a : Operand)
  | ldtBlock (try_ : Bool) (d a b : Operand)
  | redeem (try_ : Bool) (d a c : Operand)
  | redeemX (try_ : Bool) (a b c : Operand)
  | tkdrop (d a : Operand)
  | tkstat (d a : Operand)
  | ticketReady (table entry : Nat)
  | ticketDeadline (table entry : Nat)
  | lalloc (d a b c : Operand)
  | lfree (d a : Operand)
  | lquota (d a : Operand)
  | memoryResponse (req : Nat)
  | remoteStoreAck (req : Nat)
  | remoteStoreTimeout (req : Nat) (performed : Bool)
  | fabricTimeout (req : Nat) (performed : Bool)
  -- engines (R293 to R323)
  | cpyLd (t : CpyTy) (q : Nat) (m : CpyMod) (arr : Bool) (d a b c : Operand)
  | cpySt (addF : Bool) (q : Nat) (m : CpyMod) (arr : Bool) (d a b c : Operand)
  | copyPerform (core q : Nat)
  | bulk (xs xd arr held : Bool) (d a : Operand)
  | bulkPerform (core : Nat)
  | bulkPieceArrival (handle : DWord) (xd : Option Nat) (bytes : List Byte) (count : Nat)
  | arminit (d a b : Operand)
  | arrive (a b : Operand)
  | await (d a : Operand)
  | qfence (q : Nat)
  | tagset (d a b : Operand)
  | mload (f : MLoad) (a b : Operand)
  | mswap
  | mmul (m : Nat) (zero : Bool) (t : MTy) (j : Nat) (a : Operand)
  | mdrain (f : MDrain) (j : Nat) (d a b : Operand)
  | mtask (d a : Operand)
  | deckTaskStart (core idx : Nat)
  | deckTaskComplete (core idx : Nat)
  | ctload (x : Bool) (slot : Nat) (d a : Operand)
  | ctsave (x : Bool) (slot : Nat) (d a : Operand)
  | encoderTableOp (core : Nat)
  | kvput (t : FTy) (d a b c : Operand)
  | blockUpdate (core : Nat)
  | bin (x : Bool) (d a b c : Operand)
  | binPerform (core : Nat)
  | spawn (held : Bool) (d a b : Operand)
  | cancel (d a : Operand)
  -- traps and control registers (R329 to R339)
  | trap (code : Nat)
  | trapret
  | trapsupply (a : Operand)
  | csrr (d : Operand) (r : Nat)
  | csrw (src : Operand) (r : Nat)
  | csrContextCommit (w : Nat)
  | flsave (a : Operand) (port : Nat)
  | flrestore (a : Operand) (port : Nat)
  | brk (code : Nat)
  | halt
  -- the hardware scheduler (R391 to R406)
  | contextSave (crew : Nat)
  | levelAging (launch : Nat)
  | drainReservation (launch : Nat)
  | crewComplete (crew : Nat)
  | stallHint (landing peer : Nat)
  | stallHintWithdraw (landing peer : Nat)
  | hintReturnTimeout (crew : Nat)
  -- translation, migration, memory errors (R407 to R428, R462, R463)
  | pageWalk (core idx : Nat)
  | heldFaultTimeout (number : Nat)
  | invalidationComplete (id : Nat)
  | backgroundPullSlot (channel : Nat)
  | refreshSlot (channel : Nat)
  | scrubSlot (channel : Nat)
  | remapReload (channel : Nat)
  -- fabric (R438 to R444)
  | remoteRequest (sender pa : Nat) (req : RemoteReq)
  | requestDeadlineExpiry (req : Nat)
  | linkUp (port module_ : Nat)
  | linkDown (port : Nat)
  | landingLost (port : Nat)
  | landingFailureReport (port : Nat)
  | extentAdd (landing offset length : Nat)
  | extentRelease (landing offset length : Nat)
  | extentForcedRelease (landing offset length : Nat)
  -- Ethernet (R429 to R437)
  | rdmaWrite (qp rkey addr : Nat) (bytes : List Byte)
  | rdmaRead (qp rkey addr n : Nat)
  | unsupportedFrame (roce : Bool) (qp : Nat)
  | eventDelivery (qp : Nat)
  -- commands of the host (R434)
  | ctxCreate (hdr : Hdr) (root stack save savesize : Nat)
  | ctxDestroy (hdr : Hdr)
  | ctxQuota (hdr : Hdr) (landing bytes : Nat)
  | jobSubmit (hdr : Hdr) (job : Nat)
  | unitCancel (hdr : Hdr) (handle : DWord)
  | winReg (hdr : Hdr) (va length access : Nat)
  | winDereg (hdr : Hdr) (rkey : Nat)
  | tlbInval (hdr : Hdr) (va length : Nat)
  | faultResolve (hdr : Hdr) (number answer : Nat)
  | migrateArm (hdr : Hdr) (size old new : Nat)
  | migrateStart (hdr : Hdr) (slot : Nat)
  | migrateAbort (hdr : Hdr) (slot : Nat)
  | migrateRelease (hdr : Hdr) (slot : Nat)
  | indexAudit (hdr : Hdr) (handle : Nat)
  | poolAlloc (hdr : Hdr) (size : Nat) (attr : Word)
  | poolGrant (hdr : Hdr) (va length target access tmod omod : Nat)
  | poolRevoke (hdr : Hdr) (va length target tmod omod : Nat)
  | debugRead (hdr : Hdr) (cls lane crew warp number : Nat)
  | debugWrite (hdr : Hdr) (cls lane crew warp number : Nat) (value : DWord)
  | debugResume (hdr : Hdr) (crew warp : Nat)
  | linkDrain (hdr : Hdr) (port : Nat)
  | linkRetrain (hdr : Hdr) (port : Nat)
  | linkRestore (hdr : Hdr) (port : Nat)
  -- identity (R450 to R455)
  | idGet (hdr : Hdr)
  | sessionChallenge (hdr : Hdr)
  | nonceExpiry (qp : Nat)
  | sessionOpen (hdr : Hdr) (operator : Nat) (rights : Word) (endorsement proof : Nat)
  | sessionClose (hdr : Hdr)
  | quote (hdr : Hdr) (nonce : Nat)
  | ownerSet (hdr : Hdr) (key : Nat)
  | configApply (hdr : Hdr) (blob : List Byte)
  | resetWarm (hdr : Hdr) (retain : Bool)
  | resetCold (hdr : Hdr)
  -- fleet (R459 to R471) and power (R456, R457)
  | health (hdr : Hdr)
  | counterSet (hdr : Hdr) (cls unit counter : Nat) (select : Word) (count : DWord)
  | counterRead (hdr : Hdr) (cls unit : Nat)
  | coreOffline (hdr : Hdr) (core : Nat)
  | coreOnline (hdr : Hdr) (core : Nat)
  | coreReset (hdr : Hdr) (core : Nat)
  | pinSet (hdr : Hdr) (cls unit frames : Nat)
  | channelRetrain (hdr : Hdr) (stack channel : Nat) (passed : Bool)
  | repair (hdr : Hdr) (stack channel bank row : Nat)
  | logRead (hdr : Hdr) (kind from_ : Nat)
  | powerSample (temps : List Int) (coolant : Int) (power : Nat)
  -- refusals and the rest
  | unknownOpcode (hdr : Hdr) (opcode : Nat) (badHeader : Bool)
  | sendOnNonManagementQp (qp : Nat)
  | landingPoolResponse (req : Nat) (answer : PoolAnswer)
  | retiredTagReuse (port tag : Nat)
  | priorityFlowControlFrame (prio : Nat) (pause : Bool)
  | congestionNotificationPacket (qp : Nat)
  -- steps without an argument, of several groups
  | placementPass
  | deadlockWalk
  | powerOn
  | throttleStep
  | throttleExit
  | thermalShutdown
  | illegalInstruction
  | powerRemoved
  deriving DecidableEq, Repr

end Sys2Proof
end

