-- ==== Sys2Proof/Machine/Types.lean ====
section
/-! DEFINITION. The parts the state is made of, each plain data: warps, crews, gangs, cores, contexts, requests, tickets. -/

namespace Sys2Proof.Machine

open Sys2Proof

/-- Memory: the listed bytes in rising address order, no zero byte listed; an address that is not listed reads 0
(R448, notes/assumptions/2). -/
abbrev Memory := List Host.Cell

/-- A fault about to be taken (R326, R331): what the trap registers will hold, who traps, and where they return. -/
structure Trap where
  cause : Nat
  sub : Nat := 0
  lanes : LaneSet := 0
  addr : DWord := 0
  detail : Nat := 0
  code : Nat := 0
  landing : Nat := 0
  flags : Nat := 0
  software : Bool := false
  part : Bool := false
  port : Nat := 0
  member : Nat := 0
  slot : Nat := 0
  deferred : Bool := false
  bitoff : Nat := 0
  block : Nat := 0
  step : Nat := 0
  coord : Option DWord := none
  group : LaneSet := 0
  /-- return point; none: each lane's own program counter -/
  ret : Option DWord := none
  deriving DecidableEq, Repr, Inhabited

/-- One lane of a warp (R15, R19, R24). `dead` marks a lane that has exited, reformed away or never started. -/
structure Lane where
  live : Bool
  pc : DWord
  tid : Nat
  age : Nat
  readyAt : Nat
  deriving DecidableEq, Repr, Inhabited

/-- A faulting memory part of an instruction: cause, lowest virtual address, lanes, landing (R67, R271). -/
structure AccessFault where
  cause : Nat
  addr : Nat
  lanes : LaneSet
  landing : Nat
  deriving DecidableEq, Repr, Inhabited

/-- One lane's part of a request: lane, virtual and physical address, operand b (or the data stored) and c, and whether its page
carries mig (R420). -/
structure LaneOp where
  lane : Nat
  va : Nat
  pa : Nat
  b : Nat
  c : Nat
  mig : Bool := false
  deriving DecidableEq, Repr, Inhabited

/-- One request of a ticketed read (R66, R280). -/
structure GatherPart where
  va : Nat
  pa : Nat
  size : Nat
  home : Nat
  ops : List LaneOp
  deriving DecidableEq, Repr, Inhabited

/-- A ticketed read as its ldt asks its table for it (R280): the table, its kind, width and bytes, its requests, and the
destination of the ticket. -/
structure Gather where
  table : Nat
  block : Bool
  width : Width
  bytes : Nat
  parts : List GatherPart
  d : Operand
  deriving DecidableEq, Repr, Inhabited

/-- What an instruction waiting for responses does when they are in (R271): a load, an atomic with return. -/
structure MemWait where
  atomic : Bool
  width : Width
  bytes : Nat
  /-- atomics: whether the returned value is sign-extended, and its width in bits -/
  ext : Option IntTy
  d : Operand
  reqs : List Nat
  got : FMap Nat
  faults : List AccessFault
  some_ : Bool
  /-- an acquire beyond the core, made when the responses are in -/
  acq : Bool
  deriving DecidableEq, Repr, Inhabited

/-- What a group of lanes waits for. The kinds up to `trapret` are the blocking waits of R49; in those after it the lanes are
not blocked, but hold until a walk, a response or a write-back is there, which the wait-for table never records. -/
inductive Wait where
  | mask (k : Nat)
  | maskT (k : Nat) (d : Operand) (deadlines : FMap Nat)
  | bar (gang : Bool) (id : Nat)
  | stage (d : Operand)
  | qput (stage src : Nat) (d : Operand)
  | qtake (dst : Nat) (d : Operand)
  | await (off : Nat) (d : Operand)
  | redeem (ticket : DWord) (d : Operand) (off : Option Nat) (st : Operand)
  | sleep (until_ : FMap Nat)
  | room (ldt : Option Gather)
  | trapret
  | tlb (pages : List Nat)
  | held (num : Nat)
  | mem (m : MemWait)
  | fence
  | pool (req : Nat) (d st : Operand)
  | csr (reg : Nat) (val : DWord)
  | chain (port : Nat)
  deriving DecidableEq, Repr, Inhabited

/-- Lanes of a warp that stand at the word `pc` and issue nothing until the wait ends. -/
structure WaitRec where
  lanes : LaneSet
  pc : DWord
  len : Nat
  port : Nat
  wait : Wait
  deriving DecidableEq, Repr, Inhabited

/-- A member of a chain as latched at issue: destination, register words of its result, and how a scalar destination
extends a one-word result (R338 ext). -/
structure ChainMember where
  dest : Operand
  words : Nat
  signExt : Bool
  deriving DecidableEq, Repr, Inhabited

/-- One lane of a chain: the members' results in order, the OR of the flags, the first trapping member plus 1. -/
structure ChainLane where
  res : List Nat
  flags : Nat
  trapMember : Nat
  deriving DecidableEq, Repr, Inhabited

/-- A flume chain, open in a pipe or parked in a record slot (R144, R151, R338). -/
structure Chain where
  port : Nat
  members : List ChainMember
  lanes : LaneSet
  mode : Nat
  done : Nat
  total : Nat
  /-- cycle 0 of R147, for an open chain -/
  start : Nat
  results : FMap ChainLane
  /-- first executed word, FP_TRAP's return point (R150) -/
  pc : DWord
  /-- parked by a save inside handler mode: it resumes with the context, the others at the end of handler mode (R151, R340) -/
  atResume : Bool := false
  /-- resumed in its record slot, where its remaining steps are counted out (R151, R153) -/
  counting : Bool := false
  deriving DecidableEq, Repr, Inhabited

/-- What trapsupply needs of a faulted load or lane-ticket redeem (R336): destination, width, executing lanes, length
in words, the bytes fetched for the lanes that did not fail, and a redeem's status destination. -/
structure Supply where
  d : Operand
  width : Width
  group : LaneSet
  len : Nat
  got : FMap Nat
  st : Option Operand
  deriving DecidableEq, Repr, Inhabited

/-- Handler mode of a warp (R332 to R336): the handler's lanes, their return points, and the supply buffer. -/
structure Handler where
  lanes : LaneSet
  returns : FMap DWord
  supply : Option Supply
  used : Bool
  deriving DecidableEq, Repr, Inhabited

/-- The remote-error indicator (R98). -/
structure RemoteErr where
  cause : Nat
  addr : Nat
  landing : Nat
  deriving DecidableEq, Repr, Inhabited

/-- One operation of a deck task (R312, R313). -/
inductive DeckOp where
  | load (f : MLoad) (a b : DWord)
  | swap
  | mul (m : Nat) (zero : Bool) (t : MTy) (j : Nat) (a : Nat)
  | drain (f : MDrain) (j : Nat) (d : Operand) (a b : DWord) (recd : List Byte)
  deriving DecidableEq, Repr, Inhabited

/-- A destination an engine or the deck will write: the scoreboard's pending writes (R21, R293), with the operation's number. -/
structure Pending where
  reg : Operand
  words : Nat
  num : Nat
  deriving DecidableEq, Repr, Inhabited

/-- A fault a walk found, or the driver gave, for lanes that will issue again: page number, cause, lanes (R413, R418). -/
structure WalkFault where
  vpn : Nat
  cause : Nat
  lanes : LaneSet
  deriving DecidableEq, Repr, Inhabited

/-- A warp (R14, R18, R27, R132, R329). Its number in the table is its crew's token times 64 plus its slot. -/
structure Warp where
  live : Bool
  quota : Nat
  stage : Nat
  lanes : FMap Lane
  vregs : FMap Word
  sregs : FMap DWord
  masks : FMap LaneSet
  fpmode : DWord
  fpflags : DWord
  trapcause : DWord
  traplanes : DWord
  trapaddr : DWord
  trapinfo : DWord
  handler : Option Handler
  waits : List WaitRec
  chainA : Option Chain
  chainB : Option Chain
  /-- parked chains: the flume record slots of ports A and B (R151, R338) -/
  recA : Option Chain
  recB : Option Chain
  pending : List Pending
  taskBuf : List DeckOp
  remoteErr : Option RemoteErr
  /-- page faults a walk found for instructions that will issue again -/
  walkFaults : List WalkFault
  /-- response faults to be taken when handler mode ends or at resume (R290, R334) -/
  pendingFaults : List (Trap × Option Supply)
  /-- status registers whose next read takes a DECODE_FAULT (R316), by scalar register number -/
  deckFaults : FMap Trap
  /-- registers with an uncorrectable error (R423): 0 to 191 × 32 + lane for vectors, 100000 + n for scalars -/
  badRegs : List Nat
  /-- since when the fetch of a word, or a record read at issue, waits for its link, by word address (R183, R439) -/
  linkWaits : FMap Nat
  stopped : Bool
  deriving DecidableEq, Repr, Inhabited

/-- An open barrier instance (R31, R32): its count and the arrivals made so far; a count of 0 for none open. Withdrawn arrivals
leave the count (R327). -/
structure Barrier where
  count : Nat
  arrived : Nat
  deriving DecidableEq, Repr, Inhabited

/-- A stage as declared in the launch record (R43, R207). -/
structure StageDecl where
  entry : DWord
  qmin : Nat
  qmax : Nat
  wmin : Nat
  wmax : Nat
  item : Nat
  depth : Nat
  queue : Nat
  deriving DecidableEq, Repr, Inhabited

/-- A tile tag (R310, R311): its range of the own allocation, and full or empty. -/
structure TileTag where
  defined : Bool
  full : Bool
  lo : Nat
  hi : Nat
  deriving DecidableEq, Repr, Inhabited

/-- A crew placed on a core, or swapped out (R14 to R17, R31, R45, R60). Its number in the table is its token. -/
structure Crew where
  live : Bool
  resident : Bool
  launch : Nat
  index : Nat
  ctx : Nat
  core : Nat
  q0 : Nat
  /-- gang number, 0 for none, and rank within it -/
  gang : Nat
  rank : Nat
  base : Nat
  size : Nat
  /-- warp slots granted to the crew, W -/
  slots : Nat
  /-- the crew ends as cancelled, or as failed with the recorded failure -/
  cancelled : Bool
  failed : Bool
  /-- a swap-out has been asked for and not yet made (R340), and the cycle of the request -/
  saving : Bool
  savingAt : Nat
  barriers : FMap Barrier
  quotas : FMap Nat
  puts : FMap Nat
  takes : FMap Nat
  /-- per stage, at the start of the cycle: items queued, a warp blocked in qput on it, a warp of it blocked in qtake (R400) -/
  snap : FMap (Nat × Bool × Bool)
  tags : FMap TileTag
  /-- counters whose handle arminit wrote to a register, by offset (R305, R401) -/
  shared : List Nat
  /-- OR of the fpflags of its ended warps (R132) -/
  flags : Nat
  /-- order of its placement among all (R399) -/
  placedAt : Nat
  /-- scratchpad bytes of a swapped-out crew -/
  image : List Byte
  /-- flume records in a swapped-out crew's save area: two a warp in slot order, port A's first (R152, R380) -/
  records : List (List Byte)
  /-- landing and peer of the stall hint that swapped the crew out, until it may return, and the cycle of its return (R402) -/
  hint : Option (Nat × Nat)
  returnAt : Option Nat
  /-- the save under way was asked for by that hint alone (R375, R401) -/
  hinted : Bool
  /-- the launch, by number, for which the crew is being swapped out (R399) -/
  leaveFor : Option Nat
  deriving DecidableEq, Repr, Inhabited

/-- A gang (R16, R34, R35). -/
structure Gang where
  live : Bool
  launch : Nat
  crews : List Nat
  barriers : FMap Barrier
  deriving DecidableEq, Repr, Inhabited

/-- A thread in the sort yard (R38). -/
structure YardThread where
  tid : Nat
  regs : FMap Word
  oldLane : Nat
  oldWarp : Nat
  filed : Nat
  deriving DecidableEq, Repr, Inhabited

/-- What a bin is keyed by, and the carried registers' count (R38, R39). -/
structure BinKey where
  crew : Nat
  stage : Nat
  pc : DWord
  key : Word
  k : Nat
  deriving DecidableEq, Repr, Inhabited

/-- An open bin (R39, R40): its key, its threads in filing order, and the cycle its first thread was filed in. -/
structure Bin where
  key : BinKey
  threads : List YardThread
  since : Nat
  deriving DecidableEq, Repr, Inhabited

/-- A translation held in a core's TLB (R412): context, page number, page size in bits, and the leaf entry. -/
structure TlbEntry where
  ctx : Nat
  vpn : Nat
  bits : Nat
  pte : Nat
  deriving DecidableEq, Repr, Inhabited

/-- A pending TLB miss (R413): context and 8 KiB page, how it is accessed, and the lowest address that missed. -/
structure Miss where
  ctx : Nat
  vpn : Nat
  kind : Nat
  va : Nat
  deriving DecidableEq, Repr, Inhabited

/-- A table entry held in the walk cache (R412): context, level 0 to 2, the address bits that led to it, the entry. -/
structure WalkEntry where
  ctx : Nat
  level : Nat
  path : Nat
  pte : Nat
  deriving DecidableEq, Repr, Inhabited

/-- A migration slot (R420, R422). `state`: 0 free, 1 armed, 2 live, 3 complete, 4 aborted. `pulled` and `failed` list
256-byte lines. -/
structure MigSlot where
  state : Nat
  ctx : Nat
  old : Nat
  new : Nat
  size : Nat
  pulled : List Nat
  failed : FMap Nat
  touched : Nat
  background : Nat
  started : Bool
  deriving DecidableEq, Repr, Inhabited

end Sys2Proof.Machine
end

