-- ==== Sys2Proof/Machine/WorkTypes.lean ====
section
/-! DEFINITION. Launches, jobs and the scheduler's own records (R384 to R405), as plain data. -/

namespace Sys2Proof.Machine

open Sys2Proof

/-- A launch record as read and checked (R385, R386). -/
structure LaunchRec where
  counters : Bool
  crews : Nat
  entry : Nat
  regs : Nat
  warps : Nat
  gang : Nat
  stages : Nat
  scratch : Nat
  fpmode : Nat
  done : Nat
  result : Nat
  stage : List StageDecl
  deriving DecidableEq, Repr, Inhabited

/-- The recorded failure of a unit (R389). -/
structure Failure where
  cause : Nat
  crew : Nat
  warp : Nat
  trapcause : DWord
  traplanes : DWord
  trapaddr : DWord
  trapinfo : DWord
  extra : DWord
  /-- the cycle it fell in -/
  cycle : Nat
  deriving DecidableEq, Repr, Inhabited

/-- A slot of the launch table (R388, R394 to R398). -/
structure Launch where
  live : Bool
  spec : LaunchRec
  ctx : Nat
  /-- a number of its own, and that of the launch that spawned it (0: none) (R37) -/
  uid : Nat
  parent : Nat
  /-- serial number of its job, its phase, and its node (none for a spawned launch) -/
  job : Nat
  phase : Nat
  node : Option Nat
  /-- a spawned launch held until its binning operation patches it (R321) -/
  held : Bool
  level : Nat
  eff : Nat
  /-- cycle from which its waiting counts for aging (R394) -/
  levelSince : Nat
  next : Nat
  ptr : Nat
  completed : Nat
  cancelledCount : Nat
  flags : Nat
  failure : Option Failure
  cancelled : Bool
  /-- since when it has been the blocking launch of a pass, and its reserved cluster (R398) -/
  blockedSince : Option Nat
  reserved : Option Nat
  deriving DecidableEq, Repr, Inhabited

/-- Where a graph node stands (R391). -/
inductive NodeState where
  | waiting
  | ready
  | running (slot : Nat)
  | ended (outcome : Nat)
  deriving DecidableEq, Repr, Inhabited

/-- A graph node (R384): `bad` breaks a rule of R386; `spec` is its launch record as read when it became ready. -/
structure Node where
  bad : Bool
  launch : Nat
  deps : Nat
  result : Bool
  guard : Nat
  polarity : Nat
  st : NodeState
  spec : LaunchRec
  /-- the result word read when the node ended OK (R392) -/
  word : Nat
  /-- its place in the order in which nodes became ready (R388) -/
  readyAt : Nat
  /-- the cycle it became ready in, from which its wait for a slot counts (R388, R394) -/
  since : Nat
  deriving DecidableEq, Repr, Inhabited

/-- An entry of a phase table (R384). -/
structure PhaseEntry where
  nodes : Nat
  count : Nat
  done : Nat
  deriving DecidableEq, Repr, Inhabited

/-- A job (R384, R391, R393). -/
structure Job where
  live : Bool
  ctx : Nat
  level : Nat
  table : List PhaseEntry
  done : Nat
  reports : Nat
  /-- the running phase, its nodes, and the outcomes of its ended spawned launches -/
  phase : Nat
  nodes : List Node
  spawnOut : List Nat
  phaseCompleted : Nat
  phaseCancelled : Nat
  phaseFlags : Nat
  phaseFailure : Option Failure
  graphCancelled : Bool
  completed : Nat
  cancelledCount : Nat
  flags : Nat
  failure : Option Failure
  /-- phases and graphs marked for cancellation before they start (R393) -/
  markGraphs : List Nat
  markPhases : List Nat
  deriving DecidableEq, Repr, Inhabited

/-- An entry of the wait-for table as the walk sees it (R403, R404): warp (or engine) number, kind, object, and the
arrival state of the object. -/
structure DeadEntry where
  who : Nat
  kind : Nat
  object : Nat
  arrivals : List Nat
  deriving DecidableEq, Repr, Inhabited

end Sys2Proof.Machine
end

