-- ==== Sys2Proof/Machine/DeviceTypes.lean ====
section
/-! DEFINITION. Requests, tickets, engine queues, links, landings, channels and the management core's own records, as plain
data. -/

namespace Sys2Proof.Machine

open Sys2Proof

/-! ### Requests that leave the module (R72, R97, R439) -/

/-- What a fabric request is for: a load's lanes, an atomic's lanes, a store's lanes, a ticket read, or a pool
instruction. `ops` of the containing request give each lane's address and data. -/
inductive ReqKind where
  | load
  | atom (op : AtomOp) (ty : AtomTy) (ret : Bool)
  | store
  | ticket (key : Nat)
  | alloc (size : Nat) (attr : Nat) (hdr : Option Hdr)
  | free (va : Nat)
  | quota
  deriving DecidableEq, Repr, Inhabited

/-- An outstanding request (R66, R97, R439). -/
structure Req where
  kind : ReqKind
  warp : Nat
  ctx : Nat
  /-- address of the request, its bytes, and the bytes of one lane -/
  va : Nat
  pa : Nat
  size : Nat
  bytes : Nat
  /-- its page's home (R61) -/
  home : Nat
  ops : List LaneOp
  port : Nat
  tag : Option Nat
  deadline : Nat
  /-- its carried deadline ran out at the performer (R439) -/
  discarded : Bool
  deriving DecidableEq, Repr, Inhabited

/-! ### Tickets (R278, R279) -/

/-- A ticket table entry. `state`: 0 free, 1 pending, 2 ready; `spent`: the end reason of the reuse before `reuse`. -/
structure TicketEntry where
  reuse : Nat
  state : Nat
  spent : Bool
  ctx : Nat
  block : Bool
  deadline : Nat
  lanes : LaneSet
  width : Width
  /-- lane (0 for a block ticket), virtual address, physical address -/
  parts : List LaneOp
  bytes : Nat
  err : Option AccessFault
  data : FMap (List Byte)
  /-- the requests that left the module for it and are not yet answered -/
  reqs : List Nat
  deriving DecidableEq, Repr, Inhabited

/-! ### Engines (R293 to R323) -/

/-- What a queued engine operation does, with the values captured at issue. -/
inductive EngOp where
  | load (t : CpyTy) (crc arr : Bool) (recd : List Byte) (coord : DWord) (off size ctr expect : Nat)
  | store (add crc arr : Bool) (recd : List Byte) (coord : DWord) (off size ctr expect : Nat)
  | drain (add : Bool) (recd : List Byte) (coord : DWord) (rows : List (List Nat)) (task : Nat)
  | bulk (xs xd arr : Bool) (src dst len handle : DWord)
  | ctload (x : Bool) (slot : Nat) (addr : DWord)
  | ctsave (x : Bool) (slot : Nat) (addr : DWord)
  | kvput (t : FTy) (handle coord : DWord) (off first n : Nat)
  | bin (x : Bool) (keys : DWord) (n tab dests : Nat) (list : Bool)
  | fence (mask : Nat)
  deriving DecidableEq, Repr, Inhabited

/-- A queued operation: its number, issue cycle, issuing warp and context, status destination, the patch word of a held
command, the held fault it waits for (0: a link or a swing, until the next cycle), and pages the driver failed for it. -/
structure EngEntry where
  num : Nat
  since : Nat
  warp : Nat
  ctx : Nat
  st : Operand
  patch : Option Nat
  /-- the patched count of a held command that was released (R321) -/
  count : Option Nat
  hold : Option Nat
  /-- it has started, and stopped at a held fault or a link (R37, R419) -/
  begun : Bool
  failed : List Nat
  /-- pages whose miss was noted for it (R413), and since when it waits for a link (R439) -/
  walked : List Nat := []
  linkSince : Option Nat := none
  op : EngOp
  deriving DecidableEq, Repr, Inhabited

/-- A weight plane: class, codes or values by k + 192 n (8-bit) or k + 96 n, and scale codes by 6 n + g (R314). -/
structure Plane where
  ty : Option MTy
  w : List Nat
  sc : List Nat
  deriving DecidableEq, Repr, Inhabited

/-- An accumulator tile: `rows` of 64 .f32 patterns, and the used rows (R312). -/
structure Acc where
  rows : List (List Nat)
  used : Nat
  deriving DecidableEq, Repr, Inhabited

/-- A matrix engine's state during a task (R312, R314). -/
structure MatState where
  active : Plane
  shadow : Plane
  accs : FMap Acc
  deriving DecidableEq, Repr, Inhabited

/-- A task of the deck (R315 to R317), or a queue fence standing in it. `running`: it holds an engine; `copies`: its drain
through copy queue 0 is not yet done; `ended`: its status word when it has ended, with a decode fault to deliver. -/
structure DeckTask where
  num : Nat
  warp : Nat
  ctx : Nat
  st : Operand
  mask : Nat
  fence : Option Nat
  steps : List DeckOp
  at_ : Nat
  running : Bool
  /-- it has started, now or before a save (R317) -/
  begun : Bool
  copies : Bool
  mat : MatState
  hold : Option Nat
  failed : List Nat
  /-- pages whose miss was noted for it (R413), and since when it waits for a link (R439) -/
  walked : List Nat := []
  linkSince : Option Nat := none
  ended : Option (Nat × Option Trap)
  deriving DecidableEq, Repr, Inhabited

/-- The engines of one core. -/
structure Engines where
  copy : FMap (List EngEntry)
  bulk : List EngEntry
  deck : List DeckTask
  enc : List EngEntry
  bin : List EngEntry
  deriving DecidableEq, Repr, Inhabited

/-- A held spawn (R321): its launch slot, the spawning warp, the status destination and the patch word. -/
structure HeldSpawn where
  slot : Nat
  num : Nat
  since : Nat
  warp : Nat
  st : Operand
  patch : Nat
  deriving DecidableEq, Repr, Inhabited

/-! ### Translation service (R415 to R418) -/

/-- A fault held for the driver (R416, R417). -/
structure Held where
  ctx : Nat
  vpn : Nat
  kind : Nat
  engine : Bool
  va : Nat
  core : Nat
  since : Nat
  deriving DecidableEq, Repr, Inhabited

/-- What follows the completion of an invalidation (R415). -/
inductive After where
  | nothing
  | reply (hdr : Hdr) (op : Nat) (body : List Byte)
  | swing (hdr : Hdr) (slot : Nat)
  | pool (w : Nat) (d : Operand) (va : Nat) (st : Operand) (status : Nat)
  | pin (hdr : Hdr) (slice : Bool) (unit frames : Nat)
  | destroy (hdr : Hdr)
  deriving DecidableEq, Repr, Inhabited

/-- An invalidation under way: context, first address, length (0: all of it). -/
structure Inval where
  ctx : Nat
  /-- every context (R469) -/
  all : Bool
  va : Nat
  len : Nat
  after : After
  deriving DecidableEq, Repr, Inhabited

/-! ### Links and landings (R69 to R71, R436 to R444) -/

/-- A fabric port. `state` as in R438; `up`: it has been up since reset; `lost`: its landing counts as lost; `since`: the
cycle it left up; `retired`: tags and the cycle each may be used again; `drain`: the LINK command
not yet answered. -/
structure Port where
  state : Nat
  up : Bool
  attached : Bool
  /-- the module number that the landing gives when the link trains in a reset; none: the training fails (R438, R448, R449) -/
  gives : Option Nat
  lost : Bool
  since : Option Nat
  retired : FMap Nat
  drain : Option Hdr
  late : Nat
  evsel : FMap DWord
  evcount : FMap DWord
  deriving DecidableEq, Repr, Inhabited

/-- An allocation at a landing: tenant context, offset, size, page code, leaf attributes, and whether it was revoked. -/
structure PoolAlloc where
  ctx : Nat
  off : Nat
  size : Nat
  attr : Nat
  revoked : Bool
  /-- the cycle at which the landing revokes a grant that the module has not confirmed (R287) -/
  due : Option Nat
  deriving DecidableEq, Repr, Inhabited

/-- A grant recorded at a landing (R443). -/
structure PoolGrant where
  omod : Nat
  octx : Nat
  tmod : Nat
  tctx : Nat
  off : Nat
  len : Nat
  access : Nat
  attr : Nat
  deriving DecidableEq, Repr, Inhabited

/-- A landing as its tenants know it: extents, quotas and allocations of this module's contexts, grants (R70, R442). -/
structure Landing where
  extents : List (Nat × Nat)
  quota : FMap Nat
  allocs : List PoolAlloc
  grants : List PoolGrant
  /-- ranges released by force, offset and length (R71) -/
  gone : List (Nat × Nat)
  deriving DecidableEq, Repr, Inhabited

/-! ### Memory channels (R426, R427, R462, R463, R470) -/

/-- A channel: failed; remap entries by index in the base die and their mirror; entries of either with an error that cannot
be corrected; the next granule and entry to check. -/
structure Chan where
  failed : Bool
  /-- every granule is poisoned but those written whole since (R470) -/
  stale : Bool
  written : List Nat
  table : FMap DWord
  mirror : FMap DWord
  /-- the entries fused by the makers: what a cold reset leaves (R447) -/
  fused : FMap DWord
  badTable : List Nat
  badMirror : List Nat
  scrub : Nat
  check : Nat
  deriving DecidableEq, Repr, Inhabited

/-! ### The management core (R429 to R437, R450 to R455) -/

/-- A registered window (R431). -/
structure Window where
  rkey : Nat
  ctx : Nat
  va : Nat
  len : Nat
  access : Nat
  deriving DecidableEq, Repr, Inhabited

/-- A queue pair: the session bound to it (its rights) and the operator key it is bound to, and the challenge nonce with the cycle it
expires (R451, R452). -/
structure Qp where
  session : Option Nat
  operator : Nat
  nonce : Option (List Byte)
  expires : Nat
  deriving DecidableEq, Repr, Inhabited

/-- A message the module sends: a reply or an event on a queue pair (R433), an answer to an RDMA request or a NAK (R431), a
response to a request of another module (R439). `kind`: 0 message, 1 RDMA response, 2 NAK, 3 fabric response. -/
structure Message where
  kind : Nat
  qp : Nat
  opcode : Nat
  flags : Nat
  tag : DWord
  ctx : Nat
  status : Nat
  body : List Byte
  deriving DecidableEq, Repr, Inhabited

/-- What the module's sensors show: the compute dies and the I/O die, the coolant, the power (R465, R466). -/
structure Sensors where
  temps : List Int
  coolant : Int
  watts : Nat
  deriving DecidableEq, Repr, Inhabited

/-- What the management core keeps (R437, R450 to R457, R465 to R467). -/
structure Manager where
  qps : FMap Qp
  windows : FMap Window
  /-- events not yet delivered, oldest first, and events waiting for the store -/
  events : List Message
  waiting : List Message
  outbox : List Message
  /-- random draws made so far: the argument of the next draw -/
  draws : Nat
  owner : Option Nat
  config : Option (List Byte)
  sequence : Nat
  powercap : Nat
  pfc : Nat
  lastreset : Nat
  nextreset : Nat
  colds : Nat
  warms : Nat
  /-- issue: n of R457, 8 when running; the cycle of its last change, and since when both limits have held -/
  issue : Nat
  stepped : Nat
  coolSince : Option Nat
  temps : List Int
  coolant : Int
  watts : Nat
  /-- the cycle of the last sample (R465) -/
  sampled : Nat
  corrected : FMap Nat
  uncorrected : FMap Nat
  poisoned : Nat
  dropped : Nat
  frames : Nat
  lost : Nat
  /-- sequence number of the next error-log record -/
  logNext : Nat
  /-- flow control: priorities paused by the peer; congestion notifications seen -/
  paused : List Nat
  cnps : Nat
  /-- host steps begun and not yet done, with the engine operations they wait for (R113, R431, R436) -/
  pending : List (Instr × List Nat)
  deriving DecidableEq, Repr, Inhabited

/-- What the scheduler keeps beside launches and jobs (R388, R395, R401 to R405). -/
structure Sched where
  serial : Nat
  /-- per level, the launch slot that placed last -/
  rr : FMap Nat
  /-- stall hints standing: landing and peer, and the cycle each came -/
  hints : List (Nat × Nat × Nat)
  dead : List DeadEntry
  report : Nat
  deadlog : List (Nat × List Byte)
  spawns : List HeldSpawn
  /-- the cycle of the last deadlock walk -/
  walkAt : Nat
  /-- the core after the one whose miss the walkers took last (R413) -/
  walkers : Nat
  /-- the next number in the order of becoming ready, of launching and of placing -/
  stamp : Nat
  deriving DecidableEq, Repr, Inhabited

end Sys2Proof.Machine
end

