-- ==== Sys2Proof/Machine/State.lean ====
section
/-! DEFINITION. The machine's state as plain data, the reasons a step can stop, and the state right after reset. -/

namespace Sys2Proof.Machine

open Sys2Proof

/-- Why the machine stops. -/
inductive Fault where
  /-- A step of a module without standby power other than POWER_ON (R446): nothing happens until power comes. Raised by
  `step`. Safe: the module does nothing at all in that state. -/
  | poweredOff
  deriving DecidableEq, Repr

/-- Why a step has no meaning in this model. -/
inductive Refusal where
  /-- The instruction has no meaning in the model yet. Raised by an arm of `exec` only. Safe: nothing is claimed. -/
  | notModelled (mnemonic : String)
  deriving DecidableEq, Repr

/-- What may stand on the agenda: a hardware or host step that happens next, or something the
outside does. The outside may send a message to a queue pair (R433), evict a sector of a core's L1, a TLB entry or a walk-cache entry
(R64, R412), strike a register (numbered as in `Warp.badRegs`), a scratchpad word, a 32-byte granule, its copy in a slice, a
ticket's staged bytes or a remap entry with an error (R423, R424, R427) or one that is corrected, strike one symbol of a granule (R424),
write a granule's bytes from its slice to the array (R448), fail a channel's training (R449), change what the sensors show (R465),
write memory behind a landing or on another module, set the error flag of a counter whose transfer failed on another module (R117),
let a port's requests, or those to the module's own slices, go unanswered or answer them again (R271, R439), attach a landing or another module to the system, or record or end
another module's grant at a landing (R443). An RDMA request that had to wait is `kept` (R118). -/
inductive Input where
  | event (i : Instr)
  | evictL1 (core sector : Nat)
  | kept (i : Instr)
  | evictTlb (core idx : Nat)
  | regError (w reg : Nat)
  | wordError (word : Nat)
  | memError (granule : Nat)
  | copyError (granule : Nat)
  | weakError (granule : Nat)
  | writeBack (granule : Nat)
  | sense (x : Sensors)
  | stagingError (table entry lane : Nat)
  | evictWalk (idx : Nat)
  | counterError (handle : DWord) (count cause : Nat)
  | corrected (row place : Nat)
  | chanFail (channel : Nat)
  | message (qp : Nat) (bytes : List Byte) (passed : Bool)
  | remapError (channel entry : Nat) (mirror : Bool)
  | outside (pa : Nat) (bytes : List Byte)
  | silence (port : Nat) (on : Bool)
  | attach (port : Nat) (on : Bool) (gives : Option Nat)
  | peer (module_ : Nat) (on : Bool)
  | grant (landing : Nat) (g : PoolGrant)
  | ungrant (landing : Nat) (g : PoolGrant)
  deriving DecidableEq, Repr, Inhabited

/-- The issue being performed (R20, R23): warp, executing lanes, word address of the group, port, packet slot. -/
structure Issue where
  warp : Nat
  lanes : LaneSet
  pc : DWord
  port : Nat
  /-- the further members of a chain (R195) -/
  tail : List Instr
  /-- which word of the group fails, counted from its first (R199) -/
  bad : Nat
  /-- the other port's group of the warp issues in this cycle too: a trap of this one is taken when both are made (R23, R200) -/
  pairs : Bool := false
  deriving DecidableEq, Repr, Inhabited

/-- A record of the error log (R425). -/
structure ErrRec where
  kind : Nat
  storage : Nat
  ctx : Nat
  place : Nat
  pa : Nat
  cycle : Nat
  va : Nat
  deriving DecidableEq, Repr, Inhabited

/-- One core (R38, R64, R329, R412, R413). -/
structure Core where
  offline : Bool
  evsel : FMap DWord
  evcount : FMap DWord
  evctx : FMap Nat
  tlb : List TlbEntry
  misses : List Miss
  l1 : FMap (List Byte)
  bins : FMap Bin
  yardWait : List (BinKey × YardThread)
  /-- per quadrant, the warp selected last (R22) -/
  last : FMap Nat
  /-- pinned frames, and the commands an offlining core answers (R60, R468) -/
  pins : Nat
  leaving : List Hdr
  deriving DecidableEq, Repr, Inhabited

/-- A context (R329, R340, R407, R411). -/
structure Context where
  live : Bool
  root : Nat
  stack : Nat
  save : Nat
  savesize : Nat
  trapbase : DWord
  ticketlife : DWord
  fabrictimeout : DWord
  reformage : DWord
  /-- code tables c0 to c7: 256 lengths each; a slot not listed is invalid and holds zeros (R161, R163) -/
  tables : FMap (List Nat)
  /-- the management queue pair bound at creation (R437), and a destruction under way (R436) -/
  qp : Nat
  dying : Bool
  deriving DecidableEq, Repr, Inhabited

/-- The whole machine. -/
structure State where
  /-- 0: no standby power; 1: running -/
  power : Nat
  agenda : List Input
  /-- messages and requests that wait behind another of their queue pair (R118, R433), with its number -/
  inbox : List (Nat × Input)
  /-- commands of this cycle that come after everything else in it (R461, R473) -/
  lastly : List Input
  cycle : Nat
  /-- the warps selected in this cycle, whose groups are not chosen yet (R22) -/
  turns : List Nat
  /-- the cycle's issues still to come, in their order, each with its rank (R23, R53, R121, R406) -/
  issues : List (Nat × Issue)
  /-- cancels that the host asks for in this cycle: they come after the crews that end and the launches that start in it (R406) -/
  cancels : List Input
  /-- traps of a warp's issue that wait for the other port's issue of the cycle (R23, R200, R343) -/
  raised : List (Nat × Trap × Option Supply)
  cur : Issue
  mem : Memory
  /-- 32-byte granules with an uncorrectable error (R424), `true` once it was found; and 8-byte scratchpad words with one (R423) -/
  poison : FMap Bool
  badWords : FMap Bool
  /-- granules with an error of one symbol, which a scrub corrects (R424, R463) -/
  weak : FMap Bool
  /-- granules of local HBM whose last writes are still in their slice, with the bytes that the array holds (R448) -/
  dirty : FMap (List Byte)
  warps : FMap Warp
  crews : FMap Crew
  gangs : FMap Gang
  cores : FMap Core
  ctxs : FMap Context
  launches : FMap Launch
  jobs : FMap Job
  errlog : List ErrRec
  walkCache : List WalkEntry
  slicePins : FMap Nat
  migs : FMap MigSlot
  /-- number of the session key in force: a new one at every reset (R447, R448) -/
  key : Nat
  /-- ticket entries by table × 4096 + entry (R279) -/
  tickets : FMap TicketEntry
  reqs : FMap Req
  nextReq : Nat
  /-- requests that timed out, with the port whose retired tag a late response would bear (R439) -/
  late : FMap Nat
  engines : FMap Engines
  /-- engine operations and sort-yard threads of swapped-out crews, by token (R340) -/
  savedOps : FMap Engines
  savedYard : FMap (List Bin × List (BinKey × YardThread))
  /-- number of the next engine operation -/
  nextOp : Nat
  held : FMap Held
  nextHeld : Nat
  invals : FMap Inval
  nextInval : Nat
  ports : FMap Port
  landings : FMap Landing
  /-- ports whose requests go unanswered; 16 for the module's own slices, which then answer late -/
  silent : FMap Bool
  /-- the module numbers that other modules of the system hold (R55) -/
  peers : FMap Bool
  /-- this module's number (R55, R438) -/
  module_ : Nat
  chans : FMap Chan
  /-- event counters of slices (R460): select words and counts by slice × 8 + counter -/
  sliceSel : FMap DWord
  sliceCount : FMap DWord
  sensors : Sensors
  mgr : Manager
  sched : Sched
  deriving DecidableEq, Repr, Inhabited

/-- The management core after a cold reset (R447, R455): powercap 1800 W, PFC priorities 3 and 4. (DESIGN CHOICE: notes/assumptions/109.) (DESIGN CHOICE: notes/assumptions/111.) (DESIGN CHOICE: notes/assumptions/112.) -/
def Manager.reset : Manager :=
  { qps := [], windows := [], events := [], waiting := [], outbox := [], draws := 1, owner := none, config := none,
    sequence := 0, powercap := 1800, pfc := 3 + 4 * 8, lastreset := 0, nextreset := 0, colds := 1, warms := 0, issue := 8,
    stepped := 0, coolSince := none, temps := [0, 0, 0, 0, 0], coolant := 0, watts := 0, sampled := 0, corrected := [], uncorrected := [],
    poisoned := 0, dropped := 0, frames := 0, lost := 0, logNext := 1, paused := [], cnps := 0, pending := [] }

/-- The scheduler after reset (R388, R405). -/
def Sched.reset : Sched :=
  { serial := 0, rr := [], hints := [], dead := [], report := 1, deadlog := [], spawns := [], walkAt := 0, walkers := 0, stamp := 1 }

/-- The module right after a cold reset (R447 to R449): running, cyclecount 0, every core online and empty, no context, no
landing attached, memory all zero. (DESIGN CHOICE: notes/assumptions/29.) (DESIGN CHOICE: notes/assumptions/110.) (DESIGN CHOICE: notes/assumptions/111.) (DESIGN CHOICE: notes/assumptions/124.) -/
def State.reset : State :=
  { power := 1, agenda := [], inbox := [], lastly := [], cycle := 0, turns := [], issues := [], cancels := [], raised := [], cur := ⟨0, 0, 0, 0, [], 0, false⟩, mem := [], poison := [],
    badWords := [], weak := [], dirty := [], warps := [], crews := [], gangs := [], cores := [], ctxs := [], launches := [], jobs := [], errlog := [],
    walkCache := [], slicePins := [], migs := [], key := 0, tickets := [], reqs := [], nextReq := 1, late := [], engines := [], savedOps := [], savedYard := [],
    nextOp := 1, held := [], nextHeld := 1, invals := [], nextInval := 1, ports := [], landings := [], silent := [], peers := [],
    module_ := 0, chans := [], sliceSel := [], sliceCount := [], sensors := ⟨[0, 0, 0, 0, 0], 0, 0⟩, mgr := Manager.reset, sched := Sched.reset }

end Sys2Proof.Machine
end

