-- ==== Sys2Proof/WellFormed.lean ====
section
/-! DEFINITION. Which instructions have an encoding: operand classes by position (R184 to R193, R210, R241, R264,
R265 and each instruction's own description), sub-field ranges, literals and chain bits (R195). The table of
operand positions also tells which registers an instruction reads and writes. -/

namespace Sys2Proof

/-- Width of an integer type in bits (R122). -/
def IntTy.bits : IntTy → Nat
  | .i8 | .n8 => 8
  | .i16 | .n16 => 16
  | .i32 | .n32 => 32
  | .i64 | .n64 => 64

/-- True for the .i types (R122). -/
def IntTy.signed : IntTy → Bool
  | .i8 | .i16 | .i32 | .i64 => true
  | _ => false

/-- Whether a value of the type takes a 64-bit position (R123, R191). -/
def IntTy.wide (t : IntTy) : Bool := t.bits == 64

/-- Whether a value of the type takes a 64-bit position (R191). -/
def Ty.wide : Ty → Bool
  | .int t => t.wide
  | _ => false

/-- What an operand position accepts, and whether it is read or written. -/
inductive Pos where
  /-- destination: vector, scalar or z (R210) -/
  | dst
  /-- 64-bit destination (R191) -/
  | dst64
  /-- 128-bit destination: a vector register numbered a multiple of 4, or z (R191) -/
  | dst128
  /-- destination that is also read: the accumulating forms (R184) -/
  | acc
  /-- 64-bit destination that is also read -/
  | acc64
  /-- fquant's destination: vector or z (R255) -/
  | dstV
  /-- an engine's status destination: scalar or z (R293) -/
  | dstSt
  /-- mtask's status destination: scalar (R313) -/
  | dstSc
  /-- cpy's status destination read at issue with .crc or .held (R299) -/
  | stRead
  /-- 32-bit source: every class but a 64-bit literal (R210) -/
  | src
  /-- 64-bit source without a 64-bit literal (R191) -/
  | src64
  /-- 64-bit source that a 64-bit literal may fill -/
  | src64L
  /-- 128-bit source (R191) -/
  | src128
  /-- csrw's source (R330) -/
  | srcCsr
  /-- trapsupply's source: any class, judged when it runs (R336) -/
  | srcAny
  /-- global address (R264) -/
  | adG
  /-- scratchpad address (R264) -/
  | adX
  /-- bulk's four scalar registers (R307) -/
  | quad
  /-- mdrain.v's 64 destination registers (R313) -/
  | dst64v
  deriving DecidableEq, Repr

/-- The operand's class and register number suit the position; `hs` bounds scalar numbers (48 in one-word
forms, 64 where s48 to s63 can be named, R192). -/
def Pos.accepts (hs : Nat) : Pos → Operand → Bool
  | .dst, .v n | .acc, .v n | .dstV, .v n => n < 192
  | .dst, .s n | .acc, .s n | .dst64, .s n | .acc64, .s n | .dstSt, .s n | .dstSc, .s n | .stRead, .s n => n < hs
  | .dst, .z | .acc, .z | .dst64, .z | .acc64, .z | .dst128, .z | .dstV, .z | .dstSt, .z | .stRead, .z => true
  | .dst64, .v n | .acc64, .v n => n < 192 && n % 2 == 0
  | .dst128, .v n => n < 192 && n % 4 == 0
  | .src, .v n | .srcAny, .v n | .srcCsr, .v n | .adX, .v n => n < 192
  | .src, .s n | .src64, .s n | .src64L, .s n | .srcAny, .s n | .srcCsr, .s n | .adG, .s n | .adX, .s n => n < hs
  | .src, .k n | .src64, .k n | .src64L, .k n | .src128, .k n | .srcAny, .k n | .srcCsr, .k n => n < 8
  | .src, .lane | .src, .warp | .src, .crew | .src, .tid => true
  | .src64, .lane | .src64, .warp | .src64, .crew | .src64, .tid => true
  | .src64L, .lane | .src64L, .warp | .src64L, .crew | .src64L, .tid => true
  | .srcAny, .lane | .srcAny, .warp | .srcAny, .crew | .srcAny, .tid => true
  | .src, .z | .src64, .z | .src64L, .z | .src128, .z | .srcCsr, .z | .srcAny, .z => true
  | .src, .lit32 _ | .src64, .lit32 _ | .src64L, .lit32 _ | .srcCsr, .lit32 _ | .srcAny, .lit32 _ => true
  | .src64L, .lit64 _ | .srcCsr, .lit64 _ | .srcAny, .lit64 _ => true
  | .src64, .v n | .src64L, .v n | .adG, .v n => n < 192 && n % 2 == 0
  | .src128, .v n => n < 192 && n % 4 == 0
  | .quad, .s n => n < 64 && n % 4 == 0
  | .dst64v, .v n => n < 192
  | _, _ => false

/-- How many consecutive registers an operand in the position occupies when it names a vector register. -/
def Pos.vregs : Pos → Nat
  | .dst64 | .acc64 | .src64 | .src64L | .adG => 2
  | .dst128 | .src128 => 4
  | .dst64v => 64
  | _ => 1

/-- The position is read. -/
def Pos.reads : Pos → Bool
  | .dst | .dst64 | .dst128 | .dstV | .dstSt | .dstSc | .dst64v => false
  | _ => true

/-- The position is written. -/
def Pos.writes : Pos → Bool
  | .dst | .dst64 | .dst128 | .dstV | .dstSt | .dstSc | .dst64v | .acc | .acc64 | .stRead => true
  | _ => false

/-- Destination position of a type. -/
def dstOf (wide : Bool) : Pos := if wide then .dst64 else .dst
/-- Source position of a type. -/
def srcOf (wide : Bool) : Pos := if wide then .src64 else .src
/-- The data position of a load of the width (R265). -/
def Width.dst : Width → Pos
  | .w64 => .dst64
  | .w128 => .dst128
  | _ => .dst
/-- The data position of a store of the width in FM form (R265). -/
def Width.src : Width → Pos
  | .w64 => .src64L
  | .w128 => .src128
  | _ => .src
/-- The data position of a store of the width in FX form, where a 64-bit literal does not fit (R193). -/
def Width.srcFX : Width → Pos
  | .w64 => .src64
  | .w128 => .src128
  | _ => .src
/-- Bytes of one lane access (R265). -/
def Width.bytes : Width → Nat
  | .n8 | .i8 => 1
  | .n16 | .i16 => 2
  | .w32 => 4
  | .w64 => 8
  | .w128 => 16
/-- Bytes of an atomic's lane access (R273). -/
def AtomTy.bytes : AtomTy → Nat
  | .int t => t.bits / 8
  | .flt .f32 => 4
  | .flt _ => 2
  | .w128 => 16
/-- Source and destination positions of an atomic's operands (R273). -/
def AtomTy.srcPos (t : AtomTy) : Pos := if t.bytes = 16 then .src128 else srcOf (t.bytes == 8)
/-- Destination position of an atomic (R273). -/
def AtomTy.dstPos (t : AtomTy) : Pos := if t.bytes = 16 then .dst128 else dstOf (t.bytes == 8)
/-- Address position of a space: scratchpad or global (R264). -/
def adOf (x : Bool) : Pos := if x then .adX else .adG

/-- The positions of an F3 instruction with plain 32-bit operands. -/
def f3Pos (d a b : Operand) : List (Pos × Operand) := [(.dst, d), (.src, a), (.src, b)]
/-- The positions of a one-source instruction. -/
def f2Pos (d a : Operand) : List (Pos × Operand) := [(.dst, d), (.src, a)]

/-- The operand of a typed integer operation that the b field names, if that field is no raw byte (R218). (DESIGN CHOICE: notes/assumptions/128.) -/
def IntOp.bPos (op : IntOp) (t : IntTy) (b : Operand) : List (Pos × Operand) :=
  match op with
  | .shl | .shr | .sar | .rot => [(.src, b)]
  | .not | .shlImm _ | .shrImm _ | .sarImm _ | .rotImm _ | .clz | .ctz | .popc | .addImm _ => []
  | _ => [(srcOf t.wide, b)]

/-- The operand positions of each instruction; empty for a step without an encoding. -/
def Instr.positions : Instr → List (Pos × Operand)
  | .add d a b | .sub d a b | .mul d a b | .mulh d a b | .div d a b | .rem d a b | .min d a b | .max d a b
  | .and d a b | .or d a b | .xor d a b | .shl d a b | .shr d a b | .sar d a b | .rot d a b | .bfx d a b => f3Pos d a b
  | .mad d a b | .bfi d a b => [(.acc, d), (.src, a), (.src, b)]
  | .not d a | .shlImm d a _ | .shrImm d a _ | .sarImm d a _ | .rotImm d a _ | .clz d a | .ctz d a | .popc d a
  | .addImm d a _ => f2Pos d a
  | .movi d _ => [(.dst, d)]
  | .sel t d c a b =>
    let w := (t.map Ty.wide).getD false
    [(dstOf w, d), (srcOf w, a), (srcOf w, b), (.src, c)]
  | .cmp _ t d a b => [(.dst, d), (srcOf t.wide, a), (srcOf t.wide, b)]
  | .lea t _ d a b c => [(.dst64, d), (.src64, a), (srcOf t.wide, b), (.src, c)]
  | .intTyped op t _ d a b c =>
    [(dstOf t.wide, d), (srcOf t.wide, a)] ++ op.bPos t b ++
      (if op = .mad ∨ op = .bfi then [(srcOf t.wide, c)] else [])
  | .faddF32 _ d a b | .faddF16 _ d a b | .faddBf16 _ d a b | .fsubF32 _ d a b | .fsubF16 _ d a b | .fsubBf16 _ d a b
  | .fmulF32 _ d a b | .fmulF16 _ d a b | .fmulBf16 _ d a b
  | .fmaxF32 _ d a b | .fmaxF16 _ d a b | .fmaxBf16 _ d a b | .fminF32 _ d a b | .fminF16 _ d a b | .fminBf16 _ d a b
  | .fgateF32 _ d a b | .fgateF16 _ d a b | .fgateBf16 _ d a b
  | .fclampF32 _ d a b | .fclampF16 _ d a b | .fclampBf16 _ d a b | .fdivF32 _ d a b | .fscaleF32 _ d a b => f3Pos d a b
  | .ffmaF32 _ d a b | .ffmaF16 _ d a b | .ffmaBf16 _ d a b => [(.acc, d), (.src, a), (.src, b)]
  | .fsqrt _ _ d a | .frsq _ _ d a | .frcp _ _ d a | .fexp2 _ _ d a | .flog2 _ _ d a | .fround _ _ d a => f2Pos d a
  | .fcvt _ dt st d a => [(dstOf dt.wide, d), (if st.wide then .src64L else .src, a)]
  | .fcmp _ _ d a b => f3Pos d a b
  | .fquant _ _ d a => [(.dstV, d), (.src, a)]
  | .fdequant _ _ _ d a => f2Pos d a
  | .floatTyped f _ d a b c =>
    match f with
    | .cvt dt st => [(dstOf dt.wide, d), (srcOf st.wide, a)]
    | .op .ffma _ => [(.dst, d), (.src, a), (.src, b), (.src, c)]
    | .op o _ =>
      match o with
      | .fsqrt | .frsq | .frcp | .fexp2 | .flog2 | .fround => f2Pos d a
      | _ => f3Pos d a b
  | .vshfl d a b => f3Pos d a b
  | .vbcast d a _ | .vvote _ d a => f2Pos d a
  | .vshflMasked d a b m => [(.dst, d), (.src, a), (.src, b), (.src, m)]
  | .vbcastMasked d a _ m | .vvoteMasked _ d a m => [(.dst, d), (.src, a), (.src, m)]
  | .vred _ t _ _ d a m | .vscan _ t _ _ _ d a m =>
    let w := match t with | .int t => t.wide | .flt _ => false
    [(dstOf w, d), (srcOf w, a), (.src, m)]
  | .mwaitt d a _ => f2Pos d a
  | .brc c _ | .brcZ c _ => [(.src, c)]
  | .call c _ => [(.dst64, c)]
  | .ret a => [(.src64L, a)]
  | .reform a _ => [(.src, a)]
  | .stagenext d => [(.dstSt, d)]
  | .qput d a b => f3Pos d a b
  | .qtake d b => f2Pos d b
  | .bar a _ | .barArrive a _ | .barGang a _ | .barGangArrive a _ | .sleep a => [(.src, a)]
  | .ldG w _ _ d a => [(w.dst, d), (.adG, a)]
  | .ldX w _ _ d a => [(w.dst, d), (.adX, a)]
  | .stG w _ _ d a => [(w.src, d), (.adG, a)]
  | .stX w _ _ d a => [(w.src, d), (.adX, a)]
  | .prf _ a => [(.adG, a)]
  | .ldOffset x w _ _ d a b => [(w.dst, d), (adOf x, a), (.src, b)]
  | .stOffset x w _ _ d a b => [(w.srcFX, d), (adOf x, a), (.src, b)]
  | .atomG op t _ _ d a b c =>
    [(t.dstPos, d), (.adG, a), (t.srcPos, b)] ++ (if op = .cas then [(t.srcPos, c)] else [])
  | .atomX op t _ _ d a b c =>
    [(t.dstPos, d), (.adX, a), (t.srcPos, b)] ++ (if op = .cas then [(t.srcPos, c)] else [])
  | .ldt _ _ d a => [(.dst64, d), (.adG, a)]
  | .ldtBlock _ d a b => [(.dst64, d), (.adG, a), (.src, b)]
  | .redeem _ d a c => [(.dst, d), (.src64, a), (.dst, c)]
  | .redeemX _ a b c => [(.src64, a), (.src, b), (.dst, c)]
  | .tkdrop d a | .tkstat d a | .lfree d a => [(.dst, d), (.src64L, a)]
  | .lquota d a => [(.dst64, d), (.src, a)]
  | .lalloc d a b c => [(.dst64, d), (.src64, a), (.src, b), (.dst, c)]
  | .cpyLd _ _ m _ d a b c | .cpySt _ _ m _ d a b c =>
    [(if m = .plain then .dstSt else .stRead, d), (.src64, a), (.src64, b), (.src64, c)]
  | .bulk _ _ _ _ d a => [(.dstSt, d), (.quad, a)]
  | .arminit d a b => [(.dst64, d), (.src, a), (.src, b)]
  | .arrive a b => [(.src, a), (.src, b)]
  | .await d a => f2Pos d a
  | .tagset d a b => f3Pos d a b
  | .mload f a b =>
    match f with
    | .packed _ => [(.src64, a), (.src64, b)]
    | _ => [(.src, a)]
  | .mmul _ _ _ _ a => [(.src, a)]
  | .mdrain f _ d a b =>
    match f with
    | .xf32 | .xbf16 => [(.src, a)]
    | .vreg => [(.dst64v, d), (.src, a)]
    | .glob | .globAdd => [(.src64, a), (.src64, b)]
  | .mtask d a => [(.dstSc, d), (.src64, a)]
  | .ctload x _ d a | .ctsave x _ d a => [(.dstSt, d), (adOf x, a)]
  | .kvput _ d a b c => [(.dstSt, d), (.src64, a), (.src64, b), (.src, c)]
  | .bin x d a b c => [(.dstSt, d), (adOf x, a), (.src, b), (.src, c)]
  | .spawn held d a b => [(.dstSt, d), (.src64, a)] ++ (if held then [(.src64, b)] else [])
  | .cancel d a => [(.dstSt, d), (.src64, a)]
  | .trapsupply a => [(.srcAny, a)]
  | .csrr d _ => [(.dst, d)]
  | .csrw a _ => [(.srcCsr, a)]
  | .flsave a _ | .flrestore a _ => [(.src, a)]
  | _ => []

/-- The operand is a literal. -/
def Operand.isLit : Operand → Bool
  | .lit32 _ | .lit64 _ => true
  | _ => false

/-- How many literal words the operand asks for (R193). -/
def Operand.litLen : Operand → Nat
  | .lit32 _ => 1
  | .lit64 _ => 2
  | _ => 0

/-- The instruction has an extension word (format FX, R185, R197). -/
def Instr.isFX : Instr → Bool
  | .sel .. | .cmp .. | .lea .. | .intTyped .. | .fcmp .. | .fquant .. | .fdequant .. | .floatTyped ..
  | .vshflMasked .. | .vbcastMasked .. | .vvoteMasked .. | .vred .. | .vscan .. | .qput .. | .qtake ..
  | .ldOffset .. | .stOffset .. | .atomG .. | .atomX .. | .ldt .. | .ldtBlock .. | .redeem .. | .redeemX ..
  | .lalloc .. | .cpyLd .. | .cpySt .. | .bulk .. | .arminit .. | .arrive .. | .await ..
  | .mload .. | .mswap | .mmul .. | .mdrain .. | .mtask .. | .ctload .. | .ctsave .. | .kvput ..
  | .bin .. | .spawn .. | .cancel .. => true
  | _ => false

/-- The instruction has the FM body, whose address field names s48 to s63 as well (R192). -/
def Instr.isFM : Instr → Bool
  | .ldG .. | .ldX .. | .stG .. | .stX .. | .prf .. => true
  | _ => false

/-- Words of the instruction: the instruction word, its extension word, its literal words (R182). -/
def Instr.len (i : Instr) : Nat :=
  1 + (if i.isFX then 1 else 0) + (i.positions.map fun p => p.2.litLen).sum

/-- The chain bit of a flume word (R195). -/
def Instr.chain : Instr → Bool
  | .faddF32 c .. | .faddF16 c .. | .faddBf16 c .. | .fsubF32 c .. | .fsubF16 c .. | .fsubBf16 c ..
  | .fmulF32 c .. | .fmulF16 c .. | .fmulBf16 c .. | .ffmaF32 c .. | .ffmaF16 c .. | .ffmaBf16 c ..
  | .fmaxF32 c .. | .fmaxF16 c .. | .fmaxBf16 c .. | .fminF32 c .. | .fminF16 c .. | .fminBf16 c ..
  | .fgateF32 c .. | .fgateF16 c .. | .fgateBf16 c .. | .fclampF32 c .. | .fclampF16 c .. | .fclampBf16 c ..
  | .fdivF32 c .. | .fsqrt c .. | .frsq c .. | .frcp c .. | .fexp2 c .. | .flog2 c .. | .fround c ..
  | .fcvt c .. | .fscaleF32 c .. => c
  | _ => false

/-- An 8-bit format the type codes name: K from 1 to 7 (R194). -/
def F8Ty.ok (t : F8Ty) : Bool := 1 ≤ t.k && t.k ≤ 7
/-- A type the type codes name. -/
def Ty.ok : Ty → Bool
  | .f8 t => t.ok
  | _ => true
/-- A matrix class the type codes name. -/
def MTy.ok : MTy → Bool
  | .f8 t => t.ok
  | _ => true

/-- Control register numbers (R196). -/
def csrNumbers : List Nat :=
  [0x01, 0x02, 0x10, 0x11, 0x12, 0x13, 0x14, 0x20, 0x21, 0x22, 0x23, 0x30,
   0x40, 0x41, 0x42, 0x43, 0x44, 0x45, 0x46, 0x47, 0x50, 0x51, 0x52, 0x53, 0x54, 0x55, 0x56, 0x57]
/-- The control registers csrw may name (R330). -/
def csrWritable : List Nat :=
  [0x01, 0x02, 0x10, 0x21, 0x22, 0x23,
   0x40, 0x41, 0x42, 0x43, 0x44, 0x45, 0x46, 0x47, 0x50, 0x51, 0x52, 0x53, 0x54, 0x55, 0x56, 0x57]

/-- The order modifiers a load and a store accept (R184). -/
def ldOrder (o : Order) : Bool := o = .none || o = .acq
/-- The order modifiers a store accepts (R184). -/
def stOrder (o : Order) : Bool := o = .none || o = .rel

/-- Whether the typed form accepts .sat for the operation (R218). -/
def IntOp.satOk : IntOp → Bool
  | .add | .sub | .mul | .mad | .div | .shl | .shlImm _ | .addImm _ => true
  | _ => false

/-- Ranges of the raw byte of a typed integer operation (R218). -/
def IntOp.immOk (t : IntTy) : IntOp → Bool
  | .shlImm n | .shrImm n | .sarImm n | .rotImm n => n < t.bits
  | .addImm n => n < 256
  | _ => true

/-- Operand fields the typed integer form does not use hold z (R184). -/
def IntOp.unusedOk (op : IntOp) (b c : Operand) : Bool :=
  ((op.bPos .i32 b).length == 1 || b == .z) && (op == .mad || op == .bfi || c == .z)

/-- The types an atomic operation accepts (R273). -/
def AtomOp.tyOk : AtomOp → AtomTy → Bool
  | .add, .int t | .min, .int t | .max, .int t => 32 ≤ t.bits
  | .add, .flt _ | .min, .flt _ | .max, .flt _ => true
  | .and, .int t | .or, .int t | .xor, .int t => 32 ≤ t.bits
  | .exch, .int t | .cas, .int t => 32 ≤ t.bits
  | .exch, .flt t | .cas, .flt t => t = .f32
  | .exch, .w128 | .cas, .w128 => true
  | _, _ => false

/-- The checks of an instruction beyond its operand classes: sub-field ranges and combinations. -/
def Instr.extra : Instr → Bool
  | .shlImm _ _ n | .shrImm _ _ n | .sarImm _ _ n | .rotImm _ _ n => n < 32
  | .addImm _ _ n => n < 256
  | .movi _ n => n < 65536
  | .sel t .. => (t.map fun | .f8 _ => false | _ => true).getD true
  | .lea t sh .. => (32 ≤ t.bits) && sh < 8
  | .intTyped op t sat _ _ b c => (!sat || op.satOk) && op.immOk t && op.unusedOk b c
  | .fcvt _ dt st _ _ => (match dt with | .f8 _ => false | _ => true) && (match st with | .f8 _ => false | _ => true)
  | .fquant dt .. => dt.ok
  | .fdequant _ st .. => st.ok
  | .floatTyped f m _ _ b c =>
    match f with
    | .cvt dt st => dt.ok && st.ok && b == .z && c == .z
    | .op o _ =>
      match o with
      | .fsqrt | .frsq | .frcp | .fexp2 | .flog2 | .fround => b == .z && c == .z
      | .ffma => true
      | .fmax | .fmin | .fgate | .fclamp => m == .mode && c == .z
      | _ => c == .z
  | .vbcast _ _ l | .vbcastMasked _ _ l _ => l < 32
  | .vred op t sat rm .. =>
    match t with
    | .int _ => rm == .mode && (!sat || op == .add)
    | .flt _ => !sat && (op == .add || op == .min || op == .max)
  | .vscan op t excl sat rm .. =>
    match t with
    | .int _ => rm == .mode && (!sat || op == .add)
    | .flt _ => !sat && !excl && (op == .add || op == .min || op == .max)
  | .mjoin k | .mleave k | .mwait k | .mwaitt _ _ k => k < 12
  | .bra o | .brc _ o | .brcZ _ o | .call _ o => o < 65536
  | .reform _ k => k ≤ 64
  | .bar _ id | .barArrive _ id => id < 16
  | .barGang _ id | .barGangArrive _ id => id < 8
  | .ldG _ o .. | .ldX _ o .. | .ldOffset _ _ o .. => ldOrder o
  | .stG _ o .. | .stX _ o .. | .stOffset _ _ o .. => stOrder o
  | .atomG op t _ _ _ _ _ c | .atomX op t _ _ _ _ _ c => op.tyOk t && (op == .cas || c == .z)
  | .ldt _ w .. => w != .w128
  | .cpyLd _ q .. => q < 4
  | .cpySt _ q .. => q < 4
  | .bulk _ xd arr _ .. => !xd || arr
  | .qfence q => 0 < q && q < 128
  | .mload f _ b =>
    match f with
    | .packed t => t.ok
    | .tile t => t.ok && b == .z
    | .image t => t.ok && b == .z
    | .acc j => j < 4 && b == .z
  | .mmul m _ t j _ => m < 4 && t.ok && j < 4
  | .mdrain f j d _ b =>
    j < 4 && (match f with
      | .xf32 | .xbf16 => d == .z && b == .z
      | .vreg => b == .z
      | .glob | .globAdd => d == .z)
  | .ctload _ k .. | .ctsave _ k .. => k < 8
  | .spawn held _ _ b => held || b == .z
  | .trap c => c < 256
  | .brk c => c < 128
  | .csrr _ r => csrNumbers.contains r
  | .csrw _ r => csrWritable.contains r
  | .flsave _ p | .flrestore _ p => p < 2
  | _ => true

/-- The instruction has an encoding at all: it is one of the table's program instructions. (DESIGN CHOICE: notes/assumptions/92.) -/
def Instr.isWord : Instr → Bool
  | .flumeWriteback .. | .mwaittDeadline .. | .reformageExpiry .. | .binBuildOnFreeSlot .. | .sleepExpiry ..
  | .ticketReady .. | .ticketDeadline .. | .memoryResponse .. | .remoteStoreAck .. | .remoteStoreTimeout ..
  | .fabricTimeout .. | .copyPerform .. | .bulkPerform .. | .bulkPieceArrival .. | .deckTaskStart ..
  | .deckTaskComplete .. | .encoderTableOp .. | .blockUpdate .. | .binPerform .. | .csrContextCommit ..
  | .placementPass | .contextSave .. | .levelAging .. | .drainReservation .. | .crewComplete .. | .deadlockWalk
  | .stallHint .. | .stallHintWithdraw .. | .hintReturnTimeout .. | .pageWalk .. | .heldFaultTimeout ..
  | .invalidationComplete .. | .backgroundPullSlot .. | .refreshSlot .. | .scrubSlot .. | .remapReload ..
  | .remoteRequest .. | .requestDeadlineExpiry .. | .linkUp .. | .linkDown .. | .landingLost ..
  | .landingFailureReport .. | .extentAdd .. | .extentRelease .. | .extentForcedRelease .. | .rdmaWrite ..
  | .rdmaRead .. | .unsupportedFrame .. | .eventDelivery .. | .ctxCreate .. | .ctxDestroy .. | .ctxQuota ..
  | .jobSubmit .. | .unitCancel .. | .winReg .. | .winDereg .. | .tlbInval .. | .faultResolve ..
  | .migrateArm .. | .migrateStart .. | .migrateAbort .. | .migrateRelease .. | .indexAudit ..
  | .poolAlloc .. | .poolGrant .. | .poolRevoke .. | .debugRead .. | .debugWrite .. | .debugResume ..
  | .linkDrain .. | .linkRetrain .. | .linkRestore .. | .idGet .. | .sessionChallenge .. | .nonceExpiry ..
  | .sessionOpen .. | .sessionClose .. | .quote .. | .ownerSet .. | .configApply .. | .resetWarm ..
  | .resetCold .. | .powerOn | .health .. | .counterSet .. | .counterRead .. | .coreOffline .. | .coreOnline ..
  | .coreReset .. | .pinSet .. | .channelRetrain .. | .repair .. | .logRead .. | .powerSample ..
  | .throttleStep | .throttleExit | .thermalShutdown | .illegalInstruction | .unknownOpcode ..
  | .sendOnNonManagementQp .. | .powerRemoved | .landingPoolResponse .. | .retiredTagReuse ..
  | .priorityFlowControlFrame .. | .congestionNotificationPacket .. => false
  | _ => true

/-- Operand classes and register numbers suit their positions (R187). Scalars s48 to s63 need FX, or FM's
address field (R192). -/
def Instr.operandsOk (i : Instr) : Bool :=
  i.positions.all fun (p, o) =>
    p.accepts (if i.isFX || (i.isFM && (p == .adG || p == .adX)) then 64 else 48) o

/-- At most one literal, all words inside one packet, and no literal behind a chain bit (R182, R193, R195). -/
def Instr.litsOk (i : Instr) : Bool :=
  (i.positions.filter fun p => p.2.isLit).length ≤ 1 && i.len ≤ 3 && (!i.chain || i.len == 1)

/-- An instruction that some word encodes. A step without an encoding is not well formed in this sense. -/
def Instr.wf (i : Instr) : Bool := i.isWord && i.operandsOk && i.litsOk && i.extra

end Sys2Proof
end

