-- ==== Sys2Proof/Machine/Ops.lean ====
section
/-! DEFINITION. The named operations over the state: registers and lanes, waits and their release, the end of a crew, taking a
trap (R326 to R334), and the frame every instruction shares (R199, R210 to R212). -/

namespace Sys2Proof.Machine

open Sys2Proof

/-! ### Reading and replacing parts -/

def State.warp (s : State) (w : Nat) : Warp := s.warps.get w
def State.crew (s : State) (t : Nat) : Crew := s.crews.get t
def State.gang (s : State) (g : Nat) : Gang := s.gangs.get g
def State.core (s : State) (c : Nat) : Core := s.cores.get c
def State.ctx (s : State) (c : Nat) : Context := s.ctxs.get c
def State.launch (s : State) (n : Nat) : Launch := s.launches.get n

def State.setWarp (s : State) (w : Nat) (x : Warp) : State := { s with warps := s.warps.set w x }
def State.setCrew (s : State) (t : Nat) (x : Crew) : State := { s with crews := s.crews.set t x }
def State.setGang (s : State) (g : Nat) (x : Gang) : State := { s with gangs := s.gangs.set g x }
def State.setCore (s : State) (c : Nat) (x : Core) : State := { s with cores := s.cores.set c x }
def State.setCtx (s : State) (c : Nat) (x : Context) : State := { s with ctxs := s.ctxs.set c x }
def State.setLaunch (s : State) (n : Nat) (x : Launch) : State := { s with launches := s.launches.set n x }

/-- The crew token of a warp number. -/
def crewTok (w : Nat) : Nat := w / 64
/-- The warp slot of a warp number (R15). -/
def slotOf (w : Nat) : Nat := w % 64
/-- The number of a crew's warp in a slot. -/
def warpNo (tok slot : Nat) : Nat := tok * 64 + slot

def State.crewOf (s : State) (w : Nat) : Crew := s.crew (crewTok w)
def State.coreOf (s : State) (w : Nat) : Nat := (s.crewOf w).core
def State.ctxOf (s : State) (w : Nat) : Nat := (s.crewOf w).ctx
/-- The launch a warp belongs to. -/
def State.launchOf (s : State) (w : Nat) : Launch := s.launch (s.crewOf w).launch
/-- The quadrant of the core a warp runs on (R17). -/
def State.quadrantOf (s : State) (w : Nat) : Nat := ((s.crewOf w).q0 + slotOf w) % 4

/-- The numbers of the live warps of a crew, in ascending slot order. -/
def State.warpsOf (s : State) (tok : Nat) : List Nat :=
  (List.range 64).map (warpNo tok) |>.filter fun w => (s.warp w).live

/-! ### Registers (R12, R54, R123) -/

/-- Number of a vector register's lane in the register table. -/
def vkey (n l : Nat) : Nat := n * 32 + l
/-- Number of a scalar register in the list of faulty registers (R423). -/
def badS (n : Nat) : Nat := 100000 + n

def Warp.v (w : Warp) (n l : Nat) : Word := w.vregs.get (vkey n l)
def Warp.s (w : Warp) (n : Nat) : DWord := w.sregs.get n

/-- Writing a register's lane clears an error it held (R423). -/
def Warp.setV (w : Warp) (n l : Nat) (x : Word) : Warp :=
  { w with vregs := w.vregs.set (vkey n l) x, badRegs := w.badRegs.filter (· != vkey n l) }
def Warp.setS (w : Warp) (n : Nat) (x : DWord) : Warp :=
  { w with sregs := w.sregs.set n x, badRegs := w.badRegs.filter (· != badS n) }

/-- Write a value of `nw` register words to vector register `n` of a lane, lowest word in the lowest register (R191). -/
def Warp.setVs (w : Warp) (n l : Nat) : Nat → Nat → Warp
  | 0, _ => w
  | k + 1, x => (w.setV n l (BitVec.ofNat 32 x)).setVs (n + 1) l k (x / 2 ^ 32)

/-- The result of a lane-wise instruction written to its destination (R186, R189, R190): every executing lane of a vector
register, the lowest executing lane's result for a scalar register, nothing for z. `f` gives each lane's result with
its extension to 64 bits already made (R123); a vector register of `nw` words keeps the low `32 * nw` bits. -/
def Warp.writeLanes (w : Warp) (lanes : LaneSet) (nw : Nat) (d : Operand) (f : Nat → Nat) : Warp :=
  match d with
  | .v n => (lanesOf lanes).foldl (fun w l => w.setVs n l nw (f l)) w
  | .s n => if lanes = 0 then w else w.setS n (BitVec.ofNat 64 (f (leader lanes)))
  | _ => w

/-! ### Lanes -/

def Warp.lane (w : Warp) (l : Nat) : Lane := w.lanes.get l
def Warp.setLane (w : Warp) (l : Nat) (x : Lane) : Warp := { w with lanes := w.lanes.set l x }

/-- Change the lanes of a set. -/
def Warp.mapLanes (w : Warp) (m : LaneSet) (f : Lane → Lane) : Warp :=
  { w with lanes := (lanesOf m).foldl (fun t l => t.set l (f (t.get l))) w.lanes }

/-- The live lanes of a warp (R19). -/
def Warp.liveLanes (w : Warp) : LaneSet := laneSet ((List.range 32).filter fun l => (w.lane l).live)

/-- A wait in which lanes are blocked (R49); in the others they hold for a walk, a response or a write-back. (DESIGN CHOICE: notes/assumptions/115.) -/
def Wait.blocking : Wait → Bool
  | .tlb _ | .held _ | .mem _ | .fence | .pool .. | .csr .. | .chain _ => false
  | _ => true

/-- The lanes blocked in a wait (R19, R49). -/
def Warp.blocked (w : Warp) : LaneSet := w.waits.foldl (fun m r => if r.wait.blocking then m ||| r.lanes else m) 0

/-- The unblocked lanes whose next group cannot commit yet: it waits for a walk, a response or a write-back (R150, R271, R413).
(DESIGN CHOICE: notes/assumptions/115.) -/
def Warp.holding (w : Warp) : LaneSet := w.waits.foldl (fun m r => if r.wait.blocking then m else m ||| r.lanes) 0

/-- The lanes that hold for the word at `pc`: they belong to its lane group, which issues with them (R19, R271).
(DESIGN CHOICE: notes/assumptions/115.) -/
def Warp.holdingFor (w : Warp) (pc : DWord) : LaneSet :=
  w.waits.foldl (fun m r => if !r.wait.blocking && r.pc + BitVec.ofNat 64 r.len == pc then m ||| r.lanes else m) 0

/-- The executing lanes move on by `n` words. -/
def Warp.advance (w : Warp) (m : LaneSet) (n : Nat) : Warp :=
  w.mapLanes m fun x => { x with pc := x.pc + BitVec.ofNat 64 n }

def State.curWarp (s : State) : Warp := s.warp s.cur.warp

/-- Replace the issuing warp. -/
def State.upCur (s : State) (f : Warp → Warp) : State := s.setWarp s.cur.warp (f s.curWarp)

/-- The issuing lanes move past an instruction of `n` words. -/
def State.advance (s : State) (n : Nat) : State := s.upCur fun w => w.advance s.cur.lanes n

/-- Write a lane-wise result of the issuing instruction. -/
def State.writeRes (s : State) (nw : Nat) (d : Operand) (f : Nat → Nat) : State :=
  s.upCur fun w => w.writeLanes s.cur.lanes nw d f

/-! ### Waits and their release (R49) -/

/-- The issuing lanes wait at the issuing instruction. -/
def State.block (s : State) (len : Nat) (x : Wait) : State :=
  s.upCur fun w => { w with waits := w.waits ++ [⟨s.cur.lanes, s.cur.pc, len, s.cur.port, x⟩] }

/-- Take lanes out of every wait; a record without lanes goes. -/
def Warp.unwait (w : Warp) (m : LaneSet) : Warp :=
  { w with waits := (w.waits.map fun r => { r with lanes := r.lanes &&& ~~~m }).filter fun r => r.lanes != 0 }

/-- Release lanes of one wait record: they move past the instruction and are eligible in the next cycle (R49). -/
def Warp.release (w : Warp) (cycle : Nat) (r : WaitRec) (m : LaneSet) : Warp :=
  (w.unwait m).mapLanes m fun x =>
    { x with pc := r.pc + BitVec.ofNat 64 r.len, readyAt := cycle + 1 }

/-- Let lanes that wait issue their instruction again in the next cycle. -/
def Warp.retry (w : Warp) (cycle : Nat) (m : LaneSet) : Warp :=
  (w.unwait m).mapLanes m fun x => { x with readyAt := cycle + 1 }

/-- The lanes waiting in records that meet a test. -/
def Warp.waiting (w : Warp) (p : Wait → Bool) : LaneSet :=
  w.waits.foldl (fun m r => if p r.wait then m ||| r.lanes else m) 0

/-! ### The end of warps and crews (R14, R37, R132, R333, R390) -/

/-- Numbers from here up name no warp: requests of a warp that ended, by its crew's token. -/
def noWarp : Nat := 2 ^ 40

/-- The outstanding requests of a warp that ends belong to its crew only. -/
def State.orphan (s : State) (w : Nat) : State :=
  { s with reqs := s.reqs.map fun p => if p.2.warp = w then (p.1, { p.2 with warp := noWarp + crewTok w }) else p }

/-- A warp ends: its lanes are gone, its flags go to its crew (R132), its waits and masks are void. A chain not yet written
back and pending writes are discarded (R230). -/
def State.endWarp (s : State) (w : Nat) : State :=
  let s := s.orphan w
  let x := s.warp w
  let c := s.crewOf w
  (s.setWarp w { x with
    live := false, lanes := [], masks := [], waits := [], handler := none, chainA := none, chainB := none,
    recA := none, recB := none, pending := [], taskBuf := [], remoteErr := none, walkFaults := [],
    pendingFaults := [], deckFaults := [], stopped := false }).setCrew (crewTok w)
    { c with flags := Nat.lor c.flags (x.fpflags.toNat % 32) }

/-- The crews that end together: the crew, or every crew of its gang (R333). -/
def State.gangOf (s : State) (tok : Nat) : List Nat :=
  let c := s.crew tok
  if c.gang = 0 then [tok] else (s.gang c.gang).crews

/-- Threads of the crew that the sort yard holds are gone with it. -/
def Core.dropYard (c : Core) (tok : Nat) : Core :=
  { c with
    bins := c.bins.filter fun p => p.2.key.crew != tok
    yardWait := c.yardWait.filter fun p => p.1.crew != tok }

/-- Engine operations of a crew that have not started, held commands among them, are discarded; those that have begun run to
completion (R37). (DEDUCED: notes/assumptions/67.) -/
def Engines.dropCrew (g : Engines) (tok : Nat) : Engines :=
  let keep := fun (l : List EngEntry) => l.filter fun e => crewTok e.warp != tok || e.begun
  { g with
    copy := g.copy.map fun (q, l) => (q, l.filter fun e => crewTok e.warp != tok || e.begun || (match e.op with
      | .drain .. => true
      | _ => false))
    bulk := keep g.bulk, enc := keep g.enc, bin := keep g.bin
    deck := g.deck.filter fun (t : DeckTask) => crewTok t.warp != tok || t.running }

/-- The held spawns of a crew are discarded: their launch slots are free (R37). -/
def State.dropSpawns (s : State) (tok : Nat) : State :=
  let mine := s.sched.spawns.filter fun h => crewTok h.warp == tok
  let s := { s with sched := { s.sched with spawns := s.sched.spawns.filter fun h => crewTok h.warp != tok } }
  mine.foldl (fun s h => s.setLaunch h.slot { s.launch h.slot with live := false }) s

/-- Every warp of a crew stops as if all its live lanes executed exit, and its engine operations that have not started are
discarded (R37). (DEDUCED: notes/assumptions/67.) -/
def State.stopCrew (s : State) (tok : Nat) : State :=
  let s := (s.warpsOf tok).foldl State.endWarp s
  let c := (s.crew tok).core
  let s := s.setCore c ((s.core c).dropYard tok)
  ({ s with
    engines := s.engines.map fun (p : Nat × Engines) => (p.1, p.2.dropCrew tok)
    savedOps := s.savedOps.del tok, savedYard := s.savedYard.del tok }).dropSpawns tok

/-- A failure comes before another: the earlier one, of one cycle that of the lower crew and warp (R389). -/
def Failure.before (f g : Failure) : Bool :=
  f.cycle < g.cycle || (f.cycle == g.cycle && f.crew * 64 + f.warp < g.crew * 64 + g.warp)

/-- The first failure of a unit is the one recorded, whichever of its units below ends first (R389). -/
def firstFailure (old : Option Failure) (new : Failure) : Option Failure :=
  match old with
  | some f => some (if new.before f then new else f)
  | none => some new

/-- A crew fails, with its gang: its launch records the failure, and its warps stop (R390). -/
def State.failCrew (s : State) (tok : Nat) (f : Failure) : State :=
  let n := (s.crew tok).launch
  let l := s.launch n
  let s := s.setLaunch n { l with failure := firstFailure l.failure f }
  (s.gangOf tok).foldl (fun s t => (s.setCrew t { s.crew t with failed := true }).stopCrew t) s

/-- The failure record of a warp: cause, place and the four trap registers (R389). (DESIGN CHOICE: notes/assumptions/54.) -/
def State.failureOf (s : State) (w cause extra : Nat) : Failure :=
  let x := s.warp w
  { cause := cause, crew := (s.crewOf w).index, warp := slotOf w, trapcause := x.trapcause, traplanes := x.traplanes,
    trapaddr := x.trapaddr, trapinfo := x.trapinfo, extra := BitVec.ofNat 64 extra, cycle := s.cycle }

/-! ### Events and the error log (R425, R437) -/

/-- The management queue pair on which a context's events flow (R437, R452). (DEDUCED: notes/assumptions/49.) -/
def State.ctxQp (s : State) (ctx : Nat) : Nat :=
  let q := (s.ctx ctx).qp
  if (s.ctx ctx).live ∧ (s.mgr.qps.get q).session.isSome then q else 1

/-- An event message (R433, R437); the header of one of no context names context 0. (DEDUCED: notes/assumptions/49.) -/
def eventMsg (qp opcode ctx : Nat) (body : List Byte) : Message :=
  { kind := 0, qp := qp, opcode := opcode, flags := 2, tag := 0, ctx := if ctx = 0xFFFF then 0 else ctx, status := 0, body := body }

/-- The store without its oldest ERROR_LOG event, if it holds one. (DEDUCED: notes/assumptions/48.) -/
def dropErrorLog : List Message → Option (List Message)
  | [] => none
  | m :: t => if m.opcode = 0xC2 then some t else (dropErrorLog t).map (m :: ·)

/-- An event put into the store of 1024 (R437): a full store drops its oldest ERROR_LOG; without one the event waits. (DEDUCED: notes/assumptions/48.) -/
def State.post (s : State) (m : Message) : State :=
  let g := s.mgr
  if g.events.length < 1024 ∧ g.waiting.isEmpty then { s with mgr := { g with events := g.events ++ [m] } }
  else
    match dropErrorLog g.events with
    | some rest => { s with mgr := { g with events := rest ++ [m], dropped := g.dropped + 1 } }
    | none =>
      if m.opcode = 0xC2 then { s with mgr := { g with dropped := g.dropped + 1 } }
      else { s with mgr := { g with waiting := g.waiting ++ [m] } }

/-- An error-log record's 32 bytes (R425). -/
def ErrRec.bytes (e : ErrRec) : List Byte :=
  natToBytes 1 e.kind ++ natToBytes 1 e.storage ++ natToBytes 2 e.ctx ++ natToBytes 2 e.place ++ natToBytes 2 0
    ++ natToBytes 8 e.pa ++ natToBytes 8 e.cycle ++ natToBytes 8 e.va

/-- An entry in the error log (R425): recorded in the ring of 4096, counted by storage row (R466), and reported. (DEDUCED: notes/assumptions/49.) -/
def State.logError (s : State) (kind storage ctx loc pa va : Nat) : State :=
  let e : ErrRec := ⟨kind, storage, ctx, loc, pa, s.cycle, va⟩
  let g := s.mgr
  let counted := kind = 1 ∨ kind = 2 ∨ kind = 4 ∨ kind = 5 ∨ kind = 7
  let g := { g with
    logNext := g.logNext + 1
    uncorrected := if counted then g.uncorrected.set storage (g.uncorrected.get storage + 1) else g.uncorrected }
  let log := s.errlog ++ [e]
  let s := { s with mgr := g, errlog := log.drop (log.length - 4096) }
  s.post (eventMsg (if ctx = 0xFFFF then 1 else s.ctxQp ctx) 0xC2 ctx e.bytes)

/-! ### Replies (R433) -/

/-- The reply to a command: its opcode, status and body. -/
def State.reply (s : State) (h : Hdr) (opcode status : Nat) (body : List Byte) : State :=
  { s with mgr := { s.mgr with outbox := s.mgr.outbox ++ [{ kind := 0, qp := h.qp, opcode := opcode, flags := 1, tag := h.tag, ctx := h.ctx, status := status, body := if status = 0 then body else [] }] } }

/-! ### Taking a trap -/

/-- trapcause (R331). -/
def Trap.causeReg (t : Trap) : DWord :=
  BitVec.ofNat 64 (t.cause + t.sub * 2 ^ 8 + (if t.deferred then 2 ^ 16 else 0) + t.bitoff * 2 ^ 32 + t.block * 2 ^ 44
    + t.step * 2 ^ 52)

/-- trapinfo (R331): the tile coordinate for DECODE_FAULT, the fields for every other cause. -/
def Trap.infoReg (t : Trap) : DWord :=
  match t.coord with
  | some x => x
  | none =>
    BitVec.ofNat 64 (t.slot + t.member * 2 ^ 3 + t.port * 2 ^ 5 + (if t.part then 2 ^ 6 else 0)
      + (if t.software then 2 ^ 7 else 0) + t.flags * 2 ^ 8 + t.landing * 2 ^ 16 + t.code * 2 ^ 24 + t.detail * 2 ^ 32)

/-- traplanes: the named lanes, or the whole trap group (R327). -/
def Trap.lanesReg (t : Trap) : DWord := (if t.lanes = 0 then t.group else t.lanes).setWidth 64

/-- The trap registers written (R332 step 3). -/
def Warp.writeTrap (w : Warp) (t : Trap) : Warp :=
  { w with trapcause := t.causeReg, traplanes := t.lanesReg, trapaddr := t.addr, trapinfo := t.infoReg }

/-- The failure record of a trap that no warp takes any more (R316, R389). -/
def State.failureTrap (s : State) (w : Nat) (t : Trap) : Failure :=
  { cause := t.cause, crew := (s.crewOf w).index, warp := slotOf w, trapcause := t.causeReg, traplanes := t.lanesReg,
    trapaddr := t.addr, trapinfo := t.infoReg, extra := 0, cycle := s.cycle }

/-! ### Flume chains (R144 to R153) -/

/-- Register words per lane of a chain's results (R338). -/
def Chain.words (c : Chain) : Nat := (c.members.map (·.words)).sum

/-- The OR of the lanes' flags (R134). -/
def Chain.flags (c : Chain) : Nat := c.results.foldl (fun f r => Nat.lor f r.2.flags) 0

/-- The trap-enable bits of the latched fpmode, in fpflags order (R132). -/
def Chain.enabled (c : Chain) : Nat := c.mode / 256 % 32

/-- The lanes that raised an enabled flag in a member that is not cancelled (R134, R150). -/
def Chain.trapLanes (c : Chain) : LaneSet :=
  laneSet ((lanesOf c.lanes).filter fun l => (c.results.get l).trapMember != 0)

/-- The chain raises an enabled flag: it never writes back (R134, R338). -/
def Chain.trapping (c : Chain) : Bool := c.trapLanes != 0

/-- The cycle of R147 in which the chain writes back. -/
def Chain.writeback (c : Chain) : Nat := c.start + (c.total + 3) / 4 + 1

/-- FP_TRAP of a chain (R134, R331): the enabled flags raised, and the first member that raised one. -/
def Chain.trap (c : Chain) : Trap :=
  let member := (lanesOf c.trapLanes).foldl (fun m l => Nat.min m ((c.results.get l).trapMember - 1)) 2
  let flags := (lanesOf c.trapLanes).foldl (fun f l => Nat.lor f (c.results.get l).flags) 0
  { cause := 0x10, lanes := c.trapLanes, flags := Nat.land flags c.enabled, port := c.port, member := member,
    slot := (c.pc.toNat % 3 + member) % 3, group := c.lanes, ret := some c.pc }

/-- The value a member's result words give a lane, with a scalar destination's extension (R123, R338 ext). -/
def ChainMember.value (m : ChainMember) (ws : List Nat) : Nat :=
  match ws with
  | [] => 0
  | x :: t => if m.words = 2 then x + 2 ^ 32 * t.headD 0 else if m.signExt then wrapNat 64 (signedOf 32 x) else x

/-- The lanes a chain's result is written for: a write pending for an exited lane is discarded (R230). -/
def Warp.chainLanes (w : Warp) (c : Chain) (d : Operand) : LaneSet :=
  match d with
  | .s _ => if (w.lane (leader c.lanes)).live then c.lanes else 0
  | _ => c.lanes &&& w.liveLanes

/-- The members' results written, each from its own words of the lane entry (R144). -/
def Warp.writeChain (w : Warp) (c : Chain) : List ChainMember → Nat → Warp
  | [], _ => w
  | m :: t, k =>
    (w.writeLanes (w.chainLanes c m.dest) m.words m.dest fun l => m.value ((c.results.get l).res.drop k)).writeChain c t
      (k + m.words)

/-- The write-back: every member's result, then the flags (R144); the lanes that waited for it go on. -/
def Warp.commitChain (w : Warp) (c : Chain) : Warp :=
  let w := w.writeChain c c.members 0
  { w with
    fpflags := w.fpflags ||| BitVec.ofNat 64 c.flags
    waits := w.waits.filter fun r => r.wait != .chain c.port || r.lanes &&& c.lanes == 0 }

/-- An open chain parks after the first digit step of the cycle (R151). -/
def Chain.park (c : Chain) (cycle : Nat) : Chain :=
  let rel := cycle - c.start
  { c with done := if rel = 0 then c.done else Nat.max c.done (Nat.min c.total (4 * (rel - 1) + 1)) }

/-- A parked chain takes up a port's pipe again with the step after the last one done (R153). -/
def Chain.resumeOn (c : Chain) (port cycle : Nat) : Chain :=
  { c with port := port, start := cycle - (c.done + 3) / 4, atResume := false, counting := false }

/-- The chain of a port. -/
def Warp.chain (w : Warp) (port : Nat) : Option Chain := if port = 0 then w.chainA else w.chainB
def Warp.setChain (w : Warp) (port : Nat) (c : Option Chain) : Warp :=
  if port = 0 then { w with chainA := c } else { w with chainB := c }

/-- The flume record slot of a port (R338). -/
def Warp.parked (w : Warp) (port : Nat) : Option Chain := if port = 0 then w.recA else w.recB
def Warp.setParked (w : Warp) (port : Nat) (c : Option Chain) : Warp :=
  if port = 0 then { w with recA := c } else { w with recB := c }

/-- A chain that no record can take: it has more than three result words, the slot is held, or it writes back in this very
cycle (R151, R152, R154). -/
def Warp.unparkable (w : Warp) (cycle port : Nat) (c : Chain) : Bool :=
  3 < c.words || (w.parked port).isSome || c.writeback ≤ cycle

/-- A chain that is counted out in its record slot stops there again, or writes back in its write-back cycle (R151, R154). -/
def Warp.parkRecord (w : Warp) (cycle port : Nat) : Warp :=
  match w.parked port with
  | none => w
  | some c =>
    if !c.counting then w
    else if c.writeback ≤ cycle then (w.commitChain c).setParked port none
    else w.setParked port (some { c.park cycle with atResume := w.handler.isSome, counting := false })

/-- A port's open chain is parked; one that no record can take writes back instead; a chain that will trap sets its lanes
back to its first word (R151). -/
def Warp.parkPort (w : Warp) (cycle port : Nat) : Warp :=
  let w := w.parkRecord cycle port
  match w.chain port with
  | none => w
  | some c =>
    if w.unparkable cycle port c then (w.commitChain c).setChain port none
    else
      let w := (w.setParked port (some { c.park cycle with atResume := w.handler.isSome })).setChain port none
      if c.trapping then
        { w.mapLanes c.lanes (fun x => { x with pc := c.pc }) with waits := w.waits.filter fun r => r.wait != .chain port }
      else w

/-- Both ports' open chains are parked. (DEDUCED: notes/assumptions/18.) -/
def Warp.parkChains (w : Warp) (cycle : Nat) : Warp := (w.parkPort cycle 0).parkPort cycle 1

/-- An open chain in its write-back cycle that traps: its FP_TRAP comes before any event that strikes it (R151, R154). -/
def Warp.wideTrap (w : Warp) (cycle port : Nat) : Option Chain :=
  match w.chain port with
  | some c => if decide (c.writeback ≤ cycle) && c.trapping then some c else none
  | none => none

/-! ### The trap causes and trap entry -/

/-- The trap cause codes (R326). -/
def causeIllegalInstruction : Nat := 0x01
def causeIllegalOperand : Nat := 0x02
def causeMisaligned : Nat := 0x03
def causePageFault : Nat := 0x04
def causeProtection : Nat := 0x05
def causePackedAccess : Nat := 0x06
def causeScratchBound : Nat := 0x07
def causeDecodeFault : Nat := 0x08
def causeTicketFault : Nat := 0x09
def causeMemoryUncorrectable : Nat := 0x0A
def causeLandingLost : Nat := 0x0B
def causeFabricTimeout : Nat := 0x0C
def causeBarrierMismatch : Nat := 0x0D
def causeDeadlock : Nat := 0x0E
def causeQuota : Nat := 0x0F
def causeFpTrap : Nat := 0x10
def causeBreak : Nat := 0x11

/-- fpmode as a launch record or a csrw gives it: the reserved bits read zero (R8, R132). -/
def fpmodeOf (x : Nat) : DWord := BitVec.ofNat 64 (Nat.land x 0x1F03)

/-- The lanes' return points of a trap (R326, R328). -/
def Warp.returnPoints (w : Warp) (t : Trap) : FMap DWord :=
  (lanesOf t.group).map fun l => (l, t.ret.getD (w.lane l).pc)

/-- The cycle in which an event may strike a port: after the write-back of a chain that no record can take (R151). -/
def Warp.strikeCycle (w : Warp) (cycle port : Nat) : Nat :=
  match w.chain port with
  | some c => if w.unparkable cycle port c then Nat.max cycle c.writeback else cycle
  | none => cycle

/-- The warp enters the handler (R332): trap registers, return points, program counters at trapbase / 4, age counters zero,
eligible in cycle F + 6; open chains are parked, and one that cannot be writes back in F at the latest; the other lanes are
suspended by `Handler.lanes`. -/
def Warp.enterHandler (w : Warp) (cycle : Nat) (trapbase : DWord) (t : Trap) (sup : Option Supply) : Warp :=
  let w := ((w.parkChains cycle).writeTrap t).unwait t.group
  let w : Warp := { w with
    handler := some ⟨t.group, w.returnPoints t, sup, false⟩,
    walkFaults := w.walkFaults.map fun f => { f with lanes := f.lanes &&& ~~~t.group } }
  w.mapLanes t.group fun x => { x with pc := BitVec.ofNat 64 (trapbase.toNat / 4), age := 0, readyAt := cycle + 6 }

/-- A chain that will trap and is not to be taken: it committed nothing, and its lanes stand at its first word again (R150,
R343). -/
def Warp.dropChain (w : Warp) (port : Nat) (c : Chain) : Warp :=
  { (w.setChain port none).mapLanes c.lanes (fun x => { x with pc := c.pc }) with waits := w.waits.filter fun r => r.wait != .chain port }

/-- FP_TRAP of a port's open chain comes before any other event; a chain of the other port that traps in the same cycle issues
again after it. -/
def Warp.takeChain (w : Warp) (cycle port : Nat) (c : Chain) : Trap × Option Supply × Warp :=
  let w := w.setChain port none
  match w.wideTrap cycle (1 - port) with
  | some d => (c.trap, none, w.dropChain (1 - port) d)
  | none => (c.trap, none, w)

/-- The trap taken first: an open chain in its write-back cycle that raised an enabled flag comes before any other event, whose
group has committed nothing and issues again (R151, R154); of two, port A's (R343). -/
def Warp.firstTrap (w : Warp) (cycle : Nat) (t : Trap) (sup : Option Supply) : Trap × Option Supply × Warp :=
  match w.wideTrap cycle 0, w.wideTrap cycle 1 with
  | some c, _ => w.takeChain cycle 0 c
  | none, some d => w.takeChain cycle 1 d
  | none, none => (t, sup, w)

/-- The BREAK event of a stopped warp (R437). (DEDUCED: notes/assumptions/56.) -/
def State.breakEvent (s : State) (w : Nat) (y : Warp) (t : Trap) : Message :=
  eventMsg (s.ctxQp (s.ctxOf w)) 0xC7 (s.ctxOf w)
    (natToBytes 4 (s.crewOf w).index ++ natToBytes 1 (slotOf w) ++ natToBytes 1 t.code ++ natToBytes 2 0
      ++ [y.trapcause, y.traplanes, y.trapaddr, y.trapinfo].flatMap fun r => natToBytes 8 r.toNat)

/-- The cycle in which an event may strike a warp. -/
def Warp.strikes (w : Warp) (cycle : Nat) : Nat := Nat.max (w.strikeCycle cycle 0) (w.strikeCycle cycle 1)

/-- A trap waits for the write-back of a chain that no record can take: its lanes hold until then (R151). (DEDUCED: notes/assumptions/18.) -/
def Warp.holdTrap (w : Warp) (cycle : Nat) (t : Trap) (sup : Option Supply) : Warp :=
  { (w.unwait t.group).mapLanes t.group (fun x => { x with readyAt := cycle + 1 }) with pendingFaults := w.pendingFaults ++ [(t, sup)] }

/-- A trap is taken by a warp outside handler mode (R332, R333), after the write-back of a chain that no record can take (R151).
Without a handler the crew or gang ends, but for BREAK from brk, which stops the warp at its return point for the host's debug
commands. (DEDUCED: notes/assumptions/18.) -/
def State.enterTrap (s : State) (w : Nat) (t : Trap) (sup : Option Supply) : State :=
  if s.cycle < (s.warp w).strikes s.cycle then s.setWarp w ((s.warp w).holdTrap ((s.warp w).strikes s.cycle) t sup)
  else
  let (t, sup, x) := (s.warp w).firstTrap s.cycle t sup
  let tb := (s.ctx (s.ctxOf w)).trapbase
  if tb = 0 then
    let y := x.writeTrap t
    if t.cause = causeBreak ∧ t.software = false then
      (s.post (s.breakEvent w y t)).setWarp w { (y.unwait t.group).mapLanes t.group (fun l => { l with pc := t.ret.getD l.pc }) with stopped := true }
    else
      let s := s.setWarp w y
      s.failCrew (crewTok w) (s.failureOf w t.cause (if t.cause = causeDeadlock then t.detail else 0))
  else s.setWarp w (x.enterHandler s.cycle tb t sup)

/-- A trap with its group is taken by a warp (R332 to R334): inside the handler it is a double fault; a response fault of a
suspended group waits until handler mode ends. A trap of an issue whose warp issues on the other port too is noted, and taken when
both are made (R23, R200). -/
def State.takeTrap (s : State) (w : Nat) (t : Trap) (sup : Option Supply := none) : State :=
  let x := s.warp w
  if s.cur.pairs && s.cur.warp == w then { s with raised := s.raised ++ [(w, t, sup)] }
  else
  match x.handler with
  | some h =>
    if t.group &&& h.lanes = 0 then s.setWarp w { x with pendingFaults := x.pendingFaults ++ [(t, sup)] }
    else s.failCrew (crewTok w) (s.failureOf w (x.trapcause.toNat % 256) (t.cause + t.sub * 256))
  | none => s.enterTrap w t sup

/-- A response fault taken by the lanes that executed its instruction (R271). After a swap-out was asked for it is saved as
pending instead, to be taken at the resume as a deferred fault (R290, R328); one of the request's own cycle is taken (R343). (DEDUCED: notes/assumptions/114.) -/
def State.takeResponse (s : State) (w : Nat) (t : Trap) (sup : Option Supply := none) : State :=
  let c := s.crewOf w
  let x := s.warp w
  let mine : Bool := match x.handler with
    | some h => t.group &&& h.lanes != 0
    | none => true
  if c.saving ∧ c.savingAt < s.cycle ∧ mine then
    s.setWarp w { x with pendingFaults := x.pendingFaults ++ [({ t with deferred := true }, sup)] }
  else s.takeTrap w t sup

/-- A trap found at issue: its group is the executing lanes, its return point the group's first word unless the fault names
another (R326, R327). -/
def State.issueTrap (s : State) (t : Trap) (sup : Option Supply := none) : State :=
  s.takeTrap s.cur.warp { t with group := s.cur.lanes, ret := some (t.ret.getD s.cur.pc), port := s.cur.port } sup

/-- The packet slot of a word (R181). -/
def slotOfPc (pc : DWord) : Nat := pc.toNat % 3

/-- The byte address of a word (R181). -/
def byteAddr (pc : DWord) : DWord := pc * 4

/-! ### The frame every instruction shares (R199) -/

/-- A fault at the issuing word. -/
def State.mkTrap (s : State) (cause : Nat) : Trap := { cause := cause, slot := slotOfPc s.cur.pc }

/-- An operand names a vector register at or above the warp's quota (R18, R187, R191). -/
def overQuota (quota : Nat) (p : Pos × Operand) : Bool :=
  match p.2 with
  | .v n => quota < n + p.1.vregs
  | _ => false

/-- The lanes of the issue for which a source operand holds an uncorrectable error (R423). -/
def Warp.badLanes (w : Warp) (lanes : LaneSet) (p : Pos × Operand) : LaneSet :=
  if p.1.reads then
    match p.2 with
    | .v n => laneSet ((lanesOf lanes).filter fun l => (List.range p.1.vregs).any fun k => w.badRegs.contains (vkey (n + k) l))
    | .s n =>
      let k := if p.1 = .quad then 4 else 1
      if (List.range k).any fun j => w.badRegs.contains (badS (n + j)) then lanes else 0
    | _ => 0
  else 0

/-- The lanes with a faulty source register of an instruction. -/
def Warp.badSources (w : Warp) (lanes : LaneSet) (ps : List (Pos × Operand)) : LaneSet :=
  ps.foldl (fun m p => m ||| w.badLanes lanes p) 0

/-- The scalar status register with an untaken deck fault that an instruction reads, if any (R316). -/
def Warp.deckFault (w : Warp) (ps : List (Pos × Operand)) : Option (Nat × Trap) :=
  ps.findSome? fun p =>
    match p.2 with
    | .s n =>
      if p.1.reads then
        (List.range (if p.1 = .quad then 4 else 1)).findSome? fun j => (w.deckFaults.find (n + j)).map fun t => (n + j, t)
      else none
    | _ => none

/-- The registers an instruction reads or writes: its operands, and those that a reform carries (R38, R239). -/
def Instr.registers (i : Instr) : List (Pos × Operand) :=
  i.positions ++ match i with
    | .reform _ k => (List.range k).map fun n => (.src, .v n)
    | _ => []

/-- The words of a group: each instruction's offset in words, its number in the chain, its registers. -/
def groupWords (is : List Instr) (off member : Nat) : List (Nat × Nat × List (Pos × Operand)) :=
  match is with
  | [] => []
  | i :: t => (off, member, Instr.registers i) :: groupWords t (off + i.len) (member + 1)

/-- A fault of a word of the group (R199, R331). -/
def State.wordTrap (s : State) (off member cause : Nat) : Trap :=
  { s.mkTrap cause with slot := (slotOfPc s.cur.pc + off) % 3, member := member }

/-- What trapsupply needs of a load that faults on a source register's own error: nothing was fetched (R336, R423).
(DESIGN CHOICE: notes/assumptions/123.) -/
def State.loadSupply (s : State) (is : List Instr) : Option Supply :=
  match is with
  | [i] =>
    let sup := fun (w : Width) (d : Operand) =>
      some { d := d, width := w, group := s.cur.lanes, len := i.len, got := [], st := none }
    match i with
    | .ldG w _ _ d _ | .ldX w _ _ d _ | .ldOffset _ w _ _ d _ _ => sup w d
    | _ => none
  | _ => none

/-- The checks every issue group passes before those of its own description, the lowest slot first (R199, R316): the quota of
R18, a deck fault deferred to the read of its status, register-file errors. `body` answers a fault or the next state. (DEDUCED: notes/assumptions/50.) -/
def groupOp (is : List Instr) (s : State) (body : State → Except Trap State) : Host.Outcome State Fault Refusal :=
  let w := s.curWarp
  let ws := groupWords is 0 0
  match ws.find? fun g => g.2.2.any (overQuota w.quota) with
  | some g => .next (s.issueTrap (s.wordTrap g.1 g.2.1 causeIllegalOperand))
  | none =>
    match w.deckFault (is.flatMap Instr.positions) with
    | some (n, t) => .next ((s.upCur fun w => { w with deckFaults := w.deckFaults.del n }).issueTrap t)
    | none =>
      match ws.find? fun g => w.badSources s.cur.lanes g.2.2 != 0 with
      | some g =>
        .next ((s.logError 7 1 (s.ctxOf s.cur.warp) (s.coreOf s.cur.warp) 0 0).issueTrap
          { s.wordTrap g.1 g.2.1 causeMemoryUncorrectable with lanes := w.badSources s.cur.lanes g.2.2 } (s.loadSupply is))
      | none =>
        match body s with
        | .error t => .next (s.issueTrap t)
        | .ok s' => .next s'

/-- The frame of a single instruction. -/
def runOp (i : Instr) (s : State) (body : State → Except Trap State) : Host.Outcome State Fault Refusal :=
  groupOp [i] s body

/-- An instruction without faults of its own that moves its lanes past itself. -/
def plainOp (i : Instr) (s : State) (f : State → State) : Host.Outcome State Fault Refusal :=
  runOp i s fun s => .ok ((f s).advance i.len)

/-- An instruction that may fault and otherwise moves its lanes past itself. -/
def checkedOp (i : Instr) (s : State) (f : State → Except Trap State) : Host.Outcome State Fault Refusal :=
  runOp i s fun s =>
    match f s with
    | .ok s' => .ok (s'.advance i.len)
    | .error t => .error t

/-- All executing lanes hold one value (R222, R231, R235). -/
def sameAll (ls : List Nat) (f : Nat → Nat) : Bool :=
  match ls with
  | [] => true
  | a :: t => t.all fun b => f b == f a

end Sys2Proof.Machine
end

