-- ==== Sys2Proof/Machine/Operands.lean ====
section
/-! DEFINITION. What an operand supplies to each lane (R186 to R193, R211), and how a typed result is extended for its
destination (R123, R125). -/

namespace Sys2Proof.Machine

open Sys2Proof

/-- Integer value of a small constant (R188). -/
def smallConst (n : Nat) : Int :=
  match n with
  | 0 => 0 | 1 => 1 | 2 => 2 | 3 => -1 | 4 => 4 | 5 => 8 | 6 => 16 | _ => 32

/-- The value of a small constant in a binary format of sign, `eb` exponent bits and `fb` fraction bits (R188). -/
def floatConst (eb fb n : Nat) : Nat :=
  let bias := 2 ^ (eb - 1) - 1
  let sign := 2 ^ (eb + fb)
  let inf := (2 ^ eb - 1) * 2 ^ fb
  match n with
  | 0 => 0
  | 1 => bias * 2 ^ fb
  | 2 => (bias + 1) * 2 ^ fb
  | 3 => sign + bias * 2 ^ fb
  | 4 => (bias - 1) * 2 ^ fb
  | 5 => sign + (bias - 1) * 2 ^ fb
  | 6 => inf
  | _ => sign + inf

/-- The operand words (R15). -/
def State.opWord (s : State) (w l : Nat) : Operand → Nat
  | .lane => l
  | .warp => slotOf w
  | .crew => (s.crewOf w).index
  | .tid => ((s.warp w).lane l).tid
  | _ => 0

/-- The 32 bits an operand supplies in a 32-bit integer position (R186, R188, R189, R193). -/
def State.src32 (s : State) (w l : Nat) (o : Operand) : Nat :=
  match o with
  | .v n => ((s.warp w).v n l).toNat
  | .s n => ((s.warp w).s n).toNat % 2 ^ 32
  | .k n => wrapNat 32 (smallConst n)
  | .z => 0
  | .lit32 x => x.toNat
  | .lit64 x => x.toNat % 2 ^ 32
  | o => s.opWord w l o % 2 ^ 32

/-- The 64 bits an operand supplies in a 64-bit position; a 32-bit literal is extended by the position's type (R191, R193),
an operand word is a 32-bit unsigned value (R15). -/
def State.src64 (s : State) (w l : Nat) (signed : Bool) (o : Operand) : Nat :=
  match o with
  | .v n => ((s.warp w).v n l).toNat + 2 ^ 32 * ((s.warp w).v (n + 1) l).toNat
  | .s n => ((s.warp w).s n).toNat
  | .k n => wrapNat 64 (smallConst n)
  | .z => 0
  | .lit32 x => if signed then wrapNat 64 (signedOf 32 x.toNat) else x.toNat
  | .lit64 x => x.toNat
  | o => s.opWord w l o % 2 ^ 32

/-- The 128 bits an operand supplies in a 128-bit position (R191). -/
def State.src128 (s : State) (w l : Nat) (o : Operand) : Nat :=
  match o with
  | .v n => (List.range 4).foldr (fun i acc => ((s.warp w).v (n + i) l).toNat + 2 ^ 32 * acc) 0
  | .k n => wrapNat 128 (smallConst n)
  | _ => 0

/-- The bits an operand supplies to a position of a typed integer instruction: 64 or 32 bits (R191, R211). -/
def State.srcBits (s : State) (w l : Nat) (t : IntTy) (o : Operand) : Nat :=
  if t.wide then s.src64 w l t.signed o else s.src32 w l o

/-- int_value (R211): the low n bits read by the type. -/
def intOf (t : IntTy) (x : Nat) : Int := if t.signed then signedOf t.bits x else (x % 2 ^ t.bits : Nat)

/-- int_value of an operand in a lane (R211). -/
def State.intVal (s : State) (w l : Nat) (t : IntTy) (o : Operand) : Int := intOf t (s.srcBits w l t o)

/-- The bits of a float position of `n` significant bits; small constants are taken in its format (R125, R188, R193). -/
def State.srcFlt (s : State) (w l : Nat) (t : FTy) (o : Operand) : Nat :=
  match t, o with
  | .f32, .k n => floatConst 8 23 n
  | .f16, .k n => floatConst 5 10 n
  | .bf16, .k n => floatConst 8 7 n
  | .f32, o => s.src32 w l o
  | _, o => s.src32 w l o % 2 ^ 16

/-- wrap(x, T) as a pattern of n bits (R211). -/
def wrapInt (t : IntTy) (x : Int) : Nat := wrapNat t.bits x

/-- Least and greatest value of a type (R122). -/
def minInt (t : IntTy) : Int := if t.signed then -(2 : Int) ^ (t.bits - 1) else 0
def maxInt (t : IntTy) : Int := if t.signed then (2 : Int) ^ (t.bits - 1) - 1 else (2 : Int) ^ t.bits - 1

/-- sat(x, T) (R211). -/
def satInt (t : IntTy) (x : Int) : Int := if x < minInt t then minInt t else if maxInt t < x then maxInt t else x

/-- A result of type T as 64 bits, sign-extended for .i types and zero-extended for .n types (R123). -/
def extendInt (t : IntTy) (x : Int) : Nat :=
  if t.signed then wrapNat 64 (signedOf t.bits (wrapInt t x)) else wrapInt t x

/-- Register words of a type's value (R123). -/
def intWords (t : IntTy) : Nat := if t.wide then 2 else 1

/-- A destination's number of register words for a float result (R125). -/
def fltBits : FTy → Nat
  | .f32 => 32
  | .f16 | .bf16 => 16

/-- A uniform value of the executing lanes: its reading in the lowest one (R330). -/
def State.lead32 (s : State) (o : Operand) : Nat := s.src32 s.cur.warp (leader s.cur.lanes) o
def State.lead64 (s : State) (o : Operand) : Nat := s.src64 s.cur.warp (leader s.cur.lanes) false o

/-- The operand's 32 bits agree in all executing lanes. -/
def State.same32 (s : State) (o : Operand) : Bool := sameAll (lanesOf s.cur.lanes) fun l => s.src32 s.cur.warp l o
/-- The operand's 64 bits agree in all executing lanes. -/
def State.same64 (s : State) (o : Operand) : Bool := sameAll (lanesOf s.cur.lanes) fun l => s.src64 s.cur.warp l false o

end Sys2Proof.Machine
end

