-- ==== Sys2Proof/Machine/Flags.lean ====
section
/-! DEFINITION. Floating-point flags in fpflags order, and the results of an operation with its flags (R132, R134). -/

namespace Sys2Proof.Machine

open Sys2Proof

def flagNV : Nat := 1
def flagDZ : Nat := 2
def flagOF : Nat := 4
def flagUF : Nat := 8
def flagNX : Nat := 16

/-- A result's bits and the flags raised with it. -/
structure FRes where
  val : Nat
  fl : Nat := 0
  deriving DecidableEq, Repr, Inhabited

/-- The flags ORed (R134). -/
def FRes.with (r : FRes) (f : Nat) : FRes := { r with fl := Nat.lor r.fl f }

/-- A flag raised or not. -/
def flagIf (b : Bool) (f : Nat) : Nat := if b then f else 0

/-- A rounding mode (R132): 0 RNE, 1 RZ, 2 RD, 3 RU. -/
inductive Rm where
  | rne | rz | rd | ru
  deriving DecidableEq, Repr, Inhabited

/-- fpmode.rm (R132). -/
def rmOfMode (fpmode : Nat) : Rm :=
  match fpmode % 4 with
  | 0 => .rne
  | 1 => .rz
  | 2 => .rd
  | _ => .ru

/-- The mode that applies: the modifier's, or fpmode.rm (R133, R243). -/
def rmOf (m : RMod) (fpmode : Nat) : Rm :=
  match m with
  | .mode => rmOfMode fpmode
  | .rne => .rne
  | .rz => .rz
  | .rd => .rd
  | .ru => .ru

/-- Whether a magnitude with remainder `rem` of `2 ^ k` above an integer part rounds up (R133). -/
def roundsUp (rm : Rm) (neg : Bool) (int rem k : Nat) : Bool :=
  match rm with
  | .rne => 2 ^ k < 2 * rem || (2 ^ k == 2 * rem && int % 2 == 1)
  | .rz => false
  | .rd => neg && rem != 0
  | .ru => !neg && rem != 0

end Sys2Proof.Machine
end

