-- ==== Sys2Proof/Machine/Float.lean ====
section
/-! DEFINITION. Values of the binary formats, exact arithmetic on them, and the one rounding (R125 to R127, R133,
R244 to R250). A finite magnitude is a natural number times a power of two. -/

namespace Sys2Proof.Machine

open Sys2Proof

/-- A value read from a register: a NaN (signalling or not), an infinity, or sign, mantissa and exponent of two. -/
inductive FVal where
  | nan (sig : Bool)
  | inf (neg : Bool)
  | fin (neg : Bool) (m : Nat) (e : Int)
  deriving DecidableEq, Repr, Inhabited

/-- Exponent and fraction widths of a format (R125). -/
structure Fmt where
  eb : Nat
  fb : Nat
  deriving DecidableEq, Repr, Inhabited

def fmtOf : FTy → Fmt
  | .f32 => ⟨8, 23⟩
  | .f16 => ⟨5, 10⟩
  | .bf16 => ⟨8, 7⟩

def Fmt.bias (f : Fmt) : Int := 2 ^ (f.eb - 1) - 1
/-- Exponent of the least normal magnitude. -/
def Fmt.emin (f : Fmt) : Int := 1 - f.bias
/-- The pattern of +∞. -/
def Fmt.infBits (f : Fmt) : Nat := (2 ^ f.eb - 1) * 2 ^ f.fb
/-- The canonical NaN (R127). -/
def Fmt.nanBits (f : Fmt) : Nat := f.infBits + 2 ^ (f.fb - 1)
def Fmt.signBit (f : Fmt) (neg : Bool) : Nat := if neg then 2 ^ (f.eb + f.fb) else 0

/-- The value of a pattern (R125, R127). -/
def Fmt.decode (f : Fmt) (x : Nat) : FVal :=
  let frac := x % 2 ^ f.fb
  let ex := x / 2 ^ f.fb % 2 ^ f.eb
  let neg : Bool := x / 2 ^ (f.eb + f.fb) % 2 == 1
  if ex = 2 ^ f.eb - 1 then
    (if frac = 0 then .inf neg else .nan (frac / 2 ^ (f.fb - 1) == 0))
  else if ex = 0 then .fin neg frac (f.emin - f.fb)
  else .fin neg (2 ^ f.fb + frac) (f.emin - f.fb + (ex - 1 : Nat))

def Fmt.inf (f : Fmt) (neg : Bool) : FRes := ⟨f.signBit neg + f.infBits, 0⟩
def Fmt.zero (f : Fmt) (neg : Bool) : FRes := ⟨f.signBit neg, 0⟩
/-- nan_result(F), with NV or without (R244). -/
def Fmt.nan (f : Fmt) (nv : Bool) : FRes := ⟨f.nanBits, flagIf nv flagNV⟩

/-- Integer part, remainder and rounded integer of `m * 2 ^ e` in units of `2 ^ q`: the rounded count of units, and
whether it is inexact. (DESIGN CHOICE: notes/assumptions/125.) -/
def roundUnits (rm : Rm) (neg : Bool) (m : Nat) (e q : Int) : Nat × Bool :=
  if q ≤ e then (m * 2 ^ (e - q).toNat, false)
  else
    let k := (q - e).toNat
    -- a shift beyond the magnitude leaves less than half a unit
    let k := Nat.min k (Nat.log2 m + 3)
    let int := m / 2 ^ k
    let rem := m % 2 ^ k
    (int + (if roundsUp rm neg int rem k then 1 else 0), rem != 0)

/-- Overflow's result by mode (R133). -/
def Fmt.overflow (f : Fmt) (rm : Rm) (neg : Bool) : FRes :=
  let inf := f.signBit neg + f.infBits
  let toInf := match rm with
    | .rne => true
    | .rz => false
    | .rd => neg
    | .ru => !neg
  ⟨if toInf then inf else inf - 1, Nat.lor flagOF flagNX⟩

/-- f_round (R244): the magnitude `m * 2 ^ e` with its sign, rounded once, with OF, UF and NX; tininess after rounding
(R126). A zero magnitude gives the zero of that sign. -/
def Fmt.round (f : Fmt) (rm : Rm) (neg : Bool) (m : Nat) (e : Int) : FRes :=
  if m = 0 then f.zero neg
  else
    let ex : Int := Nat.log2 m + e
    let qmin := f.emin - f.fb
    let q := max (ex - f.fb) qmin
    let (r, inexact) := roundUnits rm neg m e q
    let bits := (q - qmin).toNat * 2 ^ f.fb + r
    if f.infBits ≤ bits then f.overflow rm neg
    else
      let tiny := ex < f.emin && !(ex + 1 == f.emin && (roundUnits rm neg m e (ex - f.fb)).1 == 2 ^ (f.fb + 1))
      ⟨f.signBit neg + bits, flagIf inexact (Nat.lor flagNX (flagIf tiny flagUF))⟩

/-! ### Exact arithmetic -/

/-- A signed exact magnitude. -/
structure Dy where
  neg : Bool
  m : Nat
  e : Int
  deriving DecidableEq, Repr, Inhabited

/-- The dyadic of an integer times a power of two. -/
def Dy.ofInt (x : Int) (e : Int) : Dy := ⟨x < 0, x.natAbs, e⟩

/-- The signed mantissa at an exponent not above the dyadic's. -/
def Dy.at_ (x : Dy) (e : Int) : Int :=
  let v : Int := x.m * 2 ^ (x.e - e).toNat
  if x.neg then -v else v

def Dy.add (x y : Dy) : Dy :=
  let e := min x.e y.e
  Dy.ofInt (x.at_ e + y.at_ e) e

def Dy.mul (x y : Dy) : Dy := ⟨x.neg != y.neg, x.m * y.m, x.e + y.e⟩
def Dy.negate (x : Dy) : Dy := { x with neg := !x.neg }
def Dy.abs (x : Dy) : Dy := { x with neg := false }

/-- x ≤ y as real numbers. -/
def Dy.le (x y : Dy) : Bool :=
  let e := min x.e y.e
  x.at_ e ≤ y.at_ e
/-- x < y as real numbers. -/
def Dy.lt (x y : Dy) : Bool :=
  let e := min x.e y.e
  x.at_ e < y.at_ e

/-- The exact result of an operation before rounding: a NaN, an infinity with a flag, or a dyadic; a magnitude that is no
dyadic number is stood for by an odd mantissa strictly between the same multiples of its unit. -/
inductive Exact where
  | nan (nv : Bool)
  | inf (neg : Bool) (fl : Nat)
  | val (x : Dy)
  deriving DecidableEq, Repr, Inhabited

/-- f_round of an exact result (R244, R245). -/
def Exact.round (f : Fmt) (rm : Rm) : Exact → FRes
  | .nan nv => f.nan nv
  | .inf neg fl => (f.inf neg).with fl
  | .val x => f.round rm x.neg x.m x.e

def FVal.isNan : FVal → Bool
  | .nan _ => true
  | _ => false
def FVal.isSnan : FVal → Bool
  | .nan sig => sig
  | _ => false
def FVal.neg : FVal → Bool
  | .nan _ => false
  | .inf n => n
  | .fin n _ _ => n
def FVal.isZero : FVal → Bool
  | .fin _ m _ => m == 0
  | _ => false
def FVal.isInf : FVal → Bool
  | .inf _ => true
  | _ => false
def FVal.dy : FVal → Dy
  | .fin n m e => ⟨n, m, e⟩
  | _ => ⟨false, 0, 0⟩
def FVal.negate : FVal → FVal
  | .nan s => .nan s
  | .inf n => .inf (!n)
  | .fin n m e => .fin (!n) m e

/-- The sum of two finite values with the sign of a zero sum (R246). -/
def addDy (rm : Rm) (x y : Dy) : Dy :=
  let r := x.add y
  if r.m = 0 then
    { r with neg := if x.m = 0 ∧ y.m = 0 ∧ x.neg = y.neg then x.neg else rm == .rd }
  else r

def exactAdd (rm : Rm) (x y : FVal) : Exact :=
  match x, y with
  | .nan a, .nan b => .nan (a || b)
  | .nan a, _ => .nan a
  | _, .nan b => .nan b
  | .inf a, .inf b => if a = b then .inf a 0 else .nan true
  | .inf a, .fin .. => .inf a 0
  | .fin .., .inf b => .inf b 0
  | x, y => .val (addDy rm x.dy y.dy)

def exactMul (x y : FVal) : Exact :=
  match x, y with
  | .nan a, .nan b => .nan (a || b)
  | .nan a, _ => .nan a
  | _, .nan b => .nan b
  | .inf a, y => if y.isZero then .nan true else .inf (a != y.neg) 0
  | x, .inf b => if x.isZero then .nan true else .inf (x.neg != b) 0
  | x, y => .val (x.dy.mul y.dy)

/-- x × y + w, rounded once (R245): zero times infinity is invalid even beside a quiet NaN addend. -/
def exactFma (rm : Rm) (x y w : FVal) : Exact :=
  match exactMul x y with
  | .nan nv => .nan (nv || w.isSnan)
  | .inf a _ =>
    match w with
    | .nan s => .nan s
    | .inf b => if a = b then .inf a 0 else .nan true
    | .fin .. => .inf a 0
  | .val p =>
    match w with
    | .nan s => .nan s
    | .inf b => .inf b 0
    | .fin n m e => .val (addDy rm p ⟨n, m, e⟩)

/-- A quotient of positive numbers as a dyadic: exact, or an odd mantissa of at least 64 bits between neighbours. -/
def quotient (m1 m2 : Nat) (e : Int) : Nat × Int :=
  let k := 64 + Nat.log2 m2
  let q := m1 * 2 ^ k / m2
  if m1 * 2 ^ k % m2 = 0 then (q, e - k) else (2 * q + 1, e - k - 1)

def exactDiv (x y : FVal) : Exact :=
  match x, y with
  | .nan a, .nan b => .nan (a || b)
  | .nan a, _ => .nan a
  | _, .nan b => .nan b
  | .inf _, .inf _ => .nan true
  | .inf a, .fin n _ _ => .inf (a != n) 0
  | .fin n _ _, .inf b => .val ⟨n != b, 0, 0⟩
  | .fin n m e, .fin n' m' e' =>
    if m' = 0 then (if m = 0 then .nan true else .inf (n != n') flagDZ)
    else if m = 0 then .val ⟨n != n', 0, 0⟩
    else
      let (q, ex) := quotient m m' (e - e')
      .val ⟨n != n', q, ex⟩

/-! ### Selection and comparison (R247, R248) -/

/-- Order with −0 below +0, infinities included; both not NaN (R247). -/
def FVal.ltTotal (x y : FVal) : Bool :=
  match x, y with
  | .inf a, .inf b => a && !b
  | .inf a, _ => a
  | _, .inf b => !b
  | x, y => if x.isZero && y.isZero then x.neg && !y.neg else x.dy.lt y.dy

/-- x < y with +0 = −0 (R248). -/
def FVal.ltNum (x y : FVal) : Bool := if x.isZero && y.isZero then false else x.ltTotal y
def FVal.eqNum (x y : FVal) : Bool := !x.ltNum y && !y.ltNum x

/-- fmax and fmin pick an operand's bits (R247). -/
def pickMinMax (f : Fmt) (wantMax : Bool) (a b : Nat) : FRes :=
  let x := f.decode a
  let y := f.decode b
  let nv := flagIf (x.isSnan || y.isSnan) flagNV
  if x.isNan && y.isNan then ⟨f.nanBits, nv⟩
  else if x.isNan then ⟨b, nv⟩
  else if y.isNan then ⟨a, nv⟩
  else if wantMax then ⟨if x.ltTotal y then b else a, nv⟩
  else ⟨if y.ltTotal x then b else a, nv⟩

/-- The pattern with its sign bit cleared, or set. -/
def Fmt.absBits (f : Fmt) (x : Nat) : Nat := x % 2 ^ (f.eb + f.fb)
def Fmt.negAbs (f : Fmt) (x : Nat) : Nat := f.signBit true + f.absBits x

/-- fgate (R247). -/
def gate (f : Fmt) (a b : Nat) : FRes :=
  let x := f.decode a
  let y := f.decode b
  if x.isNan || y.isNan then f.nan (x.isSnan || y.isSnan)
  else if (f.decode (f.absBits a)).ltNum y then f.zero false else ⟨a, 0⟩

/-- fclamp (R247). -/
def clamp (f : Fmt) (a b : Nat) : FRes :=
  let x := f.decode a
  let y := f.decode b
  if x.isNan || y.isNan then f.nan (x.isSnan || y.isSnan)
  else pickMinMax f false (pickMinMax f true a (f.negAbs b)).val (f.absBits b)

/-- fcmp (R248). -/
def fcompare (f : Fmt) (cc : FCond) (a b : Nat) : FRes :=
  let x := f.decode a
  let y := f.decode b
  let nan := x.isNan || y.isNan
  let snan := x.isSnan || y.isSnan
  let bit := fun (c : Bool) => if c then 1 else 0
  match cc with
  | .eq => ⟨bit (!nan && x.eqNum y), flagIf snan flagNV⟩
  | .ne => ⟨bit (nan || !x.eqNum y), flagIf snan flagNV⟩
  | .lt => ⟨bit (!nan && x.ltNum y), flagIf nan flagNV⟩
  | .le => ⟨bit (!nan && !y.ltNum x), flagIf nan flagNV⟩
  | .gt => ⟨bit (!nan && y.ltNum x), flagIf nan flagNV⟩
  | .ge => ⟨bit (!nan && !x.ltNum y), flagIf nan flagNV⟩
  | .un => ⟨bit nan, flagIf snan flagNV⟩
  | .ord => ⟨bit (!nan), flagIf snan flagNV⟩

end Sys2Proof.Machine
end

