-- ==== Sys2Proof/Machine/FloatFns.lean ====
section
/-! DEFINITION. The unary functions (R249): roots by digits, powers and logarithms of two in fixed point with 256 fraction
bits, far finer than any rounding boundary of these formats (notes/assumptions/11). -/

namespace Sys2Proof.Machine

open Sys2Proof

/-- The integer square root by binary digits from bit `k` down. -/
def isqrtFrom (n : Nat) : Nat → Nat → Nat
  | 0, r => if (r + 1) * (r + 1) ≤ n then r + 1 else r
  | k + 1, r => isqrtFrom n k (if (r + 2 ^ (k + 1)) * (r + 2 ^ (k + 1)) ≤ n then r + 2 ^ (k + 1) else r)

def isqrt (n : Nat) : Nat := isqrtFrom n (Nat.log2 n / 2 + 1) 0

/-- A root as a dyadic of at least 64 bits: exact, or an odd mantissa between neighbours. -/
def rootOf (n : Nat) (e : Int) : Nat × Int :=
  let r := isqrt n
  if r * r = n then (r, e) else (2 * r + 1, e - 1)

/-- The square root of a positive dyadic. -/
def sqrtDy (m : Nat) (e : Int) : Nat × Int :=
  let odd := (e % 2).toNat
  rootOf (m * 2 ^ (odd + 256)) ((e - odd - 256) / 2)

/-- The reciprocal square root of a positive dyadic. -/
def rsqrtDy (m : Nat) (e : Int) : Nat × Int :=
  let odd := (e % 2).toNat
  -- 1 / sqrt(m 2^odd 2^(e-odd)) = sqrt(2^K / (m 2^odd)) 2^(-K/2 - (e-odd)/2)
  let d := m * 2 ^ odd
  let k := 2 * (Nat.log2 d + 160)
  let n := 2 ^ k / d
  let r := isqrt n
  let ex := -((k : Int) / 2) - (e - odd) / 2
  if r * r * d = 2 ^ k then (r, ex) else (2 * r + 1, ex - 1)

/-- Fraction bits of the fixed-point values below. -/
def fixBits : Nat := 256
/-- ln 2 in units of 2^-256. -/
def ln2Fix : Nat := 0xb17217f7d1cf79abc9e3b39803f2f6af40f343267298b62d8a0d175b8baafa2b

/-- The tail of the exponential series: the sum from term `k` on, the term before it being `t`. -/
def expSeries (x : Nat) : Nat → Nat → Nat → Nat
  | 0, _, _ => 0
  | n + 1, k, t =>
    let t' := t * x / (k * 2 ^ fixBits)
    t' + expSeries x n (k + 1) t'

/-- 2^f for a fraction f in units of 2^-256, in the same units. (UNVERIFIED: notes/assumptions/11.) -/
def exp2Fix (f : Nat) : Nat := 2 ^ fixBits + expSeries (f * ln2Fix / 2 ^ fixBits) 64 1 (2 ^ fixBits)

/-- The sum of z^(2k+1) / (2k+1), the inverse hyperbolic tangent's series. -/
def atanhSeries (z2 : Nat) : Nat → Nat → Nat → Nat
  | 0, _, _ => 0
  | n + 1, k, t => t / k + atanhSeries z2 n (k + 2) (t * z2 / 2 ^ fixBits)

/-- log2 of 1 + g, for a fraction g in units of 2^-256, in the same units. (UNVERIFIED: notes/assumptions/11.) -/
def log2Fix (g : Nat) : Nat :=
  let z := g * 2 ^ fixBits / (2 * 2 ^ fixBits + g)
  2 * atanhSeries (z * z / 2 ^ fixBits) 90 1 z * 2 ^ fixBits / ln2Fix

def exactSqrt (x : FVal) : Exact :=
  match x with
  | .nan s => .nan s
  | .inf n => if n then .nan true else .inf false 0
  | .fin n m e =>
    if m = 0 then .val ⟨n, 0, 0⟩ else if n then .nan true
    else
      let (r, ex) := sqrtDy m e
      .val ⟨false, r, ex⟩

def exactRsq (x : FVal) : Exact :=
  match x with
  | .nan s => .nan s
  | .inf n => if n then .nan true else .val ⟨false, 0, 0⟩
  | .fin n m e =>
    if m = 0 then .inf n flagDZ else if n then .nan true
    else
      let (r, ex) := rsqrtDy m e
      .val ⟨false, r, ex⟩

def exactRcp (x : FVal) : Exact :=
  match x with
  | .nan s => .nan s
  | .inf n => .val ⟨n, 0, 0⟩
  | .fin n m e => if m = 0 then .inf n flagDZ else exactDiv (.fin false 1 0) (.fin n m e)

/-- 2^x (R249): exact at integers; beyond every format's range a power that over- or underflows in all of them. -/
def exactExp2 (x : FVal) : Exact :=
  match x with
  | .nan s => .nan s
  | .inf n => if n then .val ⟨false, 0, 0⟩ else .inf false 0
  | .fin n m e =>
    if m = 0 then .val ⟨false, 1, 0⟩
    else if 12 ≤ (Nat.log2 m : Int) + e then .val ⟨false, 1, if n then -5000 else 5000⟩
    else
      let v : Int := if n then -(m : Int) else m
      if 0 ≤ e then .val ⟨false, 1, v * 2 ^ e.toNat⟩
      else
        let k := (-e).toNat
        let int := v / 2 ^ k
        let frac := (v % 2 ^ k).toNat
        if frac = 0 then .val ⟨false, 1, int⟩
        else .val ⟨false, 2 * exp2Fix (frac * 2 ^ fixBits / 2 ^ k) + 1, int - fixBits - 1⟩

/-- log2 x (R249): exact at powers of two. -/
def exactLog2 (x : FVal) : Exact :=
  match x with
  | .nan s => .nan s
  | .inf n => if n then .nan true else .inf false 0
  | .fin n m e =>
    if m = 0 then .inf true flagDZ else if n then .nan true
    else
      let l := Nat.log2 m
      let int : Int := l + e
      let g := (m - 2 ^ l) * 2 ^ fixBits / 2 ^ l
      if m = 2 ^ l then .val (Dy.ofInt int 0)
      else
        let r : Int := int * 2 ^ fixBits + log2Fix g
        .val (Dy.ofInt (2 * r + 1) (-(fixBits : Int) - 1))

/-- The integer nearest x in the mode, with NX when it differs (R249). -/
def froundOf (f : Fmt) (rm : Rm) (x : FVal) : FRes :=
  match x with
  | .nan s => f.nan s
  | .inf n => f.inf n
  | .fin n m e =>
    let (r, inexact) := roundUnits rm n m e 0
    if m = 0 then f.zero n else { f.round rm n r 0 with fl := flagIf inexact flagNX }

/-- x × 2^k rounded once (R250). -/
def fscaleOf (f : Fmt) (rm : Rm) (x : FVal) (k : Int) : FRes :=
  match x with
  | .nan s => f.nan s
  | .inf n => f.inf n
  | .fin n m e => if m = 0 then f.zero n else f.round rm n m (e + k)

/-- The exact result of an operation whose result is one rounding away from it. -/
def exactOf (op : FOp) (rm : Rm) (x y w : FVal) : Option Exact :=
  match op with
  | .fadd => some (exactAdd rm x y)
  | .fsub => some (exactAdd rm x y.negate)
  | .fmul => some (exactMul x y)
  | .ffma => some (exactFma rm x y w)
  | .fdiv => some (exactDiv x y)
  | .fsqrt => some (exactSqrt x)
  | .frsq => some (exactRsq x)
  | .frcp => some (exactRcp x)
  | .fexp2 => some (exactExp2 x)
  | .flog2 => some (exactLog2 x)
  | _ => none

/-- An operation of the typed float form in one format: its bits and flags. `k` is fscale's integer (R245 to R250). -/
def floatOp (op : FOp) (t : FTy) (rm : Rm) (a b c : Nat) (k : Int) : FRes :=
  let f := fmtOf t
  match exactOf op rm (f.decode a) (f.decode b) (f.decode c) with
  | some e => e.round f rm
  | none =>
    match op with
    | .fmax => pickMinMax f true a b
    | .fmin => pickMinMax f false a b
    | .fgate => gate f a b
    | .fclamp => clamp f a b
    | .fround => froundOf f rm (f.decode a)
    | .fscale => fscaleOf f rm (f.decode a) k
    | _ => ⟨0, 0⟩

end Sys2Proof.Machine
end

