-- ==== Sys2Proof/Decode.lean ====
section
/-! DEFINITION. Instruction words: the decoder, total on any words and rejecting by name, and the encoder, both from the
encoding tables of 06_encoding (R180 to R198) and the reference chapters. -/

namespace Sys2Proof

/-- Why a word is no instruction (R198). -/
inductive DecodeErr where
  /-- a reserved major opcode, the all-zero and the all-ones word among them -/
  | reservedMajor
  /-- a reserved value of fn, type, mod, scope, order, imm8 or imm16, or a filler that does not hold its value -/
  | reservedField
  /-- an operand code of a class or number its position does not accept, or a second literal -/
  | badOperand
  /-- a chain bit that may not be set -/
  | badChain
  /-- words that would run past slot 2 -/
  | badPlacement
  deriving DecidableEq, Repr

/-! ### Fields of words -/

/-- Major opcode, bits [30:24] (R180). -/
def wMajor (w : Nat) : Nat := w / 2 ^ 24 % 128
/-- Chain bit, bit [31] (R180). -/
def wChain (w : Nat) : Bool := w / 2 ^ 31 % 2 = 1
/-- Bits [23:16] (R184). -/
def wD (w : Nat) : Nat := w / 2 ^ 16 % 256
/-- Bits [15:8] (R184). -/
def wA (w : Nat) : Nat := w / 2 ^ 8 % 256
/-- Bits [7:0] (R184). -/
def wB (w : Nat) : Nat := w % 256
/-- Bits [15:0] (R184). -/
def wImm (w : Nat) : Nat := w % 65536

/-- The body fields of an instruction word. -/
def mkWord (ch : Bool) (maj d a b : Nat) : Nat :=
  (if ch then 2 ^ 31 else 0) + maj * 2 ^ 24 + d * 2 ^ 16 + a * 2 ^ 8 + b

/-- The extension word's fields (R185). -/
structure Ext where
  c : Nat
  fn : Nat
  ty : Nat
  md : Nat
  sc : Nat
  ord : Nat
  hi : Nat
  deriving DecidableEq, Repr

/-- Reading an extension word (R185). -/
def Ext.ofWord (w : Nat) : Ext :=
  { c := w / 2 ^ 24 % 256, fn := w / 2 ^ 18 % 64, ty := w / 2 ^ 12 % 64, md := w / 2 ^ 9 % 8,
    sc := w / 2 ^ 6 % 8, ord := w / 2 ^ 4 % 4, hi := w % 16 }

/-- Writing an extension word (R185). -/
def Ext.toWord (e : Ext) : Nat :=
  e.c * 2 ^ 24 + e.fn * 2 ^ 18 + e.ty * 2 ^ 12 + e.md * 2 ^ 9 + e.sc * 2 ^ 6 + e.ord * 2 ^ 4 + e.hi

/-! ### Operand codes -/

/-- The operand of a code (R186), with its hi bit (R185) and the words behind the instruction, which hold a
literal (R193). -/
def Operand.ofCode (c : Nat) (hi : Bool) (lits : List Nat) : Option Operand :=
  if hi then (if 0xC0 ≤ c ∧ c ≤ 0xCF then some (.s (48 + (c - 0xC0))) else none)
  else if c < 0xC0 then some (.v c)
  else if c < 0xF0 then some (.s (c - 0xC0))
  else if c < 0xF8 then some (.k (c - 0xF0))
  else if c = 0xF8 then some .lane
  else if c = 0xF9 then some .warp
  else if c = 0xFA then some .crew
  else if c = 0xFB then some .tid
  else if c = 0xFC then some .z
  else if c = 0xFE then some (.lit32 (BitVec.ofNat 32 (lits.getD 0 0)))
  else if c = 0xFF then some (.lit64 (BitVec.ofNat 64 (lits.getD 0 0 % 2 ^ 32 + 2 ^ 32 * (lits.getD 1 0 % 2 ^ 32))))
  else none

/-- The code of an operand (R186, R192). -/
def Operand.code : Operand → Nat
  | .v n => n
  | .s n => if n < 48 then 0xC0 + n else 0xC0 + (n - 48)
  | .k n => 0xF0 + n
  | .lane => 0xF8
  | .warp => 0xF9
  | .crew => 0xFA
  | .tid => 0xFB
  | .z => 0xFC
  | .lit32 _ => 0xFE
  | .lit64 _ => 0xFF

/-- The hi bit of an operand (R185). -/
def Operand.hi : Operand → Bool
  | .s n => 48 ≤ n
  | _ => false

/-- The literal words of an operand, lower word first (R193). -/
def Operand.litWords : Operand → List Nat
  | .lit32 w => [w.toNat]
  | .lit64 w => [w.toNat % 2 ^ 32, w.toNat / 2 ^ 32]
  | _ => []

/-- FM's address field (R192). -/
def Operand.ofAddr (c : Nat) : Option Operand :=
  if c < 0xC0 then some (.v c) else if c < 0xF0 then some (.s (c - 0xC0)) else some (.s (48 + (c - 0xF0)))

/-- FM's address code (R192). -/
def Operand.addrCode : Operand → Nat
  | .v n => n
  | .s n => if n < 48 then 0xC0 + n else 0xF0 + (n - 48)
  | _ => 0

/-! ### Sub-field codes -/

/-- Integer type codes (R194). -/
def IntTy.code : IntTy → Nat
  | .i8 => 1 | .i16 => 2 | .i32 => 3 | .i64 => 4 | .n8 => 5 | .n16 => 6 | .n32 => 7 | .n64 => 8
def IntTy.ofCode : Nat → Option IntTy
  | 1 => some .i8 | 2 => some .i16 | 3 => some .i32 | 4 => some .i64
  | 5 => some .n8 | 6 => some .n16 | 7 => some .n32 | 8 => some .n64 | _ => none
/-- Float type codes (R194). -/
def FTy.code : FTy → Nat
  | .f32 => 9 | .f16 => 10 | .bf16 => 11
def FTy.ofCode : Nat → Option FTy
  | 9 => some .f32 | 10 => some .f16 | 11 => some .bf16 | _ => none
/-- 8-bit format codes (R194): 0x10, 0x18, 0x30 and 0x38, plus K. -/
def F8Ty.code (t : F8Ty) : Nat := 0x10 + (if t.uns then 8 else 0) + (if t.inf then 0x20 else 0) + t.k
def F8Ty.ofCode (c : Nat) : Option F8Ty :=
  if 0x10 < c ∧ c < 0x18 then some ⟨c - 0x10, false, false⟩
  else if 0x18 < c ∧ c < 0x20 then some ⟨c - 0x18, true, false⟩
  else if 0x30 < c ∧ c < 0x38 then some ⟨c - 0x30, false, true⟩
  else if 0x38 < c ∧ c < 0x40 then some ⟨c - 0x38, true, true⟩
  else none
def Ty.code : Ty → Nat
  | .int t => t.code | .flt t => t.code | .f8 t => t.code
def Ty.ofCode (c : Nat) : Option Ty :=
  if c ≤ 8 then (IntTy.ofCode c).map .int
  else if c ≤ 11 then (FTy.ofCode c).map .flt
  else (F8Ty.ofCode c).map .f8
def RMod.code : RMod → Nat
  | .mode => 0 | .rne => 1 | .rz => 2 | .rd => 3 | .ru => 4
def RMod.ofCode : Nat → Option RMod
  | 0 => some .mode | 1 => some .rne | 2 => some .rz | 3 => some .rd | 4 => some .ru | _ => none
/-- Scope encodings (R13). -/
def Scope.code : Scope → Nat
  | .thread => 0 | .warp => 1 | .crew => 2 | .gang => 3 | .device => 4 | .pool => 5 | .system => 6
def Scope.ofCode : Nat → Option Scope
  | 0 => some .thread | 1 => some .warp | 2 => some .crew | 3 => some .gang
  | 4 => some .device | 5 => some .pool | 6 => some .system | _ => none
def Order.code : Order → Nat
  | .none => 0 | .acq => 1 | .rel => 2 | .acqrel => 3
def Order.ofCode : Nat → Option Order
  | 0 => some .none | 1 => some .acq | 2 => some .rel | 3 => some .acqrel | _ => none
def Cond.code : Cond → Nat
  | .eq => 0 | .ne => 1 | .lt => 2 | .le => 3 | .gt => 4 | .ge => 5
def Cond.ofCode : Nat → Option Cond
  | 0 => some .eq | 1 => some .ne | 2 => some .lt | 3 => some .le | 4 => some .gt | 5 => some .ge | _ => none
def FCond.code : FCond → Nat
  | .eq => 0 | .ne => 1 | .lt => 2 | .le => 3 | .gt => 4 | .ge => 5 | .un => 6 | .ord => 7
def FCond.ofCode : Nat → Option FCond
  | 0 => some .eq | 1 => some .ne | 2 => some .lt | 3 => some .le | 4 => some .gt | 5 => some .ge
  | 6 => some .un | 7 => some .ord | _ => none
def VoteKind.code : VoteKind → Nat
  | .all => 0 | .any => 1 | .ballot => 2 | .eq => 3
def VoteKind.ofCode : Nat → Option VoteKind
  | 0 => some .all | 1 => some .any | 2 => some .ballot | 3 => some .eq | _ => none
def RedOp.code : RedOp → Nat
  | .add => 0 | .min => 1 | .max => 2 | .and => 3 | .or => 4 | .xor => 5
def RedOp.ofCode : Nat → Option RedOp
  | 0 => some .add | 1 => some .min | 2 => some .max | 3 => some .and | 4 => some .or | 5 => some .xor | _ => none
/-- FM width codes (R184). -/
def Width.code : Width → Nat
  | .n8 => 0 | .i8 => 1 | .n16 => 2 | .i16 => 3 | .w32 => 4 | .w64 => 5 | .w128 => 6
def Width.ofCode : Nat → Option Width
  | 0 => some .n8 | 1 => some .i8 | 2 => some .n16 | 3 => some .i16 | 4 => some .w32 | 5 => some .w64
  | 6 => some .w128 | _ => none
def AtomOp.code : AtomOp → Nat
  | .add => 0 | .min => 1 | .max => 2 | .and => 3 | .or => 4 | .xor => 5 | .exch => 6 | .cas => 7
def AtomOp.ofCode : Nat → Option AtomOp
  | 0 => some .add | 1 => some .min | 2 => some .max | 3 => some .and | 4 => some .or | 5 => some .xor
  | 6 => some .exch | 7 => some .cas | _ => none
/-- Type and mod fields of an atomic (R273). -/
def AtomTy.codes : AtomTy → Nat × Nat
  | .int t => (t.code, 0) | .flt t => (t.code, 0) | .w128 => (0, 1)
def AtomTy.ofCodes (ty md : Nat) : Option AtomTy :=
  if md = 1 then (if ty = 0 then some .w128 else none)
  else if md = 0 then
    (if ty ≤ 8 then (IntTy.ofCode ty).map .int else (FTy.ofCode ty).map .flt)
  else none
def RedTy.code : RedTy → Nat
  | .int t => t.code | .flt t => t.code
def RedTy.ofCode (c : Nat) : Option RedTy :=
  if c ≤ 8 then (IntTy.ofCode c).map .int else (FTy.ofCode c).map .flt
def MTy.code : MTy → Nat
  | .f8 t => t.code | .f16 => 10 | .bf16 => 11
def MTy.ofCode (c : Nat) : Option MTy :=
  if c = 10 then some .f16 else if c = 11 then some .bf16 else (F8Ty.ofCode c).map .f8
def CpyTy.code : CpyTy → Nat
  | .raw => 0 | .values t => t.code | .codes => 12
def CpyTy.ofCode (c : Nat) : Option CpyTy :=
  if c = 0 then some .raw else if c = 12 then some .codes else (FTy.ofCode c).map .values
/-- The typed integer form's fn and raw b byte (R218); `none` for a b field that is an operand. -/
def IntOp.codes : IntOp → Nat × Option Nat
  | .add => (1, none) | .sub => (2, none) | .mul => (3, none) | .mulh => (4, none) | .mad => (5, none)
  | .div => (6, none) | .rem => (7, none) | .min => (8, none) | .max => (9, none) | .and => (10, none)
  | .or => (11, none) | .xor => (12, none) | .not => (13, none) | .shl => (14, none) | .shr => (15, none)
  | .sar => (16, none) | .rot => (17, none)
  | .shlImm n => (18, some n) | .shrImm n => (18, some (0x40 + n))
  | .sarImm n => (18, some (0x80 + n)) | .rotImm n => (18, some (0xC0 + n))
  | .clz => (19, some 0) | .ctz => (19, some 1) | .popc => (19, some 2)
  | .bfx => (20, none) | .bfi => (21, none) | .addImm n => (22, some n)
def IntOp.ofCodes (fn b : Nat) : Option IntOp :=
  match fn with
  | 1 => some .add | 2 => some .sub | 3 => some .mul | 4 => some .mulh | 5 => some .mad
  | 6 => some .div | 7 => some .rem | 8 => some .min | 9 => some .max | 10 => some .and
  | 11 => some .or | 12 => some .xor | 13 => some .not | 14 => some .shl | 15 => some .shr
  | 16 => some .sar | 17 => some .rot
  | 18 => if b < 0x40 then some (.shlImm b) else if b < 0x80 then some (.shrImm (b - 0x40))
          else if b < 0xC0 then some (.sarImm (b - 0x80)) else some (.rotImm (b - 0xC0))
  | 19 => if b = 0 then some .clz else if b = 1 then some .ctz else if b = 2 then some .popc else none
  | 20 => some .bfx | 21 => some .bfi | 22 => some (.addImm b)
  | _ => none
/-- The b field of the operation holds a raw byte (R218). -/
def IntOp.rawB (fn : Nat) : Bool := fn == 18 || fn == 19 || fn == 22
/-- The typed float form's fn of an operation (R254). -/
def FOp.code : FOp → Nat
  | .fsqrt => 0 | .frsq => 1 | .frcp => 2 | .fexp2 => 3 | .flog2 => 4 | .fround => 5
  | .fadd => 0x20 | .fsub => 0x23 | .fmul => 0x26 | .ffma => 0x29 | .fmax => 0x2C | .fmin => 0x2F
  | .fgate => 0x32 | .fclamp => 0x35 | .fdiv => 0x38 | .fscale => 0x3C
def FOp.ofCode (c : Nat) : Option FOp :=
  match c with
  | 0 => some .fsqrt | 1 => some .frsq | 2 => some .frcp | 3 => some .fexp2 | 4 => some .flog2 | 5 => some .fround
  | 0x20 => some .fadd | 0x23 => some .fsub | 0x26 => some .fmul | 0x29 => some .ffma | 0x2C => some .fmax
  | 0x2F => some .fmin | 0x32 => some .fgate | 0x35 => some .fclamp | 0x38 => some .fdiv | 0x3C => some .fscale
  | _ => none

/-! ### Decoding -/

/-- A one-word form's operand: no hi bit, literal words right behind it. -/
def op1 (c : Nat) (rest : List Nat) : Option Operand := Operand.ofCode c false rest

/-- F3: d, a and b are operands. -/
def decF3 (w : Nat) (rest : List Nat) (f : Operand → Operand → Operand → Instr) : Option Instr := do
  some (f (← op1 (wD w) rest) (← op1 (wA w) rest) (← op1 (wB w) rest))

/-- F2I: d and a are operands, the low byte is a number the instruction reads. -/
def decF2 (w : Nat) (rest : List Nat) (f : Operand → Operand → Nat → Option Instr) : Option Instr := do
  f (← op1 (wD w) rest) (← op1 (wA w) rest) (wB w)

/-- A field that must hold z (R184). -/
def isZ (c : Nat) : Option Unit := if c = 0xFC then some () else none
/-- A field that must hold zero, or any condition on fields. -/
def need (b : Bool) : Option Unit := if b then some () else none

/-- Majors 0x01 to 0x17, the one-word integer forms. -/
def decInt1 (w : Nat) (r : List Nat) : Option Instr :=
  match wMajor w with
  | 0x01 => decF3 w r .add | 0x02 => decF3 w r .sub | 0x03 => decF3 w r .mul | 0x04 => decF3 w r .mulh
  | 0x05 => decF3 w r .mad | 0x06 => decF3 w r .div | 0x07 => decF3 w r .rem | 0x08 => decF3 w r .min
  | 0x09 => decF3 w r .max | 0x0A => decF3 w r .and | 0x0B => decF3 w r .or | 0x0C => decF3 w r .xor
  | 0x0D => decF2 w r fun d a b => if b = 0xFC then some (.not d a) else none
  | 0x0E => decF3 w r .shl | 0x0F => decF3 w r .shr | 0x10 => decF3 w r .sar | 0x11 => decF3 w r .rot
  | 0x12 => decF2 w r fun d a b =>
    if b < 0x40 then some (.shlImm d a b) else if b < 0x80 then some (.shrImm d a (b - 0x40))
    else if b < 0xC0 then some (.sarImm d a (b - 0x80)) else some (.rotImm d a (b - 0xC0))
  | 0x13 => decF2 w r fun d a b =>
    if b = 0 then some (.clz d a) else if b = 1 then some (.ctz d a)
    else if b = 2 then some (.popc d a) else none
  | 0x14 => decF3 w r .bfx | 0x15 => decF3 w r .bfi
  | 0x16 => decF2 w r fun d a b => some (.addImm d a b)
  | 0x17 => (op1 (wD w) r).map fun d => .movi d (wImm w)
  | _ => none

/-- Majors 0x20 to 0x39, 0x3B and 0x3C, the one-word float forms. -/
def decFlt1 (w : Nat) (r : List Nat) : Option Instr :=
  let c := wChain w
  match wMajor w with
  | 0x20 => decF3 w r (.faddF32 c) | 0x21 => decF3 w r (.faddF16 c) | 0x22 => decF3 w r (.faddBf16 c)
  | 0x23 => decF3 w r (.fsubF32 c) | 0x24 => decF3 w r (.fsubF16 c) | 0x25 => decF3 w r (.fsubBf16 c)
  | 0x26 => decF3 w r (.fmulF32 c) | 0x27 => decF3 w r (.fmulF16 c) | 0x28 => decF3 w r (.fmulBf16 c)
  | 0x29 => decF3 w r (.ffmaF32 c) | 0x2A => decF3 w r (.ffmaF16 c) | 0x2B => decF3 w r (.ffmaBf16 c)
  | 0x2C => decF3 w r (.fmaxF32 c) | 0x2D => decF3 w r (.fmaxF16 c) | 0x2E => decF3 w r (.fmaxBf16 c)
  | 0x2F => decF3 w r (.fminF32 c) | 0x30 => decF3 w r (.fminF16 c) | 0x31 => decF3 w r (.fminBf16 c)
  | 0x32 => decF3 w r (.fgateF32 c) | 0x33 => decF3 w r (.fgateF16 c) | 0x34 => decF3 w r (.fgateBf16 c)
  | 0x35 => decF3 w r (.fclampF32 c) | 0x36 => decF3 w r (.fclampF16 c) | 0x37 => decF3 w r (.fclampBf16 c)
  | 0x38 => decF3 w r (.fdivF32 c)
  | 0x39 => decF2 w r fun d a b => do
    let t ← FTy.ofCode (9 + b % 16)
    match b / 16 with
    | 0 => some (.fsqrt c t d a) | 1 => some (.frsq c t d a) | 2 => some (.frcp c t d a)
    | 3 => some (.fexp2 c t d a) | 4 => some (.flog2 c t d a) | 5 => some (.fround c t d a)
    | _ => none
  | 0x3B => decF2 w r fun d a b => do
    some (.fcvt c (← Ty.ofCode (b / 16)) (← Ty.ofCode (b % 16)) d a)
  | 0x3C => decF3 w r (.fscaleF32 c)
  | _ => none

/-- Majors 0x40 to 0x48, the one-word lane and mask forms. -/
def decLane1 (w : Nat) (r : List Nat) : Option Instr :=
  match wMajor w with
  | 0x40 => decF3 w r .vshfl
  | 0x41 => decF2 w r fun d a b => some (.vbcast d a b)
  | 0x42 => decF2 w r fun d a b => do some (.vvote (← VoteKind.ofCode b) d a)
  | 0x45 => decF2 w r fun d a b => if d = .z ∧ a = .z then some (.mjoin b) else none
  | 0x46 => decF2 w r fun d a b => if d = .z ∧ a = .z then some (.mleave b) else none
  | 0x47 => decF2 w r fun d a b => if d = .z ∧ a = .z then some (.mwait b) else none
  | 0x48 => decF2 w r fun d a b => some (.mwaitt d a b)
  | _ => none

/-- Majors 0x50 to 0x5D, the one-word control forms. -/
def decCtl1 (w : Nat) (r : List Nat) : Option Instr :=
  match wMajor w with
  | 0x50 => if wD w = 0xFC then some (.bra (wImm w)) else none
  | 0x51 => (op1 (wD w) r).map fun c => .brc c (wImm w)
  | 0x52 => (op1 (wD w) r).map fun c => .brcZ c (wImm w)
  | 0x53 => (op1 (wD w) r).map fun c => .call c (wImm w)
  | 0x54 => decF2 w r fun d a b => if d = .z ∧ b = 0xFC then some (.ret a) else none
  | 0x55 => decF2 w r fun d a b => if d = .z ∧ a = .z ∧ b = 0xFC then some .exit else none
  | 0x56 => decF2 w r fun d a b => if d = .z then some (.reform a b) else none
  | 0x57 => decF2 w r fun d a b => if a = .z ∧ b = 0xFC then some (.stagenext d) else none
  | 0x5A => decF2 w r fun d a b =>
    if d ≠ .z then none else
    if b < 0x10 then some (.bar a b) else if b < 0x20 then some (.barArrive a (b - 0x10))
    else if b < 0x30 then some (.barGang a (b - 0x20)) else if b < 0x40 then some (.barGangArrive a (b - 0x30))
    else none
  | 0x5B => decF2 w r fun d a b => if d = .z ∧ a = .z ∧ b = 0xFC then some .yieldOp else none
  | 0x5C => decF2 w r fun d a b => if d = .z ∧ b = 0 then some (.sleep a) else none
  | 0x5D => if w % 2 ^ 24 = 0 then some .nop else none
  | _ => none

/-- FM: data operand, address, scope, order and width (R184). -/
def decFM (w : Nat) (r : List Nat) (f : Width → Order → Scope → Operand → Operand → Instr) : Option Instr := do
  some (f (← Width.ofCode (wB w % 8)) (← Order.ofCode (wB w / 8 % 4)) (← Scope.ofCode (wB w / 32))
    (← op1 (wD w) r) (← Operand.ofAddr (wA w)))

/-- Majors 0x60 to 0x6E with one word. -/
def decMem1 (w : Nat) (r : List Nat) : Option Instr :=
  match wMajor w with
  | 0x60 => decFM w r .ldG | 0x61 => decFM w r .ldX | 0x62 => decFM w r .stG | 0x63 => decFM w r .stX
  | 0x64 => do
    need (wD w = 0xFC && wB w / 8 = 16)
    some (.prf (← Width.ofCode (wB w % 8)) (← Operand.ofAddr (wA w)))
  | 0x67 => decF2 w r fun d a b =>
    if d = .z ∧ a = .z then (Scope.ofCode b).map .fence else none
  | 0x6A => decF2 w r fun d a b => if b = 0xFC then some (.tkdrop d a) else none
  | 0x6B => decF2 w r fun d a b => if b = 0xFC then some (.tkstat d a) else none
  | 0x6D => decF2 w r fun d a b => if b = 0xFC then some (.lfree d a) else none
  | 0x6E => decF2 w r fun d a b => if b = 0xFC then some (.lquota d a) else none
  | _ => none

/-- Majors 0x73, 0x75 and 0x78 to 0x7E, one word. -/
def decSys1 (w : Nat) (r : List Nat) : Option Instr :=
  match wMajor w with
  | 0x73 => decF2 w r fun d a b => if d = .z ∧ a = .z then some (.qfence b) else none
  | 0x75 => decF3 w r .tagset
  | 0x78 => decF2 w r fun d a b => if d = .z ∧ a = .z then some (.trap b) else none
  | 0x79 => decF2 w r fun d a b => if d = .z ∧ a = .z ∧ b = 0xFC then some .trapret else none
  | 0x7A => decF2 w r fun d a b => if d = .z ∧ b = 0xFC then some (.trapsupply a) else none
  | 0x7B => (op1 (wD w) r).map fun d => .csrr d (wImm w)
  | 0x7C => (op1 (wD w) r).map fun d => .csrw d (wImm w)
  | 0x7D => decF2 w r fun d a b =>
    if d ≠ .z then none else
    if b = 0 then some (.flsave a 0) else if b = 1 then some (.flrestore a 0)
    else if b = 2 then some (.flsave a 1) else if b = 3 then some (.flrestore a 1) else none
  | 0x7E => decF2 w r fun d a b =>
    if d = .z ∧ a = .z then (if b < 0x80 then some (.brk b) else if b = 0x80 then some .halt else none) else none
  | _ => none

/-- The fields of an FX instruction: the three operand codes of its first word and its extension word. -/
structure FX where
  d : Nat
  a : Nat
  b : Nat
  e : Ext
  lits : List Nat

/-- Operand d of an FX instruction, with hi bit [3]. -/
def FX.od (x : FX) : Option Operand := Operand.ofCode x.d (x.e.hi / 8 % 2 = 1) x.lits
/-- Operand a, with hi bit [2]. -/
def FX.oa (x : FX) : Option Operand := Operand.ofCode x.a (x.e.hi / 4 % 2 = 1) x.lits
/-- Operand b, with hi bit [1]. -/
def FX.ob (x : FX) : Option Operand := Operand.ofCode x.b (x.e.hi / 2 % 2 = 1) x.lits
/-- Operand c, with hi bit [0]. -/
def FX.oc (x : FX) : Option Operand := Operand.ofCode x.e.c (x.e.hi % 2 = 1) x.lits
/-- Field b holds a raw byte: its hi bit is zero. -/
def FX.rawB (x : FX) : Option Nat := if x.e.hi / 2 % 2 = 0 then some x.b else none
/-- Field c holds a type code or z: its hi bit is zero. -/
def FX.rawC (x : FX) : Option Nat := if x.e.hi % 2 = 0 then some x.e.c else none
/-- An unused operand field holds z and no hi bit (R184). -/
def unused (o : Option Operand) : Option Unit := if o = some .z then some () else none

/-- Majors 0x18 to 0x1B. -/
def decIntX (maj : Nat) (x : FX) : Option Instr :=
  match maj with
  | 0x18 => do
    need (x.e.fn = 0 && x.e.md = 0 && x.e.sc = 0 && x.e.ord = 0)
    let t ← if x.e.ty = 0 then some none else (Ty.ofCode x.e.ty).map some
    some (.sel t (← x.od) (← x.oc) (← x.oa) (← x.ob))
  | 0x19 => do
    need (x.e.md = 0 && x.e.sc = 0 && x.e.ord = 0)
    unused x.oc
    some (.cmp (← Cond.ofCode x.e.fn) (← IntTy.ofCode x.e.ty) (← x.od) (← x.oa) (← x.ob))
  | 0x1A => do
    need (x.e.md = 0 && x.e.sc = 0 && x.e.ord = 0)
    some (.lea (← IntTy.ofCode x.e.ty) x.e.fn (← x.od) (← x.oa) (← x.ob) (← x.oc))
  | 0x1B => do
    need (x.e.md < 2 && x.e.sc = 0 && x.e.ord = 0)
    let b ← if IntOp.rawB x.e.fn then some .z else x.ob
    let raw ← if IntOp.rawB x.e.fn then x.rawB else some 0
    some (.intTyped (← IntOp.ofCodes x.e.fn raw) (← IntTy.ofCode x.e.ty) (x.e.md = 1)
      (← x.od) (← x.oa) b (← x.oc))
  | _ => none

/-- Majors 0x3A, 0x3D, 0x3E and 0x3F. -/
def decFltX (maj : Nat) (x : FX) : Option Instr :=
  match maj with
  | 0x3A => do
    need (x.e.md = 0 && x.e.sc = 0 && x.e.ord = 0)
    unused x.oc
    some (.fcmp (← FCond.ofCode x.e.fn) (← FTy.ofCode x.e.ty) (← x.od) (← x.oa) (← x.ob))
  | 0x3D => do
    need (x.e.fn = 0 && x.e.md = 0 && x.e.sc = 0 && x.e.ord = 0)
    unused x.ob
    some (.fquant (← F8Ty.ofCode x.e.ty) (← FTy.ofCode (← x.rawC)) (← x.od) (← x.oa))
  | 0x3E => do
    need (x.e.fn = 0 && x.e.sc = 0 && x.e.ord = 0)
    unused x.ob
    some (.fdequant (← FTy.ofCode x.e.ty) (← F8Ty.ofCode (← x.rawC)) (← RMod.ofCode x.e.md) (← x.od) (← x.oa))
  | 0x3F => do
    need (x.e.sc = 0 && x.e.ord = 0)
    let m ← RMod.ofCode x.e.md
    if x.e.fn = 0x3B then
      unused x.ob
      some (.floatTyped (.cvt (← Ty.ofCode x.e.ty) (← Ty.ofCode (← x.rawC))) m (← x.od) (← x.oa) .z .z)
    else
      some (.floatTyped (.op (← FOp.ofCode x.e.fn) (← FTy.ofCode x.e.ty)) m (← x.od) (← x.oa) (← x.ob) (← x.oc))
  | _ => none

/-- Majors 0x43, 0x44 and 0x49, and 0x58, 0x59. -/
def decLaneX (maj : Nat) (x : FX) : Option Instr :=
  match maj with
  | 0x43 => do
    need (x.e.fn < 8 && x.e.sc = 0 && x.e.ord = 0)
    unused x.ob
    let t ← RedTy.ofCode x.e.ty
    let op ← RedOp.ofCode x.e.fn
    match t with
    | .int _ => do
      need (x.e.md < 2)
      some (.vred op t (x.e.md = 1) .mode (← x.od) (← x.oa) (← x.oc))
    | .flt _ => do some (.vred op t false (← RMod.ofCode x.e.md) (← x.od) (← x.oa) (← x.oc))
  | 0x44 => do
    need (x.e.fn < 16 && x.e.sc = 0 && x.e.ord = 0)
    unused x.ob
    let t ← RedTy.ofCode x.e.ty
    let op ← RedOp.ofCode (x.e.fn % 8)
    let ex : Bool := x.e.fn / 8 = 1
    match t with
    | .int _ => do
      need (x.e.md < 2)
      some (.vscan op t ex (x.e.md = 1) .mode (← x.od) (← x.oa) (← x.oc))
    | .flt _ => do some (.vscan op t ex false (← RMod.ofCode x.e.md) (← x.od) (← x.oa) (← x.oc))
  | 0x49 => do
    need (x.e.ty = 0 && x.e.md = 0 && x.e.sc = 0 && x.e.ord = 0)
    match x.e.fn with
    | 0 => do some (.vshflMasked (← x.od) (← x.oa) (← x.ob) (← x.oc))
    | 1 => do some (.vbcastMasked (← x.od) (← x.oa) (← x.rawB) (← x.oc))
    | 2 => do some (.vvoteMasked (← VoteKind.ofCode (← x.rawB)) (← x.od) (← x.oa) (← x.oc))
    | _ => none
  | 0x58 => do
    need (x.e.fn = 0 && x.e.ty = 0 && x.e.md = 0 && x.e.sc = 0 && x.e.ord = 0)
    unused x.oc
    some (.qput (← x.od) (← x.oa) (← x.ob))
  | 0x59 => do
    need (x.e.fn = 0 && x.e.ty = 0 && x.e.md = 0 && x.e.sc = 0 && x.e.ord = 0)
    unused x.oc
    unused x.oa
    some (.qtake (← x.od) (← x.ob))
  | _ => none

/-- The loads and stores of 0x6F (R270). -/
def decOffset (x : FX) : Option Instr := do
  need (x.e.fn < 32 && x.e.ty = 0 && x.e.md = 0)
  unused x.oc
  let xs : Bool := x.e.fn / 2 % 2 = 1
  let w ← Width.ofCode (x.e.fn / 4)
  let o ← Order.ofCode x.e.ord
  let sc ← Scope.ofCode x.e.sc
  if x.e.fn % 2 = 0 then some (.ldOffset xs w o sc (← x.od) (← x.oa) (← x.ob))
  else some (.stOffset xs w o sc (← x.od) (← x.oa) (← x.ob))

/-- Majors 0x65, 0x66, 0x68, 0x69, 0x6C and 0x6F. -/
def decMemX (maj : Nat) (x : FX) : Option Instr :=
  match maj with
  | 0x65 => do
    some (.atomG (← AtomOp.ofCode x.e.fn) (← AtomTy.ofCodes x.e.ty x.e.md) (← Order.ofCode x.e.ord)
      (← Scope.ofCode x.e.sc) (← x.od) (← x.oa) (← x.ob) (← x.oc))
  | 0x66 => do
    some (.atomX (← AtomOp.ofCode x.e.fn) (← AtomTy.ofCodes x.e.ty x.e.md) (← Order.ofCode x.e.ord)
      (← Scope.ofCode x.e.sc) (← x.od) (← x.oa) (← x.ob) (← x.oc))
  | 0x68 => do
    need (x.e.fn < 32 && x.e.ty = 0 && x.e.md = 0 && x.e.ord = 0 && x.e.sc = 4)
    unused x.oc
    if x.e.fn / 2 % 2 = 0 then do
      unused x.ob
      some (.ldt (x.e.fn % 2 = 1) (← Width.ofCode (x.e.fn / 4)) (← x.od) (← x.oa))
    else do
      need (x.e.fn < 4)
      some (.ldtBlock (x.e.fn % 2 = 1) (← x.od) (← x.oa) (← x.ob))
  | 0x69 => do
    need (x.e.fn < 4 && x.e.ty = 0 && x.e.md = 0 && x.e.ord = 0 && x.e.sc = 0)
    if x.e.fn % 2 = 0 then do
      unused x.ob
      some (.redeem (x.e.fn / 2 = 1) (← x.od) (← x.oa) (← x.oc))
    else do
      unused x.od
      some (.redeemX (x.e.fn / 2 = 1) (← x.oa) (← x.ob) (← x.oc))
  | 0x6C => do
    need (x.e.fn = 0 && x.e.ty = 0 && x.e.md = 0 && x.e.ord = 0 && x.e.sc = 0)
    some (.lalloc (← x.od) (← x.oa) (← x.ob) (← x.oc))
  | 0x6F => decOffset x
  | _ => none

/-- The check field of a cpy: none, .crc in fn[2], .held in mod[10] (R299). -/
def decCpyMod (crc held : Bool) : Option CpyMod :=
  match crc, held with
  | false, false => some .plain
  | true, false => some .crc
  | false, true => some .held
  | true, true => none

/-- Major 0x74 (R313). -/
def decMat (x : FX) : Option Instr := do
  need (x.e.sc = 0)
  unused x.oc
  match x.e.fn with
  | 0 => do
    unused x.od
    match x.e.md with
    | 0 => do
      need (x.e.ord = 0)
      some (.mload (.packed (← F8Ty.ofCode x.e.ty)) (← x.oa) (← x.ob))
    | 1 => do
      need (x.e.ord = 0)
      some (.mload (.tile (← MTy.ofCode x.e.ty)) (← x.oa) (← x.ob))
    | 2 => do
      need (x.e.ord = 0)
      some (.mload (.image (← F8Ty.ofCode x.e.ty)) (← x.oa) (← x.ob))
    | 3 => do
      need (x.e.ty = 9)
      some (.mload (.acc x.e.ord) (← x.oa) (← x.ob))
    | _ => none
  | 1 => do
    need (x.e.ty = 0 && x.e.md = 0 && x.e.ord = 0)
    unused x.od
    unused x.oa
    unused x.ob
    some .mswap
  | 2 => do
    unused x.od
    unused x.ob
    some (.mmul (x.e.md % 4) (x.e.md / 4 = 1) (← MTy.ofCode x.e.ty) x.e.ord (← x.oa))
  | 3 => do
    need (x.e.ty = 0)
    let f ← match x.e.md with
      | 0 => some .xf32 | 1 => some .xbf16 | 2 => some .vreg | 3 => some .glob | 4 => some .globAdd | _ => none
    some (.mdrain f x.e.ord (← x.od) (← x.oa) (← x.ob))
  | 4 => do
    need (x.e.ty = 0 && x.e.md = 0 && x.e.ord = 0)
    unused x.ob
    some (.mtask (← x.od) (← x.oa))
  | _ => none

/-- Majors 0x70 to 0x77, the FX engine forms. (DESIGN CHOICE: notes/assumptions/127.) -/
def decEngX (maj : Nat) (x : FX) : Option Instr :=
  match maj with
  | 0x70 => do
    need (x.e.sc = 0 && x.e.ord = 0 && (x.e.md = 0 || x.e.md = 2))
    let m ← decCpyMod (x.e.fn / 4 % 2 = 1) (x.e.md = 2)
    let arr : Bool := x.e.fn / 8 % 2 = 1
    let q := x.e.fn / 16
    if x.e.fn % 2 = 0 then do
      need (x.e.fn / 2 % 2 = 0)
      some (.cpyLd (← CpyTy.ofCode x.e.ty) q m arr (← x.od) (← x.oa) (← x.ob) (← x.oc))
    else do
      need (x.e.ty = 0)
      some (.cpySt (x.e.fn / 2 % 2 = 1) q m arr (← x.od) (← x.oa) (← x.ob) (← x.oc))
  | 0x71 => do
    need (x.e.fn < 8 && x.e.ty = 0 && x.e.sc = 0 && x.e.ord = 0 && (x.e.md = 0 || x.e.md = 2))
    unused x.ob
    unused x.oc
    some (.bulk (x.e.fn % 2 = 1) (x.e.fn / 2 % 2 = 1) (x.e.fn / 4 = 1) (x.e.md = 2) (← x.od) (← x.oa))
  | 0x72 => do
    need (x.e.ty = 0 && x.e.md = 0 && x.e.sc = 0 && x.e.ord = 0)
    unused x.oc
    match x.e.fn with
    | 0 => do some (.arminit (← x.od) (← x.oa) (← x.ob))
    | 1 => do
      unused x.od
      some (.arrive (← x.oa) (← x.ob))
    | 2 => do
      unused x.ob
      some (.await (← x.od) (← x.oa))
    | _ => none
  | 0x74 => decMat x
  | 0x76 => do
    need (x.e.ord = 0)
    match x.e.fn with
    | 0 => do
      need (x.e.ty = 0 && x.e.md < 2)
      unused x.ob
      unused x.oc
      some (.ctload (x.e.md = 1) x.e.sc (← x.od) (← x.oa))
    | 1 => do
      need (x.e.ty = 0 && x.e.md < 2)
      unused x.ob
      unused x.oc
      some (.ctsave (x.e.md = 1) x.e.sc (← x.od) (← x.oa))
    | 2 => do
      need (x.e.md = 0 && x.e.sc = 0)
      some (.kvput (← FTy.ofCode x.e.ty) (← x.od) (← x.oa) (← x.ob) (← x.oc))
    | _ => none
  | 0x77 => do
    need (x.e.ty = 0 && x.e.sc = 0 && x.e.ord = 0)
    match x.e.fn with
    | 0 => do
      need (x.e.md < 2)
      some (.bin (x.e.md = 1) (← x.od) (← x.oa) (← x.ob) (← x.oc))
    | 1 => do
      need (x.e.md = 0 || x.e.md = 2)
      unused x.oc
      some (.spawn (x.e.md = 2) (← x.od) (← x.oa) (← x.ob))
    | 2 => do
      need (x.e.md = 0)
      unused x.ob
      unused x.oc
      some (.cancel (← x.od) (← x.oa))
    | _ => none
  | _ => none

/-- The majors whose format is FX (R197). -/
def isFXMajor (m : Nat) : Bool :=
  [0x18, 0x19, 0x1A, 0x1B, 0x3A, 0x3D, 0x3E, 0x3F, 0x43, 0x44, 0x49, 0x58, 0x59, 0x65, 0x66, 0x68, 0x69,
   0x6C, 0x6F, 0x70, 0x71, 0x72, 0x74, 0x76, 0x77].contains m

/-- The majors the map reserves (R197). -/
def isReservedMajor (m : Nat) : Bool :=
  m == 0 || (0x1C ≤ m && m ≤ 0x1F) || (0x4A ≤ m && m ≤ 0x4F) || m == 0x5E || m == 0x5F || m == 0x7F

/-- A word is flume-capable when its major lies in 0x20 to 0x3F (R195). -/
def isFlumeMajor (m : Nat) : Bool := 0x20 ≤ m && m ≤ 0x3F

/-- The instruction that the fields name, before operand classes and literals are checked. -/
def parse (w : Nat) (rest : List Nat) : Option Instr :=
  let m := wMajor w
  if isFXMajor m then
    let x : FX := { d := wD w, a := wA w, b := wB w, e := Ext.ofWord (rest.getD 0 0), lits := rest.drop 1 }
    if m < 0x20 then decIntX m x else if m < 0x40 then decFltX m x
    else if m < 0x60 then decLaneX m x else if m < 0x70 then decMemX m x else decEngX m x
  else if m < 0x20 then decInt1 w rest else if m < 0x40 then decFlt1 w rest
  else if m < 0x50 then decLane1 w rest else if m < 0x60 then decCtl1 w rest
  else if m < 0x70 then decMem1 w rest else decSys1 w rest

/-- Decoding the instruction whose first word is the head of `ws`, the words from its slot to the end of its
packet (R181, R182). Answers the instruction; its length is `Instr.len`. -/
def decode (ws : List Nat) : Except DecodeErr Instr :=
  match ws with
  | [] => .error .badPlacement
  | w :: rest =>
    if isReservedMajor (wMajor w) then .error .reservedMajor
    else if wChain w && (isFXMajor (wMajor w) || !isFlumeMajor (wMajor w)) then .error .badChain
    else match parse w rest with
      | none => .error .reservedField
      | some i =>
        if ws.length < i.len then .error .badPlacement
        else if i.wf then .ok i else .error .badOperand

/-- The instruction read from a table word (R180 to R182): its words from the lowest, in slots 0, 1 and 2,
with zero words behind them. -/
def decodeTableWord (_nbits w : Nat) : Option Instr :=
  (decode [w % 2 ^ 32, w / 2 ^ 32 % 2 ^ 32, w / 2 ^ 64 % 2 ^ 32]).toOption

/-! ### Encoding -/

/-- One word and the literal words of its operands. -/
def enc1 (ch : Bool) (maj d a b : Nat) (ops : List Operand) : List Nat :=
  mkWord ch maj d a b :: (ops.map Operand.litWords).flatten

/-- F3. -/
def encF3 (maj : Nat) (d a b : Operand) (ch : Bool := false) : List Nat :=
  enc1 ch maj d.code a.code b.code [d, a, b]
/-- F2I. -/
def encF2 (maj : Nat) (d a : Operand) (imm : Nat) (ch : Bool := false) : List Nat :=
  enc1 ch maj d.code a.code imm [d, a]
/-- FK and FB. -/
def encK (maj : Nat) (d : Operand) (imm : Nat) : List Nat :=
  enc1 false maj d.code (imm / 256) (imm % 256) [d]
/-- FM. -/
def encM (maj : Nat) (w : Width) (o : Order) (sc : Scope) (d a : Operand) : List Nat :=
  enc1 false maj d.code a.addrCode (sc.code * 32 + o.code * 8 + w.code) [d]

/-- The hi field of four operands (R185). -/
def hiBits (d a b c : Operand) : Nat :=
  (if d.hi then 8 else 0) + (if a.hi then 4 else 0) + (if b.hi then 2 else 0) + (if c.hi then 1 else 0)

/-- FX with operands d, a, b and c. -/
def encX (maj : Nat) (d a b c : Operand) (fn ty md sc ord : Nat) : List Nat :=
  mkWord false maj d.code a.code b.code
    :: Ext.toWord ⟨c.code, fn, ty, md, sc, ord, hiBits d a b c⟩
    :: ([d, a, b, c].map Operand.litWords).flatten

/-- FX with a raw byte in field b. -/
def encXb (maj : Nat) (d a : Operand) (b : Nat) (c : Operand) (fn ty md sc ord : Nat) : List Nat :=
  mkWord false maj d.code a.code b
    :: Ext.toWord ⟨c.code, fn, ty, md, sc, ord, hiBits d a .z c⟩
    :: ([d, a, c].map Operand.litWords).flatten

/-- FX with a type code in field c. -/
def encXc (maj : Nat) (d a b : Operand) (c fn ty md sc ord : Nat) : List Nat :=
  mkWord false maj d.code a.code b.code
    :: Ext.toWord ⟨c, fn, ty, md, sc, ord, hiBits d a b .z⟩
    :: ([d, a, b].map Operand.litWords).flatten

/-- mod codes of a Bool in bit [9]. -/
def b2n (b : Bool) : Nat := if b then 1 else 0

/-- The words of a well-formed instruction, in address order (R182); empty for a step without an encoding. -/
def encode : Instr → List Nat
  | .add d a b => encF3 0x01 d a b
  | .sub d a b => encF3 0x02 d a b
  | .mul d a b => encF3 0x03 d a b
  | .mulh d a b => encF3 0x04 d a b
  | .mad d a b => encF3 0x05 d a b
  | .div d a b => encF3 0x06 d a b
  | .rem d a b => encF3 0x07 d a b
  | .min d a b => encF3 0x08 d a b
  | .max d a b => encF3 0x09 d a b
  | .and d a b => encF3 0x0A d a b
  | .or d a b => encF3 0x0B d a b
  | .xor d a b => encF3 0x0C d a b
  | .not d a => encF2 0x0D d a 0xFC
  | .shl d a b => encF3 0x0E d a b
  | .shr d a b => encF3 0x0F d a b
  | .sar d a b => encF3 0x10 d a b
  | .rot d a b => encF3 0x11 d a b
  | .shlImm d a n => encF2 0x12 d a n
  | .shrImm d a n => encF2 0x12 d a (0x40 + n)
  | .sarImm d a n => encF2 0x12 d a (0x80 + n)
  | .rotImm d a n => encF2 0x12 d a (0xC0 + n)
  | .clz d a => encF2 0x13 d a 0
  | .ctz d a => encF2 0x13 d a 1
  | .popc d a => encF2 0x13 d a 2
  | .bfx d a b => encF3 0x14 d a b
  | .bfi d a b => encF3 0x15 d a b
  | .addImm d a n => encF2 0x16 d a n
  | .movi d n => encK 0x17 d n
  | .sel t d c a b => encX 0x18 d a b c 0 ((t.map Ty.code).getD 0) 0 0 0
  | .cmp cc t d a b => encX 0x19 d a b .z cc.code t.code 0 0 0
  | .lea t sh d a b c => encX 0x1A d a b c sh t.code 0 0 0
  | .intTyped op t sat d a b c =>
    match op.codes.2 with
    | none => encX 0x1B d a b c op.codes.1 t.code (b2n sat) 0 0
    | some n => encXb 0x1B d a n c op.codes.1 t.code (b2n sat) 0 0
  | .faddF32 c d a b => encF3 0x20 d a b c
  | .faddF16 c d a b => encF3 0x21 d a b c
  | .faddBf16 c d a b => encF3 0x22 d a b c
  | .fsubF32 c d a b => encF3 0x23 d a b c
  | .fsubF16 c d a b => encF3 0x24 d a b c
  | .fsubBf16 c d a b => encF3 0x25 d a b c
  | .fmulF32 c d a b => encF3 0x26 d a b c
  | .fmulF16 c d a b => encF3 0x27 d a b c
  | .fmulBf16 c d a b => encF3 0x28 d a b c
  | .ffmaF32 c d a b => encF3 0x29 d a b c
  | .ffmaF16 c d a b => encF3 0x2A d a b c
  | .ffmaBf16 c d a b => encF3 0x2B d a b c
  | .fmaxF32 c d a b => encF3 0x2C d a b c
  | .fmaxF16 c d a b => encF3 0x2D d a b c
  | .fmaxBf16 c d a b => encF3 0x2E d a b c
  | .fminF32 c d a b => encF3 0x2F d a b c
  | .fminF16 c d a b => encF3 0x30 d a b c
  | .fminBf16 c d a b => encF3 0x31 d a b c
  | .fgateF32 c d a b => encF3 0x32 d a b c
  | .fgateF16 c d a b => encF3 0x33 d a b c
  | .fgateBf16 c d a b => encF3 0x34 d a b c
  | .fclampF32 c d a b => encF3 0x35 d a b c
  | .fclampF16 c d a b => encF3 0x36 d a b c
  | .fclampBf16 c d a b => encF3 0x37 d a b c
  | .fdivF32 c d a b => encF3 0x38 d a b c
  | .fsqrt c t d a => encF2 0x39 d a (t.code - 9) c
  | .frsq c t d a => encF2 0x39 d a (0x10 + (t.code - 9)) c
  | .frcp c t d a => encF2 0x39 d a (0x20 + (t.code - 9)) c
  | .fexp2 c t d a => encF2 0x39 d a (0x30 + (t.code - 9)) c
  | .flog2 c t d a => encF2 0x39 d a (0x40 + (t.code - 9)) c
  | .fround c t d a => encF2 0x39 d a (0x50 + (t.code - 9)) c
  | .fcvt c dt st d a => encF2 0x3B d a (dt.code * 16 + st.code) c
  | .fscaleF32 c d a b => encF3 0x3C d a b c
  | .fcmp cc t d a b => encX 0x3A d a b .z cc.code t.code 0 0 0
  | .fquant dt st d a => encXc 0x3D d a .z st.code 0 dt.code 0 0 0
  | .fdequant dt st m d a => encXc 0x3E d a .z st.code 0 dt.code m.code 0 0
  | .floatTyped f m d a b c =>
    match f with
    | .cvt dt st => encXc 0x3F d a .z st.code 0x3B dt.code m.code 0 0
    | .op o t => encX 0x3F d a b c o.code t.code m.code 0 0
  | .vshfl d a b => encF3 0x40 d a b
  | .vbcast d a l => encF2 0x41 d a l
  | .vvote k d a => encF2 0x42 d a k.code
  | .vshflMasked d a b m => encX 0x49 d a b m 0 0 0 0 0
  | .vbcastMasked d a l m => encXb 0x49 d a l m 1 0 0 0 0
  | .vvoteMasked k d a m => encXb 0x49 d a k.code m 2 0 0 0 0
  | .vred op t sat rm d a m => encX 0x43 d a .z m op.code t.code (rm.code + b2n sat) 0 0
  | .vscan op t ex sat rm d a m => encX 0x44 d a .z m (op.code + 8 * b2n ex) t.code (rm.code + b2n sat) 0 0
  | .mjoin k => encF2 0x45 .z .z k
  | .mleave k => encF2 0x46 .z .z k
  | .mwait k => encF2 0x47 .z .z k
  | .mwaitt d a k => encF2 0x48 d a k
  | .bra o => encK 0x50 .z o
  | .brc c o => encK 0x51 c o
  | .brcZ c o => encK 0x52 c o
  | .call c o => encK 0x53 c o
  | .ret a => encF2 0x54 .z a 0xFC
  | .exit => encF2 0x55 .z .z 0xFC
  | .reform a k => encF2 0x56 .z a k
  | .stagenext d => encF2 0x57 d .z 0xFC
  | .qput d a b => encX 0x58 d a b .z 0 0 0 0 0
  | .qtake d b => encX 0x59 d .z b .z 0 0 0 0 0
  | .bar a id => encF2 0x5A .z a id
  | .barArrive a id => encF2 0x5A .z a (0x10 + id)
  | .barGang a id => encF2 0x5A .z a (0x20 + id)
  | .barGangArrive a id => encF2 0x5A .z a (0x30 + id)
  | .yieldOp => encF2 0x5B .z .z 0xFC
  | .sleep a => encF2 0x5C .z a 0
  | .nop => [mkWord false 0x5D 0 0 0]
  | .ldG w o sc d a => encM 0x60 w o sc d a
  | .ldX w o sc d a => encM 0x61 w o sc d a
  | .stG w o sc d a => encM 0x62 w o sc d a
  | .stX w o sc d a => encM 0x63 w o sc d a
  | .prf w a => encM 0x64 w .none .device .z a
  | .ldOffset x w o sc d a b => encX 0x6F d a b .z (2 * b2n x + 4 * w.code) 0 0 sc.code o.code
  | .stOffset x w o sc d a b => encX 0x6F d a b .z (1 + 2 * b2n x + 4 * w.code) 0 0 sc.code o.code
  | .atomG op t o sc d a b c => encX 0x65 d a b c op.code t.codes.1 t.codes.2 sc.code o.code
  | .atomX op t o sc d a b c => encX 0x66 d a b c op.code t.codes.1 t.codes.2 sc.code o.code
  | .fence sc => encF2 0x67 .z .z sc.code
  | .ldt tr w d a => encX 0x68 d a .z .z (b2n tr + 4 * w.code) 0 0 4 0
  | .ldtBlock tr d a b => encX 0x68 d a b .z (2 + b2n tr) 0 0 4 0
  | .redeem tr d a c => encX 0x69 d a .z c (2 * b2n tr) 0 0 0 0
  | .redeemX tr a b c => encX 0x69 .z a b c (1 + 2 * b2n tr) 0 0 0 0
  | .tkdrop d a => encF2 0x6A d a 0xFC
  | .tkstat d a => encF2 0x6B d a 0xFC
  | .lalloc d a b c => encX 0x6C d a b c 0 0 0 0 0
  | .lfree d a => encF2 0x6D d a 0xFC
  | .lquota d a => encF2 0x6E d a 0xFC
  | .cpyLd t q m arr d a b c =>
    encX 0x70 d a b c (b2n (m == .crc) * 4 + b2n arr * 8 + q * 16) t.code (b2n (m == .held) * 2) 0 0
  | .cpySt ad q m arr d a b c =>
    encX 0x70 d a b c (1 + b2n ad * 2 + b2n (m == .crc) * 4 + b2n arr * 8 + q * 16) 0 (b2n (m == .held) * 2) 0 0
  | .bulk xs xd arr held d a => encX 0x71 d a .z .z (b2n xs + 2 * b2n xd + 4 * b2n arr) 0 (2 * b2n held) 0 0
  | .arminit d a b => encX 0x72 d a b .z 0 0 0 0 0
  | .arrive a b => encX 0x72 .z a b .z 1 0 0 0 0
  | .await d a => encX 0x72 d a .z .z 2 0 0 0 0
  | .qfence q => encF2 0x73 .z .z q
  | .tagset d a b => encF3 0x75 d a b
  | .mload f a b =>
    match f with
    | .packed t => encX 0x74 .z a b .z 0 t.code 0 0 0
    | .tile t => encX 0x74 .z a b .z 0 t.code 1 0 0
    | .image t => encX 0x74 .z a b .z 0 t.code 2 0 0
    | .acc j => encX 0x74 .z a b .z 0 9 3 0 j
  | .mswap => encX 0x74 .z .z .z .z 1 0 0 0 0
  | .mmul m zr t j a => encX 0x74 .z a .z .z 2 t.code (m + 4 * b2n zr) 0 j
  | .mdrain f j d a b =>
    encX 0x74 d a b .z 3 0 (match f with | .xf32 => 0 | .xbf16 => 1 | .vreg => 2 | .glob => 3 | .globAdd => 4) 0 j
  | .mtask d a => encX 0x74 d a .z .z 4 0 0 0 0
  | .ctload x k d a => encX 0x76 d a .z .z 0 0 (b2n x) k 0
  | .ctsave x k d a => encX 0x76 d a .z .z 1 0 (b2n x) k 0
  | .kvput t d a b c => encX 0x76 d a b c 2 t.code 0 0 0
  | .bin x d a b c => encX 0x77 d a b c 0 0 (b2n x) 0 0
  | .spawn held d a b => encX 0x77 d a b .z 1 0 (2 * b2n held) 0 0
  | .cancel d a => encX 0x77 d a .z .z 2 0 0 0 0
  | .trap c => encF2 0x78 .z .z c
  | .trapret => encF2 0x79 .z .z 0xFC
  | .trapsupply a => encF2 0x7A .z a 0xFC
  | .csrr d r => encK 0x7B d r
  | .csrw s r => encK 0x7C s r
  | .flsave a p => encF2 0x7D .z a (2 * p)
  | .flrestore a p => encF2 0x7D .z a (1 + 2 * p)
  | .brk c => encF2 0x7E .z .z c
  | .halt => encF2 0x7E .z .z 0x80
  | _ => []

end Sys2Proof
end

