-- ==== Sys2Proof/Machine/Memory.lean ====
section
/-! DEFINITION. Bytes of memory and the scratchpad: the one place where byte order, canonical form, error marks and the
scratchpad windows are decided (R7, R57, R60, R423, R424). -/

namespace Sys2Proof.Machine

open Sys2Proof

/-! ### Bytes -/

/-- The byte at an address: 0 where nothing is listed (R448). (DEDUCED: notes/assumptions/2.) -/
def Memory.get (m : Memory) (a : Nat) : Byte :=
  match m with
  | [] => 0
  | (b, x) :: t => if b = a then x else Memory.get t a

/-- The memory with one byte written; a 0 is not listed. -/
def Memory.set (m : Memory) (a : Nat) (x : Byte) : Memory :=
  match m with
  | [] => if x = 0 then [] else [(a, x)]
  | (b, y) :: t =>
    if a < b then (if x = 0 then (b, y) :: t else (a, x) :: (b, y) :: t)
    else if a = b then (if x = 0 then t else (a, x) :: t)
    else (b, y) :: Memory.set t a x

/-- The canonical form: addresses strictly rising, no listed 0. -/
def Memory.wf (m : Memory) : Bool :=
  match m with
  | [] => true
  | [(_, x)] => x != 0
  | (a, x) :: (b, y) :: t => x != 0 && a < b && Memory.wf ((b, y) :: t)

/-- `n` bytes from an address, lowest first. (DEDUCED: notes/assumptions/2.) -/
def Memory.read (m : Memory) (a : Nat) : Nat → List Byte
  | 0 => []
  | n + 1 => m.get a :: m.read (a + 1) n

/-- Bytes written from an address up. -/
def Memory.write (m : Memory) (a : Nat) : List Byte → Memory
  | [] => m
  | x :: t => (m.set a x).write (a + 1) t

/-- A little-endian number of `n` bytes (R7). -/
def Memory.readNat (m : Memory) (a n : Nat) : Nat := bytesToNat (m.read a n)

/-! ### Event counters (R331, R460, R461) -/

/-- One set of eight counters after `n` events of a source; `own` says whether an ownctx counter counts them. -/
def countIn (sel count : FMap DWord) (base source n : Nat) (own : Nat → Bool) : FMap DWord :=
  (List.range 8).foldl (fun c i =>
    let x := (sel.get (base + i)).toNat
    if x % 2 ^ 16 = source ∧ x / 2 ^ 31 % 2 = 1 ∧ (x / 2 ^ 30 % 2 = 0 ∨ own i) then
      c.set (base + i) (c.get (base + i) + BitVec.ofNat 64 n)
    else c) count

/-- Events of a core source, caused by a context. -/
def State.countCore (s : State) (core ctx source n : Nat) : State :=
  let c := s.core core
  if c.evsel.isEmpty ∨ n = 0 then s
  else s.setCore core { c with evcount := countIn c.evsel c.evcount 0 source n fun i => c.evctx.get i == ctx }

/-- Events of a slice source. -/
def State.countSlice (s : State) (slice source n : Nat) : State :=
  if s.sliceSel.isEmpty then s
  else { s with sliceCount := countIn s.sliceSel s.sliceCount (slice * 8) source n fun _ => false }

/-- Events of a link source. -/
def State.countLink (s : State) (port source n : Nat) : State :=
  let p := s.ports.get port
  if p.evsel.isEmpty then s
  else { s with ports := s.ports.set port { p with evcount := countIn p.evsel p.evcount 0 source n fun _ => false } }

/-! ### The L1 cache (R64) -/

/-- The core's L1 emptied: what an acquire beyond the core does. -/
def State.emptyL1 (s : State) (core : Nat) : State :=
  let c := s.core core
  if c.l1.isEmpty then s else s.setCore core { c with l1 := [] }

/-! ### Physical address map (R55) -/

/-- Local HBM: 384 GiB from 0. -/
def hbmEnd : Nat := 0x60_0000_0000
/-- SRAM of slice s. -/
def sliceBase (n : Nat) : Nat := 0x100_0000_0000 + n * 0x20_0000
/-- SRAM window of core c. -/
def coreBase (c : Nat) : Nat := 0x100_1000_0000 + c * 0x20_0000
/-- A core's SRAM: 1536 KiB (R55). -/
def coreSram : Nat := 0x18_0000
/-- HBM window of module m. -/
def moduleBase (m : Nat) : Nat := 0x4_0000_0000_0000 + m * 0x400_0000_0000
/-- Pool window of landing L. -/
def poolBase (l : Nat) : Nat := 0x8_0000_0000_0000 + l * 0x4000_0000_0000

/-- home_slice (R56). -/
def homeSlice (pa : Nat) : Nat := Nat.xor (bits pa 13 8) (bits pa 19 14)
/-- home_controller, the HBM stack (R56). -/
def homeStack (pa : Nat) : Nat := homeSlice pa / 8
/-- The channel of the stack (R426). -/
def channelOf (pa : Nat) : Nat := Nat.xor (bits pa 24 20) (bits pa 29 25)

/-- The channel of a local HBM address, over all stacks. -/
def chanOf (pa : Nat) : Nat := homeStack pa * 32 + channelOf pa

/-- The address lies in a failed channel. -/
def State.chanFailed (s : State) (pa : Nat) : Bool := pa < hbmEnd && (s.chans.get (chanOf pa)).failed

/-! ### Error marks (R423, R424) -/

/-- The granule holds an uncorrectable error: one that struck it, or one left by a retraining of its failed channel (R424,
R470). -/
def State.badGranule (s : State) (g : Nat) : Bool :=
  (s.poison.find g).isSome || (decide (32 * g < hbmEnd) && (s.chans.get (chanOf (32 * g))).stale
    && !((s.chans.get (chanOf (32 * g))).written.contains g))

/-- The 32-byte granules that `n` bytes from `a` touch. -/
def granules (a n : Nat) : List Nat := (List.range ((a + n + 31) / 32 - a / 32)).map (· + a / 32)

/-- Some byte of the range lies in a poisoned granule. -/
def State.poisoned (s : State) (a n : Nat) : Bool := n != 0 && (granules a n).any s.badGranule

/-- A granule cannot be read: it is poisoned, or its channel has failed (R424, R427). -/
def State.lostGranule (s : State) (g : Nat) : Bool := s.badGranule g || s.chanFailed (32 * g)

/-- The lowest byte of the range that lies in a granule that cannot be read. -/
def State.poisonAt (s : State) (a n : Nat) : Nat :=
  match (granules a n).find? s.lostGranule with
  | some g => Nat.max a (32 * g)
  | none => a

/-- A granule written whole in a channel that came back with every granule poisoned is readable again (R470). (DEDUCED: notes/assumptions/98.) -/
def rewritten (chans : FMap Chan) (g : Nat) : FMap Chan :=
  let c := chans.get (chanOf (32 * g))
  if decide (32 * g < hbmEnd) && c.stale && !c.written.contains g then
    chans.set (chanOf (32 * g)) { c with written := g :: c.written } else chans

/-- The granules that `n` bytes from `a` cover whole. -/
def wholeGranules (a n : Nat) : List Nat := (granules a n).filter fun g => a ≤ 32 * g && 32 * g + 32 ≤ a + n

/-- Bytes stored at a physical address: a granule written whole loses its poison; a narrower store leaves it (R424). What local HBM's array
held stays known until the slice writes the granule back (R448). (DESIGN CHOICE: notes/assumptions/4.) -/
def State.store (s : State) (a : Nat) (bs : List Byte) : State :=
  let n := bs.length
  { s with
    mem := s.mem.write a bs
    poison := s.poison.filter fun p => !(a ≤ 32 * p.1 && 32 * p.1 + 32 ≤ a + n)
    dirty := (granules a n).foldl (fun d g => if 32 * g < hbmEnd ∧ (d.find g).isNone then d.set g (s.mem.read (32 * g) 32) else d) s.dirty
    weak := s.weak.filter fun p => !(a ≤ 32 * p.1 && 32 * p.1 + 32 ≤ a + n)
    chans := if s.chans.isEmpty then s.chans else (wholeGranules a n).foldl rewritten s.chans }

/-! ### Scratchpad (R57, R58, R60, R423) -/

/-- The physical address of byte `off` of a crew's own allocation. (DESIGN CHOICE: notes/assumptions/3.) -/
def Crew.phys (c : Crew) (off : Nat) : Nat := coreBase c.core + c.base + off

/-- The member crew of a gang rank; a crew without a gang is its own rank 0. -/
def State.rankCrew (s : State) (tok k : Nat) : Option Nat :=
  let c := s.crew tok
  if c.gang = 0 then (if k = 0 then some tok else none) else (s.gang c.gang).crews[k]?

/-- The physical address of `n` bytes at an offset of a crew's scratchpad space; none is SCRATCH_BOUND (R57). -/
def State.scratchPhys (s : State) (tok off n : Nat) : Option Nat :=
  let c := s.crew tok
  if off + n ≤ c.size then some (c.phys off)
  else if 0x100_0000 ≤ off ∧ off < 0x200_0000 then
    let k := (off - 0x100_0000) / 0x20_0000
    let o := (off - 0x100_0000) % 0x20_0000
    match s.rankCrew tok k with
    | some m => if o + n ≤ (s.crew m).size then some ((s.crew m).phys o) else none
    | none => none
  else none

/-- Offsets of the own allocation only (R235, R281, R339). -/
def State.ownPhys (s : State) (tok off n : Nat) : Option Nat :=
  let c := s.crew tok
  if off + n ≤ c.size then some (c.phys off) else none

/-- Some 8-byte scratchpad word of the range holds an error (R423). -/
def State.badWord (s : State) (a n : Nat) : Bool :=
  n != 0 && (List.range ((a + n + 7) / 8 - a / 8)).any fun k => s.badWords.get (a / 8 + k)

/-- Bytes stored in a scratchpad: a word written whole loses its error (R423). (DEDUCED: notes/assumptions/98.) -/
def State.storeX (s : State) (a : Nat) (bs : List Byte) : State :=
  let n := bs.length
  { s with
    mem := s.mem.write a bs
    badWords := s.badWords.filter fun p => !(a ≤ 8 * p.1 && 8 * p.1 + 8 ≤ a + n) }

end Sys2Proof.Machine
end

