-- ==== Sys2Proof/Machine/Translate.lean ====
section
/-! DEFINITION. Translation: regions of physical memory, page-table entries, walks, TLB and walk cache
(R54, R55, R61 to R63, R407 to R413). -/

namespace Sys2Proof.Machine

open Sys2Proof

/-- Where a physical address lies (R55). -/
inductive Region where
  | hbm
  | slice (n off : Nat)
  | core (n off : Nat)
  | remote (m off : Nat)
  | pool (l off : Nat)
  | reserved
  deriving DecidableEq, Repr, Inhabited

/-- The physical address map (R55). -/
def regionOf (pa : Nat) : Region :=
  if pa < hbmEnd then .hbm
  else if pa < 0x100_0000_0000 then .reserved
  else if pa < 0x100_0800_0000 then .slice ((pa - 0x100_0000_0000) / 0x20_0000) ((pa - 0x100_0000_0000) % 0x20_0000)
  else if pa < 0x100_1000_0000 then .reserved
  else if pa < 0x100_3000_0000 then
    let o := (pa - 0x100_1000_0000) % 0x20_0000
    if o < coreSram then .core ((pa - 0x100_1000_0000) / 0x20_0000) o else .reserved
  else if pa < 0x4_0000_0000_0000 then .reserved
  else if pa < 0x5_0000_0000_0000 then
    let o := (pa - 0x4_0000_0000_0000) % 0x400_0000_0000
    if o < hbmEnd then .remote ((pa - 0x4_0000_0000_0000) / 0x400_0000_0000) o else .reserved
  else if pa < 0x8_0000_0000_0000 then .reserved
  else if pa < 0xC_0000_0000_0000 then
    .pool ((pa - 0x8_0000_0000_0000) / 0x4000_0000_0000) ((pa - 0x8_0000_0000_0000) % 0x4000_0000_0000)
  else .reserved

/-- The access leaves the module: pool tier or a remote window (R72). -/
def isRemote (pa : Nat) : Bool :=
  match regionOf pa with
  | .remote .. | .pool .. => true
  | _ => false

/-! ### Page-table entries (R408) -/

def pteValid (e : Nat) : Bool := e % 2 == 1
def pteWait (e : Nat) : Bool := e / 2 % 2 == 1
def pteLeaf (e : Nat) : Bool := e / 4 % 2 == 1
def pteRead (e : Nat) : Bool := e / 32 % 2 == 1
def pteWrite (e : Nat) : Bool := e / 64 % 2 == 1
def pteExec (e : Nat) : Bool := e / 128 % 2 == 1
def ptePacked (e : Nat) : Bool := e / 256 % 2 == 1
def pteOrder (e : Nat) : Nat := bits e 10 9
def pteHome (e : Nat) : Nat := bits e 12 11
def pteFrame (e : Nat) : Nat := bits e 51 13 * 2 ^ 13
def pteMig (e : Nat) : Bool := e / 2 ^ 59 % 2 == 1

/-- Bits of a page's offset at the level its leaf stands (R407). -/
def levelBits (level : Nat) : Nat := if level = 0 then 43 else if level = 1 then 33 else if level = 2 then 23 else 13

/-- The rules of a valid entry at its level (R408, R409). -/
def pteOk (level e : Nat) : Bool :=
  bits e 63 60 == 0 && bits e 58 52 == 0 && bits e 4 3 == 0 && !pteWait e
    && (if pteLeaf e then level != 0 && pteFrame e % 2 ^ levelBits level == 0
        else level != 3 && bits e 12 3 == 0 && !pteMig e && pteFrame e < hbmEnd)

/-- How a walk ends (R407, R409, R416, R424). -/
inductive WalkEnd where
  | leaf (pte bits : Nat)
  | notPresent (wait : Bool)
  | bad
  | poisoned (pa : Nat)
  deriving DecidableEq, Repr, Inhabited

/-- The walk-cache entry for a level's table entry (R412). -/
def State.cachedPte (s : State) (ctx level va : Nat) : Option Nat :=
  (s.walkCache.find? fun w => w.ctx == ctx && w.level == level && w.path == va / 2 ^ levelBits level).map (·.pte)

/-- The walk from a table frame down (R407): a cached entry is used, an entry read and found good is cached. -/
def State.walkFrom (s : State) (ctx va : Nat) (frame : Nat) : List Nat → WalkEnd × List WalkEntry
  | [] => (.bad, [])
  | level :: rest =>
    let go := fun e =>
      if pteLeaf e then (WalkEnd.leaf e (levelBits level), [])
      else
        let (r, c) := s.walkFrom ctx va (pteFrame e) rest
        (r, { ctx := ctx, level := level, path := va / 2 ^ levelBits level, pte := e } :: c)
    match s.cachedPte ctx level va with
    | some e => go e
    | none =>
      let a := frame + 8 * (va / 2 ^ levelBits level % 1024)
      if s.poisoned a 8 || s.chanFailed a then (.poisoned a, [])
      else
        let e := s.mem.readNat a 8
        if !pteValid e then (.notPresent (pteWait e), [])
        else if !pteOk level e then (.bad, [])
        else go e

/-- The walk of an address, with the table entries it may cache (R407). -/
def State.walk (s : State) (ctx va : Nat) : WalkEnd × List WalkEntry := s.walkFrom ctx va (s.ctx ctx).root [0, 1, 2, 3]

/-- The table entries that a walk reads from memory, those of the walk cache left out (R407, R412, R413). -/
def State.walkReads (s : State) (ctx va : Nat) (frame : Nat) : List Nat → List Nat
  | [] => []
  | level :: rest =>
    match s.cachedPte ctx level va with
    | some e => if pteLeaf e then [] else s.walkReads ctx va (pteFrame e) rest
    | none =>
      let a := frame + 8 * (va / 2 ^ levelBits level % 1024)
      let e := s.mem.readNat a 8
      a :: (if s.poisoned a 8 || s.chanFailed a || !pteValid e || !pteOk level e || pteLeaf e then [] else s.walkReads ctx va (pteFrame e) rest)

/-- Table entries put into the walk cache, which holds 1024 (R412). (DESIGN CHOICE: notes/assumptions/6.) -/
def State.cacheWalk (s : State) (es : List WalkEntry) : State :=
  let fresh := es.filter fun e => !s.walkCache.contains e
  { s with walkCache := (fresh ++ s.walkCache).take 1024 }

/-! ### Leaf checks (R55, R61 to R63, R410) -/

/-- What an access does, for its permissions (R410). -/
inductive Access where
  | read
  | write
  | both
  | fetch
  deriving DecidableEq, Repr, Inhabited

/-- The kind field of a held fault record (R417). -/
def Access.kind : Access → Nat
  | .read => 1
  | .write => 2
  | .both => 3
  | .fetch => 4

/-- A translated address and its page's attributes (R61, R62, R73, R420). -/
structure Xlat where
  pa : Nat
  home : Nat
  order : Nat
  packed : Bool
  mig : Bool
  /-- address bits within the page -/
  bits : Nat
  deriving DecidableEq, Repr, Inhabited

def Access.allowed (a : Access) (e : Nat) : Bool :=
  match a with
  | .read => pteRead e
  | .write => pteWrite e
  | .both => pteRead e && pteWrite e
  | .fetch => pteExec e

/-- The frame lies where the home requires (R61, R63). -/
def State.homeOk (s : State) (e size pa : Nat) : Bool :=
  match pteHome e, regionOf pa with
  | 0, .hbm | 0, .remote .. | 0, .pool .. | 1, .hbm | 1, .remote .. | 1, .pool .. => true
  | 2, .core n o => size == 13 && !ptePacked e && coreSram - 8192 * (s.core n).pins ≤ o / 8192 * 8192
  | 3, .slice n o => size == 13 && 0x20_0000 - 8192 * s.slicePins.get n ≤ o / 8192 * 8192
  | _, _ => false

/-- The translation a leaf gives, or PROTECTION (R63, R410). -/
def State.leafXlat (s : State) (e size va : Nat) (a : Access) : Option Xlat :=
  let pa := pteFrame e + va % 2 ^ size
  if pteOrder e ≠ 3 ∧ s.homeOk e size pa ∧ a.allowed e then
    some { pa := pa, home := pteHome e, order := pteOrder e, packed := ptePacked e, mig := pteMig e, bits := size }
  else none

/-! ### TLB (R412, R413) -/

/-- A translation's answer: an address, a fault cause, or a miss. -/
inductive Xl where
  | ok (x : Xlat)
  | fault (cause : Nat)
  | miss
  deriving DecidableEq, Repr, Inhabited

def TlbEntry.covers (t : TlbEntry) (ctx va : Nat) : Bool := t.ctx == ctx && t.vpn == va / 2 ^ t.bits

/-- The core's TLB asked for an address (R412). -/
def State.xlate (s : State) (core ctx va : Nat) (a : Access) : Xl :=
  match (s.core core).tlb.find? (TlbEntry.covers · ctx va) with
  | some t =>
    match s.leafXlat t.pte t.bits va a with
    | some x => .ok x
    | none => .fault causeProtection
  | none => .miss

/-- A leaf put into a core's TLB: 256 entries for 8 KiB pages, 64 for larger ones, the oldest going first (R412). (DESIGN CHOICE: notes/assumptions/6.) -/
def Core.fillTlb (c : Core) (ctx va pte size : Nat) : Core :=
  let t : TlbEntry := { ctx := ctx, vpn := va / 2 ^ size, bits := size, pte := pte }
  let others := c.tlb.filter fun e => !(e.covers ctx va)
  let small := others.filter fun e => e.bits == 13
  let large := others.filter fun e => e.bits != 13
  { c with tlb := if size = 13 then t :: small.take 255 ++ large else t :: small ++ large.take 63 }

/-- An access of a warp to a page: the TLB's answer, or the fault a walk found for this instruction (R413). -/
def State.xlateWarp (s : State) (w va : Nat) (a : Access) : Xl :=
  match s.xlate (s.coreOf w) (s.ctxOf w) va a with
  | .miss =>
    match (s.warp w).walkFaults.find? fun f => f.vpn == va / 8192 && (a == .fetch || f.lanes &&& s.cur.lanes != 0) with
    | some f => .fault f.cause
    | none => .miss
  | x => x

/-- A miss noted on the core; one page's misses share an entry (R413). (DEDUCED: notes/assumptions/68.) -/
def State.addMiss (s : State) (core ctx va : Nat) (a : Access) : State :=
  let c := s.core core
  if c.misses.any fun m => m.ctx == ctx && m.vpn == va / 8192 then s
  else s.setCore core { c with misses := c.misses ++ [{ ctx := ctx, vpn := va / 8192, kind := a.kind, va := va }] }

end Sys2Proof.Machine
end

