-- ==== Sys2Proof/Machine/Access.lean ====
section
/-! DEFINITION. What every access to physical memory shares: event counters, fabric ports, failed channels, migrating lines,
and the L1 (R64, R72, R81, R82, R420 to R427, R438, R439, R460). -/

namespace Sys2Proof.Machine

open Sys2Proof

/-! ### Ports and landings (R72, R438, R439) -/

/-- The number that requests to the module's own slices bear in place of a port, while the slices answer late. -/
def slicePort : Nat := 16

/-- The number of landings attached, N. -/
def State.landingCount (s : State) : Nat := (s.ports.filter fun p => p.2.attached).length

/-- The landing of a port counts as lost (R438, R440). -/
def State.portLost (s : State) (n : Nat) : Bool :=
  let p := s.ports.get n
  p.lost || (!p.up && p.state != 1)

/-- The port R72 names for an address that leaves the module. -/
def State.namedPort (s : State) (pa : Nat) : Nat :=
  match regionOf pa with
  | .pool l _ => l
  | _ => if s.landingCount = 0 then 0 else bits pa 11 8 % s.landingCount

/-- A port that a request of the system may wait for or leave through: up, training or drained (R72, R439). -/
def Port.serves (p : Port) : Bool := p.state == 1 || p.state == 2 || p.state == 4

/-- The port that carries a request; none for a landing that is lost (R72, R439). A remote-module request keeps its named port
unless that is drained or down: then it takes the next port that is up, or waits on the next one training or drained. -/
def State.carrier (s : State) (pa : Nat) : Option Nat :=
  match regionOf pa with
  | .pool l _ => if s.portLost l then none else some l
  | _ =>
    let n := s.landingCount
    let named := s.namedPort pa
    let order := (List.range n).map fun i => (named + i) % n
    if !order.any fun i => (s.ports.get i).serves then none
    else if (s.ports.get named).state = 0 ∨ (s.ports.get named).state = 4 then
      (order.find? fun i => (s.ports.get i).state == 2) <|> (order.find? fun i => (s.ports.get i).serves)
    else some named

/-- The landing of an address, for trapinfo: the pool's landing, or the port's. -/
def State.landingOf (s : State) (pa : Nat) : Nat :=
  match regionOf pa with
  | .pool l _ => l
  | _ => (s.carrier pa).getD (s.namedPort pa)

/-- A pool allocation covers `n` bytes at an offset. -/
def PoolAlloc.covers (a : PoolAlloc) (off n : Nat) : Bool := a.off ≤ off && off + n ≤ a.off + a.size

/-- The landing or module answers an access of a context with a fault (R55, R69, R71, R116). -/
def State.fabricFault (s : State) (ctx pa n : Nat) (write : Bool) : Option Nat :=
  match regionOf pa with
  | .pool l off =>
    let x := s.landings.get l
    match x.allocs.find? fun a => a.ctx == ctx && a.covers off n with
    | some a => if a.revoked then some causeLandingLost else none
    | none =>
      if x.grants.any fun g => g.tmod == s.module_ && g.tctx == ctx && g.off ≤ off && off + n ≤ g.off + g.len
          && (!write || g.access / 2 % 2 == 1) then none
      else if x.gone.any fun g => g.1 < off + n && off < g.1 + g.2 then some causeLandingLost
      else some causePageFault
  | .remote m _ => if m = s.module_ ∨ s.peers.get m then none else some causePageFault
  | _ => none

/-- The module's own remote window is its own HBM (R55). (DESIGN CHOICE: notes/assumptions/13.) -/
def State.ownAddr (s : State) (pa : Nat) : Nat :=
  match regionOf pa with
  | .remote m off => if m = s.module_ then off else pa
  | _ => pa

/-- fabrictimeout of a context in cycles (R98). -/
def State.fabricLimit (s : State) (ctx : Nat) : Nat := (s.ctx ctx).fabrictimeout.toNat * Config.cyclesPerUs

/-- The key of a fetch, or of a record read at issue, in its waits for a link. -/
def linkKey (record : Bool) (pc : DWord) : Nat := pc.toNat + (if record then 2 ^ 64 else 0)

/-- A warp's access that cannot wait in the request table has waited for its link past the fabric timeout (R183, R439). -/
def State.linkLate (s : State) (w key : Nat) : Bool :=
  match (s.warp w).linkWaits.find key with
  | some c => decide (c + s.fabricLimit (s.ctxOf w) ≤ s.cycle)
  | none => false

/-- An access waits for its link from now on, or goes on waiting. -/
def Warp.waitLink (x : Warp) (cycle key : Nat) : Warp :=
  if (x.linkWaits.find key).isSome then x else { x with linkWaits := x.linkWaits.set key cycle }

/-! ### Channels (R426, R427) -/

/-- A read of `n` bytes meets an uncorrectable error: a granule that is poisoned, or lies in a failed channel (R424, R427). -/
def State.readBad (s : State) (pa n : Nat) : Bool := n != 0 && (granules (s.ownAddr pa) n).any s.lostGranule

/-- A slice that serves a request (R56, R460): a slice-pinned frame's own, or the home slice of local HBM. -/
def State.countServed (s : State) (pa : Nat) : State :=
  match regionOf (s.ownAddr pa) with
  | .hbm => s.countSlice (homeSlice (s.ownAddr pa)) 0x0101 1
  | .slice n _ => s.countSlice n 0x0101 1
  | _ => s

/-- A walk's reads are requests to the home slices of the entries (R413, R460). -/
def State.countWalk (s : State) (ctx va : Nat) : State :=
  if s.sliceSel.isEmpty then s
  else (s.walkReads ctx va (s.ctx ctx).root [0, 1, 2, 3]).foldl State.countServed s

/-- The bytes at a physical address. (DESIGN CHOICE: notes/assumptions/13.) -/
def State.readPhys (s : State) (pa n : Nat) : List Byte := s.mem.read (s.ownAddr pa) n

/-- Row of R423 that protects an address: HBM, or pinned frames and staging. -/
def storageRow (pa : Nat) : Nat := if pa < hbmEnd then 6 else 5

/-- Where an address lies, for the error log (R425). -/
def placeOf (pa : Nat) : Nat :=
  match regionOf pa with
  | .hbm => chanOf pa
  | .slice n _ => n
  | .core n _ => n
  | _ => 0

/-- A granule is poisoned: counted in the report and at its slice (R460, R466). -/
def State.countPoisoned (s : State) (a : Nat) : State :=
  let s := { s with mgr := { s.mgr with poisoned := s.mgr.poisoned + 1 } }
  match regionOf a with
  | .hbm => s.countSlice (homeSlice a) 0x0108 1
  | .slice n _ => s.countSlice n 0x0108 1
  | _ => s

/-- A corrected error counted (R423, R460): rows 1 to 3 by core, local HBM by slice. -/
def State.countCorrected (s : State) (row place : Nat) : State :=
  let s := { s with mgr := { s.mgr with corrected := s.mgr.corrected.set row (s.mgr.corrected.get row + 1) } }
  if 1 ≤ row ∧ row ≤ 3 then s.countCore place 0xFFFF 0x000E 1
  else if row = 6 then s.countSlice place 0x0107 1
  else s

/-- The granule of an address is found poisoned, by an access of a context or by the scrubber (0xFFFF): the first finding is entered in
the log; one that an error struck is counted then, one that came with a retrained channel was counted with it (R424, R425, R460,
R463, R470). (DEDUCED: notes/assumptions/69.) -/
def State.findPoison (s : State) (a ctx va : Nat) : State :=
  if s.badGranule (a / 32) && s.poison.find (a / 32) != some true then
    let struck := (s.poison.find (a / 32)).isSome
    let s := { s with poison := s.poison.set (a / 32) true }
    let s := s.logError 2 (storageRow a) ctx (placeOf a) (a / 32 * 32) va
    if struck then s.countPoisoned a else s
  else s

/-- An uncorrectable read of `n` bytes entered in the log, with its lowest affected byte (R425). (DEDUCED: notes/assumptions/69.) -/
def State.logRead (s : State) (ctx pa n va : Nat) : State :=
  let a := s.ownAddr pa
  let b := s.poisonAt a n
  let v := if va = 0 then 0 else va + (b - a)
  (s.findPoison b ctx v).logError 1 (storageRow b) ctx (placeOf b) (b / 32 * 32) v

/-- Uncorrectable errors of a scratchpad that lanes read entered in the log, one record for each granule (R425). (DEDUCED: notes/assumptions/97.) -/
def State.logScratch (s : State) (ctx core : Nat) (ops : List LaneOp) : State :=
  ((dedup (ops.map (·.pa / 32)))).foldl (fun s g => s.logError 1 3 ctx core (32 * g) 0) s

/-- The first lane's part in each granule. (DEDUCED: notes/assumptions/97.) -/
def firstPerGranule (ops : List LaneOp) : List LaneOp :=
  ops.foldl (fun acc o => if acc.any fun q => q.pa / 32 == o.pa / 32 then acc else acc ++ [o]) []

/-- The uncorrectable reads of one request's lanes entered in the log: one record for each granule (R425). (DEDUCED: notes/assumptions/97.) -/
def State.logReads (s : State) (ctx w : Nat) (ops : List LaneOp) : State :=
  (firstPerGranule ops).foldl (fun s o => s.logRead ctx o.pa w o.va) s

/-- A walk that read a poisoned table entry entered in the log (R424, R425). -/
def State.logWalk (s : State) (ctx pa va : Nat) : State := 
  (s.findPoison pa ctx va).logError 4 6 ctx (chanOf pa) (pa / 32 * 32) va

/-- Bytes stored at a physical address; a failed channel drops and logs them (R427). (DESIGN CHOICE: notes/assumptions/4.) -/
def State.storePhys (s : State) (ctx pa va : Nat) (bs : List Byte) : State :=
  let a := s.ownAddr pa
  if s.chanFailed a then s.logError 6 6 ctx (chanOf a) (a / 32 * 32) va else s.store a bs

/-- The lanes of a store request cover a whole 32-byte granule. -/
def coversGranule (ops : List LaneOp) (w g : Nat) : Bool :=
  32 ≤ (dedup ((ops.filter fun o => o.pa / 32 == g).map (·.pa))).length * w

/-- A granule that one request of several lanes wrote whole loses its poison (R424). -/
def State.wroteWhole (s : State) (ops : List LaneOp) (w : Nat) : State :=
  ((dedup (ops.map (·.pa / 32))).filter (coversGranule ops w)).foldl (fun s g =>
    let a := s.ownAddr (32 * g)
    if s.chanFailed a then s else s.store a (s.mem.read a 32)) s

/-- The sectors of a range dropped from L1. -/
def State.dropL1 (s : State) (core pa n : Nat) : State :=
  let c := s.core core
  if c.l1.isEmpty then s
  else s.setCore core { c with l1 := c.l1.filter fun p => !(pa / 16 ≤ p.1 && p.1 ≤ (pa + n - 1) / 16) }

/-- The sectors of a range dropped from the L1 of every core: what a line brought by a pull leaves behind (R64, R81). -/
def State.dropEveryL1 (s : State) (pa n : Nat) : State :=
  { s with cores := s.cores.map fun (p : Nat × Core) =>
    if p.2.l1.isEmpty then p
    else (p.1, { p.2 with l1 := p.2.l1.filter fun q => !(pa / 16 ≤ q.1 && q.1 ≤ (pa + n - 1) / 16) }) }

/-! ### Migrating lines (R81, R82, R420 to R422) -/

/-- Lines of a slot's page. -/
def MigSlot.lines (m : MigSlot) : Nat := m.size / 256

/-- The slot that a request carrying mig matches, by its new frame. -/
def State.migOf (s : State) (pa : Nat) : Option Nat :=
  (s.migs.find? fun p => p.2.state != 0 && p.2.new ≤ pa && pa < p.2.new + p.2.size).map (·.1)

/-- A request carrying mig reaches the unit before the swing (R421): its slot is armed. -/
def State.beforeSwing (s : State) (x : Xlat) : Bool :=
  x.mig && (match s.migOf x.pa with
    | some n => (s.migs.get n).state == 1
    | none => false)

/-- The counts of MIGRATE_DONE (R437). -/
def migDoneBody (n : Nat) (m : MigSlot) : List Byte :=
  natToBytes 1 n ++ natToBytes 3 0 ++ natToBytes 4 m.touched ++ natToBytes 4 m.background ++ natToBytes 4 m.failed.length

/-- A slot whose every line is pulled or failed completes (R421). -/
def State.migSettle (s : State) (n : Nat) : State :=
  let m := s.migs.get n
  if m.state = 2 ∧ m.lines ≤ m.pulled.length + m.failed.length then
    let m := { m with state := 3 }
    ({ s with migs := s.migs.set n m }).post (eventMsg (s.ctxQp m.ctx) 0xC4 m.ctx (migDoneBody n m))
  else s

/-- Why a pull of a line fails, if it does (R82, R422). (DEDUCED: notes/assumptions/32.) -/
def State.pullFault (s : State) (m : MigSlot) (line : Nat) : Option Nat :=
  let a := m.old + 256 * line
  if isRemote a then
    (match s.carrier a with
      | none => some causeLandingLost
      | some _ =>
        match s.fabricFault m.ctx a 256 false with
        | some c => some c
        | none => if s.readBad a 256 then some causeMemoryUncorrectable else none)
  else if s.readBad a 256 then some causeMemoryUncorrectable else none

/-- A line pulled once from the old frame into the new one (R81); `bg` for the background engine. -/
def State.pull (s : State) (n line : Nat) (bg : Bool) : State :=
  let m := s.migs.get n
  if m.state ≠ 2 ∨ m.pulled.contains line ∨ (m.failed.find line).isSome then s
  else
    let a := m.old + 256 * line
    match s.pullFault m line with
    | some c =>
      let s := { s with migs := s.migs.set n { m with failed := m.failed.set line c } }
      let s := (granules (s.ownAddr a) 256).foldl (fun s g => s.findPoison (32 * g) m.ctx 0) s
      (s.logError 3 (storageRow (s.ownAddr a)) m.ctx (placeOf (s.ownAddr a)) a 0).migSettle n
    | none =>
      let m := { m with
        pulled := m.pulled ++ [line]
        touched := if bg then m.touched else m.touched + 1
        background := if bg then m.background + 1 else m.background }
      ((((({ s with migs := s.migs.set n m }).countServed a).countServed (m.new + 256 * line)).dropEveryL1 (m.new + 256 * line) 256).storePhys
        m.ctx (m.new + 256 * line) 0 (s.readPhys a 256)).migSettle n

/-- The lines of a migrating page that `n` bytes touch. -/
def MigSlot.linesOf (m : MigSlot) (pa n : Nat) : List Nat :=
  (List.range ((pa + n - 1 - m.new) / 256 + 1 - (pa - m.new) / 256)).map (· + (pa - m.new) / 256)

/-- The lines of an access pulled before it is performed (R81, R421). -/
def State.touch (s : State) (x : Xlat) (n : Nat) : State :=
  if x.mig then
    match s.migOf x.pa with
    | some k => ((s.migs.get k).linesOf x.pa n).foldl (fun s l => s.pull k l false) s
    | none => s
  else s

/-- The error of one line: that which failed its pull, or its slot's abort, with the landing of the old frame (R82, R422).
(DEDUCED: notes/assumptions/32.) -/
def State.lineError (s : State) (m : MigSlot) (line : Nat) : Option (Nat × Nat) :=
  match m.failed.find line with
  | some c => some (c, if c = causeLandingLost then s.landingOf (m.old + 256 * line) else 0)
  | none => if m.state = 4 ∧ ¬ m.pulled.contains line then some (causeMemoryUncorrectable, 0) else none

/-- The error an access to a failed line raises, with its landing (R82, R422). (DEDUCED: notes/assumptions/32.) -/
def State.lineFault (s : State) (x : Xlat) (n : Nat) : Option (Nat × Nat) :=
  if x.mig then
    match s.migOf x.pa with
    | some k => ((s.migs.get k).linesOf x.pa n).findSome? (s.lineError (s.migs.get k))
    | none => none
  else none

/-- A store covering a whole line clears its failure and marks it pulled (R422). -/
def State.clearLine (s : State) (x : Xlat) : State :=
  if x.mig then
    match s.migOf x.pa with
    | some k =>
      let m := s.migs.get k
      let l := (x.pa - m.new) / 256
      if m.pulled.contains l then s
      else ({ s with migs := s.migs.set k { m with failed := m.failed.del l, pulled := m.pulled ++ [l] } }).migSettle k
    | none => s
  else s

/-! ### L1 (R64, R93, R96) -/

/-- The 128-byte lines that a core's L1 holds sectors of. -/
def linesHeld (l1 : FMap (List Byte)) : List Nat := dedup (l1.map fun p => p.1 / 8)

/-- An L1 of 256 KiB: while it holds more than 2048 lines, the lowest line outside a range goes (R3, R64).
(DESIGN CHOICE: notes/assumptions/5.) -/
def boundL1 (lo hi : Nat) : Nat → FMap (List Byte) → FMap (List Byte)
  | 0, t => t
  | n + 1, t =>
    let lines := linesHeld t
    if lines.length ≤ 2048 then t
    else
      match lines.find? fun k => k < lo / 8 || hi / 8 < k with
      | none => t
      | some k => boundL1 lo hi n (t.filter fun p => p.1 / 8 != k)

/-- The request writes at its performer. -/
def Req.writes (r : Req) : Bool :=
  match r.kind with
  | .load | .ticket _ | .quota => false
  | _ => true

/-- A store or an atomic that left the module for some of the bytes is not yet answered (R87, R95, R102). -/
def State.openWrite (s : State) (pa n : Nat) : Bool :=
  s.reqs.any fun p => p.2.writes && p.2.pa < pa + n && pa < p.2.pa + p.2.size

/-- The sectors of a range fetched into L1, those already there kept, or fetched again as `fresh` asks; none that a write of the
module is still on its way to, whose older bytes would outlive it (R64, R87, R95). (DESIGN CHOICE: notes/assumptions/5.) -/
def State.fillL1 (s : State) (core pa n : Nat) (fresh : Bool := false) : State :=
  let c := s.core core
  let sectors := (List.range ((pa + n + 15) / 16 - pa / 16)).map (· + pa / 16)
  let l1 := sectors.foldl (fun t k =>
    if (!fresh && (t.find k).isSome) ∨ s.readBad (16 * k) 16 ∨ s.openWrite (16 * k) 16 then t else t.set k (s.readPhys (16 * k) 16)) c.l1
  s.setCore core { c with l1 := if l1.length ≤ 2048 then l1 else boundL1 (pa / 16) ((pa + n - 1) / 16) sectors.length l1 }

/-- The L1 sector of an address, if held. (DESIGN CHOICE: notes/assumptions/5.) -/
def State.l1Sector (s : State) (core pa : Nat) : Option (List Byte) := (s.core core).l1.find (pa / 16)

/-- An access to a pool address of a lost landing, or to bytes that no allocation covers, is answered there, not by L1 (R69, R71,
R116). -/
def State.poolGone (s : State) (ctx pa n : Nat) : Bool :=
  match regionOf pa with
  | .pool l _ => s.portLost l || (s.fabricFault ctx pa n false).isSome
  | _ => false

/-- A core's own store is written through: a held sector takes the bytes (R87). -/
def State.storeL1 (s : State) (core pa : Nat) (bs : List Byte) : State :=
  match s.l1Sector core pa with
  | none => s
  | some old =>
    let c := s.core core
    s.setCore core { c with l1 := c.l1.set (pa / 16) (old.take (pa % 16) ++ bs ++ old.drop (pa % 16 + bs.length)) }

end Sys2Proof.Machine
end

