-- ==== Sys2Proof/Machine/Waits.lean ====
section
/-! DEFINITION. Waits that complete by what lanes do: masks, stages, trapret, barriers, the sort yard; and exit
(R27 to R48, R335, R400). -/

namespace Sys2Proof.Machine

open Sys2Proof

/-- The status codes (R277). -/
def statusOk : Nat := 0
def statusPending : Nat := 1
def statusSpent : Nat := 2
def statusExpired : Nat := 3
def statusCrc : Nat := 4
def statusTruncated : Nat := 5
def statusNoSpace : Nat := 6
def statusUnknown : Nat := 7
def statusUnplaceable : Nat := 8

/-! ### Mask instances (R28 to R30) -/

/-- A wait on mask k. -/
def Wait.onMask (k : Nat) : Wait → Bool
  | .mask j => j == k
  | .maskT j _ _ => j == k
  | _ => false

/-- mwaitt's result for lanes that leave (R30, R190): `all` are the lanes that executed it. -/
def Warp.writeMwaitt (w : Warp) (d : Operand) (all : List Nat) (m : LaneSet) (x : Nat) : Warp :=
  match d with
  | .s _ => if m.getLsbD (all.headD 0) then w.writeLanes m 1 d fun _ => x else w
  | _ => w.writeLanes m 1 d fun _ => x

/-- Release a mask wait's lanes as completed. -/
def Warp.completeWait (w : Warp) (cycle : Nat) (r : WaitRec) : Warp :=
  match r.wait with
  | .maskT _ d dl => (w.writeMwaitt d dl.keys r.lanes 1).release cycle r r.lanes
  | _ => w.release cycle r r.lanes

/-- The instance of mask k completes when every current member has arrived; all arrived lanes are released (R28, R29). -/
def Warp.settleMask (w : Warp) (cycle k : Nat) : Warp :=
  let arrived := w.waiting (Wait.onMask k)
  if arrived ≠ 0 ∧ w.masks.get k &&& ~~~arrived = 0 then
    (w.waits.filter fun r => Wait.onMask k r.wait).foldl (fun w r => w.completeWait cycle r) w
  else w

/-- Every mask of the warp looked at, in order (R27). -/
def Warp.settleMasks (w : Warp) (cycle : Nat) : Warp := (List.range 12).foldl (fun w k => w.settleMask cycle k) w

/-- Lanes removed from all twelve masks (R27). -/
def Warp.dropMasks (w : Warp) (m : LaneSet) : Warp := { w with masks := w.masks.map fun p => (p.1, p.2 &&& ~~~m) }

/-! ### Quadrant capacity (R17) -/

/-- The live warps of a quadrant of a core; those of a swapped-out crew are on none. -/
def State.quadWarps (s : State) (core q : Nat) : List Nat :=
  (s.warps.filter fun p => p.2.live && (s.crewOf p.1).resident && s.coreOf p.1 == core && s.quadrantOf p.1 == q).map (·.1)

/-- Room in a quadrant for one more warp of the quota, `except` not counted (R17). -/
def State.quadRoom (s : State) (core q quota : Nat) (except : List Nat) : Bool :=
  let ws := (s.quadWarps core q).filter fun w => !except.contains w
  ws.length < 16 && (ws.map fun w => (s.warp w).quota).sum + quota ≤ 2048

/-! ### Stages (R43 to R48, R400) -/

def State.stageDecl (s : State) (tok st : Nat) : StageDecl := (s.launch (s.crew tok).launch).spec.stage.getD st default
def State.stageCount (s : State) (tok : Nat) : Nat := (s.launch (s.crew tok).launch).spec.stages

/-- Live warps of a crew in a stage. -/
def State.stageWarps (s : State) (tok st : Nat) : Nat := ((s.warpsOf tok).filter fun w => (s.warp w).stage == st).length

/-- Items waiting in a stage's queue (R45). -/
def Crew.items (c : Crew) (st : Nat) : Nat := c.puts.get st - c.takes.get st

/-- A stage has demand, by the queues as they stood at the start of the cycle (R400). -/
def Crew.demand (c : Crew) (st : Nat) : Bool :=
  let (n, full, taker) := c.snap.get st
  (n != 0 && !taker) || full

/-- The stage a warp of stage `st` moves to, if it moves (R400 step 1). -/
def State.moveTo (s : State) (tok st : Nat) : Option Nat :=
  let c := s.crew tok
  if (s.stageDecl tok st).wmin < s.stageWarps tok st ∧ c.demand st = false then
    let ok := (List.range (s.stageCount tok)).filter fun t =>
      t != st && c.demand t && s.stageWarps tok t < (s.stageDecl tok t).wmax
    ok.foldl (fun best t =>
      match best with
      | none => some t
      | some b =>
        -- items ÷ depth, compared exactly; ties to the lower stage
        if (c.snap.get b).1 * (s.stageDecl tok t).depth < (c.snap.get t).1 * (s.stageDecl tok b).depth then some t else some b)
      none
  else none

/-- The quota a staying warp's stage takes (R400 steps 2 and 3). -/
def State.stayQuota (s : State) (tok st : Nat) : Nat :=
  let c := s.crew tok
  let d := s.stageDecl tok st
  let q := c.quotas.get st
  let (n, full, _) := c.snap.get st
  if c.demand st then (if q < d.qmax then q + 8 else q)
  else if n = 0 ∧ full = false ∧ d.qmin < q then q - 8 else q

/-- A wait in stagenext. -/
def Wait.isStage : Wait → Bool
  | .stage _ => true
  | _ => false

/-- The warp at its stage's entry point: registers cleared, masks empty, the stage and quota reported (R46). -/
def Warp.restart (w : Warp) (cycle st quota : Nat) (entry : DWord) : Warp :=
  let lanes := w.liveLanes
  let w := w.waits.foldl (fun w r =>
    match r.wait with
    | .stage d => w.writeLanes r.lanes 1 d fun _ => st % 256 + quota % 256 * 256
    | _ => w) w
  let w := { w with
    waits := [], vregs := [], masks := [], taskBuf := [], stage := st, quota := quota, badRegs := w.badRegs.filter (100000 ≤ ·) }
  w.mapLanes lanes fun x => { x with pc := BitVec.ofNat 64 (entry.toNat / 4), readyAt := cycle + 1 }

/-- A stagenext completes once every live lane has executed it and the new quota fits, on the core that holds the crew (R46,
R47, R51, R400). -/
def State.settleStage (s : State) (w : Nat) : State :=
  let x := s.warp w
  let tok := crewTok w
  let lanes := x.liveLanes
  if x.live ∧ (s.crew tok).resident ∧ lanes ≠ 0 ∧ lanes &&& ~~~(x.waiting Wait.isStage) = 0 then
    let c := s.crew tok
    let (st, quota) :=
      match s.moveTo tok x.stage with
      | some t => (t, c.quotas.get t)
      | none => (x.stage, s.stayQuota tok x.stage)
    if s.quadRoom c.core (s.quadrantOf w) quota [w] then
      (s.setCrew tok { c with quotas := c.quotas.set st quota }).setWarp w
        (x.restart s.cycle st quota (s.stageDecl tok st).entry)
    else s
  else s

/-! ### trapret (R335) -/

/-- Lanes that hold for a chain hold for it on the port where it resumes (R150, R339). -/
def Warp.rechain (x : Warp) (c : Chain) (port : Nat) : Warp :=
  { x with waits := x.waits.map fun (r : WaitRec) =>
      if r.wait = .chain c.port ∧ r.lanes &&& c.lanes ≠ 0 then { r with wait := .chain port } else r }

/-- A parked chain goes on: in its pipe, or in its record slot while a chain of the handler still holds the pipe; one that raised
an enabled flag is taken out and traps where its lanes stand (R151, R153, R335). -/
def State.resumeChain (s : State) (w port : Nat) : State :=
  let x := s.warp w
  match x.parked port with
  | some c =>
    if c.trapping then
      let t := c.trap
      let pc := (x.lane (leader c.lanes)).pc
      (s.setWarp w (x.setParked port none)).takeTrap w { t with ret := none, slot := (slotOfPc pc + t.member) % 3 }
    else if c.counting then s
    else if (x.chain port).isSome then
      s.setWarp w ((x.setParked port (some { c.resumeOn port s.cycle with counting := true })).rechain c port)
    else s.setWarp w (((x.setParked port none).setChain port (some (c.resumeOn port s.cycle))).rechain c port)
  | none => s

/-- Faults held for the end of handler mode or for resume are taken, the first one now (R334, R342); a crew that is being
saved takes none. (DEDUCED: notes/assumptions/114.) -/
def State.takePending (s : State) (w : Nat) : State :=
  let x := s.warp w
  match x.pendingFaults with
  | [] => s
  | (t, sup) :: rest =>
    if x.handler.isSome ∨ (s.crewOf w).saving then s else (s.setWarp w { x with pendingFaults := rest }).takeTrap w t sup

/-- Parked chains of both ports, port A's first; one that traps keeps the other parked (R151, R332, R342). -/
def State.resumeChains (s : State) (w : Nat) : State :=
  let s := s.resumeChain w 0
  if (s.warp w).handler.isSome ∨ (s.warp w).live = false then s else s.resumeChain w 1

/-- Handler mode ends when every live handler lane waits in trapret or has exited (R335). -/
def State.settleTrapret (s : State) (w : Nat) : State :=
  let x := s.warp w
  match x.handler with
  | none => s
  | some h =>
    let hl := h.lanes &&& x.liveLanes
    if x.live ∧ hl &&& ~~~(x.waiting (· == .trapret)) = 0 then
      let x := (lanesOf hl).foldl
        (fun x l => x.setLane l { x.lane l with pc := h.returns.get l, readyAt := s.cycle + 1 }) (x.unwait hl)
      ((s.setWarp w { x with handler := none }).resumeChains w).takePending w
    else s

/-- What a change of the live lanes or masks may complete (R29, R48, R335). -/
def State.settle (s : State) (w : Nat) : State :=
  ((s.setWarp w ((s.warp w).settleMasks s.cycle)).settleStage w).settleTrapret w

/-! ### Exit (R230) -/

/-- What a warp whose last lane leaves reports beside its end (R390): its remote-error indicator (R98), or a deck decode
fault whose status was never read (R316). -/
def State.lastFault (s : State) (w : Nat) : Option Failure :=
  let x := s.warp w
  match x.remoteErr, x.deckFaults with
  | some e, _ =>
    some (s.failureTrap w { cause := e.cause, addr := BitVec.ofNat 64 e.addr, landing := e.landing })
  | none, (_, t) :: _ => some (s.failureTrap w t)
  | none, [] => none

/-- Lanes leave their warp, by exit or by reform: they are gone from the masks, and a warp without live lanes ends; one that
has a fault to report then fails its crew (R14, R27, R390). -/
def State.leave (s : State) (w : Nat) (m : LaneSet) : State :=
  let x := s.warp w
  let x := (x.mapLanes m fun _ => default).dropMasks m
  let s := s.setWarp w x
  if x.liveLanes = 0 then
    match s.lastFault w with
    | some f => s.failCrew (crewTok w) f
    | none => s.endWarp w
  else s.settle w

/-! ### Barriers (R31 to R34) -/

/-- Where a crew of its own gang keeps gang barriers 0 to 7, beside its crew barriers 0 to 15 (R34, R231). -/
def ownGangBarrier (id : Nat) : Nat := 16 + id

def State.barrier (s : State) (tok : Nat) (gang : Bool) (id : Nat) : Barrier :=
  let c := s.crew tok
  if gang = false then c.barriers.get id
  else if c.gang = 0 then c.barriers.get (ownGangBarrier id)
  else (s.gang c.gang).barriers.get id

def State.setBarrier (s : State) (tok : Nat) (gang : Bool) (id : Nat) (b : Barrier) : State :=
  let c := s.crew tok
  if gang = false then s.setCrew tok { c with barriers := c.barriers.set id b }
  else if c.gang = 0 then s.setCrew tok { c with barriers := c.barriers.set (ownGangBarrier id) b }
  else s.setGang c.gang { s.gang c.gang with barriers := (s.gang c.gang).barriers.set id b }

/-- The warps that share the barrier. -/
def State.barrierWarps (s : State) (tok : Nat) (gang : Bool) : List Nat :=
  if gang then (s.gangOf tok).flatMap s.warpsOf else s.warpsOf tok

/-- Every thread blocked on the barrier is released (R31); a gang barrier's completion acquires at gang scope (R101). -/
def State.releaseBar (s : State) (tok : Nat) (gang : Bool) (id : Nat) : State :=
  let s := (s.barrierWarps tok gang).foldl (fun s w =>
    let x := s.warp w
    s.setWarp w ((x.waits.filter fun r => r.wait == .bar gang id).foldl (fun x r => x.release s.cycle r r.lanes) x)) s
  if gang then (s.gangOf tok).foldl (fun s t => s.emptyL1 (s.crew t).core) s else s

/-- One lane arrives on a barrier: it opens an instance or joins it, blocking when asked to, and completes it when the
arrivals reach the count (R31, R32). -/
def State.arriveBar (s : State) (w l : Nat) (gang : Bool) (id count : Nat) (block : Bool) (len : Nat) : State :=
  let tok := crewTok w
  let b := s.barrier tok gang id
  let n := b.arrived + 1
  let s := s.setBarrier tok gang id ⟨count, n⟩
  let s := if block then
      let x := s.warp w
      s.setWarp w { x with waits := x.waits ++ [⟨laneBit l, s.cur.pc, len, s.cur.port, .bar gang id⟩] }
    else s
  if n < count then s else (s.setBarrier tok gang id ⟨0, 0⟩).releaseBar tok gang id

/-! ### The sort yard (R38 to R42, R233) -/

/-- The quota of a warp built from a bin (R40). -/
def State.builtQuota (s : State) (b : BinKey) : Nat :=
  let l := s.launch (s.crew b.crew).launch
  let q := if l.spec.stages = 0 then l.spec.regs else (s.crew b.crew).quotas.get b.stage
  Nat.max q ((b.k + 7) / 8 * 8)

/-- The lowest free warp slot of the bin's crew whose quadrant can hold the built warp (R40). -/
def State.freeSlot (s : State) (b : BinKey) : Option Nat :=
  let c := s.crew b.crew
  (List.range c.slots).find? fun i =>
    !(s.warp (warpNo b.crew i)).live && s.quadRoom c.core ((c.q0 + i) % 4) (s.builtQuota b) []

/-- The warp built from a bin (R40). -/
def builtWarp (b : Bin) (quota : Nat) (fpmode cycle : Nat) : Warp :=
  let n := b.threads.length
  let put := fun (acc : Nat × Warp) (t : YardThread) =>
    let w := acc.2.setLane acc.1 { live := true, pc := b.key.pc, tid := t.tid, age := 0, readyAt := cycle + 1 }
    (acc.1 + 1, (List.range b.key.k).foldl (fun w r => w.setV r acc.1 (t.regs.get r)) w)
  let w := (b.threads.foldl put (0, default)).2
  { w with
    live := true, quota := quota, stage := b.key.stage, fpmode := fpmodeOf fpmode,
    sregs := [(0, b.key.key.setWidth 64), (1, BitVec.ofNat 64 n)] }

/-- A bin is built into a warp of its crew, if a slot can take it (R40). -/
def State.buildBin (s : State) (core bin : Nat) : State :=
  let c := s.core core
  match c.bins.find bin with
  | none => s
  | some b =>
    match s.freeSlot b.key with
    | none => s
    | some i =>
      let l := s.launch (s.crew b.key.crew).launch
      let s' := (s.setCore core { c with bins := c.bins.del bin }).setWarp (warpNo b.key.crew i)
        (builtWarp b (s.builtQuota b.key) l.spec.fpmode s.cycle)
      s'.countCore core (s.crew b.key.crew).ctx 0x000D 1

/-- Filing order within a bin: by cycle, then old lane, then old warp slot (R40, R233). -/
def fileThread (t : YardThread) (ts : List YardThread) : List YardThread :=
  insertBy (fun x => (x.filed * 32 + x.oldLane) * 64 + x.oldWarp) t ts

/-- The open bin that matches a key: it holds fewer than 32 threads, and under a reformage of 0 it was opened in this cycle (R39, R40). -/
def State.openBin (s : State) (core : Nat) (k : BinKey) : Option Nat :=
  let zero := (s.ctx (s.crew k.crew).ctx).reformage == 0
  ((s.core core).bins.find? fun p => p.2.key == k && p.2.threads.length < 32 && (!zero || p.2.since == s.cycle)).map (·.1)

/-- The thread put into a bin that matches or into a new one, and counted (R39, R460). -/
def State.fileInto (s : State) (core bin : Nat) (k : BinKey) (t : YardThread) : State :=
  let s := s.countCore core (s.crew k.crew).ctx 0x000C 1
  let c := s.core core
  let b := (c.bins.find bin).getD { key := k, threads := [], since := s.cycle }
  s.setCore core { c with bins := c.bins.set bin { b with threads := fileThread t b.threads } }

/-- The oldest bin whose crew has a slot that can take its build (R39); of bins opened in one cycle, the lowest.
(DESIGN CHOICE: notes/assumptions/117.) -/
def State.oldestBin (s : State) (core : Nat) : Option Nat :=
  (leastBy (fun p => p.2.since) ((s.core core).bins.filter fun p => (s.freeSlot p.2.key).isSome)).map (·.1)

/-- A thread goes into its matching bin, a free bin, or the bin that building the oldest frees; else it waits (R39). -/
def State.fileYard (s : State) (core : Nat) (k : BinKey) (t : YardThread) : State :=
  let c := s.core core
  match s.openBin core k with
  | some bin => s.fileInto core bin k t
  | none =>
    let free := c.bins.fresh 0
    if free < 64 then s.fileInto core free k t
    else
      let built := match s.oldestBin core with
        | some bin => s.buildBin core bin
        | none => s
      let free := (built.core core).bins.fresh 0
      if free < 64 then built.fileInto core free k t
      else built.setCore core { built.core core with yardWait := c.yardWait ++ [(k, t)] }

/-- A thread reaches the sort yard: behind those that already wait (R39). -/
def State.enterYard (s : State) (core : Nat) (k : BinKey) (t : YardThread) : State :=
  let c := s.core core
  if c.yardWait.isEmpty then s.fileYard core k t else s.setCore core { c with yardWait := c.yardWait ++ [(k, t)] }

/-- After a bin freed, the first waiting thread is filed (R39), in this cycle. -/
def State.refileYard (s : State) (core : Nat) : State :=
  let c := s.core core
  match c.yardWait with
  | [] => s
  | (k, t) :: rest =>
    if c.bins.length < 64 then (s.setCore core { c with yardWait := rest }).fileYard core k { t with filed := s.cycle } else s

/-- Threads that wait are filed while bins are free, whatever freed them: a build, or the end or the save of a crew (R37, R39,
R340). -/
def State.refileAll (s : State) (core : Nat) : Nat → State
  | 0 => s
  | n + 1 => if (s.core core).yardWait.isEmpty ∨ 64 ≤ (s.core core).bins.length then s else (s.refileYard core).refileAll core n

end Sys2Proof.Machine
end

