-- ==== Sys2Proof/Machine/Traps.lean ====
section
/-! DEFINITION. Traps, control registers and flume state records, majors 0x78 to 0x7E (R329 to R339). -/

namespace Sys2Proof.Machine

open Sys2Proof

/-! ### trap, brk, halt, trapret, illegal words (R198, R335, R337) -/

/-- BREAK (R326, R337): trapaddr the word's byte address, return point the word after. (DEDUCED: notes/assumptions/56.) -/
def breakOp (i : Instr) (software : Bool) (code : Nat) (s : State) : Host.Outcome State Fault Refusal :=
  runOp i s fun s =>
    .error { s.mkTrap causeBreak with
      addr := byteAddr s.cur.pc, software := software, code := code, ret := some (s.cur.pc + BitVec.ofNat 64 i.len) }

def execTrap (code : Nat) (s : State) : Host.Outcome State Fault Refusal := breakOp (.trap code) true code s
def execBrk (code : Nat) (s : State) : Host.Outcome State Fault Refusal := breakOp (.brk code) false code s

/-- halt (R337): the crew or gang ends; the record holds the halting word's address and, in handler mode, the trap's. (DESIGN CHOICE: notes/assumptions/54.) -/
def execHalt (s : State) : Host.Outcome State Fault Refusal :=
  runOp .halt s fun s =>
    let w := s.cur.warp
    let x := s.curWarp
    let f := s.failureOf w (if x.handler.isSome then x.trapcause.toNat % 256 else 0) (byteAddr s.cur.pc).toNat
    .ok (s.failCrew (crewTok w) (if x.handler.isSome then f
      else { f with trapcause := 0, traplanes := 0, trapaddr := 0, trapinfo := 0 }))

/-- trapret (R335). -/
def execTrapret (s : State) : Host.Outcome State Fault Refusal :=
  runOp .trapret s fun s =>
    if s.curWarp.handler.isNone then .error (s.mkTrap causeIllegalOperand)
    else .ok ((s.block Instr.trapret.len .trapret).settleTrapret s.cur.warp)

/-- A word that is no instruction (R198): trapaddr its byte address. The failing word is the one the issue names. -/
def execIllegalInstruction (s : State) : Host.Outcome State Fault Refusal :=
  let pc := s.cur.pc + BitVec.ofNat 64 s.cur.bad
  .next (s.issueTrap { cause := causeIllegalInstruction, addr := byteAddr pc, slot := slotOfPc pc, member := s.cur.bad })

/-! ### trapsupply (R336) -/

/-- The source fits the width of the faulted load (R336). (DEDUCED: notes/assumptions/100.) -/
def supplyFits (w : Width) (quota : Nat) (a : Operand) : Bool :=
  match a with
  | .k 0 => true
  | .v n => n % (Nat.max 1 (w.bytes / 4)) == 0 && n + Nat.max 1 (w.bytes / 4) ≤ quota
  | .s _ => w.bytes ≤ 8
  | _ => w.bytes ≤ 4

/-- The causes trapsupply accepts (R336); a PAGE_FAULT with fetched bytes is a landing miss. (DEDUCED: notes/assumptions/100.) -/
def supplyCause (c : Nat) : Bool :=
  c == causeMemoryUncorrectable || c == causeLandingLost || c == causeFabricTimeout || c == causePageFault

/-- The value a load of the width gives its destination, from its bytes as a number (R184, R265, R268). Code 4 names no type: a 4-byte
value is zero-extended in a scalar destination. (DESIGN CHOICE: notes/assumptions/140.) -/
def Width.extend (w : Width) (x : Nat) : Nat :=
  match w with
  | .n8 => x % 2 ^ 8
  | .i8 => wrapNat 64 (signedOf 8 x)
  | .n16 => x % 2 ^ 16
  | .i16 => wrapNat 64 (signedOf 16 x)
  | .w32 => x % 2 ^ 32
  | .w64 => x % 2 ^ 64
  | .w128 => x

/-- Register words of a width's value. -/
def widthWords (w : Width) : Nat := if w.bytes = 16 then 4 else if w.bytes = 8 then 2 else 1

/-- The bytes trapsupply supplies to a lane. -/
def State.supplied (s : State) (w : Width) (a : Operand) (l : Nat) : Nat :=
  if w.bytes = 16 then s.src128 s.cur.warp l a
  else if w.bytes = 8 then s.src64 s.cur.warp l false a
  else s.src32 s.cur.warp l a

/-- trapsupply (R336): the faulted load completes with the supplied and the fetched bytes. -/
def execTrapsupply (a : Operand) (s : State) : Host.Outcome State Fault Refusal :=
  checkedOp (.trapsupply a) s fun s =>
    let x := s.curWarp
    let bad : Except Trap State := .error (s.mkTrap causeIllegalOperand)
    match x.handler with
    | none => bad
    | some h =>
      match h.supply with
      | none => bad
      | some p =>
        let c := x.trapcause.toNat
        let failed : LaneSet := x.traplanes.setWidth 32
        if h.used ∨ c / 2 ^ 16 % 2 = 1 ∨ supplyCause (c % 256) = false ∨ failed &&& x.liveLanes &&& ~~~s.cur.lanes ≠ 0
          ∨ supplyFits p.width x.quota a = false then bad
        else
          let lanes := p.group &&& x.liveLanes
          let value := fun l => Width.extend p.width
            (if failed.getLsbD l then s.supplied p.width a l else (p.got.find l).getD (Config.supplyLeft s.cur.warp s.cycle l))
          let y := x.writeLanes lanes (widthWords p.width) p.d value
          let y := match p.st with
            | some st => y.writeLanes lanes 1 st fun _ => 0
            | none => y
          let moved := h.returns.map fun r => (r.1, r.2 + BitVec.ofNat 64 p.len)
          .ok (s.setWarp s.cur.warp { y with handler := some { h with used := true, returns := moved } })

/-! ### Control registers (R329 to R331) -/

/-- The event counter registers (R196). -/
def isCounter (r : Nat) : Bool := 0x40 ≤ r && r < 0x58

/-- The value of a control register in the issue cycle (R329, R330). -/
def State.csr (s : State) (w r : Nat) : DWord :=
  let x := s.warp w
  let c := s.ctx (s.ctxOf w)
  let core := s.core (s.coreOf w)
  if r = 0x01 then x.fpmode
  else if r = 0x02 then x.fpflags
  else if r = 0x10 then c.trapbase
  else if r = 0x11 then x.trapcause
  else if r = 0x12 then x.traplanes
  else if r = 0x13 then x.trapaddr
  else if r = 0x14 then x.trapinfo
  else if r = 0x20 then BitVec.ofNat 64 (s.ctxOf w)
  else if r = 0x21 then c.ticketlife
  else if r = 0x22 then c.reformage
  else if r = 0x23 then c.fabrictimeout
  else if r = 0x30 then BitVec.ofNat 64 s.cycle
  else if r < 0x48 then core.evsel.get (r - 0x40)
  else core.evcount.get (r - 0x50)

/-- A counter register without counter permission faults PROTECTION (R329). -/
def State.counterFault (s : State) (r : Nat) : Bool := isCounter r && !(s.launchOf s.cur.warp).spec.counters

/-- csrr (R330). -/
def execCsrr (d : Operand) (r : Nat) (s : State) : Host.Outcome State Fault Refusal :=
  checkedOp (.csrr d r) s fun s =>
    if s.counterFault r then .error (s.mkTrap causeProtection)
    else .ok (s.writeRes 1 d fun _ => (s.csr s.cur.warp r).toNat)

/-- The value csrw's source supplies (R330): a vector register gives the leader's 32 bits. -/
def State.csrSource (s : State) (a : Operand) : Nat :=
  match a with
  | .v _ => s.lead32 a
  | _ => s.lead64 a

/-- The writable bits of a register (R132, R331). (DEDUCED: notes/assumptions/85.) -/
def csrMask (r : Nat) : Nat :=
  if r = 0x01 then 0x1F03
  else if r = 0x02 then 0x1F
  else if r = 0x10 then 2 ^ 53 - 1
  else if r = 0x21 then 2 ^ 20 - 1
  else if r = 0x22 then 2 ^ 16 - 1
  else if r = 0x23 then 2 ^ 17 - 1
  else if r < 0x48 then 0xC000FFFF
  else 2 ^ 64 - 1

/-- The value lies in the field's stated range (R331); a core counter takes core sources only (R460). -/
def csrInRange (r x : Nat) : Bool :=
  if r = 0x10 then x % 12 == 0
  else if r = 0x21 then 1 ≤ x && x ≤ 1000000
  else if r = 0x23 then 100 ≤ x && x ≤ 100000
  else if 0x40 ≤ r ∧ r < 0x48 then x % 2 ^ 16 ≤ 0x000E
  else true

/-- The write of a register held per warp or per core (R330, R331, R461). -/
def State.setCsr (s : State) (w r : Nat) (x : DWord) : State :=
  if r = 0x01 then s.setWarp w { s.warp w with fpmode := x }
  else if r = 0x02 then s.setWarp w { s.warp w with fpflags := x }
  else
    let n := s.coreOf w
    let c := s.core n
    if r < 0x48 then
      s.setCore n { c with evsel := c.evsel.set (r - 0x40) x, evctx := c.evctx.set (r - 0x40) (s.ctxOf w) }
    else s.setCore n { c with evcount := c.evcount.set (r - 0x50) x }

/-- The commit of a register held per context (R330). -/
def State.setCtxCsr (s : State) (ctx r : Nat) (x : DWord) : State :=
  let c := s.ctx ctx
  s.setCtx ctx (if r = 0x10 then { c with trapbase := x } else if r = 0x21 then { c with ticketlife := x }
    else if r = 0x22 then { c with reformage := x } else { c with fabrictimeout := x })

/-- csrw (R330): a register held per warp or core is written at once; one held per context waits for its commit. -/
def execCsrw (a : Operand) (r : Nat) (s : State) : Host.Outcome State Fault Refusal :=
  runOp (.csrw a r) s fun s =>
    let x := Nat.land (s.csrSource a) (csrMask r)
    let len := (Instr.csrw a r).len
    if s.counterFault r then .error (s.mkTrap causeProtection)
    else if csrInRange r x = false then .error (s.mkTrap causeIllegalOperand)
    else if r = 0x10 ∨ r = 0x21 ∨ r = 0x22 ∨ r = 0x23 then .ok (s.block len (.csr r (BitVec.ofNat 64 x)))
    else .ok ((s.setCsr s.cur.warp r (BitVec.ofNat 64 x)).advance len)

/-- The value holds on every core: the write commits, and the lanes go on (R330). -/
def execCsrContextCommit (w : Nat) (s : State) : Host.Outcome State Fault Refusal :=
  let x := s.warp w
  match x.waits.find? fun r => match r.wait with | .csr .. => true | _ => false with
  | none => .next s
  | some r =>
    match r.wait with
    | .csr reg v => .next ((s.setWarp w (x.release s.cycle r r.lanes)).setCtxCsr (s.ctxOf w) reg v)
    | _ => .next s

/-! ### Flume state records (R338, R339) -/

/-- The ext field's value of a member (R338): z holds 0. -/
def memberExt (m : ChainMember) : Nat :=
  if m.dest = .z then 0 else if m.words = 2 then 2 else if m.signExt then 1 else 0

/-- The number of a lane entry (R338): result words, flags, trapping member. -/
def laneEntry (l : ChainLane) : Nat :=
  (l.res.take 3).foldr (fun x acc => x + 2 ^ 32 * acc) 0 % 2 ^ 96 + l.flags % 32 * 2 ^ 96 + l.trapMember % 4 * 2 ^ 101

/-- The bytes of a record before its check (R338). (DEDUCED: notes/assumptions/55.) -/
def recordBody (c : Chain) (ctx slot index : Nat) (check : Nat) : List Byte :=
  let member := fun j => c.members.getD j { dest := .z, words := 0, signExt := false }
  let bit := fun (b : Bool) => if b then 1 else 0
  natToBytes 2 1
    ++ natToBytes 1 (1 + c.port * 2 + c.members.length * 4 + bit c.trapping * 16)
    ++ natToBytes 1 0
    ++ [0, 1, 2].map (fun j => BitVec.ofNat 8 (member j).dest.code)
    ++ natToBytes 1 (([0, 1, 2].map fun j => bit (member j).dest.hi * 2 ^ j).sum)
    ++ natToBytes 1 (([0, 1, 2].map fun j => memberExt (member j) * 4 ^ j).sum)
    ++ natToBytes 1 0 ++ natToBytes 2 c.done ++ natToBytes 2 c.total ++ natToBytes 2 (c.mode % 2 ^ 13)
    ++ natToBytes 4 c.lanes.toNat ++ natToBytes 2 ctx ++ natToBytes 1 slot ++ natToBytes 1 0 ++ natToBytes 4 index
    ++ natToBytes 2 check ++ natToBytes 2 0
    ++ (List.range 32).flatMap fun l => natToBytes 15 (if c.lanes.getLsbD l then laneEntry (c.results.get l) else 0)

/-- The 510 bytes the check covers (R338). (DEDUCED: notes/assumptions/55.) -/
def recordRest (bs : List Byte) : List Byte := bs.take 0x1C ++ bs.drop 0x1E

/-- A record of 512 bytes with its keyed check (R338). -/
def recordBytes (key : Nat) (c : Chain) (ctx slot index : Nat) : List Byte :=
  recordBody c ctx slot index (Config.recordCheck key (recordRest (recordBody c ctx slot index 0))).toNat

/-- A field of a record. -/
def recField (bs : List Byte) (off n : Nat) : Nat := bytesToNat ((bs.drop off).take n)

/-- A member of a record (R338). -/
def recMember (bs : List Byte) (j : Nat) : ChainMember :=
  let ext := recField bs 8 1 / 4 ^ j % 4
  let dest := (Operand.ofCode (recField bs (4 + j) 1) (recField bs 7 1 / 2 ^ j % 2 = 1) []).getD .z
  { dest := dest, words := if dest = .z then 0 else if ext = 2 then 2 else 1, signExt := ext == 1 }

/-- A lane of a record (R338). -/
def recLane (bs : List Byte) (words l : Nat) : ChainLane :=
  let x := recField bs (0x20 + 15 * l) 15
  { res := (List.range words).map fun k => x / 2 ^ (32 * k) % 2 ^ 32, flags := x / 2 ^ 96 % 32,
    trapMember := x / 2 ^ 101 % 4 }

/-- The chain of a valid record (R338). -/
def recChain (bs : List Byte) : Chain :=
  let members := (List.range (recField bs 2 1 / 4 % 4)).map (recMember bs)
  let lanes : LaneSet := BitVec.ofNat 32 (recField bs 0x10 4)
  { port := recField bs 2 1 / 2 % 2, members := members, lanes := lanes, mode := recField bs 0x0E 2, done := recField bs 0x0A 2,
    total := recField bs 0x0C 2, start := 0, pc := 0,
    results := (lanesOf lanes).map fun l => (l, recLane bs (members.map (·.words)).sum l) }

/-- The checks flrestore makes of a valid record (R339). -/
def recordOk (key : Nat) (bs : List Byte) (ctx slot index : Nat) : Bool :=
  let st := recField bs 2 1
  recField bs 0 2 == 1 && st / 32 == 0 && st / 4 % 4 != 0 && recField bs 3 1 == 0 && recField bs 9 1 == 0
    && recField bs 7 1 / 8 == 0 && recField bs 8 1 / 64 == 0 && recField bs 0x0E 2 / 2 ^ 13 == 0
    && recField bs 0x17 1 == 0 && recField bs 0x1E 2 == 0
    && ([0, 1, 2].all fun j => recField bs 8 1 / 4 ^ j % 4 != 3)
    && ((List.range 32).all fun l => recField bs (0x20 + 15 * l) 15 / 2 ^ 103 == 0)
    && recField bs 0x1C 2 == (Config.recordCheck key (recordRest bs)).toNat
    && recField bs 0x14 2 == ctx && recField bs 0x16 1 == slot && recField bs 0x18 4 == index

/-- The address checks flsave and flrestore share (R339). -/
def State.recordPlace (s : State) (off : Nat) : Except Trap Nat :=
  if off % 64 ≠ 0 then .error { s.mkTrap causeMisaligned with addr := BitVec.ofNat 64 off }
  else
    match s.ownPhys (crewTok s.cur.warp) off 512 with
    | none => .error { s.mkTrap causeScratchBound with addr := BitVec.ofNat 64 (Nat.max off (s.crewOf s.cur.warp).size) }
    | some p => .ok p

/-- The record slot of a warp's port as bytes: an empty slot is 512 zero bytes (R338). -/
def State.slotBytes (s : State) (w port : Nat) : List Byte :=
  match (s.warp w).parked port with
  | none => natToBytes 512 0
  | some c => recordBytes s.key c (s.ctxOf w) (slotOf w) (s.crewOf w).index

/-- flsave (R339). -/
def execFlsave (a : Operand) (port : Nat) (s : State) : Host.Outcome State Fault Refusal :=
  checkedOp (.flsave a port) s fun s =>
    let x := s.curWarp
    if x.handler.isNone then .error (s.mkTrap causeIllegalOperand)
    else
      match s.recordPlace (s.lead32 a) with
      | .error t => .error t
      | .ok p =>
        .ok ((s.storeX p (s.slotBytes s.cur.warp port)).setWarp s.cur.warp (x.setParked port none))

/-- The warp's open chain on a port parks in this cycle: the crew's swap-out was asked for in it (R340, R343). -/
def State.parksNow (s : State) (port : Nat) : Bool :=
  let c := s.crewOf s.cur.warp
  let x := s.curWarp
  c.saving && c.savingAt == s.cycle && (x.chain port).any fun ch => decide (s.cycle < ch.writeback) && !x.unparkable s.cycle port ch

/-- flrestore (R339); a chain that parks in its cycle has the slot (R343). -/
def execFlrestore (a : Operand) (port : Nat) (s : State) : Host.Outcome State Fault Refusal :=
  checkedOp (.flrestore a port) s fun s =>
    let x := s.curWarp
    if x.handler.isNone ∨ (x.parked port).isSome ∨ s.parksNow port then .error (s.mkTrap causeIllegalOperand)
    else
      match s.recordPlace (s.lead32 a) with
      | .error t => .error t
      | .ok p =>
        let bytes := s.mem.read p 512
        if recField bytes 2 1 % 2 = 0 then .ok s
        else if recordOk s.key bytes (s.ctxOf s.cur.warp) (slotOf s.cur.warp) (s.crewOf s.cur.warp).index then
          .ok (s.setWarp s.cur.warp (x.setParked port (some (recChain bytes))))
        else .error (s.mkTrap causeIllegalOperand)

end Sys2Proof.Machine
end

