-- ==== Sys2Proof/Machine/LoadStore.lean ====
section
/-! DEFINITION. Loads, stores and prefetches, majors 0x60 to 0x64 and 0x6F, with what every memory instruction shares:
addresses, coalescing, the fault classes, translation, remote requests (R54 to R72, R97, R98, R264 to R272). -/

namespace Sys2Proof.Machine

open Sys2Proof

/-! ### Addresses and requests (R66, R264 to R267) -/

/-- A lane's address: 64 bits in the global space, an offset in the scratchpad space, with the offset of 0x6F added; a
scratchpad sum below 0 wraps far outside the space (R264, R270). (DEDUCED: notes/assumptions/23.) -/
def State.laneVa (s : State) (x : Bool) (a : Operand) (off : Option Operand) (l : Nat) : Nat :=
  let w := s.cur.warp
  let base := if x then s.src32 w l a else s.src64 w l false a
  match off with
  | none => base
  | some b => wrapNat 64 (base + signedOf 32 (s.src32 w l b))

/-- The executing lanes' accesses, with data operands. -/
def State.laneOps (s : State) (x : Bool) (a : Operand) (off : Option Operand) (b c : Nat → Nat) : List LaneOp :=
  (lanesOf s.cur.lanes).map fun l => { lane := l, va := s.laneVa x a off l, pa := 0, b := b l, c := c l }

/-- The lanes of a list of accesses. -/
def opLanes (ops : List LaneOp) : LaneSet := laneSet (ops.map (·.lane))

/-- The lowest address of a list of accesses, 0 for none. -/
def lowestVa (ops : List LaneOp) : Nat := ((leastBy LaneOp.va ops).map (·.va)).getD 0

/-- A fault naming some lanes and their lowest address (R67). -/
def State.lanesTrap (s : State) (cause : Nat) (bad : List LaneOp) : Trap :=
  { s.mkTrap cause with lanes := opLanes bad, addr := BitVec.ofNat 64 (lowestVa bad) }

/-- MISALIGNED (R266). -/
def State.misaligned (s : State) (ops : List LaneOp) (w : Nat) : Option Trap :=
  let bad := ops.filter fun o => o.va % w != 0
  if bad.isEmpty then none else some (s.lanesTrap causeMisaligned bad)

/-- PROTECTION for an address beyond 53 bits (R54). (DEDUCED: notes/assumptions/23.) -/
def State.outOfRange (s : State) (ops : List LaneOp) : Option Trap :=
  let bad := ops.filter fun o => 2 ^ 53 ≤ o.va
  if bad.isEmpty then none else some (s.lanesTrap causeProtection bad)

/-- The accesses of one 128-byte segment, segments in ascending address (R66). -/
def segments (ops : List LaneOp) : List (List LaneOp) :=
  (sortBy id (dedup (ops.map fun o => o.va / 128))).map fun g => ops.filter fun o => o.va / 128 == g

/-- The least aligned block of 16 to 128 bytes that holds `lo` to `hi` (R66). -/
def requestSize (lo hi : Nat) : Nat :=
  if lo / 16 = hi / 16 then 16 else if lo / 32 = hi / 32 then 32 else if lo / 64 = hi / 64 then 64 else 128

/-- The highest byte a list of accesses of `w` bytes touches. -/
def highestVa (ops : List LaneOp) (w : Nat) : Nat := ops.foldl (fun m o => Nat.max m (o.va + w - 1)) 0

/-- The request of a segment: its virtual address and size (R66). -/
def requestOf (ops : List LaneOp) (w : Nat) : Nat × Nat :=
  let lo := lowestVa ops
  let n := requestSize lo (highestVa ops w)
  (lo / n * n, n)

/-- A request that translated: its page's attributes with the request's physical address, its size, its lanes. -/
structure Part where
  x : Xlat
  va : Nat
  size : Nat
  ops : List LaneOp
  deriving DecidableEq, Repr, Inhabited

/-- How the translation of an instruction's requests ends. -/
inductive Reach where
  | ok (parts : List Part)
  | fault (t : Trap)
  | miss (vas : List Nat)
  deriving DecidableEq, Repr, Inhabited

/-- A request translated (R66): its lanes take their physical addresses. -/
def partOf (x : Xlat) (va size : Nat) (ops : List LaneOp) : Part :=
  { x := x, va := va, size := size, ops := ops.map fun o => { o with pa := x.pa + (o.va - va), mig := x.mig } }

/-- One request's translation: its part, a fault cause, or a miss. A packed page faults PACKED_ACCESS (R73). -/
def State.reachOne (s : State) (acc : Access) (w : Nat) (ops : List LaneOp) : Part × Option Nat × Bool :=
  let (va, n) := requestOf ops w
  match s.xlateWarp s.cur.warp va acc with
  | .miss => (partOf default va n ops, none, true)
  | .fault c => (partOf default va n ops, some c, false)
  | .ok x =>
    if x.packed then (partOf x va n ops, some causePackedAccess, false)
    else (partOf x va n ops, none, s.beforeSwing x)

/-- The translation of all requests (R67, R413): misses first, then the faults together, then the parts. -/
def State.reach (s : State) (acc : Access) (w : Nat) (ops : List LaneOp) : Reach :=
  let rs := (segments ops).map (s.reachOne acc w)
  let misses := rs.filter fun r => r.2.2
  let bad := rs.filter fun r => r.2.1.isSome
  if !misses.isEmpty then .miss (misses.map fun r => lowestVa r.1.ops)
  else
    match bad with
    | [] => .ok (rs.map (·.1))
    | r :: _ => .fault (s.lanesTrap (r.2.1.getD 0) (bad.flatMap fun r => r.1.ops))

/-- The issuing lanes try again in the next cycle. -/
def State.stall (s : State) : State := s.upCur fun w => w.mapLanes s.cur.lanes fun x => { x with readyAt := s.cycle + 1 }

/-- The misses of some addresses that a core can note: those that share a pending one, and new ones up to 16 (R413). -/
def State.noteMisses (s : State) (core ctx : Nat) (acc : Access) (vas : List Nat) : State :=
  vas.foldl (fun s va => if (s.core core).misses.length < 16 then s.addMiss core ctx va acc else s) s

/-- The pages of some addresses whose miss is noted on a core. -/
def State.missing (s : State) (core ctx : Nat) (vas : List Nat) : List Nat :=
  dedup ((vas.map (· / 8192)).filter fun p => (s.core core).misses.any fun m => m.ctx == ctx && m.vpn == p)

/-- The lanes wait for walks, or for a swing (R413, R421). Of a group that needs more misses than are free, which only happens when
it needs more than 16 by itself, some are noted, and it issues again for the rest. (DEDUCED: notes/assumptions/68.) -/
def State.waitWalk (s : State) (len : Nat) (vas : List Nat) (acc : Access) : State :=
  let core := s.coreOf s.cur.warp
  let ctx := s.ctxOf s.cur.warp
  let want := vas.filter fun va => s.xlateWarp s.cur.warp va acc == .miss
  let t := s.noteMisses core ctx acc want
  let got := t.missing core ctx want
  if want.isEmpty then s.block len (.tlb (vas.map (· / 8192)))
  else if got.isEmpty then s.stall
  else (t.countCore core ctx 0x000A ((t.core core).misses.length - (s.core core).misses.length)).block len (.tlb got)

/-- Faults a walk found are spent once the instruction goes on (R413). -/
def State.spendWalk (s : State) : State :=
  s.upCur fun w => { w with walkFaults := if w.walkFaults.isEmpty then [] else
    (w.walkFaults.map fun f => { f with lanes := f.lanes &&& ~~~s.cur.lanes }).filter fun f => f.lanes != 0 }

/-- The checks of classes 2 to 4 for a global access, then its effect on the parts (R267). -/
def State.globalAccess (s : State) (len w : Nat) (acc : Access) (ops : List LaneOp)
    (f : State → List Part → Except Trap State) : Except Trap State :=
  match s.misaligned ops w with
  | some t => .error t
  | none =>
    match s.outOfRange ops with
    | some t => .error t
    | none =>
      match s.reach acc w ops with
      | .fault t => .error t
      | .miss vas => .ok (s.waitWalk len vas acc)
      | .ok parts => f s.spendWalk parts

/-- The checks of a scratchpad access, then its effect on the physical addresses (R57, R267). -/
def State.scratchAccess (s : State) (w : Nat) (ops : List LaneOp) (f : State → List LaneOp → Except Trap State) :
    Except Trap State :=
  match s.misaligned ops w with
  | some t => .error t
  | none =>
    let tok := crewTok s.cur.warp
    let bad := ops.filter fun o => (s.scratchPhys tok o.va w).isNone
    if bad.isEmpty then f s (ops.map fun o => { o with pa := (s.scratchPhys tok o.va w).getD 0 })
    else .error (s.lanesTrap causeScratchBound bad)

/-! ### Acquire and release (R89, R93, R97, R98) -/

/-- The modifier or the page makes the access an acquire, or a release, beyond the core (R89, R93). -/
def ordersBeyond (modifier : Bool) (sc : Scope) (least : Nat) (orders : List Nat) : Bool :=
  least ≤ sc.code && orders.any fun k => k == 1 || (modifier && k != 2)

/-- An acquire at gang scope or wider: nothing older than it is read again from L1 (R93, R95). -/
def State.acquire (s : State) (on : Bool) : State := if on then s.emptyL1 (s.coreOf s.cur.warp) else s

/-- The warp's outstanding-remote-store counter (R97). -/
def State.outstanding (s : State) (w : Nat) : Nat :=
  (s.reqs.filter fun r => r.2.warp == w && (match r.2.kind with
    | .store => true
    | .atom _ _ ret => !ret
    | _ => false)).length

/-- The remote-error indicator as the fault it raises (R98, R328). (DEDUCED: notes/assumptions/104.) -/
def State.remoteTrap (s : State) (e : RemoteErr) : Trap :=
  { s.mkTrap e.cause with addr := BitVec.ofNat 64 e.addr, landing := e.landing, deferred := true }

/-- A release at pool or system scope: wait for the counter, then the indicator's fault, else go on (R97, R98). -/
def State.release (s : State) (on : Bool) (len : Nat) (f : State → Except Trap State) : Except Trap State :=
  if on then
    if s.outstanding s.cur.warp ≠ 0 then .ok (s.block len .fence)
    else
      match s.curWarp.remoteErr with
      | some e => .ok ((s.upCur fun w => { w with remoteErr := none }).issueTrap (s.remoteTrap e))
      | none => f s
  else f s

/-! ### Requests that leave the module (R72, R97, R439) -/

/-- A free tag of a port: not used by a request, not retired (R439). -/
def State.freeTag (s : State) (port : Nat) : Option Nat :=
  let used := (s.reqs.filter fun r => r.2.port == port).filterMap fun r => r.2.tag
  let retired := (s.ports.get port).retired.keys
  if used.length + retired.length < 4096 then
    (List.range 4096).find? fun t => !used.contains t && !retired.contains t
  else none

/-- A request leaves its port in a cycle if it has a tag: one whose carried count is not above zero is discarded where it arrives
(R439). -/
def Req.leave (r : Req) (cycle : Nat) (tag : Option Nat) : Req :=
  { r with tag := tag, discarded := r.discarded || (tag.isSome && decide (r.deadline ≤ cycle + 10 * Config.cyclesPerUs)) }

/-- A request put on its port, with a tag when the port is up (R438, R439). -/
def State.send (s : State) (r : Req) : State :=
  let tag := if (s.ports.get r.port).state = 2 then s.freeTag r.port else none
  { s with reqs := s.reqs.set s.nextReq (r.leave s.cycle tag), nextReq := s.nextReq + 1 }

/-- Requests without a tag take one when a port that may carry them is up and has one free (R439). -/
def State.sendWaiting (s : State) : State :=
  s.reqs.foldl (fun s p =>
    if p.2.tag = none then
      match s.carrier p.2.pa with
      | some port =>
        let tag := if (s.ports.get port).state = 2 then s.freeTag port else none
        { s with reqs := s.reqs.set p.1 ({ p.2 with port := port }.leave s.cycle tag) }
      | none => s
    else s) s

/-- A part as a request of a kind. -/
def State.reqOf (s : State) (kind : ReqKind) (p : Part) (w : Nat) (port : Nat) : Req :=
  { kind := kind, warp := s.cur.warp, ctx := s.ctxOf s.cur.warp, va := p.va, pa := p.x.pa, size := p.size, bytes := w,
    home := p.x.home, ops := p.ops, port := port, tag := none, deadline := s.cycle + s.fabricLimit (s.ctxOf s.cur.warp), discarded := false }

/-- The first failure of a remote store is the one the indicator records (R98). -/
def Warp.recordRemote (w : Warp) (e : RemoteErr) : Warp :=
  match w.remoteErr with
  | some _ => w
  | none => { w with remoteErr := some e }

/-- The lanes' bytes of a store, or of an atomic without return, to a failed line are dropped and logged (R422). (DEDUCED: notes/assumptions/103.) -/
def State.dropStore (s : State) (p : Part) : State :=
  s.logError 3 (storageRow p.x.pa) (s.ctxOf s.cur.warp) (placeOf p.x.pa) p.x.pa (lowestVa p.ops)

/-- A request without response, past the migration unit: sent, or dropped and recorded when its landing is lost, or dropped and
logged on a failed line (R72, R116, R422). With the numbers of the requests sent so far. -/
def State.sendStore (s : State) (kind : ReqKind) (w : Nat) (p : Part) (rs : List Nat) : State × List Nat :=
  let s := s.dropL1 (s.coreOf s.cur.warp) p.x.pa p.size
  match s.lineFault p.x p.size with
  | some _ => (s.dropStore p, rs)
  | none =>
    match s.carrier p.x.pa with
    | some port => (s.send (s.reqOf kind p w port), rs ++ [s.nextReq])
    | none => (s.upCur fun x => x.recordRemote ⟨causeLandingLost, lowestVa p.ops, s.landingOf p.x.pa⟩, rs)

/-- Room under the counter's limit for the remote requests of an instruction; until then its lanes block (R97). -/
def State.withRoom (s : State) (len : Nat) (remote : Nat) (f : State → Except Trap State) : Except Trap State :=
  if remote ≠ 0 ∧ 256 < s.outstanding s.cur.warp + remote then .ok (s.block len (.room none)) else f s

/-! ### Responses (R271) -/

/-- What the answered lanes have given so far: each lane's bytes, and the faults met. -/
structure Got where
  vals : FMap Nat
  faults : List AccessFault
  deriving DecidableEq, Repr, Inhabited

/-- A response fault of an instruction (R67, R271): every failed lane, the lowest address and its cause. -/
def responseTrap (fs : List AccessFault) (someDone : Bool) : Trap :=
  let low := (leastBy AccessFault.addr fs).getD default
  { cause := low.cause, lanes := fs.foldl (fun m f => m ||| f.lanes) 0, addr := BitVec.ofNat 64 low.addr,
    landing := if low.cause = causeMemoryUncorrectable then 0 else low.landing, part := someDone }

/-- The value an answered lane gives its destination: a load's by its width code, an atomic's by its type (R123, R268). -/
def MemWait.value (m : MemWait) (x : Nat) : Nat :=
  match m.ext with
  | some t => extendInt t (intOf t x)
  | none => if m.atomic then x else Width.extend m.width x

/-- Register words of the destination. -/
def MemWait.words (m : MemWait) : Nat := if m.bytes = 16 then 4 else if m.bytes = 8 then 2 else 1

/-- The waiting lanes' destination written with what they got. -/
def Warp.writeMem (w : Warp) (lanes : LaneSet) (m : MemWait) : Warp :=
  w.writeLanes lanes m.words m.d fun l => m.value (m.got.get l)

/-- A load or atomic with every response in: its lanes go on with their results, or take the response fault (R271). -/
def State.finishMem (s : State) (w : Nat) (r : WaitRec) (m : MemWait) : State :=
  let s := if m.acq then s.emptyL1 (s.coreOf w) else s
  if m.faults.isEmpty then s.setWarp w (((s.warp w).writeMem r.lanes m).release s.cycle r r.lanes)
  else
    let t := { responseTrap m.faults (m.atomic && m.some_) with
      group := r.lanes, ret := some r.pc, port := r.port, slot := slotOfPc r.pc }
    let sup := if m.atomic then none
      else some { d := m.d, width := m.width, group := r.lanes, len := r.len, got := m.got, st := none }
    (s.setWarp w ((s.warp w).retry s.cycle r.lanes)).takeResponse w t sup

/-- An instruction whose local parts are done: it completes, or its lanes wait for the requests' responses. -/
def State.afterLocal (s : State) (len : Nat) (m : MemWait) : State :=
  if m.reqs.isEmpty then
    if m.faults.isEmpty then (s.upCur fun w => w.writeMem s.cur.lanes m).advance len
    else
      let t := { responseTrap m.faults (m.atomic && m.some_) with slot := slotOfPc s.cur.pc }
      s.issueTrap t (if m.atomic then none
        else some { d := m.d, width := m.width, group := s.cur.lanes, len := len, got := m.got, st := none })
  else s.block len (.mem m)

/-! ### Loads -/

/-- One lane's bytes from L1, or from memory with its error (R64, R424). -/
def State.readLane (s : State) (core : Nat) (home w : Nat) (o : LaneOp) : Option Nat :=
  match (if home = 0 then s.l1Sector core o.pa else none) with
  | some bs => some (bytesToNat ((bs.drop (o.pa % 16)).take w))
  | none => if s.readBad o.pa w then none else some (bytesToNat (s.readPhys o.pa w))

/-- A local request of a load performed (R64, R81, R82). -/
def State.loadLocal (s : State) (w : Nat) (g : Got) (p : Part) : State × Got :=
  let core := s.coreOf s.cur.warp
  let s := s.touch p.x p.size
  match s.lineFault p.x p.size with
  | some (c, l) => (s, { g with faults := g.faults ++ [⟨c, lowestVa p.ops, opLanes p.ops, l⟩] })
  | none =>
    let s := if p.x.home = 0 then s.fillL1 core p.x.pa p.size else s
    let s := s.countServed p.x.pa
    let g := p.ops.foldl (fun (g : Got) o =>
      match s.readLane core p.x.home w o with
      | some v => { g with vals := g.vals.set o.lane v }
      | none => { g with faults := g.faults ++ [⟨causeMemoryUncorrectable, o.va, laneBit o.lane, 0⟩] }) g
    (s.logReads (s.ctxOf s.cur.warp) w (p.ops.filter fun o => (s.readLane core p.x.home w o).isNone), g)

/-- Every lane of a part hits in L1: nothing is asked of its home. A request that carries mig passes the migration unit, one to a lost
landing or to bytes that no allocation covers is answered there, and one to bytes that a write of the module is on its way to comes
behind it (R69, R87, R95, R116, R421). -/
def State.hitsL1 (s : State) (p : Part) : Bool :=
  p.x.home == 0 && !p.x.mig && !s.openWrite p.x.pa p.size && !s.poolGone (s.ctxOf s.cur.warp) p.x.pa p.size
    && p.ops.all fun o => (s.l1Sector (s.coreOf s.cur.warp) o.pa).isSome

/-- A load's lanes answered by L1 (R64). -/
def State.loadHit (s : State) (w : Nat) (g : Got) (p : Part) : Got :=
  p.ops.foldl (fun (g : Got) o =>
    { g with vals := g.vals.set o.lane ((s.readLane (s.coreOf s.cur.warp) 0 w o).getD 0) }) g

/-- A part passes the migration unit: its line is pulled first (R81, R421). -/
def State.touchPart (s : State) (p : Part) : State := s.touch p.x p.size

/-- All lanes of a part failed with a cause at a landing. -/
def Part.fault (p : Part) (cause landing : Nat) : AccessFault := ⟨cause, lowestVa p.ops, opLanes p.ops, landing⟩

/-- A part that must leave the module for an answer: sent, or its lanes failed, by a failed line or a lost landing (R72, R82,
R116). -/
def State.askRemote (s : State) (kind : ReqKind) (w : Nat) (p : Part) (g : Got) (rs : List Nat) : State × Got × List Nat :=
  match s.lineFault p.x p.size with
  | some (c, l) => (s, { g with faults := g.faults ++ [p.fault c l] }, rs)
  | none =>
    match s.carrier p.x.pa with
    | some port => (s.send (s.reqOf kind p w port), g, rs ++ [s.nextReq])
    | none => (s, { g with faults := g.faults ++ [p.fault causeLandingLost (s.landingOf p.x.pa)] }, rs)

/-- A part that the module itself performs, while its slices answer late: it stands as a request, without a timeout, until they
answer; a failed line fails its lanes at once (R82, R271, R290). (DESIGN CHOICE: notes/assumptions/115.) -/
def State.askHere (s : State) (kind : ReqKind) (w : Nat) (p : Part) (g : Got) (rs : List Nat) : State × Got × List Nat :=
  match s.lineFault p.x p.size with
  | some (c, l) => (s, { g with faults := g.faults ++ [p.fault c l] }, rs)
  | none =>
    let r := { s.reqOf kind p w slicePort with tag := some 0, deadline := s.cycle + 2 ^ 80 }
    ({ s with reqs := s.reqs.set s.nextReq r, nextReq := s.nextReq + 1 }, g, rs ++ [s.nextReq])

/-- One part of a load: L1 answers it, or its home here, or it becomes a request. -/
def State.loadPart (s : State) (w : Nat) (p : Part) (g : Got) (rs : List Nat) : State × Got × List Nat :=
  if s.hitsL1 p then (s, s.loadHit w g p, rs)
  else if isRemote p.x.pa then (s.touchPart p).askRemote .load w p g rs
  else if s.silent.get slicePort then (s.touchPart p).askHere .load w p g rs
  else
    let (s, g) := s.loadLocal w g p
    (s, g, rs)

/-- A load's parts: local ones are performed, remote ones become requests; a lost landing faults (R72, R116). -/
def State.loadParts (s : State) (w : Nat) : List Part → Got → List Nat → State × Got × List Nat
  | [], g, rs => (s, g, rs)
  | p :: t, g, rs =>
    let (s, g, rs) := s.loadPart w p g rs
    s.loadParts w t g rs

/-- A global load (R268, R270). -/
def State.loadG (s : State) (len : Nat) (w : Width) (ord : Order) (sc : Scope) (d a : Operand) (off : Option Operand) :
    Except Trap State :=
  let n := w.bytes
  s.globalAccess len n .read (s.laneOps false a off (fun _ => 0) fun _ => 0) fun s parts =>
    let acq := ordersBeyond (ord == .acq) sc 3 (parts.map (·.x.order))
    let s := s.acquire acq
    let (s, g, rs) := s.loadParts n parts ⟨[], []⟩ []
    .ok (s.afterLocal len { atomic := false, width := w, bytes := n, ext := none, d := d, reqs := rs, got := g.vals,
                            faults := g.faults, some_ := false, acq := acq })

/-- A scratchpad load (R57, R268, R423). -/
def State.loadX (s : State) (len : Nat) (w : Width) (ord : Order) (sc : Scope) (d a : Operand) (off : Option Operand) :
    Except Trap State :=
  let n := w.bytes
  s.scratchAccess n (s.laneOps true a off (fun _ => 0) fun _ => 0) fun s ops =>
    let s := s.acquire (ord == .acq && 3 ≤ sc.code)
    let bad := ops.filter fun o => s.badWord o.pa n
    let good := ops.filter fun o => !s.badWord o.pa n
    let s := s.logScratch (s.ctxOf s.cur.warp) (s.coreOf s.cur.warp) bad
    .ok (s.afterLocal len
      { atomic := false, width := w, bytes := n, ext := none, d := d, reqs := [],
        got := good.map fun o => (o.lane, s.mem.readNat o.pa n),
        faults := bad.map fun o => ⟨causeMemoryUncorrectable, o.va, laneBit o.lane, 0⟩, some_ := false, acq := false })

/-! ### Stores -/

/-- The data a lane stores (R265). -/
def State.storeData (s : State) (w : Nat) (d : Operand) (l : Nat) : Nat :=
  if w = 16 then s.src128 s.cur.warp l d else if w = 8 then s.src64 s.cur.warp l false d else s.src32 s.cur.warp l d

/-- The instruction's lanes cover a whole 256-byte line (R422). (DEDUCED: notes/assumptions/103.) -/
def coversLine (ops : List LaneOp) (w line : Nat) : Bool :=
  256 ≤ (dedup ((ops.filter fun o => o.va / 256 == line).map (·.va))).length * w

/-- One lane's store performed (R68, R88). -/
def State.storeLane (s : State) (ctx core w : Nat) (home : Nat) (o : LaneOp) : State :=
  let bs := natToBytes w o.b
  let s := s.storePhys ctx o.pa o.va bs
  if home = 0 then s.storeL1 core o.pa bs else s

/-- A store's line of a migrating page made ready: a store that covers it whole clears its failure, any other waits for its pull
(R81, R422). -/
def State.storeTouch (s : State) (w : Nat) (all : List LaneOp) (p : Part) : State :=
  if p.x.mig ∧ coversLine all w (lowestVa p.ops / 256) then s.clearLine p.x else s.touchPart p

/-- A part of a store: it leaves the module, or is performed here. (DEDUCED: notes/assumptions/103.) -/
def State.storePart (s : State) (w : Nat) (all : List LaneOp) (p : Part) : State :=
  let ctx := s.ctxOf s.cur.warp
  let s := s.storeTouch w all p
  if isRemote p.x.pa then (s.sendStore .store w p []).1
  else
    match s.lineFault p.x p.size with
    | some _ => s.dropStore p
    | none =>
      ((p.ops.foldl (fun s o => s.storeLane ctx (s.coreOf s.cur.warp) w p.x.home o) s).wroteWhole p.ops w).countServed p.x.pa

/-- A global store (R268 to R270): a release first, room under the counter, then every part. -/
def State.storeG (s : State) (len : Nat) (w : Width) (ord : Order) (sc : Scope) (d a : Operand) (off : Option Operand) :
    Except Trap State :=
  let n := w.bytes
  let ops := s.laneOps false a off (s.storeData n d) fun _ => 0
  s.globalAccess len n .write ops fun s parts =>
    s.release (ordersBeyond (ord == .rel) sc 5 (parts.map (·.x.order))) len fun s =>
      let remote := parts.filter fun p => isRemote p.x.pa
      s.withRoom len remote.length fun s =>
        .ok ((parts.foldl (fun s p => s.storePart n ops p) s).advance len)

/-- A scratchpad store (R57, R268). -/
def State.storeXs (s : State) (len : Nat) (w : Width) (ord : Order) (sc : Scope) (d a : Operand) (off : Option Operand) :
    Except Trap State :=
  let n := w.bytes
  s.scratchAccess n (s.laneOps true a off (s.storeData n d) fun _ => 0) fun s ops =>
    s.release (ord == .rel && 5 ≤ sc.code) len fun s =>
      .ok ((ops.foldl (fun s o => s.storeX o.pa (natToBytes n o.b)) s).advance len)

/-! ### The instructions -/

def execLdG (w : Width) (ord : Order) (sc : Scope) (d a : Operand) (s : State) : Host.Outcome State Fault Refusal :=
  runOp (.ldG w ord sc d a) s fun s => s.loadG (Instr.ldG w ord sc d a).len w ord sc d a none
def execLdX (w : Width) (ord : Order) (sc : Scope) (d a : Operand) (s : State) : Host.Outcome State Fault Refusal :=
  runOp (.ldX w ord sc d a) s fun s => s.loadX (Instr.ldX w ord sc d a).len w ord sc d a none
def execStG (w : Width) (ord : Order) (sc : Scope) (d a : Operand) (s : State) : Host.Outcome State Fault Refusal :=
  runOp (.stG w ord sc d a) s fun s => s.storeG (Instr.stG w ord sc d a).len w ord sc d a none
def execStX (w : Width) (ord : Order) (sc : Scope) (d a : Operand) (s : State) : Host.Outcome State Fault Refusal :=
  runOp (.stX w ord sc d a) s fun s => s.storeXs (Instr.stX w ord sc d a).len w ord sc d a none

def execLdOffset (x : Bool) (w : Width) (ord : Order) (sc : Scope) (d a b : Operand) (s : State) :
    Host.Outcome State Fault Refusal :=
  let len := (Instr.ldOffset x w ord sc d a b).len
  runOp (.ldOffset x w ord sc d a b) s fun s =>
    if x then s.loadX len w ord sc d a (some b) else s.loadG len w ord sc d a (some b)
def execStOffset (x : Bool) (w : Width) (ord : Order) (sc : Scope) (d a b : Operand) (s : State) :
    Host.Outcome State Fault Refusal :=
  let len := (Instr.stOffset x w ord sc d a b).len
  runOp (.stOffset x w ord sc d a b) s fun s =>
    if x then s.storeXs len w ord sc d a (some b) else s.storeG len w ord sc d a (some b)

/-- A lane's hint (R272): the sectors its bytes lie in go into L1 for a home-0 page; any lane that could fault or wait is
dropped. The hint walks without waiting. -/
def State.prefetch (s : State) (w : Nat) (o : LaneOp) : State :=
  let ctx := s.ctxOf s.cur.warp
  if o.va % w ≠ 0 ∨ 2 ^ 53 ≤ o.va then s
  else
    match (s.walk ctx o.va).1 with
    | .leaf e size =>
      (match s.leafXlat e size o.va .read with
        | some x =>
          if x.packed ∨ x.home ≠ 0 ∨ (isRemote x.pa ∧ (s.carrier x.pa = none ∨ (s.fabricFault ctx x.pa w false).isSome
              ∨ s.openWrite x.pa w)) then s
          else if x.mig ∧ ((s.migOf x.pa).any fun k =>
              let m := s.migs.get k
              (m.linesOf x.pa w).any fun l => !m.pulled.contains l) then s
          else s.fillL1 (s.coreOf s.cur.warp) x.pa w
        | none => s)
    | _ => s

/-- prf (R272). -/
def execPrf (w : Width) (a : Operand) (s : State) : Host.Outcome State Fault Refusal :=
  plainOp (.prf w a) s fun s => (s.laneOps false a none (fun _ => 0) fun _ => 0).foldl (fun s o => s.prefetch w.bytes o) s

end Sys2Proof.Machine
end

