-- ==== Sys2Proof/Machine/Atomics.lean ====
section
/-! DEFINITION. Atomics, majors 0x65 and 0x66, and fence (R92, R96 to R100, R273 to R276). -/

namespace Sys2Proof.Machine

open Sys2Proof

/-- The value an atomic leaves at its location, from the old bits and the operands' bits (R273 to R275). -/
def atomNew (op : AtomOp) (ty : AtomTy) (old b c : Nat) : Nat :=
  match ty with
  | .int t =>
    match op with
    | .add => wrapInt t (intOf t old + intOf t b)
    | .min => if intOf t b < intOf t old then b else old
    | .max => if intOf t old < intOf t b then b else old
    | .and => Nat.land old b
    | .or => Nat.lor old b
    | .xor => Nat.xor old b
    | .exch => b
    | .cas => if old = c then b else old
  | .flt t =>
    match op with
    | .add => (floatOp .fadd t .rne old b 0 0).val
    | .min => (pickMinMax (fmtOf t) false old b).val
    | .max => (pickMinMax (fmtOf t) true old b).val
    | .cas => if old = c then b else old
    | _ => b
  | .w128 =>
    match op with
    | .cas => if old = c then b else old
    | _ => b

/-- The operation writes: all but a cas that does not match (R274). -/
def atomWrites (op : AtomOp) (old c : Nat) : Bool := op != .cas || old == c

/-- An operand of an atomic, its low `w` bytes: a constant or literal is taken in the atomic's type (R188, R193, R265, R273). -/
def State.atomData (s : State) (ty : AtomTy) (w : Nat) (d : Operand) (l : Nat) : Nat :=
  (match ty with
    | .int t => s.srcBits s.cur.warp l t d
    | .flt t => s.srcFlt s.cur.warp l t d
    | .w128 => s.src128 s.cur.warp l d) % 2 ^ (8 * w)

/-- How an atomic's result is extended (R123): integers by their type, other types not at all. -/
def atomExt : AtomTy → Option IntTy
  | .int t => some t
  | _ => none

/-- One lane's atomic in memory: reads, then writes (R274). A lane that meets an uncorrectable error does nothing. (DEDUCED: notes/assumptions/21.) -/
def State.atomLane (s : State) (op : AtomOp) (ty : AtomTy) (w ctx : Nat) (o : LaneOp) : State × Option Nat :=
  if s.readBad o.pa w then (s, none)
  else
    let old := bytesToNat (s.readPhys o.pa w)
    let s := if atomWrites op old o.c then s.storePhys ctx o.pa o.va (natToBytes w (atomNew op ty old o.b o.c)) else s
    (s, some old)

/-- The reads that lanes' atomics make: those of combined additions to one address are one (R99). (DEDUCED: notes/assumptions/21.) -/
def atomReads (op : AtomOp) (ops : List LaneOp) : List LaneOp :=
  if op = .add then ops.foldl (fun acc o => if acc.any fun q => q.pa == o.pa then acc else acc ++ [o]) [] else ops

/-- Lanes' atomics one after another, in ascending lane order (R99, R100). -/
def State.atomLanes (s : State) (op : AtomOp) (ty : AtomTy) (w ctx : Nat) (g : Got) (ops : List LaneOp) : State × Got :=
  ops.foldl (init := ((atomReads op (ops.filter fun o => s.readBad o.pa w)).foldl (fun s o => s.logRead ctx o.pa w o.va) s, g)) fun (acc : State × Got) o =>
    match acc.1.atomLane op ty w ctx o with
    | (s, some v) => (s, { acc.2 with vals := acc.2.vals.set o.lane v })
    | (s, none) => (s, { acc.2 with faults := acc.2.faults ++ [⟨causeMemoryUncorrectable, o.va, laneBit o.lane, 0⟩] })

/-- A local request of an atomic performed at its home (R92); without return, one to a failed line is dropped and logged (R422). -/
def State.atomLocal (s : State) (op : AtomOp) (ty : AtomTy) (w : Nat) (ret : Bool) (g : Got) (p : Part) : State × Got :=
  match s.lineFault p.x p.size with
  | some (c, l) => (if ret then s else s.dropStore p, { g with faults := g.faults ++ [p.fault c l] })
  | none => (s.countServed p.x.pa).atomLanes op ty w (s.ctxOf s.cur.warp) g p.ops

/-- One part of an atomic: performed here, or sent (R97, R274). -/
def State.atomPart (s : State) (op : AtomOp) (ty : AtomTy) (w : Nat) (ret : Bool) (p : Part) (g : Got) (rs : List Nat) :
    State × Got × List Nat :=
  let s := (s.dropL1 (s.coreOf s.cur.warp) p.x.pa p.size).touchPart p
  if isRemote p.x.pa then
    if ret then s.askRemote (.atom op ty true) w p g rs
    else
      let (s, rs) := s.sendStore (.atom op ty false) w p rs
      (s, g, rs)
  else if ret && s.silent.get slicePort then s.askHere (.atom op ty true) w p g rs
  else
    let (s, g) := s.atomLocal op ty w ret g p
    (s, g, rs)

/-- An atomic's parts: local ones are performed, remote ones leave as requests (R97, R274). -/
def State.atomParts (s : State) (op : AtomOp) (ty : AtomTy) (w : Nat) (ret : Bool) : List Part → Got → List Nat →
    State × Got × List Nat
  | [], g, rs => (s, g, rs)
  | p :: t, g, rs =>
    let (s, g, rs) := s.atomPart op ty w ret p g rs
    s.atomParts op ty w ret t g rs

/-- The order modifier's parts (R185). -/
def orderAcq : Order → Bool
  | .acq | .acqrel => true
  | _ => false
def orderRel : Order → Bool
  | .rel | .acqrel => true
  | _ => false

/-- What an atomic leaves when its local parts are done. A form without return raises no response fault (R291) and goes on at once,
but as an acquire it waits until its requests are performed, since the lanes' later accesses come after it (R93). -/
def State.atomDone (s : State) (len : Nat) (ty : AtomTy) (d : Operand) (g : Got) (rs : List Nat) (acq : Bool) : State :=
  if d = .z ∧ (acq = false ∨ rs = []) then s.advance len
  else s.afterLocal len
    { atomic := true, width := .w32, bytes := ty.bytes, ext := atomExt ty, d := d, reqs := rs, got := g.vals,
      faults := if d = .z then [] else g.faults, some_ := !g.vals.isEmpty, acq := acq }

/-- A global atomic (R273, R274): a release first, then every lane's operation, then the acquire. -/
def execAtomG (op : AtomOp) (t : AtomTy) (ord : Order) (sc : Scope) (d a b c : Operand) (s : State) :
    Host.Outcome State Fault Refusal :=
  let i : Instr := .atomG op t ord sc d a b c
  runOp i s fun s =>
    let w := t.bytes
    let ret := d != .z
    let ops := s.laneOps false a none (s.atomData t w b) (s.atomData t w c)
    s.globalAccess i.len w .both ops fun s parts =>
      let orders := parts.map (·.x.order)
      s.release (ordersBeyond (orderRel ord) sc 5 orders) i.len fun s =>
        let remote := if ret then 0 else (parts.filter fun p => isRemote p.x.pa).length
        s.withRoom i.len remote fun s =>
          let acq := ordersBeyond (orderAcq ord) sc 3 orders
          let (s, g, rs) := s.atomParts op t w ret parts ⟨[], []⟩ []
          .ok ((s.acquire acq).atomDone i.len t d g rs acq)

/-- One lane's scratchpad atomic (R92, R423). -/
def State.atomLaneX (s : State) (op : AtomOp) (ty : AtomTy) (w : Nat) (acc : Got) (o : LaneOp) : State × Got :=
  if s.badWord o.pa w then
    (s.logError 1 3 (s.ctxOf s.cur.warp) (s.coreOf s.cur.warp) (o.pa / 32 * 32) 0,
      { acc with faults := acc.faults ++ [⟨causeMemoryUncorrectable, o.va, laneBit o.lane, 0⟩] })
  else
    let old := s.mem.readNat o.pa w
    let s := if atomWrites op old o.c then s.storeX o.pa (natToBytes w (atomNew op ty old o.b o.c)) else s
    (s, { acc with vals := acc.vals.set o.lane old })

/-- A scratchpad atomic (R273, R274). -/
def execAtomX (op : AtomOp) (t : AtomTy) (ord : Order) (sc : Scope) (d a b c : Operand) (s : State) :
    Host.Outcome State Fault Refusal :=
  let i : Instr := .atomX op t ord sc d a b c
  runOp i s fun s =>
    let w := t.bytes
    s.scratchAccess w (s.laneOps true a none (s.atomData t w b) (s.atomData t w c)) fun s ops =>
      s.release ((orderRel ord) && 5 ≤ sc.code) i.len fun s =>
        let (s, g) := ops.foldl (fun (acc : State × Got) o => acc.1.atomLaneX op t w acc.2 o) (s, ⟨[], []⟩)
        let acq := (orderAcq ord) && 3 ≤ sc.code
        .ok ((s.acquire acq).atomDone i.len t d g [] false)

/-- fence (R96, R97, R276): at gang scope or wider the counter drains, the indicator is checked, and L1 is made current. -/
def execFence (sc : Scope) (s : State) : Host.Outcome State Fault Refusal :=
  let i : Instr := .fence sc
  runOp i s fun s =>
    let wide := 3 ≤ sc.code
    s.release wide i.len fun s => .ok ((s.acquire wide).advance i.len)

end Sys2Proof.Machine
end

