-- ==== Sys2Proof/Machine/Control.lean ====
section
/-! DEFINITION. Control instructions, majors 0x50 to 0x5D, and the sort yard's and sleep's own steps (R228 to R238). -/

namespace Sys2Proof.Machine

open Sys2Proof

/-! ### Branches, calls, exit (R228 to R230) -/

/-- The target of an FB form: the branch word's address plus the signed 16-bit word offset (R184, R228). -/
def State.target (s : State) (off : Nat) : DWord := s.cur.pc + BitVec.ofNat 64 (wrapNat 64 (signedOf 16 off))

/-- Each executing lane goes to its own word. -/
def State.jump (s : State) (f : Nat → DWord) : State :=
  s.upCur fun w => (lanesOf s.cur.lanes).foldl (fun w l => w.setLane l { w.lane l with pc := f l }) w

/-- The address of the next word after an instruction of `n` words. -/
def State.next (s : State) (n : Nat) : DWord := s.cur.pc + BitVec.ofNat 64 n

def execBra (off : Nat) (s : State) : Host.Outcome State Fault Refusal :=
  runOp (.bra off) s fun s => .ok (s.jump fun _ => s.target off)

/-- brc (R228): the lanes whose c is nonzero branch. -/
def execBrc (c : Operand) (off : Nat) (s : State) : Host.Outcome State Fault Refusal :=
  runOp (.brc c off) s fun s =>
    .ok (s.jump fun l => if s.src32 s.cur.warp l c ≠ 0 then s.target off else s.next (Instr.brc c off).len)

/-- brc.z (R228): the lanes whose c is zero branch. -/
def execBrcZ (c : Operand) (off : Nat) (s : State) : Host.Outcome State Fault Refusal :=
  runOp (.brcZ c off) s fun s =>
    .ok (s.jump fun l => if s.src32 s.cur.warp l c = 0 then s.target off else s.next (Instr.brcZ c off).len)

/-- call (R229): the next word's address goes to the link operand. -/
def execCall (c : Operand) (off : Nat) (s : State) : Host.Outcome State Fault Refusal :=
  runOp (.call c off) s fun s =>
    .ok ((s.writeRes 2 c fun _ => (s.next (Instr.call c off).len).toNat).jump fun _ => s.target off)

/-- The lanes whose return address has a bit of [63:51] set (R229). (DEDUCED: notes/assumptions/28.) -/
def State.badReturns (s : State) (a : Operand) : List Nat :=
  (lanesOf s.cur.lanes).filter fun l => 2 ^ 51 ≤ s.src64 s.cur.warp l false a

/-- The least of a list of numbers, 0 for none. -/
def leastOf (l : List Nat) : Nat := (leastBy id l).getD 0

/-- ret (R229). -/
def execRet (a : Operand) (s : State) : Host.Outcome State Fault Refusal :=
  runOp (.ret a) s fun s =>
    let bad := s.badReturns a
    if bad.isEmpty then .ok (s.jump fun l => BitVec.ofNat 64 (s.src64 s.cur.warp l false a))
    else .error { s.mkTrap causeProtection with
      lanes := laneSet bad
      addr := BitVec.ofNat 64 (leastOf (bad.map fun l => s.src64 s.cur.warp l false a * 4 % 2 ^ 64)) }

def execExit (s : State) : Host.Outcome State Fault Refusal :=
  runOp .exit s fun s => .ok (s.leave s.cur.warp s.cur.lanes)

/-! ### Reform and the sort yard (R38 to R42, R232, R233) -/

/-- The bin key of a reforming lane. -/
def State.binKey (s : State) (a : Operand) (k len l : Nat) : BinKey :=
  { crew := crewTok s.cur.warp, stage := s.curWarp.stage, pc := s.next len,
    key := BitVec.ofNat 32 (s.src32 s.cur.warp l a), k := k }

/-- What a reforming thread carries (R38). -/
def State.yardThread (s : State) (k l : Nat) : YardThread :=
  { tid := (s.curWarp.lane l).tid, regs := (List.range k).map fun r => (r, s.curWarp.v r l), oldLane := l,
    oldWarp := slotOf s.cur.warp, filed := s.cycle }

/-- reform (R38, R232): the threads leave their warp and enter the sort yard in ascending lane order. -/
def execReform (a : Operand) (k : Nat) (s : State) : Host.Outcome State Fault Refusal :=
  runOp (.reform a k) s fun s =>
    if s.curWarp.quota < k then .error (s.mkTrap causeIllegalOperand)
    else
      let core := s.coreOf s.cur.warp
      let threads := (lanesOf s.cur.lanes).map fun l => (s.binKey a k (Instr.reform a k).len l, s.yardThread k l)
      let s' := (s.upCur fun w => { w with taskBuf := [] }).leave s.cur.warp s.cur.lanes
      let c := s'.crewOf s.cur.warp
      if c.failed then .ok s' else .ok (threads.foldl (fun s p => s.enterYard core p.1 p.2) s')

/-- A bin's age reaches reformage: it is built (R40). -/
def execReformageExpiry (core bin : Nat) (s : State) : Host.Outcome State Fault Refusal :=
  match (s.core core).bins.find bin with
  | none => .next s
  | some b =>
    if b.since + ((s.ctx (s.crew b.key.crew).ctx).reformage).toNat ≤ s.cycle then
      .next ((s.buildBin core bin).refileYard core)
    else .next s

/-- A bin is to be built, as soon as a slot is free: it is full, of age, or a thread waits for a bin (R39, R40). -/
def State.binDue (s : State) (core bin : Nat) : Bool :=
  let c := s.core core
  match c.bins.find bin with
  | none => false
  | some b =>
    32 ≤ b.threads.length || b.since + ((s.ctx (s.crew b.key.crew).ctx).reformage).toNat ≤ s.cycle
      || (!c.yardWait.isEmpty && s.oldestBin core == some bin)

/-- A warp slot is free for a waiting bin: it is built (R40). -/
def execBinBuildOnFreeSlot (core bin : Nat) (s : State) : Host.Outcome State Fault Refusal :=
  if s.binDue core bin then .next ((s.buildBin core bin).refileYard core) else .next s

/-! ### Stages and their queues (R45, R46, R234, R235) -/

/-- stagenext (R46, R234). -/
def execStagenext (d : Operand) (s : State) : Host.Outcome State Fault Refusal :=
  runOp (.stagenext d) s fun s =>
    if s.stageCount (crewTok s.cur.warp) = 0 then .error (s.mkTrap causeIllegalOperand)
    else .ok ((s.block (Instr.stagenext d).len (.stage d)).settleStage s.cur.warp)

/-- The physical address of slot `n mod depth` of a stage's queue (R43, R235). -/
def State.queueSlot (s : State) (tok st n : Nat) : Nat :=
  let d := s.stageDecl tok st
  (s.crew tok).phys (d.queue + n % d.depth * d.item)

/-- One item put: its bytes into the tail slot, its sequence number to the lanes (R235). -/
def State.putItem (s : State) (w : Nat) (lanes : LaneSet) (st src : Nat) (d : Operand) : State :=
  let tok := crewTok w
  let c := s.crew tok
  let n := c.puts.get st
  let bytes := s.mem.read (c.phys src) (s.stageDecl tok st).item
  let s := (s.storeX (s.queueSlot tok st n) bytes).setCrew tok { c with puts := c.puts.set st (n + 1) }
  s.setWarp w ((s.warp w).writeLanes lanes 1 d fun _ => n % 2 ^ 32)

/-- The oldest item taken: its bytes to the destination, its sequence number to the lanes (R235). -/
def State.takeItem (s : State) (w : Nat) (lanes : LaneSet) (st dst : Nat) (d : Operand) : State :=
  let tok := crewTok w
  let c := s.crew tok
  let n := c.takes.get st
  let bytes := s.mem.read (s.queueSlot tok st n) (s.stageDecl tok st).item
  let s := (s.storeX (c.phys dst) bytes).setCrew tok { c with takes := c.takes.set st (n + 1) }
  s.setWarp w ((s.warp w).writeLanes lanes 1 d fun _ => n % 2 ^ 32)

/-- A queue holds `depth` items. -/
def State.queueFull (s : State) (tok st : Nat) : Bool := (s.stageDecl tok st).depth ≤ (s.crew tok).items st

/-- The first wait of a crew's warps, in ascending slot order, that meets a test on the warp's stage and the wait. (DESIGN CHOICE: notes/assumptions/26.) -/
def State.firstWait (s : State) (tok : Nat) (p : Nat → Wait → Bool) : Option (Nat × WaitRec) :=
  (s.warpsOf tok).findSome? fun w =>
    ((s.warp w).waits.find? fun r => p (s.warp w).stage r.wait).map fun r => (w, r)

/-- Blocked takers of an item that is there, and blocked putters of a free slot, are served and released (R45, R49). (DESIGN CHOICE: notes/assumptions/26.) -/
def State.settleQueue (s : State) (tok st : Nat) : Nat → State
  | 0 => s
  | n + 1 =>
    let taker := s.firstWait tok fun own x => match x with | .qtake .. => own == st | _ => false
    let putter := s.firstWait tok fun _ x => match x with | .qput t .. => t == st | _ => false
    match taker, putter with
    | some (w, r), _ =>
      if (s.crew tok).items st = 0 then s
      else
        match r.wait with
        | .qtake dst d =>
          let s := s.takeItem w r.lanes st dst d
          (s.setWarp w ((s.warp w).release s.cycle r r.lanes)).settleQueue tok st n
        | _ => s
    | none, some (w, r) =>
      if s.queueFull tok st then s
      else
        match r.wait with
        | .qput _ src d =>
          let s := s.putItem w r.lanes st src d
          (s.setWarp w ((s.warp w).release s.cycle r r.lanes)).settleQueue tok st n
        | _ => s
    | none, none => s

/-- The checks of a queue offset: multiple of 8, item inside the own allocation (R235). -/
def State.checkItem (s : State) (off item : Nat) : Option Trap :=
  if off % 8 ≠ 0 then some { s.mkTrap causeMisaligned with addr := BitVec.ofNat 64 off }
  else if (s.ownPhys (crewTok s.cur.warp) off item).isNone then
    some { s.mkTrap causeScratchBound with addr := BitVec.ofNat 64 (Nat.max off (s.crewOf s.cur.warp).size) }
  else none

/-- qput (R235). (DEDUCED: notes/assumptions/101.) -/
def execQput (d a b : Operand) (s : State) : Host.Outcome State Fault Refusal :=
  runOp (.qput d a b) s fun s =>
    let tok := crewTok s.cur.warp
    let st := s.lead32 a
    let src := s.lead32 b
    let len := (Instr.qput d a b).len
    if s.same32 a = false ∨ s.same32 b = false ∨ s.stageCount tok ≤ st then .error (s.mkTrap causeIllegalOperand)
    else
      match s.checkItem src (s.stageDecl tok st).item with
      | some t => .error t
      | none =>
        if s.queueFull tok st then .ok (s.block len (.qput st src d))
        else .ok (((s.putItem s.cur.warp s.cur.lanes st src d).advance len).settleQueue tok st 256)

/-- qtake (R235): from the warp's own stage's queue. (DEDUCED: notes/assumptions/101.) -/
def execQtake (d b : Operand) (s : State) : Host.Outcome State Fault Refusal :=
  runOp (.qtake d b) s fun s =>
    let tok := crewTok s.cur.warp
    let st := s.curWarp.stage
    let dst := s.lead32 b
    let len := (Instr.qtake d b).len
    if s.same32 b = false ∨ s.stageCount tok = 0 then .error (s.mkTrap causeIllegalOperand)
    else
      match s.checkItem dst (s.stageDecl tok st).item with
      | some t => .error t
      | none =>
        if (s.crew tok).items st = 0 then .ok (s.block len (.qtake dst d))
        else .ok (((s.takeItem s.cur.warp s.cur.lanes st dst d).advance len).settleQueue tok st 256)

/-! ### Barriers (R31 to R34, R231) -/

/-- The barrier instructions: the count's checks, then every executing lane arrives in ascending order. -/
def barOp (i : Instr) (gang block : Bool) (a : Operand) (id : Nat) (s : State) : Host.Outcome State Fault Refusal :=
  runOp i s fun s =>
    let w := s.cur.warp
    let count := s.lead32 a
    let b := s.barrier (crewTok w) gang id
    if s.same32 a = false ∨ count = 0 ∨ (if gang then 16384 else 2048) < count then .error (s.mkTrap causeIllegalOperand)
    else if b.count ≠ 0 ∧ b.count ≠ count then
      .error { s.mkTrap causeBarrierMismatch with detail := b.count % 2 ^ 16 + id * 2 ^ 16 + (if gang then 2 ^ 20 else 0) }
    else
      let s' := (lanesOf s.cur.lanes).foldl (fun s l => s.arriveBar w l gang id count block i.len) s
      .ok (if block then s' else s'.advance i.len)

def execBar (a : Operand) (id : Nat) (s : State) := barOp (.bar a id) false true a id s
def execBarArrive (a : Operand) (id : Nat) (s : State) := barOp (.barArrive a id) false false a id s
def execBarGang (a : Operand) (id : Nat) (s : State) := barOp (.barGang a id) true true a id s
def execBarGangArrive (a : Operand) (id : Nat) (s : State) := barOp (.barGangArrive a id) true false a id s

/-! ### Hints (R236 to R238) -/

/-- yield (R236): the lanes are not eligible in the next cycle. -/
def execYield (s : State) : Host.Outcome State Fault Refusal :=
  plainOp .yieldOp s fun s => s.upCur fun w => w.mapLanes s.cur.lanes fun x => { x with readyAt := s.cycle + 2 }

/-- sleep (R237). -/
def execSleep (a : Operand) (s : State) : Host.Outcome State Fault Refusal :=
  runOp (.sleep a) s fun s =>
    .ok (s.block (Instr.sleep a).len (.sleep ((lanesOf s.cur.lanes).map fun l => (l, s.cycle + s.src32 s.cur.warp l a))))

/-- A sleeping lane's t cycles have passed (R237). -/
def execSleepExpiry (w l : Nat) (s : State) : Host.Outcome State Fault Refusal :=
  let x := s.warp w
  match x.waits.find? fun r => r.lanes.getLsbD l && (match r.wait with | .sleep _ => true | _ => false) with
  | none => .next s
  | some r =>
    match r.wait with
    | .sleep t => if s.cycle < t.get l then .next s else .next (s.setWarp w (x.release s.cycle r (laneBit l)))
    | _ => .next s

def execNop (s : State) : Host.Outcome State Fault Refusal := plainOp .nop s id

end Sys2Proof.Machine
end

