-- ==== Sys2Proof/Machine/Fp8.lean ====
section
/-! DEFINITION. The 8-bit family, conversions among all formats, and the quantisation of a scale group
(R128 to R131, R135 to R138, R251 to R256). -/

namespace Sys2Proof.Machine

open Sys2Proof

/-! ### The 8-bit formats (R128 to R130) -/

/-- Bias B (R128, R129). -/
def f8Bias (t : F8Ty) : Int := if t.uns then 2 ^ (8 - t.k) else 2 ^ (7 - t.k)
/-- Exponent of the least normal magnitude. -/
def f8Emin (t : F8Ty) : Int := 1 - f8Bias t
/-- The NaN code. -/
def f8Nan (t : F8Ty) : Nat := if t.uns then 0xFF else 0x80
/-- The code of the largest finite magnitude (R130). -/
def f8Max (t : F8Ty) : Nat :=
  match t.uns, t.inf with
  | false, false => 0x7F
  | false, true => 0x7E
  | true, false => 0xFE
  | true, true => 0xFD
/-- The sign bit of a signed code. -/
def f8Sign (t : F8Ty) (neg : Bool) : Nat := if neg && !t.uns then 0x80 else 0
/-- The magnitude's field of a code: exponent and fraction as one number. -/
def f8Mag (t : F8Ty) (code : Nat) : Nat := if t.uns then code % 256 else code % 128

/-- The finite value of a code (R128, R129). -/
def f8Finite (t : F8Ty) (code : Nat) : Dy :=
  let g := f8Mag t code
  let fr := g % 2 ^ (t.k - 1)
  let e := g / 2 ^ (t.k - 1)
  let neg := !t.uns && code / 128 % 2 == 1
  let unit : Int := f8Emin t - (t.k - 1 : Nat)
  if e = 0 then ⟨neg, fr, unit⟩ else ⟨neg, 2 ^ (t.k - 1) + fr, unit + (e - 1 : Nat)⟩

/-- The value of a code: the NaN is quiet, an infinity only where the format has them (R128, R129, R252). -/
def f8Decode (t : F8Ty) (x : Nat) : FVal :=
  let code := x % 256
  if code = f8Nan t then .nan false
  else if t.inf ∧ ((t.uns ∧ code = 0xFE) ∨ (¬ t.uns ∧ (code = 0x7F ∨ code = 0xFF))) then .inf (!t.uns && code == 0xFF)
  else
    let d := f8Finite t code
    .fin d.neg d.m d.e

/-- fmax(F) as a dyadic (R130). -/
def f8Fmax (t : F8Ty) : Dy := f8Finite t (f8Max t)

/-- quant_element (R137) with the flags of R136. -/
def quantElement (t : F8Ty) (rm : Rm) (y : FVal) : FRes :=
  match y with
  | .nan sig => ⟨f8Nan t, flagIf sig flagNV⟩
  | .inf neg =>
    if t.inf && (!t.uns || !neg) then ⟨f8Sign t neg + (if t.uns then 0xFE else 0x7F), 0⟩
    else if neg && t.uns then ⟨0, flagNX⟩
    else ⟨f8Sign t neg + f8Max t, flagNX⟩
  | .fin neg m e =>
    if m = 0 then ⟨0, 0⟩
    else if t.uns && neg then ⟨0, flagNX⟩
    else
      let p : Int := (t.k - 1 : Nat)
      let qmin := f8Emin t - p
      let q := max ((Nat.log2 m : Int) + e - p) qmin
      let (r, inexact) := roundUnits rm neg m e q
      if (f8Fmax t).lt ⟨false, r, q⟩ then ⟨f8Sign t neg + f8Max t, Nat.lor flagOF flagNX⟩
      else if r = 0 then ⟨0, flagIf inexact flagNX⟩
      else ⟨f8Sign t neg + ((q - qmin).toNat * 2 ^ (t.k - 1) + r), flagIf inexact flagNX⟩

/-! ### Conversions (R135, R136, R252) -/

/-- A float value to an integer of a type (R135). -/
def floatToInt (t : IntTy) (rm : Rm) (x : FVal) : FRes :=
  match x with
  | .nan _ => ⟨0, flagNV⟩
  | .inf neg => ⟨wrapInt t (if neg then minInt t else maxInt t), flagNV⟩
  | .fin neg m e =>
    let (r, inexact) := roundUnits rm neg m e 0
    let v : Int := if neg then -(r : Int) else r
    if v < minInt t then ⟨wrapInt t (minInt t), flagNV⟩
    else if maxInt t < v then ⟨wrapInt t (maxInt t), flagNV⟩
    else ⟨wrapInt t v, flagIf inexact flagNX⟩

/-- A value read from a source type (R252). -/
def tyValue (t : Ty) (x : Nat) : FVal :=
  match t with
  | .int t => let v := intOf t x; .fin (v < 0) v.natAbs 0
  | .flt t => (fmtOf t).decode x
  | .f8 t => f8Decode t x

/-- fcvt (R252): the source's exact value under its destination's rule. -/
def convert (dt st : Ty) (rm : Rm) (x : Nat) : FRes :=
  match dt, st with
  | .int d, .int s =>
    let v := intOf s x
    ⟨wrapInt d (satInt d v), flagIf (satInt d v != v) flagNV⟩
  | .int d, _ => floatToInt d rm (tyValue st x)
  | .flt d, _ =>
    match tyValue st x with
    | .nan s => (fmtOf d).nan s
    | .inf n => (fmtOf d).inf n
    | .fin n m e => (fmtOf d).round rm n m e
  | .f8 d, _ => quantElement d rm (tyValue st x)

/-! ### Scale groups (R137, R138, R255, R256) -/

/-- The least integer s with amax ≤ fm · 2^s, found from an estimate not above it. -/
def leastScale (amax fm : Dy) : Nat → Int → Int
  | 0, s => s
  | n + 1, s => if amax.le { fm with e := fm.e + s } then s else leastScale amax fm n (s + 1)

/-- The scale exponent of a group from its values (R137). -/
def groupScale (t : F8Ty) (xs : List FVal) : Int :=
  let amax := xs.foldl (fun a x =>
    match x with
    | .fin _ m e => if a.lt ⟨false, m, e⟩ then ⟨false, m, e⟩ else a
    | _ => a) (⟨false, 0, 0⟩ : Dy)
  if amax.m = 0 then -127
  else
    let fm := f8Fmax t
    let est := (Nat.log2 amax.m : Int) + amax.e - (Nat.log2 fm.m : Int) - fm.e - 1
    max (-127) (min 127 (leastScale amax fm 4 est))

/-- A value divided by 2^s. -/
def scaleDown (s : Int) (x : FVal) : FVal :=
  match x with
  | .fin n m e => .fin n m (e - s)
  | x => x

/-- One element of a quantised group: its code (R137) and flags (R138). -/
def quantOf (t : F8Ty) (s : Int) (x : FVal) : FRes := quantElement t .rne (scaleDown s x)

/-- fdequant of a code and its scale in [15:8] (R256): never NV. -/
def dequant (dt : FTy) (st : F8Ty) (rm : Rm) (v : Nat) : FRes :=
  let f := fmtOf dt
  let sc := v / 256 % 256
  if sc = 0xFF then f.nan false
  else
    match f8Decode st v with
    | .nan _ => f.nan false
    | .inf n => f.inf n
    | .fin n m e => f.round rm n m (e + sc - 127)

end Sys2Proof.Machine
end

