-- ==== Sys2Proof/Machine/Packed.lean ====
section
/-! DEFINITION. Packed tensors: descriptors, tile coordinates, code tables, index entries, the decoder with its watchdog, the
encoder's choices, and the two CRCs (R74 to R78, R157 to R177, R302). -/

namespace Sys2Proof.Machine

open Sys2Proof

/-! ### Descriptors and coordinates (R75 to R78) -/

/-- What a valid packed tensor descriptor says. -/
structure Desc where
  ndim : Nat
  ty : F8Ty
  shape : List Nat
  tile : List Nat
  tables : Nat
  crc : Bool
  flags : Nat
  indexbase : Nat
  slotpool : Nat
  blockcount : Nat
  format : Nat
  deriving DecidableEq, Repr, Inhabited

/-- A little-endian field of a byte string. -/
def fieldOf (bs : List Byte) (off n : Nat) : Nat := bytesToNat ((bs.drop off).take n)

/-- `n` fields of `w` bytes from an offset. -/
def fieldsOf (bs : List Byte) (off w n : Nat) : List Nat := (List.range n).map fun i => fieldOf bs (off + w * i) w

def product (l : List Nat) : Nat := l.foldl (· * ·) 1

/-- Tiles of each dimension (R76). -/
def tileCounts (shape tile : List Nat) : List Nat := (shape.zip tile).map fun (s, t) => (s + t - 1) / t

/-- E of a descriptor. -/
def Desc.size (d : Desc) : Nat := product d.tile

/-- Widths of a coordinate's fields (R77). -/
def coordWidths : List Nat := [20, 16, 12, 8, 8]

/-- A tile coordinate's five fields (R77). -/
def coordOf (c : Nat) : List Nat := [bits c 19 0, bits c 35 20, bits c 47 36, bits c 55 48, bits c 63 56]

/-- A coordinate that the tile counts allow (R77): each field below its count. A dimension at or above ndim has one tile. -/
def coordOk (counts : List Nat) (c : Nat) : Bool := ((coordOf c).zip counts).all fun (d, t) => d < t

/-- The descriptor of 128 bytes, if it is valid (R75, R76). (DESIGN CHOICE: notes/assumptions/126.) -/
def parseDesc (bs : List Byte) : Option Desc :=
  let ndim := fieldOf bs 2 1
  let fmt := fieldOf bs 3 1
  let shape := fieldsOf bs 4 4 5
  let tile := fieldsOf bs 0x18 2 5
  let size := product tile
  let counts := tileCounts shape tile
  let d : Desc :=
    { ndim := ndim, ty := ⟨fmt % 8, fmt / 8 % 2 == 1, fmt / 16 % 2 == 1⟩, shape := shape, tile := tile,
      tables := fieldOf bs 0x22 1, flags := fieldOf bs 0x23 1, crc := fieldOf bs 0x23 1 % 2 == 1,
      indexbase := fieldOf bs 0x28 8, slotpool := fieldOf bs 0x30 8, blockcount := fieldOf bs 0x38 8, format := fmt }
  if fieldOf bs 0 2 == 1 && 1 ≤ ndim && ndim ≤ 5 && d.ty.ok && fmt < 32 && d.flags < 2
      && (shape ++ tile).all (1 ≤ ·) && (shape.drop ndim ++ tile.drop ndim).all (· == 1)
      && size % 256 == 0 && size ≤ 65536 && (counts.zip coordWidths).all (fun (t, w) => t ≤ 2 ^ w)
      && d.blockcount == product counts * (size / 256) && d.indexbase % 16 == 0
      && fieldOf bs 0x24 4 == 0 && fieldOf bs 0x40 64 == 0 then some d
  else none

/-- tile_index (R78), dimension 0 fastest. -/
def mixed (counts d : List Nat) : Nat := (d.zip counts).foldr (fun (x, t) acc => x + t * acc) 0

/-- Blocks of a tile. -/
def Desc.blocks (d : Desc) : Nat := d.size / 256

/-- The first block ordinal of a tile (R78). -/
def Desc.firstBlock (d : Desc) (c : Nat) : Nat := mixed (tileCounts d.shape d.tile) (coordOf c) * d.blocks

/-- The position of a tile element, dimension 0 fastest. -/
def splitElem (tile : List Nat) (te : Nat) : List Nat :=
  match tile with
  | [] => []
  | t :: rest => te % t :: splitElem rest (te / t)

/-- The global coordinate of an element of a tile (R298). -/
def elemCoord (tile : List Nat) (c te : Nat) : List Nat :=
  ((coordOf c).zip (tile.zip (splitElem tile te))).map fun (d, t, e) => d * t + e

/-- The element lies inside the shape (R78, R298). -/
def inShape (shape x : List Nat) : Bool := (x.zip shape).all fun (a, s) => a < s

/-- The tile element is an edge element. -/
def Desc.edge (d : Desc) (c te : Nat) : Bool := !inShape d.shape (elemCoord d.tile c te)

/-! ### Code tables (R161 to R163) -/

/-- The 256 lengths of a table's 128 bytes. -/
def tableLengths (bs : List Byte) : List Nat := bs.flatMap fun b => [b.toNat % 16, b.toNat / 16]

/-- The 128 bytes of a table's lengths. -/
def tableBytes : List Nat → List Byte
  | a :: b :: t => BitVec.ofNat 8 (a + 16 * b) :: tableBytes t
  | _ => []

/-- The Kraft sum in units of 2^−15. -/
def kraft (lens : List Nat) : Nat := (lens.map fun l => if l = 0 then 0 else 2 ^ (15 - l)).sum

def tableValid (lens : List Nat) : Bool := 0 < kraft lens && kraft lens ≤ 2 ^ 15
def tableComplete (lens : List Nat) : Bool := kraft lens == 2 ^ 15

/-- A codeword: symbol, length, code. -/
structure Codeword where
  sym : Nat
  len : Nat
  code : Nat
  deriving DecidableEq, Repr, Inhabited

/-- The first code of each length 1 to 15 (R162), from the count of each length. -/
def firstCodes (count : Nat → Nat) : Nat → Nat
  | 0 => 0
  | 1 => 0
  | l + 1 => (firstCodes count l + count l) * 2

/-- The canonical codewords in ascending symbol (R162). -/
def canonical (lens : List Nat) : List Codeword :=
  let count := fun l => (lens.filter (· == l)).length
  let starts := (List.range 16).map (firstCodes count)
  let go := fun (acc : List Nat × List Codeword) (p : Nat × Nat) =>
    if p.1 = 0 then acc
    else
      let c := acc.1.getD p.1 0
      (acc.1.set p.1 (c + 1), { sym := p.2, len := p.1, code := c } :: acc.2)
  ((lens.zip (List.range 256)).foldl go (starts, [])).2.reverse

/-! ### Index entries (R165 to R167) -/

/-- A block index entry. -/
structure IndexEntry where
  reuse : Nat
  crc : Nat
  length : Nat
  mode : Nat
  table : Nat
  cls : Nat
  slot : Nat
  ok : Bool
  deriving DecidableEq, Repr, Inhabited

/-- Bytes of a slot class (R167). -/
def classSize (c : Nat) : Nat := [0, 32, 48, 64, 96, 128, 160, 192, 224, 256, 288].getD c 0

/-- The least class whose size holds a length (R167); 11 for none. -/
def fitClass (len : Nat) : Nat :=
  ((List.range 11).find? fun c => 1 ≤ c && (len + 7) / 8 ≤ classSize c).getD 11

/-- An entry read, with its consistency (R165, R166). -/
def parseEntry (bs : List Byte) : IndexEntry :=
  let v := bytesToNat bs
  let e : IndexEntry :=
    { reuse := bits v 103 96, crc := bits v 95 80, length := bits v 75 64, mode := bits v 63 62, table := bits v 61 59,
      cls := bits v 52 49, slot := bits v 48 0, ok := true }
  let reserved := bits v 127 104 == 0 && bits v 79 76 == 0 && bits v 58 53 == 0
  let rules :=
    if e.mode = 0 ∨ e.mode = 3 then e.cls == 0 && e.length == 0 && e.table == 0 && e.slot < (if e.mode = 3 then 2 ^ 16 else 1)
    else (e.mode == 1 || e.table == 0) && e.cls != 0 && (e.length + 7) / 8 ≤ classSize e.cls
  { e with ok := reserved && e.cls ≤ 10 && rules }

/-- An entry's 16 bytes (R165). -/
def IndexEntry.bytes (e : IndexEntry) : List Byte :=
  natToBytes 16 (e.slot + e.cls * 2 ^ 49 + e.table * 2 ^ 59 + e.mode * 2 ^ 62 + e.length * 2 ^ 64 + e.crc * 2 ^ 80
    + e.reuse * 2 ^ 96)

/-- The slot's global address. -/
def IndexEntry.addr (e : IndexEntry) : Nat := e.slot * 16

/-- Bytes of the entry's stream. -/
def IndexEntry.streamBytes (e : IndexEntry) : Nat := (e.length + 7) / 8

/-- The entry names a slot. -/
def IndexEntry.hasSlot (e : IndexEntry) : Bool := e.mode == 1 || e.mode == 2

/-! ### CRCs (R174, R302) -/

/-- One bit step of a reflected CRC. -/
def crcBit (poly x : Nat) : Nat := if x % 2 = 1 then Nat.xor (x / 2) poly else x / 2

/-- One byte of a reflected CRC. -/
def crcByte (poly x : Nat) (b : Byte) : Nat := (List.range 8).foldl (fun x _ => crcBit poly x) (Nat.xor x b.toNat)

/-- CRC-16 of a stream (R174). -/
def crc16 (bs : List Byte) : Nat := bs.foldl (crcByte 0x8408) 0xFFFF

/-- CRC-32C (R302). -/
def crc32c (bs : List Byte) : Nat := Nat.xor (bs.foldl (crcByte 0x82F63B78) 0xFFFFFFFF) 0xFFFFFFFF

/-! ### Decoding a block (R175 to R177) -/

/-- A decode fault: subcode and bit offset. -/
structure DecFault where
  sub : Nat
  off : Nat
  deriving DecidableEq, Repr, Inhabited

def subBadCode : Nat := 1
def subTableInvalid : Nat := 2
def subLength : Nat := 3
def subCycles : Nat := 4
def subCrc : Nat := 5

/-- A decoded block: 256 codes and 8 scales. -/
structure Block where
  codes : List Nat
  scales : List Nat
  deriving DecidableEq, Repr, Inhabited

/-- `w` bits of a stream, given as one number, from bit `pos` (R158). -/
def streamBits (st pos w : Nat) : Nat := st / 2 ^ pos % 2 ^ w

/-- The codeword search of next_symbol: `p` is the pattern of the `i` bits read so far. -/
def matchCode (cws : List Codeword) (st start len : Nat) : Nat → Nat → Nat → Except DecFault (Nat × Nat)
  | 0, _, _ => .error ⟨subBadCode, start⟩
  | n + 1, i, p =>
    if len ≤ start + i then .error ⟨subLength, start⟩
    else
      let p := 2 * p + streamBits st (start + i) 1
      match cws.find? fun c => c.len == i + 1 && c.code == p with
      | some c => .ok (c.sym, i + 1)
      | none =>
        if cws.any fun c => i + 1 < c.len && c.code / 2 ^ (c.len - (i + 1)) == p then matchCode cws st start len n (i + 1) p
        else .error ⟨subBadCode, start⟩

/-- next_symbol (R175). -/
def nextSymbol (cws : List Codeword) (st pos len mode : Nat) : Except DecFault (Nat × Nat) :=
  if mode = 2 then (if len < pos + 8 then .error ⟨subLength, pos⟩ else .ok (streamBits st pos 8, 8))
  else matchCode cws st pos len 15 0 0

/-- One decode cycle: at most 24 symbols, 96 bits, one codeword longer than 8 bits; the codes gathered in reverse. -/
def decodeCycle (cws : List Codeword) (st len mode : Nat) : Nat → Nat → Nat → Bool → List Nat → Nat →
    Except DecFault (Nat × List Nat × Nat)
  | 0, pos, _, _, acc, j => .ok (pos, acc, j)
  | n + 1, pos, used, long, acc, j =>
    if 256 ≤ j then .ok (pos, acc, j)
    else
      match nextSymbol cws st pos len mode with
      | .error e => .error e
      | .ok (c, l) =>
        if 96 < used + l ∨ (8 < l ∧ long) then .ok (pos, acc, j)
        else decodeCycle cws st len mode n (pos + l) (used + l) (long || 8 < l) (c :: acc) (j + 1)

/-- The cycles of a block until it has 256 elements; a 65th cycle faults (R176). -/
def decodeCycles (cws : List Codeword) (st len mode : Nat) : Nat → Nat → List Nat → Nat → Except DecFault (Nat × List Nat)
  | 0, pos, acc, j => if 256 ≤ j then .ok (pos, acc.reverse) else .error ⟨subCycles, pos⟩
  | n + 1, pos, acc, j =>
    if 256 ≤ j then .ok (pos, acc.reverse)
    else
      match decodeCycle cws st len mode 24 pos 0 false acc j with
      | .error e => .error e
      | .ok (pos, acc, j) => decodeCycles cws st len mode n pos acc j

/-- The scales of a stream, or LENGTH where it ends (R175). -/
def decodeScales (st len : Nat) : Except DecFault (List Nat) :=
  match (List.range 8).find? fun g => len < 16 + 8 * g with
  | some g => .error ⟨subLength, 8 + 8 * g⟩
  | none => .ok ((List.range 8).map fun g => streamBits st (8 + 8 * g) 8)

/-- The lengths of a code-table slot of a context; a slot never loaded holds zeros (R163). -/
def slotLengths (tables : FMap (List Nat)) (k : Nat) : List Nat := (tables.find k).getD (List.replicate 256 0)

/-- decode_block (R175) of an entry and its slot's bytes: `permit` is the descriptor's tables byte, `check` its CRC flag. -/
def decodeBlock (tables : FMap (List Nat)) (permit : Nat) (check : Bool) (e : IndexEntry) (bs : List Byte) :
    Except DecFault Block :=
  if e.ok = false then .error ⟨subLength, 0⟩
  else if e.mode = 0 then .ok ⟨List.replicate 256 0, List.replicate 8 0⟩
  else if e.mode = 3 then .ok ⟨List.replicate 256 (e.slot / 256 % 256), List.replicate 8 (e.slot % 256)⟩
  else
    let lens := slotLengths tables e.table
    let st := bytesToNat bs
    if e.mode = 1 ∧ (permit / 2 ^ e.table % 2 = 0 ∨ tableValid lens = false) then .error ⟨subTableInvalid, 0⟩
    else if e.length < 8 then .error ⟨subLength, 0⟩
    else if streamBits st 0 2 ≠ e.mode ∨ streamBits st 2 3 ≠ (if e.mode = 1 then e.table else 0) ∨ streamBits st 5 3 ≠ 0 then
      .error ⟨subBadCode, 0⟩
    else
      match decodeScales st e.length with
      | .error f => .error f
      | .ok scales =>
        match decodeCycles (if e.mode = 1 then canonical lens else []) st e.length e.mode 63 72 [] 0 with
        | .error f => .error f
        | .ok (pos, codes) =>
          if pos < e.length then .error ⟨subLength, pos⟩
          else if check ∧ crc16 (bs.take e.streamBytes) ≠ e.crc then .error ⟨subCrc, e.length⟩
          else .ok ⟨codes, scales⟩

/-! ### Encoding a block (R172 to R174) -/

/-- The cycles the decoder needs for codewords of the lengths given (R176). -/
def cyclesOf : List Nat → Nat → Nat → Nat → Bool → Nat
  | [], cycles, _, _, _ => cycles
  | l :: t, cycles, n, used, long =>
    if n = 24 ∨ 96 < used + l ∨ (8 < l ∧ long) then cyclesOf t (cycles + 1) 1 l (8 < l)
    else cyclesOf t cycles (n + 1) (used + l) (long || 8 < l)

/-- decode_cycles of R173: one cycle for the header, at least one for the elements. -/
def decodeCount (ls : List Nat) : Nat := cyclesOf ls 2 0 0 false

/-- The best table for the codes: slot and length (R173). -/
def bestTable (tables : FMap (List Nat)) (permit : Nat) (codes : List Nat) : Option (Nat × Nat) :=
  (List.range 8).foldl (fun best k =>
    let lens := slotLengths tables k
    let ls := codes.map fun c => lens.getD c 0
    let total := 72 + ls.sum
    if permit / 2 ^ k % 2 = 0 ∨ tableValid lens = false ∨ ls.contains 0 ∨ 2120 ≤ total ∨ 64 < decodeCount ls then best
    else
      match best with
      | none => some (k, total)
      | some (_, b) => if total < b then some (k, total) else best) none

/-- All elements of a list are equal. -/
def allEqual (l : List Nat) : Bool := l.all fun x => x == l.headD 0

/-- A codeword's bits in stream order: the most significant first (R158). -/
def reverseBits (x : Nat) : Nat → Nat
  | 0 => 0
  | n + 1 => x / 2 ^ n % 2 + 2 * reverseBits x n

/-- Fields laid one after another into a stream: value and width. -/
def packFields : List (Nat × Nat) → Nat
  | [] => 0
  | (x, w) :: t => x % 2 ^ w + 2 ^ w * packFields t

/-- A block as it will be stored: mode, table, stored length, stream bytes, and a constant's slot field. -/
structure Coded where
  mode : Nat
  table : Nat
  length : Nat
  bytes : List Byte
  const_ : Nat
  deriving DecidableEq, Repr, Inhabited

/-- choose_mode and the stream it gives (R160, R173). -/
def encodeBlock (tables : FMap (List Nat)) (permit : Nat) (b : Block) : Coded :=
  let scales := b.scales.map fun x => (x, 8)
  if allEqual b.codes && allEqual b.scales then
    { mode := 3, table := 0, length := 0, bytes := [], const_ := b.scales.headD 0 + 256 * b.codes.headD 0 }
  else
    match bestTable tables permit b.codes with
    | none =>
      let st := packFields ((2, 8) :: scales ++ b.codes.map fun c => (c, 8))
      { mode := 2, table := 0, length := 2120, bytes := natToBytes 265 st, const_ := 0 }
    | some (k, len) =>
      let cws := canonical (slotLengths tables k)
      let words := b.codes.map fun c =>
        let cw := (cws.find? fun w => w.sym == c).getD default
        (reverseBits cw.code cw.len, cw.len)
      let st := packFields ((1 + 4 * k, 8) :: scales ++ words)
      { mode := 1, table := k, length := len, bytes := natToBytes ((len + 7) / 8) st, const_ := 0 }

/-- The exact value of a code under a scale (R157). -/
def packedValue (t : F8Ty) (code scale : Nat) : FVal :=
  if scale = 0xFF then .nan false
  else
    match f8Decode t code with
    | .fin n m e => .fin n m (e + scale - 127)
    | x => x

/-- Edge elements of a block of a tile read as zero: element j of block ordinal `ord` within the tile (R78, R159). -/
def Desc.clearEdges (d : Desc) (c ord : Nat) (codes : List Nat) : List Nat :=
  (codes.zip (List.range 256)).map fun (x, j) => if d.edge c (256 * ord + j) then 0 else x

/-- A block as the decoders deliver it: edge elements are zero whatever the stream holds; the scale of a group of edge elements alone
is no NaN (R78, R159). (DEDUCED: notes/assumptions/119.) -/
def Desc.clearBlock (d : Desc) (c ord : Nat) (b : Block) : Block :=
  { codes := d.clearEdges c ord b.codes
    scales := (b.scales.zip (List.range 8)).map fun (x, g) =>
      if x = 255 ∧ (List.range 32).all fun i => d.edge c (256 * ord + 32 * g + i) then 0 else x }

/-- A block's new codes and scales when values are written at elements `first` up of it (R172). -/
def mergeBlock (d : Desc) (c ord first : Nat) (vals : List FVal) (old : Block) : Block :=
  let n := vals.length
  let group := fun g =>
    let oldCodes := (old.codes.drop (32 * g)).take 32
    let oldScale := old.scales.getD g 0
    if 32 * g + 32 ≤ first ∨ first + n ≤ 32 * g then (oldCodes, oldScale)
    else
      let xs := (List.range 32).map fun i =>
        let j := 32 * g + i
        if d.edge c (256 * ord + j) then FVal.fin false 0 0
        else if first ≤ j ∧ j < first + n then vals.getD (j - first) (.fin false 0 0)
        else packedValue d.ty (oldCodes.getD i 0) oldScale
      let s := groupScale d.ty xs
      (xs.map fun x => (quantOf d.ty s x).val, (s + 127).toNat)
  let gs := (List.range 8).map group
  { codes := d.clearEdges c ord (gs.flatMap (·.1)), scales := gs.map (·.2) }

end Sys2Proof.Machine
end

