-- ==== Sys2Proof/Machine/EngineMem.lean ====
section
/-! DEFINITION. What every engine operation shares: its accesses to memory and scratchpad, faults held for the driver, tile
tags, arrival counters and their handles (R102 to R104, R117, R295, R304 to R306, R311, R410, R416, R417). -/

namespace Sys2Proof.Machine

open Sys2Proof

/-! ### Faults held for the driver (R416, R417) -/

/-- Bytes of a held fault record (R417). -/
def heldRecord (n : Nat) (h : Held) : List Byte :=
  natToBytes 4 n ++ natToBytes 2 h.ctx ++ natToBytes 1 h.kind ++ natToBytes 1 (if h.engine then 1 else 0) ++ natToBytes 8 h.va
    ++ natToBytes 2 h.core ++ natToBytes 14 0

/-- The held fault of a context's page, if one stands. -/
def State.heldAt (s : State) (ctx vpn : Nat) : Option Nat :=
  (s.held.find? fun p => p.2.ctx == ctx && p.2.vpn == vpn).map (·.1)

/-- A page held for the driver: the number of the fault that stands for it, or of a new one, which is reported; none when 64
stand already (R416). -/
def State.hold (s : State) (ctx va kind core : Nat) (engine : Bool) : Option (State × Nat) :=
  match s.heldAt ctx (va / 8192) with
  | some n => some (s, n)
  | none =>
    if 64 ≤ s.held.length then none
    else
      let n := s.nextHeld
      let h : Held := { ctx := ctx, vpn := va / 8192, kind := kind, engine := engine, va := va, core := core, since := s.cycle }
      some ({ s with held := s.held.set n h, nextHeld := n + 1 }.post (eventMsg (s.ctxQp ctx) 0xC1 ctx (heldRecord n h)), n)

/-! ### Accesses (R74, R295, R410) -/

/-- Why an engine operation stops: a cause code (R295), a page held for the driver, a page to be walked (R413), or a wait for a
link, a swing or a write that must come first. -/
inductive EngStop where
  | cause (c : Nat)
  | hold (va kind : Nat)
  | miss (va kind : Nat)
  | wait
  deriving DecidableEq, Repr, Inhabited

/-- A step of an engine operation: a stop or a value, with the state it leaves. -/
abbrev EngM (α : Type) := ExceptT EngStop (StateM State) α

/-- For whom an engine works: core, context, the pages the driver failed for the operation (R418), those whose miss was noted for it
(none for an agent that walks by itself), and whether it waits for a link past the fabric timeout (R439). -/
structure Agent where
  core : Nat
  ctx : Nat
  failed : List Nat
  walked : Option (List Nat)
  late : Bool
  deriving DecidableEq, Repr, Inhabited

/-- The operation's miss of a page has not been noted, or its walk has not come (R413). -/
def State.unwalked (s : State) (g : Agent) (va : Nat) : Bool :=
  match g.walked with
  | none => false
  | some ps => !ps.contains (va / 8192) || (s.core g.core).misses.any fun m => m.ctx == g.ctx && m.vpn == va / 8192

/-- The cause code of a fault found at a landing, a line or a link (R295). -/
def engCause (trap : Nat) : Nat :=
  if trap = causeLandingLost then 2
  else if trap = causeFabricTimeout then 3
  else if trap = causeMemoryUncorrectable then 4
  else if trap = causePageFault then 5
  else 6

/-- The leaf of an address by the walk of its miss, kept in the core's TLB (R412, R413, R416). -/
def engWalk (g : Agent) (va : Nat) (a : Access) : EngM Xlat := do
  if (← get).unwalked g va then throw (.miss va a.kind)
  modify fun s => if g.walked.isNone then s.countWalk g.ctx va else s
  let s ← get
  match s.walk g.ctx va with
  | (.leaf e size, cache) =>
    set ((s.cacheWalk cache).setCore g.core ((s.core g.core).fillTlb g.ctx va e size))
    match s.leafXlat e size va a with
    | some x => pure x
    | none => throw (.cause 6)
  | (.notPresent w, _) =>
    if w && (s.held.length < 64 || (s.heldAt g.ctx (va / 8192)).isSome) then
      throw (.hold va a.kind)
    else throw (.cause 5)
  | (.bad, _) => throw (.cause 6)
  | (.poisoned pa, _) =>
    set (s.logWalk g.ctx pa va)
    throw (.cause 4)

/-- The translation of an engine's access (R410, R413). A slot on a page without the packed attribute is read and written like one on a
packed page (R167). (DESIGN CHOICE: notes/assumptions/118.) -/
def engXlate (g : Agent) (va : Nat) (a : Access) (packed : Bool) : EngM Xlat := do
  if 2 ^ 53 ≤ va then throw (.cause 6)
  if g.failed.contains (va / 8192) then throw (.cause 5)
  let s ← get
  let x ← match s.xlate g.core g.ctx va a with
    | .ok x => pure x
    | .fault _ => throw (.cause 6)
    | .miss => engWalk g va a
  if x.packed && !packed then throw (.cause 7)
  if (← get).beforeSwing x then throw .wait
  pure x

/-- An access that leaves the module: its link, its landing's answer (R72, R116, R439). -/
def engCarry (g : Agent) (x : Xlat) (n : Nat) (write : Bool) : EngM Unit := do
  let s ← get
  if isRemote x.pa then
    match s.carrier x.pa with
    | none => throw (.cause 2)
    | some port =>
      if (s.ports.get port).state ≠ 2 then throw (if g.late then .cause 3 else .wait)
      if s.silent.get port then throw (.cause 3)
      match s.fabricFault g.ctx x.pa n write with
      | some c => throw (.cause (engCause c))
      | none => pure ()

/-- Bytes that an engine may not touch yet: a write of the module to them is not answered. The scheduler and the management core, whose
accesses no thread issues, do not wait. -/
def State.engineWaits (s : State) (g : Agent) (pa n : Nat) : Bool := g.walked.isSome && s.openWrite pa n

/-- Bytes read within one 256-byte line (R81, R82, R424), after every write of the module to them that is not yet answered: those
made before the operation's issue are among them (R102). (DESIGN CHOICE: notes/assumptions/136.) -/
def engReadLine (g : Agent) (va n : Nat) (packed : Bool) : EngM (List Byte) := do
  let x ← engXlate g va .read packed
  engCarry g x n false
  if (← get).engineWaits g x.pa n then throw .wait
  modify fun s => (s.touch x n).countServed x.pa
  let s ← get
  match s.lineFault x n with
  | some (c, _) => throw (.cause (engCause c))
  | none =>
    if s.readBad x.pa n then
      set (s.logRead g.ctx x.pa n va)
      throw (.cause 4)
    pure (s.readPhys x.pa n)

/-- Bytes read, line by line; `fuel` bounds the lines. -/
def engReadFrom (g : Agent) (packed : Bool) : Nat → Nat → Nat → EngM (List Byte)
  | 0, _, _ => pure []
  | fuel + 1, va, n =>
    if n = 0 then pure []
    else do
      let k := Nat.min n (256 - va % 256)
      let a ← engReadLine g va k packed
      let b ← engReadFrom g packed fuel (va + k) (n - k)
      pure (a ++ b)

/-- `n` bytes of global memory. -/
def engRead (g : Agent) (va n : Nat) (packed : Bool) : EngM (List Byte) := engReadFrom g packed (n / 256 + 2) va n

/-- Bytes written within one 256-byte line, after every write of the module to them that is not yet answered (R94, R95, R102): a write
narrower than a failed line is dropped and logged (R422). (DESIGN CHOICE: notes/assumptions/136.) -/
def engWriteLine (g : Agent) (va : Nat) (bs : List Byte) (packed : Bool) (a : Access) : EngM Unit := do
  let n := bs.length
  let x ← engXlate g va a packed
  engCarry g x n true
  if (← get).engineWaits g x.pa n then throw .wait
  modify fun s => (if x.mig && n = 256 then s.clearLine x else s.touch x n).countServed x.pa
  let s ← get
  match s.lineFault x n with
  | some _ => set (s.logError 3 (storageRow x.pa) g.ctx (placeOf x.pa) x.pa va)
  | none => set (s.storePhys g.ctx x.pa va bs)

/-- Bytes written, line by line. -/
def engWriteFrom (g : Agent) (packed : Bool) : Nat → Nat → List Byte → EngM Unit
  | 0, _, _ => pure ()
  | fuel + 1, va, bs =>
    if bs.isEmpty then pure ()
    else do
      let k := Nat.min bs.length (256 - va % 256)
      engWriteLine g va (bs.take k) packed .write
      engWriteFrom g packed fuel (va + k) (bs.drop k)

/-- Bytes written to global memory. -/
def engWrite (g : Agent) (va : Nat) (bs : List Byte) (packed : Bool) : EngM Unit :=
  engWriteFrom g packed (bs.length / 256 + 2) va bs

/-! ### Scratchpad of a crew, resident or swapped out (R117) -/

/-- Bytes of a crew's allocation. -/
def State.crewBytes (s : State) (tok off n : Nat) : List Byte :=
  let c := s.crew tok
  if c.resident then s.mem.read (c.phys off) n else (c.image.drop off).take n

/-- Bytes written into a crew's allocation, in its save area while it is swapped out. -/
def State.setCrewBytes (s : State) (tok off : Nat) (bs : List Byte) : State :=
  let c := s.crew tok
  if c.resident then s.storeX (c.phys off) bs
  else s.setCrew tok { c with image := c.image.take off ++ bs ++ c.image.drop (off + bs.length) }

/-- An engine's read of scratchpad (R423). -/
def engSpad (g : Agent) (tok off n : Nat) : EngM (List Byte) := do
  let s ← get
  let c := s.crew tok
  if c.resident && s.badWord (c.phys off) n then
    set (s.logError 1 3 g.ctx c.core (c.phys off / 32 * 32) 0)
    throw (.cause 4)
  pure (s.crewBytes tok off n)

/-- An engine's write of scratchpad. -/
def engSpadWrite (tok off : Nat) (bs : List Byte) : EngM Unit := modify fun s => s.setCrewBytes tok off bs

/-! ### Tile tags (R310, R311) -/

/-- A scratchpad range an operation reads or writes: crew, first and last-plus-one offset, and whether it writes. -/
structure Span where
  crew : Nat
  lo : Nat
  hi : Nat
  write : Bool
  deriving DecidableEq, Repr, Inhabited

/-- The range overlaps a tag's. -/
def Span.meets (p : Span) (t : TileTag) : Bool := t.defined && p.lo < t.hi && t.lo < p.hi

/-- Two ranges of one crew overlap. -/
def Span.overlaps (p q : Span) : Bool := p.crew == q.crew && p.lo < q.hi && q.lo < p.hi

/-- The tags let the accesses go on: a read waits for full, a write for empty. -/
def State.tagsReady (s : State) (ps : List Span) : Bool :=
  ps.all fun p => (s.crew p.crew).tags.all fun (_, t) => !p.meets t || t.full != p.write

/-- How far from `at_` up the ranges reach without a gap; `n` bounds the joins. -/
def reachOf (ps : List Span) : Nat → Nat → Nat
  | 0, at_ => at_
  | n + 1, at_ =>
    match ps.find? fun p => p.lo ≤ at_ && at_ < p.hi with
    | some p => reachOf ps n p.hi
    | none => at_

/-- A tag after some accesses of an operation: empty when its last read of the tag is done, and its reads cover the tag's range; full
when its last write is done, and its writes cover it. `all` are the operation's ranges, `now` those just done, `later` those still
to come. (DEDUCED: notes/assumptions/60.) -/
def TileTag.after (t : TileTag) (all now later : List Span) : TileTag :=
  [false, true].foldl (fun t w =>
    let mine := fun (p : Span) => p.write == w && p.meets t
    let ps := all.filter mine
    if now.any mine && !later.any mine && t.hi ≤ reachOf ps ps.length t.lo then { t with full := w } else t) t

/-- The tags of the crews whose ranges an operation has just read or written (R311). (DEDUCED: notes/assumptions/60.) -/
def State.tagsDone (s : State) (all now later : List Span) : State :=
  (dedup (now.map (·.crew))).foldl (fun s k =>
    let of_ := fun (ps : List Span) => ps.filter fun p => p.crew == k
    let c := s.crew k
    s.setCrew k { c with tags := c.tags.map fun (n, t) => (n, t.after (of_ all) (of_ now) (of_ later)) }) s

/-! ### Arrival counters (R304, R305) -/

/-- A counter's fields. -/
structure Counter where
  arrived : Nat
  target : Nat
  armed : Bool
  error : Bool
  complete : Bool
  cause : Nat
  epoch : Nat
  deriving DecidableEq, Repr, Inhabited

/-- A counter from its 16 bytes. (DEDUCED: notes/assumptions/47.) -/
def parseCounter (bs : List Byte) : Counter :=
  let st := fieldOf bs 8 1
  { arrived := fieldOf bs 0 4, target := fieldOf bs 4 4, armed := st % 2 == 1, error := st / 2 % 2 == 1,
    complete := st / 4 % 2 == 1, cause := fieldOf bs 9 1, epoch := fieldOf bs 12 4 }

/-- A counter's 16 bytes. (DEDUCED: notes/assumptions/47.) -/
def Counter.bytes (c : Counter) : List Byte :=
  let bit := fun (b : Bool) => if b then 1 else 0
  natToBytes 4 c.arrived ++ natToBytes 4 c.target
    ++ natToBytes 1 (bit c.armed + 2 * bit c.error + 4 * bit c.complete) ++ natToBytes 1 c.cause ++ natToBytes 2 0
    ++ natToBytes 4 c.epoch

/-- Bytes arrive: the counter completes when it reaches or passes its target while armed. -/
def Counter.arrive (c : Counter) (n : Nat) : Counter :=
  let total := c.arrived + n
  if c.armed ∧ c.complete = false ∧ c.target ≤ total then
    { c with arrived := total % 2 ^ 32, complete := true, epoch := (c.epoch + 1) % 2 ^ 32 }
  else { c with arrived := total % 2 ^ 32 }

/-- The error flag set, once per arming (R117, R305). -/
def Counter.fail (c : Counter) (cause : Nat) : Counter :=
  if c.error then c
  else { c with error := true, cause := cause, epoch := if c.complete then c.epoch else (c.epoch + 1) % 2 ^ 32 }

/-- await's status word. -/
def Counter.status (c : Counter) : Nat := (if c.error then 5 else 0) + c.cause % 16 * 2 ^ 8 + c.arrived * 2 ^ 32

/-- The counter of a crew's own allocation. -/
def State.counter (s : State) (tok off : Nat) : Counter := parseCounter (s.crewBytes tok off 16)

/-- The crew and own offset that a counter offset of a crew names: its own allocation or a gang window (R57, R305). -/
def State.counterPlace (s : State) (tok off : Nat) : Option (Nat × Nat) :=
  let own := fun t o => if o + 16 ≤ (s.crew t).size then some (t, o) else none
  match own tok off with
  | some p => some p
  | none =>
    if 0x100_0000 ≤ off ∧ off < 0x200_0000 then
      match s.rankCrew tok ((off - 0x100_0000) / 0x20_0000) with
      | some m => own m ((off - 0x100_0000) % 0x20_0000)
      | none => none
    else none

/-- The status word of a wait on a counter that is complete or errored; a counter of a swapped-out crew is looked at after its
resume. -/
def State.awaitDone (s : State) (w : Nat) (x : Wait) : Option (Operand × Nat) :=
  match x with
  | .await o d =>
    (match s.counterPlace (crewTok w) o with
      | some (tok, off) =>
        let c := s.counter tok off
        if (s.crew tok).resident && (c.complete || c.error) then some (d, c.status) else none
      | none => none)
  | _ => none

/-- A warp's lanes that await a counter that is complete or errored are released with its status, which they acquire (R102). -/
def State.settleAwait (s : State) (w : Nat) : State :=
  (s.warp w).waits.foldl (fun s r =>
    match s.awaitDone w r.wait with
    | some (d, st) => (s.setWarp w (((s.warp w).writeLanes r.lanes 1 d fun _ => st).release s.cycle r r.lanes)).emptyL1 (s.coreOf w)
    | none => s) s

/-- Some warp of a resident crew awaits a counter that is complete or errored. -/
def State.awaitsDone (s : State) : Bool :=
  s.warps.any fun p => p.2.live && (s.crewOf p.1).resident && p.2.waits.any fun r => (s.awaitDone p.1 r.wait).isSome

/-- The waits on counters released, when every arrival and every failure of the cycle is in: a failure of that cycle shows in the
status (R121). -/
def State.settleAwaits (s : State) : State :=
  ((s.warps.filter fun p => p.2.live && (s.crewOf p.1).resident).map (·.1)).foldl State.settleAwait s

/-- A counter changed as one step; its waiters are looked at when the cycle's changes are made (R121). -/
def State.changeCounter (s : State) (tok off : Nat) (f : Counter → Counter) : State :=
  s.setCrewBytes tok off (f (s.counter tok off)).bytes

/-- The counter handle of a crew's counter (R306). -/
def State.handleOf (s : State) (tok off : Nat) : Nat :=
  let low := s.module_ % 64 + off / 16 * 2 ^ 6 + tok % 2 ^ 16 * 2 ^ 23 + (s.crew tok).ctx % 2 ^ 12 * 2 ^ 39
  low + (Config.handleCheck s.key low).toNat % 2 ^ 13 * 2 ^ 51

def handleModule (h : Nat) : Nat := bits h 5 0

/-- The crew and offset of a handle of this module that passes its checks (R306). (DEDUCED: notes/assumptions/40.) -/
def State.handleTarget (s : State) (h : Nat) : Option (Nat × Nat) :=
  let tok := bits h 38 23
  let off := bits h 22 6 * 16
  let c := s.crew tok
  if bits h 63 51 = (Config.handleCheck s.key (h % 2 ^ 51)).toNat % 2 ^ 13 ∧ c.live ∧ c.ctx = bits h 50 39 ∧ off + 16 ≤ c.size then
    some (tok, off)
  else none

/-! ### Status words (R295) -/

/-- A status word: code, count, detail. -/
def statusWord (code count detail : Nat) : Nat := code + count % 2 ^ 24 * 2 ^ 8 + detail % 2 ^ 32 * 2 ^ 32

/-- The detail of a failure: cause, decode subcode, bit offset, block in the tile, task step. -/
def failDetail (cause sub off block step : Nat) : Nat :=
  cause % 16 * 2 ^ 28 + sub % 16 * 2 ^ 24 + off % 2 ^ 12 * 2 ^ 12 + block % 2 ^ 8 * 2 ^ 4 + step % 16

/-- The status code of a failed write: a timed-out one is of unknown outcome (R303, R308). -/
def failStatus (write : Bool) (cause count : Nat) : Nat :=
  statusWord (if write ∧ cause = 3 then 7 else 5) count (failDetail cause 0 0 0 0)

/-! ### Records read at issue (R296) -/

/-- A record of an engine instruction, read as a plain load of the issuing core, behind the writes of the module to it that are not yet
answered (R87); `before` is the fault of an earlier class, reported in place of the read's own (R267). -/
def State.readRecord (s : State) (len va n : Nat) (before : Option Trap) (f : State → List Byte → Except Trap State) :
    Except Trap State :=
  let fail := fun (s : State) (cause landing off : Nat) =>
    match before with
    | some t => (.error t : Except Trap State)
    | none => .error { s.mkTrap cause with addr := BitVec.ofNat 64 (va + off), landing := landing }
  if 2 ^ 53 ≤ va then fail s causeProtection 0 0
  else
    match s.xlateWarp s.cur.warp va .read with
    | .miss => .ok (s.waitWalk len [va] .read)
    | .fault c => fail s c 0 0
    | .ok x =>
      if x.packed then fail s causePackedAccess 0 0
      else if s.beforeSwing x then .ok (s.waitWalk len [va] .read)
      else if s.openWrite x.pa n then .ok s.stall
      else
        let s := (s.spendWalk).touch x n
        let go := fun (s : State) =>
          let core := s.coreOf s.cur.warp
          match s.lineFault x n with
          | some (c, l) => fail s c l 0
          | none =>
            let s := (if x.home = 0 then s.fillL1 core x.pa n else s).countServed x.pa
            let sectors := (List.range (n / 16)).map fun k => x.pa + 16 * k
            if sectors.all (fun a => (s.l1Sector core a).isSome) ∧ x.home = 0 then
              f s (sectors.flatMap fun a => (s.l1Sector core a).getD [])
            else if s.readBad x.pa n then
              fail (s.logRead (s.ctxOf s.cur.warp) x.pa n va) causeMemoryUncorrectable 0 (s.poisonAt (s.ownAddr x.pa) n - s.ownAddr x.pa)
            else f s (s.readPhys x.pa n)
        if isRemote x.pa then
          match s.carrier x.pa with
          | none => fail s causeLandingLost (s.landingOf x.pa) 0
          | some port =>
            let key := linkKey true s.cur.pc
            let over_ := s.upCur fun w => { w with linkWaits := w.linkWaits.del key }
            if (s.ports.get port).state ≠ 2 then
              (if s.linkLate s.cur.warp key then fail over_ causeFabricTimeout port 0
               else .ok ((s.upCur fun w => w.waitLink s.cycle key).stall))
            else if s.silent.get port then fail over_ causeFabricTimeout port 0
            else
              match s.fabricFault (s.ctxOf s.cur.warp) x.pa n false with
              | some c => fail over_ c port 0
              | none => go over_
        else go s

/-- A trap naming every executing lane at an address. -/
def State.addrTrap (s : State) (cause addr : Nat) : Trap := { s.mkTrap cause with addr := BitVec.ofNat 64 addr }

/-- MISALIGNED for an operand that is no multiple of `n`. (DEDUCED: notes/assumptions/34.) -/
def State.checkAlign (s : State) (x n : Nat) : Option Trap :=
  if x % n = 0 then none else some (s.addrTrap causeMisaligned x)

/-- SCRATCH_BOUND for a range that leaves the own allocation (R57). (DEDUCED: notes/assumptions/96.) -/
def State.checkOwn (s : State) (off n : Nat) : Option Trap :=
  let size := (s.crewOf s.cur.warp).size
  if off + n ≤ size then none else some (s.addrTrap causeScratchBound (Nat.max off size))

/-- The first of several checks that fails. (DEDUCED: notes/assumptions/96.) -/
def firstTrap (ts : List (Option Trap)) : Option Trap := ts.findSome? id

end Sys2Proof.Machine
end

