-- ==== Sys2Proof/Machine/SystemMem.lean ====
section
/-! DEFINITION. Memory as the scheduler and the management core reach it for a context: by walks of their own, holding no page
for the driver (R386, R389, R392, R405, R431). -/

namespace Sys2Proof.Machine

open Sys2Proof

/-- The number under which these units translate: no core has it, and no translation is kept under it. -/
def unitCore : Nat := 256

/-- The trap cause of an engine's cause code (R295, R326). -/
def trapOfCause (c : Nat) : Nat :=
  if c = 2 then causeLandingLost
  else if c = 3 then causeFabricTimeout
  else if c = 4 then causeMemoryUncorrectable
  else if c = 5 then causePageFault
  else if c = 7 then causePackedAccess
  else causeProtection

/-- The cause of a stop; a page that would be held is a page fault, and a wait for a link or a swing a timeout. -/
def EngStop.trap : EngStop → Nat
  | .cause c => trapOfCause c
  | .hold _ _ | .miss _ _ => causePageFault
  | .wait => causeFabricTimeout

/-- An action of such a unit for a context; nothing is left of it in a TLB. -/
def State.unitRun {α : Type} (s : State) (ctx : Nat) (f : Agent → EngM α) : Except Nat α × State :=
  let (r, t) := StateT.run (ExceptT.run (f ⟨unitCore, ctx, [], none, false⟩)) s
  let t := { t with cores := t.cores.del unitCore }
  match r with
  | .ok x => (.ok x, t)
  | .error e => (.error e.trap, t)

/-- Bytes read for a context, or the cause of the failure. -/
def State.sysRead (s : State) (ctx va n : Nat) : Except Nat (List Byte) × State := s.unitRun ctx fun g => engRead g va n false

/-- Bytes written for a context; what a failure leaves is the pages before it. -/
def State.sysWrite (s : State) (ctx va : Nat) (bs : List Byte) : Except Nat Unit × State :=
  s.unitRun ctx fun g => engWrite g va bs false

end Sys2Proof.Machine
end

