-- ==== Sys2Proof/Machine/Jobs.lean ====
section
/-! DEFINITION. Jobs, phases, graph nodes and launches: their records, how they start, run, end and are cancelled (R14, R16,
R36, R37, R43, R323, R384 to R393, R397). -/

namespace Sys2Proof.Machine

open Sys2Proof

/-! ### Records (R384 to R386) -/

/-- A stage entry of a launch record whose entry is `base` (R207, R385). -/
def parseStage (base : Nat) (bs : List Byte) : StageDecl :=
  { entry := BitVec.ofNat 64 base + BitVec.ofNat 64 (wrapNat 64 (signedOf 32 (fieldOf bs 0 4) * 4)), qmin := fieldOf bs 4 1,
    qmax := fieldOf bs 5 1, wmin := fieldOf bs 6 1, wmax := fieldOf bs 7 1, item := fieldOf bs 8 2, depth := fieldOf bs 10 2,
    queue := fieldOf bs 12 4 }

/-- A vector quota: 32 to 192 in steps of 8. -/
def quotaOk (q : Nat) : Bool := 32 ≤ q && q ≤ 192 && q % 8 == 0

/-- A stage meets R43, with its queue inside the allocation (R206, R386). -/
def StageDecl.ok (d : StageDecl) (scratch : Nat) : Bool :=
  quotaOk d.qmin && quotaOk d.qmax && d.qmin ≤ d.qmax && d.wmin ≤ d.wmax && 8 ≤ d.item && d.item ≤ 256 && d.item % 8 == 0
    && 2 ≤ d.depth && d.depth ≤ 256 && d.queue + d.item * d.depth ≤ scratch

/-- Bytes `n` up of `bs` from `off` are zero. -/
def zeros (bs : List Byte) (off n : Nat) : Bool := fieldOf bs off n == 0

/-- The launch record of 256 bytes, if it is valid; a held spawn's crew count is not checked (R322, R386). -/
def parseLaunch (held : Bool) (bs : List Byte) : Option LaunchRec :=
  let entry := fieldOf bs 8 8
  let n := fieldOf bs 0x13 1
  let stages := (List.range n).map fun i => parseStage entry ((bs.drop (0x30 + 16 * i)).take 16)
  let r : LaunchRec :=
    { counters := fieldOf bs 2 2 % 2 == 1, crews := fieldOf bs 4 4, entry := entry, regs := fieldOf bs 0x10 1,
      warps := fieldOf bs 0x11 1, gang := fieldOf bs 0x12 1, stages := n, scratch := fieldOf bs 0x14 4,
      fpmode := fieldOf bs 0x18 2, done := fieldOf bs 0x20 8, result := fieldOf bs 0x28 8, stage := stages }
  let fields := fieldOf bs 0 2 == 1 && fieldOf bs 2 2 < 2 && entry % 12 == 0 && entry < 2 ^ 53 && 1 ≤ r.warps && r.warps ≤ 64
    && 1 ≤ r.gang && r.gang ≤ 8 && n ≤ 4 && r.scratch % 8192 == 0 && 8192 ≤ r.scratch && r.fpmode < 2 ^ 13
    && zeros bs 0x1A 6 && r.done % 64 == 0 && r.result % 4 == 0 && zeros bs (0x30 + 16 * n) (64 - 16 * n) && zeros bs 0x70 144
  let crews := held || (1 ≤ r.crews && r.crews ≤ 16777215 && r.crews % r.gang == 0)
  let kinds := if n = 0 then quotaOk r.regs
    else r.regs == 0 && stages.all (·.ok r.scratch) && (stages.map (·.wmin)).sum ≤ r.warps && r.warps ≤ (stages.map (·.wmax)).sum
  if fields && crews && kinds then some r else none

/-- A graph node of 32 bytes: whether it breaks a rule of its own table (R384, R386), given the nodes before it; a launch address that
is not a multiple of 256 or a nonzero bit of flags[7:1] is one. (DESIGN CHOICE: notes/assumptions/137.) -/
def parseNode (before : List Node) (bs : List Byte) : Node :=
  let i := before.length
  let guard := fieldOf bs 0x11 1
  let deps := fieldOf bs 8 8
  let ok := fieldOf bs 0 8 % 256 == 0 && deps < 2 ^ i && fieldOf bs 0x10 1 < 2 && fieldOf bs 0x12 1 < 2 && zeros bs 0x13 13
    && (guard == 0 || (guard ≤ i && (before.getD (guard - 1) default).result))
  { bad := !ok, launch := fieldOf bs 0 8, deps := deps, result := fieldOf bs 0x10 1 % 2 == 1, guard := guard,
    polarity := fieldOf bs 0x12 1, st := .waiting, spec := default, word := 0, readyAt := 0, since := 0 }

/-- The nodes of a graph from its table's bytes. -/
def parseNodes (bs : List Byte) : Nat → List Node → List Node
  | 0, acc => acc
  | n + 1, acc => parseNodes bs n (acc ++ [parseNode acc ((bs.drop (32 * acc.length)).take 32)])

/-- A phase table entry, if it is valid. -/
def parsePhase (bs : List Byte) : Option PhaseEntry :=
  let e : PhaseEntry := { nodes := fieldOf bs 0 8, count := fieldOf bs 8 1, done := fieldOf bs 0x10 8 }
  if e.nodes % 32 == 0 && 1 ≤ e.count && e.count ≤ 64 && zeros bs 9 7 && e.done % 64 == 0 && zeros bs 0x18 8 then some e else none

/-- The job record of 64 bytes: its level, phases, phase table, completion record and report ring, if it is valid. -/
def parseJob (bs : List Byte) : Option (Nat × Nat × Nat × Nat × Nat) :=
  let tab := fieldOf bs 8 8
  let done := fieldOf bs 0x10 8
  let reports := fieldOf bs 0x18 8
  if fieldOf bs 0 2 == 1 && fieldOf bs 2 1 < 32 && 1 ≤ fieldOf bs 3 1 && zeros bs 4 4 && tab % 32 == 0 && done % 64 == 0
      && reports % 4096 == 0 && zeros bs 0x20 32 then some (fieldOf bs 2 1, fieldOf bs 3 1, tab, done, reports)
  else none

/-! ### Completion records (R388, R389) -/

/-- What a completion record says. -/
structure Completion where
  outcome : Nat
  status : Nat
  cause : Nat
  flags : Nat
  completed : Nat
  cancelled : Nat
  failure : Option Failure
  deriving DecidableEq, Repr, Inhabited

/-- Bytes 4 to 63 of a completion record. (DEDUCED: notes/assumptions/14.) -/
def Completion.bytes (c : Completion) : List Byte :=
  let f : Failure := c.failure.getD default
  natToBytes 1 c.outcome ++ natToBytes 1 c.status ++ natToBytes 1 c.cause ++ natToBytes 1 c.flags ++ natToBytes 4 c.completed
    ++ natToBytes 4 c.cancelled ++ natToBytes 4 f.crew ++ natToBytes 2 f.warp ++ natToBytes 2 0
    ++ [f.trapcause, f.traplanes, f.trapaddr, f.trapinfo, f.extra].flatMap fun x => natToBytes 8 x.toNat

/-- The record written, done last; a record that cannot be written is given up. (DEDUCED: notes/assumptions/14.) (DESIGN CHOICE: notes/assumptions/15.) -/
def State.writeDone (s : State) (ctx done : Nat) (c : Completion) : State :=
  let (_, s) := s.sysWrite ctx (done + 4) c.bytes
  (s.sysWrite ctx done (natToBytes 4 1)).2

/-- A launch's record; address 0 names none (R385). -/
def State.launchDone (s : State) (ctx done : Nat) (c : Completion) : State := if done = 0 then s else s.writeDone ctx done c

/-- The cause field: the recorded failure's, or 0x02 of a refused record, else 0. (DEDUCED: notes/assumptions/104.) -/
def causeField (f : Option Failure) : Nat := (f.map (·.cause)).getD 0

/-- The failure of a refused record. (DEDUCED: notes/assumptions/63.) -/
def State.refusal (s : State) : Failure := { (default : Failure) with cause := causeIllegalOperand, cycle := s.cycle }

/-- A unit handle: level, context, serial number, low field (R388). -/
def unitHandle (level ctx serial low : Nat) : Nat := level * 2 ^ 46 + ctx * 2 ^ 34 + serial % 2 ^ 22 * 2 ^ 12 + low

/-! ### Fitting a crew to an idle core (R17, R60, R396, R397) -/

/-- The stage of each warp slot of a crew (R44): wmin slots each, then the rest up to wmax. -/
def stageSlots (r : LaunchRec) : List Nat :=
  let base := (List.range r.stages).flatMap fun i => List.replicate (r.stage.getD i default).wmin i
  let rest := (List.range r.stages).flatMap fun i =>
    let d := r.stage.getD i default
    List.replicate (d.wmax - d.wmin) i
  base ++ rest.take (r.warps - base.length)

/-- Warp slots of a new crew with their quotas. -/
def startQuotas (r : LaunchRec) : List (Nat × Nat) :=
  if r.stages = 0 then (List.range r.warps).map fun i => (i, r.regs)
  else ((List.range r.warps).zip (stageSlots r)).map fun (i, st) => (i, (r.stage.getD st default).qmin)

/-- The crew capacity of a core (R60). -/
def State.capacity (s : State) (core : Nat) : Nat := coreSram - 8192 * (s.core core).pins

/-- Warps and registers a quadrant would hold with those of a list in it. -/
def quadUse (q0 q : Nat) (ws : List (Nat × Nat)) : Nat × Nat :=
  let mine := ws.filter fun p => (q0 + p.1) % 4 == q
  (mine.length, (mine.map (·.2)).sum)

/-- The lowest starting quadrant at which warps of slots and quotas `ws` fit beside what each quadrant holds (R17). -/
def startQuadrant (held : Nat → Nat × Nat) (ws : List (Nat × Nat)) : Option Nat :=
  (List.range 4).find? fun q0 => (List.range 4).all fun q =>
    let u := quadUse q0 q ws
    (held q).1 + u.1 ≤ 16 && (held q).2 + u.2 ≤ 2048

/-- The core is online and takes crews. -/
def State.online (s : State) (core : Nat) : Bool := !(s.core core).offline && (s.core core).leaving.isEmpty

/-- A crew would fit the core if it held none. -/
def State.fitsIdle (s : State) (core scratch : Nat) (ws : List (Nat × Nat)) : Bool :=
  s.online core && scratch ≤ s.capacity core && (startQuadrant (fun _ => (0, 0)) ws).isSome

/-- The cores of a cluster. -/
def clusterCores (c : Nat) : List Nat := (List.range 8).map (8 * c + ·)

/-- Some quiescent cluster could take a gang of the launch (R397). -/
def State.placeable (s : State) (r : LaunchRec) : Bool :=
  (List.range 32).any fun c => r.gang ≤ ((clusterCores c).filter fun k => s.fitsIdle k r.scratch (startQuotas r)).length

/-! ### Jobs and their parts -/

def State.job (s : State) (n : Nat) : Job := s.jobs.get n
def State.setJob (s : State) (n : Nat) (j : Job) : State := { s with jobs := s.jobs.set n j }

/-- A node of a job's running phase changed. -/
def State.setNode (s : State) (n i : Nat) (x : Node) : State :=
  let j := s.job n
  s.setJob n { j with nodes := j.nodes.set i x }

def State.node (s : State) (n i : Nat) : Node := (s.job n).nodes.getD i default

/-- How a node ended, if it has. -/
def Node.outcome (x : Node) : Option Nat :=
  match x.st with
  | .ended o => some o
  | _ => none

/-- The live launches of a job's phase, by slot. -/
def State.launchesOf (s : State) (n phase : Nat) : List Nat :=
  (s.launches.filter fun p => p.2.live && p.2.job == n && p.2.phase == phase).map (·.1)

/-- The lowest free slot of the launch table (R388). (DESIGN CHOICE: notes/assumptions/107.) -/
def State.freeLaunch (s : State) : Option Nat := (List.range 4096).find? fun n => !(s.launch n).live

/-- The live crews of a launch, resident or swapped out. -/
def State.crewsOf (s : State) (slot : Nat) : List Nat :=
  (s.crews.filter fun p => p.2.live && p.2.launch == slot && p.1 < 2 ^ 16).map (·.1)

/-- A unit below a phase ended: it counts as completed or apart (R36, R389). -/
def Job.count (j : Job) (outcome flags : Nat) (f : Option Failure) : Job :=
  let j := if outcome = 0 ∨ outcome = 2 then { j with phaseCompleted := j.phaseCompleted + 1 }
    else { j with phaseCancelled := j.phaseCancelled + 1 }
  { j with
    phaseFlags := Nat.lor j.phaseFlags flags
    phaseFailure := match f with
      | some x => firstFailure j.phaseFailure x
      | none => j.phaseFailure }

/-! ### Nodes (R386, R388, R391, R392) -/

/-- A launch record read for its check. (DESIGN CHOICE: notes/assumptions/16.) -/
def State.readLaunch (s : State) (ctx va : Nat) : Option (List Byte) × State :=
  match s.sysRead ctx va 256 with
  | (.ok bs, s) => (some bs, s)
  | (.error _, s) => (none, s)

/-- A node that is never placed ends: its launch's completion record says so, when it can be read. (DEDUCED: notes/assumptions/62.) -/
def State.dropNode (s : State) (n i outcome : Nat) : State :=
  let j := s.job n
  let x := s.node n i
  let s := s.setJob n ((j.count outcome 0 none))
  let s := s.setNode n i { x with st := .ended outcome }
  if x.bad then s
  else
    match s.readLaunch j.ctx x.launch with
    | (some bs, s) =>
      if fieldOf bs 0x20 8 % 64 = 0 then s.launchDone j.ctx (fieldOf bs 0x20 8) ⟨outcome, 0, 0, 0, 0, 0, none⟩ else s
    | (none, s) => s

/-- A node whose launch record is invalid ends refused (R16, R386). (DEDUCED: notes/assumptions/62.) -/
def State.refuseNode (s : State) (n i : Nat) (bs : Option (List Byte)) : State :=
  let j := s.job n
  let x := s.node n i
  let s := s.setJob n (j.count 3 0 (some s.refusal))
  let s := s.setNode n i { x with st := .ended 3 }
  match bs with
  | some bs =>
    if fieldOf bs 0x20 8 % 64 = 0 then s.launchDone j.ctx (fieldOf bs 0x20 8) ⟨3, 0, causeIllegalOperand, 0, 0, 0, none⟩ else s
  | none => s

/-- The nodes that a node's deps and guard name. -/
def Node.names (x : Node) : List Nat :=
  ((List.range 64).filter fun i => x.deps / 2 ^ i % 2 == 1) ++ (if x.guard = 0 then [] else [x.guard - 1])

/-- What becomes of a waiting node: nothing yet, skipped, or ready. -/
inductive NodeMove where
  | stay
  | skip
  | go
  deriving DecidableEq, Repr, Inhabited

/-- R391, R392: a node waits for every node it names, and is selected by its guard's result word. -/
def Job.nodeMove (j : Job) (x : Node) : NodeMove :=
  let outs := x.names.map fun i => (j.nodes.getD i default).outcome
  if x.st ≠ .waiting then .stay
  else if outs.any fun o => o.isSome && o != some 0 then .skip
  else if outs.contains none then .stay
  else if x.guard ≠ 0 ∧ ((j.nodes.getD (x.guard - 1) default).word != 0) ≠ (x.polarity == 1) then .skip
  else .go

/-- A waiting node looked at: refused with the phase's start (R386), skipped, or read, checked and made ready. -/
def State.scanNode (s : State) (n i : Nat) : State :=
  let j := s.job n
  let x := s.node n i
  if x.st ≠ .waiting then s
  else if x.bad then s.refuseNode n i none
  else
    match j.nodeMove x with
    | .stay => s
    | .skip => s.dropNode n i (if j.graphCancelled then 1 else 4)
    | .go =>
      if j.graphCancelled then s.dropNode n i 1
      else
        match s.readLaunch j.ctx x.launch with
        | (none, s) => s.refuseNode n i none
        | (some bs, s) =>
          match parseLaunch false bs with
          | none => s.refuseNode n i (some bs)
          | some r =>
            let s := s.setNode n i { x with st := .ready, spec := r, readyAt := s.sched.stamp, since := s.cycle }
            { s with sched := { s.sched with stamp := s.sched.stamp + 1 } }

/-- Every node of a job's phase looked at, in ascending index. -/
def State.scanNodes (s : State) (n : Nat) : State := (List.range (s.job n).nodes.length).foldl (fun s i => s.scanNode n i) s

/-- Cycles after which the effective level of a launch that places nothing rises (R394). -/
def agePeriod : Nat := 500 * Config.cyclesPerUs

/-- The effective level of a launch of a level that has waited since a cycle (R394). -/
def agedLevel (level since cycle : Nat) : Nat :=
  if level = 31 then 31 else Nat.min (level + (cycle - since) / agePeriod) (Nat.min (level + 4) 30)

/-- A launch put into a slot, at the level that its wait since a cycle has given it (R394). -/
def State.startLaunch (s : State) (slot : Nat) (r : LaunchRec) (n : Nat) (node : Option Nat) (parent : Nat) (held : Bool)
    (since : Nat) : State :=
  let j := s.job n
  let st := s.sched.stamp
  let l : Launch :=
    { live := true, spec := r, ctx := j.ctx, uid := st, parent := parent, job := n, phase := j.phase, node := node, held := held,
      level := j.level, eff := agedLevel j.level since s.cycle
      levelSince := since + (s.cycle - since) / agePeriod * agePeriod, next := 0, ptr := 0, completed := 0, cancelledCount := 0, flags := 0,
      failure := none, cancelled := false, blockedSince := none, reserved := none }
  { s.setLaunch slot l with sched := { s.sched with stamp := st + 1 } }

/-- A launch that no quiescent cluster could take fails at once (R397). -/
def State.unplaceable (s : State) (ctx done : Nat) : State := s.launchDone ctx done ⟨3, statusUnplaceable, 0, 0, 0, 0, none⟩

/-- A ready node takes a free slot, or ends unplaceable. -/
def State.acceptNode (s : State) (slot n i : Nat) : State :=
  let x := s.node n i
  if s.placeable x.spec then (s.setNode n i { x with st := .running slot }).startLaunch slot x.spec n (some i) 0 false x.since
  else
    let s := s.setJob n ((s.job n).count 3 0 none)
    (s.setNode n i { x with st := .ended 3 }).unplaceable (s.job n).ctx x.spec.done

/-- The ready nodes of all jobs: job, node, effective level, stamp (R394). -/
def State.readyNodes (s : State) : List (Nat × Nat × Nat × Nat) :=
  (s.jobs.filter fun p => p.2.live).flatMap fun p =>
    ((List.range p.2.nodes.length).filter fun i => (p.2.nodes.getD i default).st == .ready).map fun i =>
      let x := p.2.nodes.getD i default
      (p.1, i, agedLevel p.2.level x.since s.cycle, x.readyAt)

/-- The ready node that takes the next slot: the highest effective level, then the order of becoming ready (R388). -/
def State.nextReady (s : State) : Option (Nat × Nat) :=
  (leastBy (fun (x : Nat × Nat × Nat × Nat) => (31 - x.2.2.1) * 2 ^ 64 + x.2.2.2) s.readyNodes).map fun x => (x.1, x.2.1)

/-! ### The end of jobs and phases (R389, R391, R393) -/

/-- A job ends: its record, then the event that tells the host (R389, R437). -/
def State.endJob (s : State) (n outcome : Nat) : State :=
  let j := s.job n
  let cause := causeField j.failure
  let s := s.writeDone j.ctx j.done ⟨outcome, 0, cause, j.flags, j.completed, j.cancelledCount, j.failure⟩
  let body := natToBytes 8 (unitHandle 3 j.ctx n 0) ++ natToBytes 1 outcome ++ natToBytes 1 0 ++ natToBytes 1 cause ++ natToBytes 5 0
  { s with jobs := s.jobs.del n }.post (eventMsg (s.ctxQp j.ctx) 0xC0 j.ctx body)

/-- A phase starts: its nodes are read and checked (R386); a marked phase ends the job (R393). -/
def State.startPhase (s : State) (n phase : Nat) : State :=
  let j := s.job n
  if j.markPhases.contains phase then s.endJob n 1
  else
    let e := j.table.getD phase default
    let (r, s) := s.sysRead j.ctx e.nodes (32 * e.count)
    let nodes := match r with
      | .ok bs => parseNodes bs e.count []
      | .error _ => List.replicate e.count { (default : Node) with bad := true, st := .waiting }
    s.setJob n { j with
      phase := phase, nodes := nodes, spawnOut := [], phaseCompleted := 0, phaseCancelled := 0, phaseFlags := 0,
      phaseFailure := none, graphCancelled := j.markGraphs.contains phase }

/-- A phase ends with an outcome: its record, then the next phase or the end of the job. -/
def State.endPhase (s : State) (n outcome : Nat) : State :=
  let j := s.job n
  let e := j.table.getD j.phase default
  let s := s.writeDone j.ctx e.done
    ⟨outcome, 0, causeField j.phaseFailure, j.phaseFlags, j.phaseCompleted, j.phaseCancelled, j.phaseFailure⟩
  let counted := outcome = 0 ∨ outcome = 2
  let j := { j with
    flags := Nat.lor j.flags j.phaseFlags
    completed := if counted then j.completed + 1 else j.completed
    cancelledCount := if counted then j.cancelledCount else j.cancelledCount + 1
    failure := match j.phaseFailure with
      | some f => firstFailure j.failure f
      | none => j.failure
    nodes := [] }
  let s := s.setJob n j
  if outcome = 0 ∧ j.phase + 1 < j.table.length then s.startPhase n (j.phase + 1) else s.endJob n outcome

/-- The outcome of a phase whose nodes and spawned launches have all ended (R391). -/
def Job.phaseOutcome (j : Job) : Nat :=
  let nodes := j.nodes.filterMap Node.outcome
  let outs := nodes ++ j.spawnOut
  if j.graphCancelled ∨ nodes.all (fun o => o == 0 || o == 4) then 0
  else if outs.contains 2 then 2
  else if outs.contains 1 then 1
  else if outs.contains 3 then 3
  else 0

/-- A job whose running phase has nothing left to run. -/
def State.phaseOver (s : State) (n : Nat) : Bool :=
  let j := s.job n
  j.live && j.nodes.all (fun x => x.outcome.isSome) && (s.launchesOf n j.phase).isEmpty

/-- What the scheduler does next for its jobs: a node whose state changes, a slot given to a ready node, a phase that ends. -/
def State.jobStep (s : State) : Option State :=
  let moving := (s.jobs.filter fun p => p.2.live).find? fun p =>
    p.2.nodes.any fun x => x.st == .waiting && (x.bad || p.2.nodeMove x != .stay)
  match moving with
  | some p => some (s.scanNodes p.1)
  | none =>
    match s.nextReady, s.freeLaunch with
    | some (n, i), some slot => some (s.acceptNode slot n i)
    | _, _ =>
      match (s.jobs.filter fun p => p.2.live).find? fun p => s.phaseOver p.1 with
      | some p => some (s.endPhase p.1 p.2.phaseOutcome)
      | none => none

/-- The scheduler's steps for its jobs until none is left; `n` bounds them. -/
def State.progress (s : State) : Nat → State
  | 0 => s
  | n + 1 =>
    match s.jobStep with
    | some s => s.progress n
    | none => s

/-- A ready node waits and a slot is free for it (R388). -/
def State.slotWaits (s : State) : Bool := s.nextReady.isSome && s.freeLaunch.isSome

/-- A bound on the steps of one progress: more than all nodes and phases of all jobs. -/
def jobFuel : Nat := 2 ^ 30

/-! ### The end of a launch (R36, R389, R392) -/

/-- The result word of a launch that ended OK (R392): read, or the launch failed with the read's cause. -/
def State.resultWord (s : State) (l : Launch) : Nat × Option Failure × State :=
  match l.node with
  | some i =>
    if (s.node l.job i).result ∧ l.failure.isNone ∧ l.cancelled = false then
      match s.sysRead l.ctx l.spec.result 4 with
      | (.ok bs, s) => (bytesToNat bs, none, s)
      | (.error c, s) =>
        (0, some { (default : Failure) with
          cause := c, trapcause := BitVec.ofNat 64 c, trapaddr := BitVec.ofNat 64 l.spec.result, cycle := s.cycle }, s)
    else (0, none, s)
  | none => (0, none, s)

/-- A launch ends: its record is written, its slot freed, its phase told. -/
def State.endLaunch (s : State) (slot : Nat) : State :=
  let l := s.launch slot
  let (word, bad, s) := s.resultWord l
  let failure := match bad with
    | some f => some f
    | none => l.failure
  let outcome := if l.cancelled then 1 else if failure.isSome then 2 else 0
  let s := s.launchDone l.ctx l.spec.done ⟨outcome, 0, causeField failure, l.flags, l.completed, l.cancelledCount, failure⟩
  let s := s.setLaunch slot { l with live := false }
  let j := s.job l.job
  if j.live = false ∨ j.ctx ≠ l.ctx ∨ j.phase ≠ l.phase ∨ j.nodes = [] then s
  else
    let s := s.setJob l.job (j.count outcome l.flags failure)
    match l.node with
    | some i => s.setNode l.job i { s.node l.job i with st := .ended outcome, word := word }
    | none =>
      let j := s.job l.job
      s.setJob l.job { j with spawnOut := j.spawnOut ++ [outcome] }

/-- A launch without crews left to place or to end has ended (R36). -/
def State.launchOver (s : State) (slot : Nat) : Bool :=
  let l := s.launch slot
  l.live && !l.held && l.spec.crews ≤ l.next && (s.crewsOf slot).isEmpty

/-- The end of a launch looked for, with what follows it. -/
def State.settleLaunch (s : State) (slot : Nat) : State :=
  if s.launchOver slot then (s.endLaunch slot).progress jobFuel else s

/-! ### Cancellation (R37, R323, R393) -/

/-- A crew of a cancelled unit stops. -/
def State.cancelCrew (s : State) (tok : Nat) : State := (s.setCrew tok { s.crew tok with cancelled := true }).stopCrew tok

/-- A launch stops: its crews stop, none of the rest is placed, and the slot of a held one is no longer held. (DEDUCED: notes/assumptions/64.) -/
def State.killLaunch (s : State) (slot : Nat) : State :=
  let l := s.launch slot
  if l.live = false ∨ l.cancelled then s
  else
    let crews := if l.held then 0 else l.spec.crews
    let s := s.setLaunch slot { l with
      cancelled := true, held := false, spec := { l.spec with crews := crews }
      cancelledCount := l.cancelledCount + (crews - l.next), next := crews }
    let s := { s with sched := { s.sched with spawns := s.sched.spawns.filter fun h => h.slot != slot } }
    (s.crewsOf slot).foldl State.cancelCrew s

/-- The launches spawned within a launch, to any depth; `n` bounds the depth. -/
def State.spawnedBy (s : State) (uid : Nat) : Nat → List Nat
  | 0 => []
  | n + 1 =>
    (s.launches.filter fun p => p.2.live && p.2.parent == uid && uid != 0).flatMap fun p => p.1 :: s.spawnedBy p.2.uid n

/-- Launches stopped, and the end of those without a crew noted. -/
def State.killAll (s : State) (slots : List Nat) : State :=
  let s := slots.foldl State.killLaunch s
  slots.foldl (fun s n => if s.launchOver n then s.endLaunch n else s) s

/-- The nodes of a job that have no launch yet end cancelled. -/
def State.cancelNodes (s : State) (n : Nat) : State :=
  (List.range (s.job n).nodes.length).foldl (fun s i =>
    match (s.node n i).st with
    | .waiting | .ready => s.dropNode n i 1
    | _ => s) s

/-- A running phase cancelled: it ends at once with outcome 1, its launches that have not ended counted as cancelled, with the
flags of the warps that the cancel ended (R389, R393). -/
def State.cancelPhase (s : State) (n : Nat) : State :=
  let phase := (s.job n).phase
  let s := (s.killAll (s.launchesOf n phase)).cancelNodes n
  let left := s.launchesOf n phase
  let flags := fun (s : State) (k : Nat) => (s.crewsOf k).foldl (fun f t => Nat.lor f (s.crew t).flags) (s.launch k).flags
  let s := left.foldl (fun s k => s.setJob n ((s.job n).count 1 (flags s k) (s.launch k).failure)) s
  s.endPhase n 1

/-- The status that a cancel of a handle by a context gives, with the state it leaves (R323, R393). (DEDUCED: notes/assumptions/64.) -/
def State.cancelUnit (s : State) (ctx h : Nat) : State × Nat :=
  let level := bits h 47 46
  let n := bits h 33 12
  let low := bits h 11 0
  let j := s.job n
  if bits h 45 34 ≠ ctx then (s, statusExpired)
  else if level = 0 then
    let l := s.launch low
    if l.live ∧ l.ctx = ctx ∧ l.job = n then
      ((s.killAll (low :: s.spawnedBy l.uid 4096)).progress jobFuel, statusOk)
    else (s, statusExpired)
  else if j.live = false ∨ j.ctx ≠ ctx then (s, statusExpired)
  else if level = 3 then ((s.cancelPhase n).progress jobFuel, statusOk)
  else if low = j.phase then
    if level = 2 then ((s.cancelPhase n).progress jobFuel, statusOk)
    else
      let s := s.setJob n { j with graphCancelled := true }
      (((s.killAll (s.launchesOf n j.phase)).cancelNodes n).progress jobFuel, statusOk)
  else if j.phase < low ∧ low < j.table.length then
    (s.setJob n (if level = 2 then { j with markPhases := j.markPhases ++ [low] }
      else { j with markGraphs := j.markGraphs ++ [low] }), statusOk)
  else (s, statusExpired)

/-! ### Submitting a job (R384, R386, R434) -/

/-- The entries of a phase table. -/
def parsePhases (bs : List Byte) (n : Nat) : Option (List PhaseEntry) :=
  (List.range n).mapM fun i => parsePhase ((bs.drop (32 * i)).take 32)

/-- A job checked and handed to the scheduler: its handle, or none when its record or phase table is invalid. (DESIGN CHOICE: notes/assumptions/16.) -/
def State.submitJob (s : State) (ctx rec_ : Nat) : Option Nat × State :=
  if rec_ % 64 ≠ 0 then (none, s)
  else
    match s.sysRead ctx rec_ 64 with
    | (.error _, s) => (none, s)
    | (.ok bs, s) =>
      match parseJob bs with
      | none => (none, s)
      | some (level, phases, tab, done, reports) =>
        match s.sysRead ctx tab (32 * phases) with
        | (.error _, s) => (none, s)
        | (.ok tb, s) =>
          match parsePhases tb phases with
          | none => (none, s)
          | some table =>
            let n := s.sched.serial % 2 ^ 22
            let j : Job := { (default : Job) with
              live := true, ctx := ctx, level := level, table := table, done := done, reports := reports }
            let s := { s with sched := { s.sched with serial := (n + 1) % 2 ^ 22 } }.setJob n j
            (some (unitHandle 3 ctx n 0), (s.startPhase n 0).progress jobFuel)

end Sys2Proof.Machine
end

