-- ==== Sys2Proof/Machine/Engines.lean ====
section
/-! DEFINITION. The issue of engine instructions: layout records, queues, copies, bulk, counters, fences, tags, tables, kvput
and bin (R293 to R311, R318 to R321). -/

namespace Sys2Proof.Machine

open Sys2Proof

/-! ### The tensor layout record (R297, R298) -/

/-- A valid layout record. -/
structure Layout where
  packed : Bool
  ndim : Nat
  elem : Nat
  z : Nat
  ilv : Nat
  ilvdim : Nat
  base : Nat
  shape : List Nat
  tile : List Nat
  stride : List Nat
  deriving DecidableEq, Repr, Inhabited

/-- Bytes of an element of a type code (R194, R297); 0 for a code no record may hold. -/
def elemBytes (code : Nat) : Nat :=
  match Ty.ofCode code with
  | some (.int t) => t.bits / 8
  | some (.flt t) => fltBits t / 8
  | some (.f8 _) => 1
  | none => 0

/-- The record of 64 bytes, if it is valid (R297). -/
def parseLayout (bs : List Byte) : Option Layout :=
  let r : Layout :=
    { packed := fieldOf bs 2 1 == 1, ndim := fieldOf bs 3 1, elem := fieldOf bs 4 1, z := elemBytes (fieldOf bs 4 1),
      ilv := fieldOf bs 5 1, ilvdim := fieldOf bs 6 1, base := fieldOf bs 8 8, shape := fieldsOf bs 0x10 4 5,
      tile := fieldsOf bs 0x24 2 5, stride := fieldsOf bs 0x30 4 4 }
  let common := fieldOf bs 0 2 == 1 && fieldOf bs 2 1 < 2 && fieldOf bs 7 1 == 0 && fieldOf bs 0x2E 2 == 0
  let packed := r.ndim == 0 && r.elem == 0 && r.ilv == 1 && r.ilvdim == 0 && fieldOf bs 0x10 30 == 0 && fieldOf bs 0x30 16 == 0
  let plain :=
    1 ≤ r.ndim && r.ndim ≤ 5 && r.z != 0 && 1 ≤ r.ilv && r.ilv ≤ 64
      && (if r.ilv = 1 then r.ilvdim == 0 else 1 ≤ r.ilvdim && r.ilvdim < r.ndim)
      && (r.shape ++ r.tile).all (1 ≤ ·) && (r.shape.drop r.ndim ++ r.tile.drop r.ndim).all (· == 1)
      && (r.stride.drop (r.ndim - 1)).all (· == 0) && product r.tile ≤ 2 ^ 20 && r.base % r.z == 0
  if common && (if r.packed then packed else plain) then some r else none

/-- elem_addr of a global coordinate (R298). -/
def Layout.addr (r : Layout) (x : List Nat) : Nat :=
  let st := fun i => r.stride.getD (i - 1) 0
  let others := fun (skip : Nat) => ([1, 2, 3, 4].map fun i => if i = skip then 0 else st i * x.getD i 0).sum
  if r.ilv = 1 then r.base + r.z * (x.headD 0 + others 0)
  else
    let c := x.getD r.ilvdim 0
    r.base + r.z * (c % r.ilv + r.ilv * x.headD 0 + others r.ilvdim + st r.ilvdim * (c / r.ilv))

/-- The record's shape with the patched count of a held copy (R321). (DEDUCED: notes/assumptions/39.) -/
def Layout.patched (r : Layout) (count : Option Nat) : Layout :=
  match count with
  | some n => if r.packed then r else { r with shape := r.shape.set (r.ndim - 1) n }
  | none => r

/-! ### Queues (R294, R309) -/

/-- A core's engines. -/
def State.engs (s : State) (core : Nat) : Engines := s.engines.get core
def State.setEngs (s : State) (core : Nat) (e : Engines) : State := { s with engines := s.engines.set core e }

/-- The queues, numbered as qfence names them: 0 to 3 copy, 4 deck, 5 encoder, 6 bulk; 7 is the binning queue. -/
def Engines.list (e : Engines) (q : Nat) : List EngEntry :=
  if q < 4 then e.copy.get q else if q = 5 then e.enc else if q = 6 then e.bulk else if q = 7 then e.bin else []

def Engines.setList (e : Engines) (q : Nat) (l : List EngEntry) : Engines :=
  if q < 4 then { e with copy := e.copy.set q l }
  else if q = 5 then { e with enc := l }
  else if q = 6 then { e with bulk := l }
  else if q = 7 then { e with bin := l }
  else e

/-- Operations a queue holds. -/
def Engines.count (e : Engines) (q : Nat) : Nat := if q = 4 then e.deck.length else (e.list q).length

/-- Capacity of a queue (R294). -/
def queueRoom (q : Nat) : Nat := if q = 4 ∨ q = 6 then 64 else 16

/-- The queues an instruction enters. -/
def queuesOf (i : Instr) : List Nat :=
  match i with
  | .cpyLd _ q .. | .cpySt _ q .. => [q]
  | .bulk .. => [6]
  | .ctload .. | .ctsave .. | .kvput .. => [5]
  | .bin .. => [7]
  | .mtask .. => [4]
  | .qfence m => (List.range 7).filter fun q => m / 2 ^ q % 2 == 1
  | _ => []

/-- Every queue an instruction enters has room, and the copy and bulk queues together hold fewer than 128 (R294). -/
def State.engineRoom (s : State) (w : Nat) (i : Instr) : Bool :=
  let e := s.engs (s.coreOf w)
  let flow := ([0, 1, 2, 3, 6].map e.count).sum
  (queuesOf i).all fun q => e.count q < queueRoom q && (q = 4 || q = 5 || q = 7 || flow < 128)

/-- An operation put at the end of a queue; a scalar status register becomes pending (R293). -/
def State.pushOp (s : State) (q : Nat) (st : Operand) (patch : Option Nat) (op : EngOp) : State :=
  let w := s.cur.warp
  let core := s.coreOf w
  let e : EngEntry :=
    { num := s.nextOp, since := s.cycle, warp := w, ctx := s.ctxOf w, st := st, patch := patch, count := none, hold := none, begun := false,
      failed := [], op := op }
  let g := s.engs core
  let s := { s.setEngs core (g.setList q (g.list q ++ [e])) with nextOp := s.nextOp + 1 }
  s.upCur fun x => if st = .z then x else { x with pending := x.pending ++ [⟨st, 1, e.num⟩] }

/-- An engine instruction with room in its queue; without room its lanes try again (R294). -/
def engineOp (i : Instr) (s : State) (body : State → Except Trap State) : Host.Outcome State Fault Refusal :=
  runOp i s fun s => if s.engineRoom s.cur.warp i then body s else .ok s.stall

/-! ### Spans: the scratchpad an operation reads and writes (R311) -/

/-- The length a bulk moves: its own, or the patched one. -/
def bulkLength (e : EngEntry) (len : DWord) : Nat :=
  match e.patch, e.count with
  | some p, some n => n * (p / 2 ^ 32)
  | _, _ => len.toNat

/-- The spans of an operation. -/
def State.spansOf (s : State) (e : EngEntry) : List Span :=
  let tok := crewTok e.warp
  match e.op with
  | .load _ _ _ _ _ off size _ _ => [⟨tok, off, off + size, true⟩]
  | .store _ _ _ _ _ off size _ _ => [⟨tok, off, off + size, false⟩]
  | .drain .. => []
  | .bulk xs xd _ src dst len h =>
    let n := bulkLength e len
    (if xs then [⟨tok, src.toNat, src.toNat + n, false⟩] else [])
      ++ (match (if xd ∧ handleModule h.toNat = s.module_ then s.handleTarget h.toNat else none) with
        | some (t, _) => [⟨t, dst.toNat, dst.toNat + n, true⟩]
        | none => [])
  | .ctload x _ a => if x then [⟨tok, a.toNat, a.toNat + 128, false⟩] else []
  | .ctsave x _ a => if x then [⟨tok, a.toNat, a.toNat + 128, true⟩] else []
  | .kvput t _ _ off _ n => [⟨tok, off, off + 16 + n * (fltBits t / 8), false⟩]
  | .bin x keys n tab dests list =>
    (if x then [⟨tok, keys.toNat, keys.toNat + 4 * n, false⟩] else [])
      ++ [⟨tok, tab, tab + 16 + 8 * dests + (if list then 4 * n else 0), true⟩]
  | .fence _ => []

/-- The used rows of an accumulator after steps from a task's start (R312, R314). -/
def usedRows (steps : List DeckOp) (j : Nat) : Nat :=
  steps.foldl (fun u x =>
    match x with
    | .load (.acc k) _ _ => if k = j then 128 else u
    | .mul m zero _ k _ => if k = j then Nat.max (if zero then 0 else u) (16 * 2 ^ m) else u
    | _ => u) 0

/-- The class of an element type: 8-bit, .f16, .bf16 (R313). -/
def mtyClass : MTy → Nat
  | .f8 _ => 0
  | .f16 => 1
  | .bf16 => 2

/-- Bytes of a weight plane's plain tile, and of M activation rows (R314). -/
def planeBytes (t : MTy) : Nat := if mtyClass t = 0 then 12672 else 12288
def rowsBytes (t : MTy) (m : Nat) : Nat := if mtyClass t = 0 then 198 * (16 * 2 ^ m) else 192 * (16 * 2 ^ m)

/-- The blocks that a packed image's header names. (DEDUCED: notes/assumptions/37.) -/
def State.imageBlocks (s : State) (tok off : Nat) : Nat := fieldOf (s.crewBytes tok off 16) 4 4

/-- The span of a task's step, with the steps before it. (DEDUCED: notes/assumptions/37.) -/
def State.stepSpans (s : State) (tok : Nat) (before : List DeckOp) (x : DeckOp) : List Span :=
  match x with
  | .load (.packed _) _ _ => []
  | .load (.tile t) a _ => [⟨tok, a.toNat, a.toNat + planeBytes t, false⟩]
  | .load (.image _) a _ => [⟨tok, a.toNat, a.toNat + 16 + 304 * s.imageBlocks tok a.toNat, false⟩]
  | .load (.acc _) a _ => [⟨tok, a.toNat, a.toNat + 32768, false⟩]
  | .swap => []
  | .mul m _ t _ a => [⟨tok, a, a + rowsBytes t m, false⟩]
  | .drain .xf32 j _ a _ _ =>
    let n := usedRows before j * 256
    if n = 0 then [] else [⟨tok, a.toNat, a.toNat + n, true⟩]
  | .drain .xbf16 j _ a _ _ =>
    let n := usedRows before j * 128
    if n = 0 then [] else [⟨tok, a.toNat, a.toNat + n, true⟩]
  | .drain .. => []

/-- The spans of a task's steps from `k` on. -/
def State.spansFrom (s : State) (t : DeckTask) (k : Nat) : List Span :=
  ((List.range t.steps.length).drop k).flatMap fun i =>
    s.stepSpans (crewTok t.warp) (t.steps.take i) (t.steps.getD i .swap)

/-- The ranges of a whole task. -/
def State.taskSpans (s : State) (t : DeckTask) : List Span :=
  (List.range t.steps.length).flatMap fun i =>
    s.stepSpans (crewTok t.warp) (t.steps.take i) (t.steps.getD i .swap)

/-- The ranges of a crew's own allocation that queued and running operations of any core govern (R310, R311). -/
def State.crewSpans (s : State) (tok : Nat) : List Span :=
  (s.engines.flatMap fun (p : Nat × Engines) =>
    ([0, 1, 2, 3, 5, 6, 7].flatMap p.2.list).flatMap s.spansOf ++ p.2.deck.flatMap s.taskSpans).filter fun p => p.crew == tok

/-! ### Patch words (R321) -/

/-- A patch word's table offset, destination index and unit. -/
def patchTable (p : Nat) : Nat := bits p 16 0 * 16
def patchIndex (p : Nat) : Nat := bits p 26 17
def patchUnit (p : Nat) : Nat := bits p 63 32

/-- The patch word's fields are allowed; for bulk the unit is a multiple of 16. (DEDUCED: notes/assumptions/39.) -/
def patchOk (p : Nat) (bulk : Bool) : Bool := bits p 31 27 == 0 && patchUnit p != 0 && (!bulk || patchUnit p % 16 == 0)

/-! ### cpy (R299 to R302) -/

/-- The illegal operand of an issue check. -/
def State.illegal (s : State) : Except Trap State := .error (s.mkTrap causeIllegalOperand)

/-- The type of cpy.ld suits the record. -/
def isRawCpy : CpyTy → Bool
  | .raw => true
  | _ => false

/-- Bytes that a packed load delivers (R300, R301). -/
def packedSize (t : CpyTy) (d : Desc) : Nat :=
  match t with
  | .raw => 16 + 304 * d.blocks
  | .values f => d.size * (fltBits f / 8)
  | .codes => d.size + d.size / 32

/-- The operand values of a cpy: record, coordinate, offsets, and d. -/
structure CpyArgs where
  load : Bool
  t : CpyTy
  add : Bool
  q : Nat
  m : CpyMod
  arr : Bool
  d : Operand
  recAddr : Nat
  coord : Nat
  off : Nat
  ctr : Nat
  dval : Nat
  deriving DecidableEq, Repr, Inhabited

/-- The copy's alignment checks on its scratchpad offsets. -/
def CpyArgs.align (a : CpyArgs) (s : State) : Option Trap :=
  firstTrap [s.checkAlign a.off 16, if a.arr then s.checkAlign a.ctr 16 else none]

/-- The end of a cpy's issue: offsets aligned, ranges in the own allocation, then it is queued. -/
def State.queueCpy (s : State) (i : Instr) (a : CpyArgs) (bytes : List Byte) (size : Nat) : Except Trap State :=
  match firstTrap [a.align s, s.checkOwn a.off size, if a.arr then s.checkOwn a.ctr 16 else none] with
  | some t => .error t
  | none =>
    let patch := if a.m = .held then some a.dval else none
    let ctr := if a.arr then a.ctr else 0
    let coord := BitVec.ofNat 64 a.coord
    let op : EngOp :=
      if a.load then .load a.t (a.m == .crc) a.arr bytes coord a.off size ctr (a.dval % 2 ^ 32)
      else .store a.add (a.m == .crc) a.arr bytes coord a.off size ctr (a.dval % 2 ^ 32)
    .ok ((s.pushOp a.q a.d patch op).advance i.len)

/-- The faults of a cpy that need no record: alignment, and the bounds of a .arr counter (R267, R296). -/
def CpyArgs.early (a : CpyArgs) (s : State) : Option Trap :=
  firstTrap [a.align s, if a.arr then s.checkOwn a.ctr 16 else none]

/-- cpy (R299): the record is read and checked, then the descriptor of a packed one. (DEDUCED: notes/assumptions/33.) -/
def State.issueCpy (s : State) (i : Instr) (a : CpyArgs) : Except Trap State :=
  if a.m = .held ∧ patchOk a.dval false = false then s.illegal
  else
    match s.checkAlign a.recAddr 64 with
    | some t => .error t
    | none =>
      s.readRecord i.len a.recAddr 64 (a.early s) fun s bytes =>
        match parseLayout bytes with
        | none => s.illegal
        | some r =>
          if r.packed then
            if a.load = false ∨ r.base % 128 ≠ 0 then s.illegal
            else
              s.readRecord i.len r.base 128 (a.early s) fun s db =>
                match parseDesc db with
                | none => s.illegal
                | some d =>
                  if coordOk (tileCounts d.shape d.tile) a.coord then s.queueCpy i a bytes (packedSize a.t d) else s.illegal
          else if (a.load ∧ isRawCpy a.t = false) ∨ (a.add ∧ r.elem ≠ 9) ∨ coordOk (tileCounts r.shape r.tile) a.coord = false then
            s.illegal
          else s.queueCpy i a bytes (product r.tile * r.z)

/-- The operand values of a cpy, read through the leader (R293). (DEDUCED: notes/assumptions/33.) -/
def State.cpyArgs (s : State) (load : Bool) (t : CpyTy) (add : Bool) (q : Nat) (m : CpyMod) (arr : Bool) (d a b c : Operand) :
    CpyArgs :=
  let sp := s.lead64 c
  { load := load, t := t, add := add, q := q, m := m, arr := arr, d := d, recAddr := s.lead64 a, coord := s.lead64 b,
    off := sp % 2 ^ 32, ctr := sp / 2 ^ 32, dval := s.lead64 d }

def execCpyLd (t : CpyTy) (q : Nat) (m : CpyMod) (arr : Bool) (d a b c : Operand) (s : State) :
    Host.Outcome State Fault Refusal :=
  engineOp (.cpyLd t q m arr d a b c) s fun s =>
    s.issueCpy (.cpyLd t q m arr d a b c) (s.cpyArgs true t false q m arr d a b c)

def execCpySt (addF : Bool) (q : Nat) (m : CpyMod) (arr : Bool) (d a b c : Operand) (s : State) :
    Host.Outcome State Fault Refusal :=
  engineOp (.cpySt addF q m arr d a b c) s fun s =>
    s.issueCpy (.cpySt addF q m arr d a b c) (s.cpyArgs false .raw addF q m arr d a b c)

/-! ### bulk (R307) -/

/-- The leader's scalar register `k` places after the one an operand names. -/
def State.quad (s : State) (a : Operand) (k : Nat) : Nat :=
  match a with
  | .s n => (s.curWarp.s (n + k)).toNat
  | _ => 0

/-- The longest transfer a bulk's patch can give (R307, R321). -/
def longestPatched (p : Nat) : Nat := if patchUnit p = 0 then 0 else 0xFF_FFF0 / patchUnit p * patchUnit p

/-- The translation check of a global source's first page (R307). -/
def State.bulkSource (s : State) (len src : Nat) (f : State → Except Trap State) : Except Trap State :=
  if 2 ^ 53 ≤ src then .error (s.addrTrap causeProtection src)
  else
    match s.xlateWarp s.cur.warp src .read with
    | .miss => .ok (s.waitWalk len [src] .read)
    | .fault c => .error (s.addrTrap c src)
    | .ok x => if x.packed then .error (s.addrTrap causePackedAccess src) else f s.spendWalk

/-- bulk (R307). -/
def execBulk (xs xd arr held : Bool) (d a : Operand) (s : State) : Host.Outcome State Fault Refusal :=
  let i : Instr := .bulk xs xd arr held d a
  engineOp i s fun s =>
    let src := s.quad a 0
    let dst := s.quad a 1
    let n := s.quad a 2
    let range := if held then longestPatched n else n
    if (if held then patchOk n true = false else n < 16 ∨ 0xFF_FFF0 < n) then s.illegal
    else
      match firstTrap [s.checkAlign src 16, s.checkAlign dst 16, if held then none else s.checkAlign n 16,
          if xs then s.checkOwn src range else none] with
      | some t => .error t
      | none =>
        let go := fun (s : State) => (.ok ((s.pushOp 6 d (if held then some n else none)
          (.bulk xs xd arr (BitVec.ofNat 64 src) (BitVec.ofNat 64 dst) (BitVec.ofNat 64 n) (BitVec.ofNat 64 (s.quad a 3)))).advance
            i.len) : Except Trap State)
        if xs then go s else s.bulkSource i.len src go

/-! ### Counters (R305) -/

/-- arminit (R305): the counter armed, its handle given. -/
def execArminit (d a b : Operand) (s : State) : Host.Outcome State Fault Refusal :=
  checkedOp (.arminit d a b) s fun s =>
    let off := s.lead32 a
    let target := s.lead32 b
    let tok := crewTok s.cur.warp
    if target = 0 then s.illegal
    else
      match firstTrap [s.checkAlign off 16, s.checkOwn off 16] with
      | some t => .error t
      | none =>
        let old := s.counter tok off
        let new : Counter :=
          { arrived := 0, target := target, armed := true, error := false, complete := false, cause := 0, epoch := old.epoch }
        let s := s.setCrewBytes tok off new.bytes
        let c := s.crew tok
        let s := if d = .z then s else s.setCrew tok { c with shared := dedup (c.shared ++ [off]) }
        .ok (s.writeRes 2 d fun _ => s.handleOf tok off)

/-- A counter operand placed: its crew and own offset, or the fault of R305. (DEDUCED: notes/assumptions/34.) -/
def State.checkCounter (s : State) (off : Nat) : Except Trap (Nat × Nat) :=
  match s.checkAlign off 16 with
  | some t => .error t
  | none =>
    match s.counterPlace (crewTok s.cur.warp) off with
    | some p => .ok p
    | none => .error (s.addrTrap causeScratchBound (Nat.max off (s.crewOf s.cur.warp).size))

/-- arrive (R305). -/
def execArrive (a b : Operand) (s : State) : Host.Outcome State Fault Refusal :=
  checkedOp (.arrive a b) s fun s =>
    match s.checkCounter (s.lead32 a) with
    | .error t => .error t
    | .ok (tok, off) => .ok (s.changeCounter tok off (Counter.arrive · (s.lead32 b)))

/-- await (R305). -/
def execAwait (d a : Operand) (s : State) : Host.Outcome State Fault Refusal :=
  let i : Instr := .await d a
  runOp i s fun s =>
    match s.checkCounter (s.lead32 a) with
    | .error t => .error t
    | .ok (tok, off) =>
      let c := s.counter tok off
      if c.armed = false then s.illegal
      else if c.complete ∨ c.error then
        .ok (((s.writeRes 1 d fun _ => c.status).emptyL1 (s.coreOf s.cur.warp)).advance i.len)
      else .ok (s.block i.len (.await (s.lead32 a) d))

/-! ### qfence (R309) -/

/-- A fence put at the end of one queue. (DEDUCED: notes/assumptions/44.) -/
def Engines.pushFence (g : Engines) (q mask : Nat) (e : EngEntry) : Engines :=
  if q = 4 then
    { g with deck := g.deck ++ [{ num := e.num, warp := e.warp, ctx := e.ctx, st := .z, mask := 0, fence := some mask, steps := [], at_ := 0, running := false, begun := false, copies := false, mat := default, hold := none, failed := [], ended := none }] }
  else g.setList q (g.list q ++ [e])

/-- An entry stands at the head of a queue. -/
def Engines.headIs (g : Engines) (q num : Nat) : Bool :=
  if q = 4 then (g.deck.head?.map (·.num)) == some num else ((g.list q).head?.map (·.num)) == some num

/-- The queues a mask names. -/
def maskQueues (m : Nat) : List Nat := (List.range 7).filter fun q => m / 2 ^ q % 2 == 1

/-- The fence that stands at the head of a queue, if one does: its number and mask. (DEDUCED: notes/assumptions/44.) -/
def Engines.fenceAt (g : Engines) (q : Nat) : Option (Nat × Nat) :=
  if q = 4 then g.deck.head?.bind fun t => t.fence.map fun m => (t.num, m)
  else
    match (g.list q).head? with
    | some e => match e.op with
      | .fence m => some (e.num, m)
      | _ => none
    | none => none

/-- A fence at the head of every queue it names opens: it leaves them (R103, R309). `n` bounds the fences opened. -/
def Engines.openFences (g : Engines) : Nat → Engines
  | 0 => g
  | n + 1 =>
    match (List.range 7).findSome? fun q =>
        match g.fenceAt q with
        | some (num, m) => if (maskQueues m).all fun k => g.headIs k num then some m else none
        | none => none with
    | none => g
    | some m =>
      ((maskQueues m).foldl (fun g k => if k = 4 then { g with deck := g.deck.drop 1 } else g.setList k ((g.list k).drop 1)) g).openFences n

/-- The fences of a core looked at after its queues changed. -/
def State.settleFences (s : State) (core : Nat) : State := s.setEngs core ((s.engs core).openFences 256)

/-- qfence (R309). -/
def execQfence (m : Nat) (s : State) : Host.Outcome State Fault Refusal :=
  let i : Instr := .qfence m
  engineOp i s fun s =>
    let w := s.cur.warp
    let core := s.coreOf w
    let e : EngEntry :=
      { num := s.nextOp, since := s.cycle, warp := w, ctx := s.ctxOf w, st := .z, patch := none, count := none, hold := none, begun := false,
        failed := [], op := .fence m }
    let g := (maskQueues m).foldl (fun (g : Engines) q => g.pushFence q m e) (s.engs core)
    .ok (({ s.setEngs core g with nextOp := s.nextOp + 1 }.settleFences core).advance i.len)

/-! ### tagset (R310) -/

/-- tagset's result: the old state. -/
def TileTag.old (t : TileTag) : Nat := (if t.defined then 1 else 0) + (if t.full then 2 else 0)

/-- A define breaks one of its rules (R310): length 0, an overlap with another tag, or a tag that governs an operation. (DEDUCED: notes/assumptions/36.) -/
def State.defineBad (s : State) (tok n lo hi : Nat) : Bool :=
  let c := s.crew tok
  let t := c.tags.get n
  lo == hi || c.tags.any (fun (k, u) => k != n && u.defined && lo < u.hi && u.lo < hi)
    || (t.defined && (s.crewSpans tok).any fun p => p.meets t)

/-- tagset (R310). (DEDUCED: notes/assumptions/36.) -/
def execTagset (d a b : Operand) (s : State) : Host.Outcome State Fault Refusal :=
  checkedOp (.tagset d a b) s fun s =>
    let x := s.lead32 a
    let tok := crewTok s.cur.warp
    let c := s.crew tok
    let n := bits x 5 0
    let op := bits x 9 8
    let lo := s.lead32 b
    let hi := lo + 16 * bits x 31 16
    let t := c.tags.get n
    let put := fun (u : TileTag) => (.ok ((s.setCrew tok { c with tags := c.tags.set n u }).writeRes 1 d fun _ => t.old) : Except Trap State)
    if bits x 7 6 ≠ 0 ∨ bits x 15 10 ≠ 0 ∨ s.same32 a = false ∨ (op = 0 ∧ s.same32 b = false) then s.illegal
    else if op = 0 then
      if s.defineBad tok n lo hi then s.illegal
      else
        match firstTrap [s.checkAlign lo 16, s.checkOwn lo (hi - lo)] with
        | some f => .error f
        | none => put { defined := true, full := false, lo := lo, hi := hi }
    else if op = 3 then .ok (s.writeRes 1 d fun _ => t.old)
    else if t.defined = false then s.illegal
    else put { t with full := op == 1 }

/-! ### Code tables, kvput, bin (R318 to R320) -/

/-- The checks of a code table's address: 128 in the global space, 16 and bounds in the scratchpad. -/
def State.checkTable (s : State) (x : Bool) (a : Nat) : Option Trap :=
  if x then firstTrap [s.checkAlign a 16, s.checkOwn a 128] else s.checkAlign a 128

/-- The address of a table operand. -/
def State.spaceAddr (s : State) (x : Bool) (a : Operand) : Nat := if x then s.lead32 a else s.lead64 a

/-- ctload (R318). -/
def execCtload (x : Bool) (slot : Nat) (d a : Operand) (s : State) : Host.Outcome State Fault Refusal :=
  let i : Instr := .ctload x slot d a
  engineOp i s fun s =>
    match s.checkTable x (s.spaceAddr x a) with
    | some t => .error t
    | none => .ok ((s.pushOp 5 d none (.ctload x slot (BitVec.ofNat 64 (s.spaceAddr x a)))).advance i.len)

/-- ctsave (R318). -/
def execCtsave (x : Bool) (slot : Nat) (d a : Operand) (s : State) : Host.Outcome State Fault Refusal :=
  let i : Instr := .ctsave x slot d a
  engineOp i s fun s =>
    match s.checkTable x (s.spaceAddr x a) with
    | some t => .error t
    | none => .ok ((s.pushOp 5 d none (.ctsave x slot (BitVec.ofNat 64 (s.spaceAddr x a)))).advance i.len)

/-- A scratchpad header read at issue by the issuing core (R296): 16 bytes at an own offset. (DEDUCED: notes/assumptions/35.) -/
def State.readHeader (s : State) (off : Nat) (f : State → List Byte → Except Trap State) : Except Trap State :=
  match firstTrap [s.checkAlign off 16, s.checkOwn off 16] with
  | some t => .error t
  | none =>
    let pa := (s.crewOf s.cur.warp).phys off
    if s.badWord pa 16 then
      .ok ((s.logError 1 3 (s.ctxOf s.cur.warp) (s.coreOf s.cur.warp) (pa / 32 * 32) 0).issueTrap (s.addrTrap causeMemoryUncorrectable off))
    else f s (s.mem.read pa 16)

/-- kvput (R319): descriptor and coordinate, header, its fields, range (R296); then it is queued. (DEDUCED: notes/assumptions/35.) -/
def execKvput (t : FTy) (d a b c : Operand) (s : State) : Host.Outcome State Fault Refusal :=
  let i : Instr := .kvput t d a b c
  engineOp i s fun s =>
    let off := s.lead32 c
    let h := s.lead64 a
    if h % 128 ≠ 0 then s.illegal
    else
      s.readRecord i.len h 128 (firstTrap [if 2 ^ 53 ≤ h then some (s.addrTrap causeProtection h) else none,
          s.checkAlign off 16, s.checkOwn off 16]) fun s db =>
        match parseDesc db with
        | none => s.illegal
        | some dd =>
          if coordOk (tileCounts dd.shape dd.tile) (s.lead64 b) = false then s.illegal
          else
            s.readHeader off fun s hd =>
              let first := fieldOf hd 0 4
              let n := fieldOf hd 4 4
              if fieldOf hd 8 8 ≠ 0 ∨ n = 0 ∨ 256 < n ∨ first / 256 ≠ (first + n - 1) / 256 ∨ dd.size < first + n then s.illegal
              else
                match s.checkOwn off (16 + n * (fltBits t / 8)) with
                | some f => .error f
                | none =>
                  .ok ((s.pushOp 5 d none (.kvput t (BitVec.ofNat 64 h) (BitVec.ofNat 64 (s.lead64 b)) off first n)).advance i.len)

/-- bin (R320, R324): key checks, then its table's header and range; keys in memory are judged when they are read. -/
def execBin (x : Bool) (d a b c : Operand) (s : State) : Host.Outcome State Fault Refusal :=
  let i : Instr := .bin x d a b c
  engineOp i s fun s =>
    let keys := s.spaceAddr x a
    let n := s.lead32 b
    let tab := s.lead32 c
    if n = 0 ∨ 2 ^ 24 < n then s.illegal
    else
      match firstTrap [s.checkAlign keys 4, if x then s.checkOwn keys (4 * n) else none] with
      | some t => .error t
      | none =>
        s.readHeader tab fun s hd =>
          let dests := fieldOf hd 0 4
          let list : Bool := fieldOf hd 4 4 % 2 == 1
          if dests = 0 ∨ 1024 < dests then s.illegal
          else
            match s.checkOwn tab (16 + 8 * dests + (if list then 4 * n else 0)) with
            | some t => .error t
            | none => .ok ((s.pushOp 7 d none (.bin x (BitVec.ofNat 64 keys) n tab dests list)).advance i.len)

end Sys2Proof.Machine
end

