-- ==== Sys2Proof/Machine/Perform.lean ====
section
/-! DEFINITION. Engine operations performed: copies, bulk transfers and their arrivals, code tables and the update unit
(R102, R103, R110 to R117, R169 to R174, R300 to R308, R318, R319). -/

namespace Sys2Proof.Machine

open Sys2Proof

/-- An engine action run on a state. -/
def runEng {α : Type} (x : EngM α) (s : State) : Except EngStop α × State := StateT.run (ExceptT.run x) s

/-- Bytes delivered so far, how the operation stopped, and a decode fault with its block in the tile. -/
structure CopyOut where
  stop : Option EngStop
  write : Bool
  dec : Option (DecFault × Nat)
  bytes : List Byte
  count : Nat
  deriving Repr, Inhabited

/-- A copy that went on to its end so far. -/
def CopyOut.ok (bytes : List Byte) : CopyOut := ⟨none, false, none, bytes, bytes.length⟩

/-! ### Queue heads -/

/-- A copy that a deck task drains through (R314). -/
def EngOp.isDrain : EngOp → Bool
  | .drain .. => true
  | _ => false

/-- The head of a queue when it can be performed: released, held by nothing, its crew resident, its tags ready. Of a crew that is
being saved only what has begun goes on, and the drains of its running tasks (R317, R340, R419). -/
def State.headReady (s : State) (core q : Nat) : Option EngEntry :=
  match ((s.engs core).list q).head? with
  | none => none
  | some e =>
    let fence := match e.op with
      | .fence _ => true
      | _ => false
    let released := e.patch.isNone || e.count.isSome
    let c := s.crew (crewTok e.warp)
    let goes := !c.saving || e.begun || e.op.isDrain
    if !fence && released && e.hold.isNone && c.live && c.resident && goes && (e.begun || s.tagsReady (s.spansOf e)) then some e
    else none

/-- The head of a queue changed. -/
def State.setHead (s : State) (core q : Nat) (e : EngEntry) : State :=
  let g := s.engs core
  s.setEngs core (g.setList q (e :: (g.list q).drop 1))

/-- A status word written to its register, if the write still stands pending in the warp (R102, R230). -/
def State.writeEngStatus (s : State) (w : Nat) (st : Operand) (num status : Nat) : State :=
  let x := s.warp w
  if x.pending.any fun p => p.num == num ∧ p.reg == st then
    let x := match st with
      | .s n => x.setS n (BitVec.ofNat 64 status)
      | _ => x
    s.setWarp w { x with pending := x.pending.filter fun p => !(p.num == num && p.reg == st) }
  else s

/-- An operation ends: it leaves its queue, its status is written, tags change when it ended well, and what it wrote is no
longer hidden by the core's L1 (R101, R102, R311). (DEDUCED: notes/assumptions/60.) -/
def State.finishOp (s : State) (core q : Nat) (e : EngEntry) (status : Nat) (ok : Bool) : State :=
  let spans := s.spansOf e
  let g := s.engs core
  let s := s.setEngs core (g.setList q ((g.list q).drop 1))
  let s := if ok then s.tagsDone spans spans [] else s
  ((s.writeEngStatus e.warp e.st e.num status).emptyL1 core).settleFences core

/-- A miss of an engine's operation noted on its core, if it can be (R413): the state, and whether it was. -/
def State.engMiss (s : State) (core ctx va kind : Nat) : State × Bool :=
  let c := s.core core
  if c.misses.any fun m => m.ctx == ctx && m.vpn == va / 8192 then (s, true)
  else if 16 ≤ c.misses.length then (s, false)
  else (s.setCore core { c with misses := c.misses ++ [{ ctx := ctx, vpn := va / 8192, kind := kind, va := va }] }, true)

/-- An operation that must wait: the state it had, with the page held for the driver, its miss, or the wait noted (R413, R416, R439). -/
def State.holdOp (s : State) (core q : Nat) (e : EngEntry) (x : EngStop) : State :=
  let e := { e with hold := some 0, begun := true }
  match x with
  | .hold va kind =>
    (match s.hold e.ctx va kind core true with
      | some (s, n) => s.setHead core q { e with hold := some n }
      | none => s.setHead core q e)
  | .miss va kind =>
    let (s, noted) := s.engMiss core e.ctx va kind
    s.setHead core q (if noted then { e with walked := dedup (va / 8192 :: e.walked) } else e)
  | _ => s.setHead core q { e with linkSince := some (e.linkSince.getD s.cycle) }

/-- An operation waits for a link past its context's fabric timeout (R439). -/
def State.lateSince (s : State) (ctx : Nat) (since : Option Nat) : Bool :=
  match since with
  | some c => decide (c + s.fabricLimit ctx ≤ s.cycle)
  | none => false

/-- The agent an entry's operation works for. -/
def State.agentOf (s : State) (e : EngEntry) (core : Nat) : Agent := ⟨core, e.ctx, e.failed, some e.walked, s.lateSince e.ctx e.linkSince⟩

/-! ### Plain copies (R298, R300) -/

/-- One element of a plain load: its bytes, zero outside the shape. -/
def loadElem (g : Agent) (r : Layout) (c tok off te : Nat) : EngM (List Byte) := do
  let x := elemCoord r.tile c te
  let bs ← if inShape r.shape x then engRead g (r.addr x) r.z false else pure (natToBytes r.z 0)
  engSpadWrite tok (off + r.z * te) bs
  pure bs

/-- Elements of a plain load, in tile_element order; `acc` holds the bytes delivered, latest first. -/
def loadElems (g : Agent) (r : Layout) (c tok off : Nat) : List Nat → List (List Byte) → State → CopyOut × State
  | [], acc, s => (.ok acc.reverse.flatten, s)
  | te :: t, acc, s =>
    match runEng (loadElem g r c tok off te) s with
    | (.ok bs, s) => loadElems g r c tok off t (bs :: acc) s
    | (.error e, s) => ({ CopyOut.ok acc.reverse.flatten with stop := some e }, s)

/-- An atomic .f32 add of four bytes at an address, rounded to nearest even (R156, R300). -/
def engAdd (g : Agent) (va : Nat) (bs : List Byte) : EngM Unit := do
  let x ← engXlate g va .both false
  engCarry g x 4 true
  if (← get).openWrite x.pa 4 then throw .wait
  modify fun s => (s.touch x 4).countServed x.pa
  let s ← get
  match s.lineFault x 4 with
  | some (c, _) => throw (.cause (engCause c))
  | none =>
    if s.readBad x.pa 4 then
      set (s.logRead g.ctx x.pa 4 va)
      throw (.cause 4)
    let sum := floatOp .fadd .f32 .rne (bytesToNat (s.readPhys x.pa 4)) (bytesToNat bs) 0 0
    set (s.storePhys g.ctx x.pa va (natToBytes 4 sum.val))

/-- An element's bytes stored or added at its address. -/
def storeElem (g : Agent) (r : Layout) (add : Bool) (x : List Nat) (bs : List Byte) : EngM Unit :=
  if add then engAdd g (r.addr x) bs else engWrite g (r.addr x) bs false

/-- Elements of a plain store; `src` gives each element's bytes. (DESIGN CHOICE: notes/assumptions/143.) -/
def storeElems (g : Agent) (r : Layout) (c : Nat) (add : Bool) (src : Nat → EngM (List Byte)) :
    List Nat → List (List Byte) → State → CopyOut × State
  | [], acc, s => (.ok acc.reverse.flatten, s)
  | te :: t, acc, s =>
    let x := elemCoord r.tile c te
    if inShape r.shape x = false then storeElems g r c add src t acc s
    else
      match runEng (src te) s with
      | (.error e, s) => ({ CopyOut.ok acc.reverse.flatten with stop := some e }, s)
      | (.ok bs, s) =>
        match runEng (storeElem g r add x bs) s with
        | (.ok _, s) => storeElems g r c add src t (bs :: acc) s
        | (.error e, s) => ({ CopyOut.ok acc.reverse.flatten with stop := some e, write := true }, s)

/-- The padding positions of a store: of the partial last group, where an element of it was written (R298). -/
def Layout.padding (r : Layout) (c : Nat) (tes : List Nat) : List (List Nat) :=
  let n := r.shape.getD r.ilvdim 1
  if r.ilv = 1 ∨ n % r.ilv = 0 then []
  else
    let group := (n - 1) / r.ilv
    let xs := (tes.map (elemCoord r.tile c)).filter fun x => inShape r.shape x && x.getD r.ilvdim 0 / r.ilv == group
    let keys := xs.foldl (fun (acc : List (List Nat)) x =>
      let k := x.set r.ilvdim 0
      if acc.contains k then acc else acc ++ [k]) []
    keys.flatMap fun k => (List.range ((group + 1) * r.ilv - n)).map fun i => k.set r.ilvdim (n + i)

/-- Zeros written to padding positions. -/
def writePadding (g : Agent) (r : Layout) : List (List Nat) → EngM Unit
  | [] => pure ()
  | x :: t => do
    engWrite g (r.addr x) (natToBytes r.z 0) false
    writePadding g r t

/-- A plain store with its padding. -/
def storePlain (g : Agent) (r : Layout) (c : Nat) (add : Bool) (src : Nat → EngM (List Byte)) (tes : List Nat) (s : State) :
    CopyOut × State :=
  let (out, s) := storeElems g r c add src tes [] s
  if out.stop.isSome ∨ add then (out, s)
  else
    match runEng (writePadding g r (r.padding c tes)) s with
    | (.ok _, s) => (out, s)
    | (.error e, s) => ({ out with stop := some e, write := true }, s)

/-! ### Packed loads (R175, R300, R301) -/

/-- The descriptor of a handle as an engine reads it at its start (R74); cause 8 when it is invalid. -/
def engDesc (g : Agent) (h : Nat) : EngM Desc := do
  match parseDesc (← engRead g h 128 false) with
  | some d => pure d
  | none => throw (.cause 8)

/-- The index entry of a block ordinal. -/
def engEntry (g : Agent) (d : Desc) (ord : Nat) : EngM IndexEntry := do
  pure (parseEntry (← engRead g (d.indexbase + 16 * ord) 16 false))

/-- A block's stream, without the rest of its slot (R301). -/
def engStream (g : Agent) (e : IndexEntry) : EngM (List Byte) :=
  if e.ok && e.hasSlot then engRead g e.addr e.streamBytes true else pure []

/-- A block's stream, its slot read whole: every line of the slot is there before the block is decoded (R83, R175). -/
def engSlot (g : Agent) (e : IndexEntry) : EngM (List Byte) := do
  if e.ok && e.hasSlot then
    pure ((← engRead g e.addr (classSize e.cls) true).take e.streamBytes)
  else pure []

/-- The core's counts of blocks decoded and decode faults (R460). -/
def countBlock (g : Agent) (good : Bool) : EngM Unit :=
  modify fun s => s.countCore g.core g.ctx (if good then 0x0008 else 0x0009) 1

/-- A block read and decoded under the context's tables (R164, R175). -/
def engBlock (g : Agent) (d : Desc) (ord : Nat) : EngM (Except DecFault Block) := do
  let e ← engEntry g d ord
  let bs ← engSlot g e
  let r := decodeBlock ((← get).ctx g.ctx).tables d.tables d.crc e bs
  countBlock g (match r with
    | .ok _ => true
    | .error _ => false)
  pure r

/-- The bytes that block `i` of a tile delivers, with the scale bytes of the codes form; an edge element's value is zero whatever the
stream holds (R78, R159). -/
def expandBlock (t : CpyTy) (d : Desc) (tile i : Nat) (b : Block) : List Byte × List Byte :=
  match t with
  | .values f =>
    ((b.codes.zip (List.range 256)).flatMap fun (c, j) =>
      natToBytes (fltBits f / 8)
        (if d.edge tile (256 * i + j) then 0 else (dequant f d.ty .rne (c + 256 * b.scales.getD (j / 32) 0)).val), [])
  | _ => (b.codes.flatMap (natToBytes 1), b.scales.flatMap (natToBytes 1))

/-- Blocks `i` up of a tile expanded: bytes and scale bytes, latest first. The scale bytes of the blocks before one that faults are
delivered with their codes. (DESIGN CHOICE: notes/assumptions/118.) -/
def expandBlocks (g : Agent) (t : CpyTy) (d : Desc) (c tok off : Nat) :
    Nat → Nat → List (List Byte) → List (List Byte) → State → CopyOut × State
  | 0, _, acc, sc, s => (.ok (acc.reverse ++ sc.reverse).flatten, s)
  | n + 1, i, acc, sc, s =>
    let sofar := (acc.reverse ++ sc.reverse).flatten
    match runEng (engBlock g d (d.firstBlock c + i)) s with
    | (.error e, s) => ({ CopyOut.ok sofar with stop := some e }, s)
    | (.ok (.error f), s) => ({ CopyOut.ok sofar with dec := some (f, i) }, s)
    | (.ok (.ok b), s) =>
      let (vals, scales) := expandBlock t d c i (d.clearBlock c i b)
      let s := s.setCrewBytes tok (off + vals.length * i) vals
      let s := if scales.isEmpty then s else s.setCrewBytes tok (off + d.size + 8 * i) scales
      expandBlocks g t d c tok off n (i + 1) (vals :: acc) (if scales.isEmpty then sc else scales :: sc) s

/-- Where each block's stream stands in an image: the offset, from `at_` up, and the end of the last one (R301). -/
def imagePlaces (at_ : Nat) : List IndexEntry → List Nat × Nat
  | [] => ([], at_)
  | e :: t =>
    if e.hasSlot then
      let a := (at_ + 15) / 16 * 16
      let (rest, last) := imagePlaces (a + e.streamBytes) t
      (a :: rest, last)
    else
      let (rest, last) := imagePlaces at_ t
      (0 :: rest, last)

/-- An image's header (R301). -/
def imageHeader (d : Desc) (h : Nat) : List Byte :=
  natToBytes 1 d.format ++ natToBytes 1 d.tables ++ natToBytes 1 d.flags ++ natToBytes 1 0 ++ natToBytes 4 d.blocks
    ++ natToBytes 8 h

/-- The entries of a tile. -/
def engEntries (g : Agent) (d : Desc) (first : Nat) : Nat → Nat → EngM (List IndexEntry)
  | 0, _ => pure []
  | n + 1, i => do
    let e ← engEntry g d (first + i)
    pure (e :: (← engEntries g d first n (i + 1)))

/-- The streams of an image checked and written in ordinal order. -/
def imageStreams (g : Agent) (d : Desc) (tok : Nat) :
    List (IndexEntry × Nat) → Nat → List (List Byte) → State → CopyOut × State
  | [], _, acc, s => (.ok acc.reverse.flatten, s)
  | (e, place) :: t, i, acc, s =>
    let stop := fun (f : DecFault) (s : State) => ({ CopyOut.ok acc.reverse.flatten with dec := some (f, i) }, s)
    if e.ok = false then stop ⟨subLength, 0⟩ s
    else if e.hasSlot = false then imageStreams g d tok t (i + 1) acc s
    else
      match runEng (engStream g e) s with
      | (.error x, s) => ({ CopyOut.ok acc.reverse.flatten with stop := some x }, s)
      | (.ok bs, s) =>
        if d.crc ∧ crc16 bs ≠ e.crc then stop ⟨subCrc, e.length⟩ s
        else imageStreams g d tok t (i + 1) (bs :: acc) (s.setCrewBytes tok place bs)

/-- A packed image written to scratchpad (R301); its count is the image's size. -/
def loadImage (g : Agent) (d : Desc) (h c tok off : Nat) (s : State) : CopyOut × State :=
  match runEng (engEntries g d (d.firstBlock c) d.blocks 0) s with
  | (.error e, s) => ({ CopyOut.ok [] with stop := some e }, s)
  | (.ok es, s) =>
    let (places, last) := imagePlaces (off + 16 + 16 * d.blocks) es
    let shown := (es.zip places).map fun (e, p) => if e.hasSlot then { e with slot := p / 16 } else e
    let top := imageHeader d h ++ shown.flatMap IndexEntry.bytes
    let (out, s) := imageStreams g d tok (es.zip places) 0 [top] (s.setCrewBytes tok off top)
    (if out.stop.isNone ∧ out.dec.isNone then { out with count := last - off } else out, s)

/-- A packed load of any type: the descriptor is read at the engine's start (R74, R76). (DESIGN CHOICE: notes/assumptions/141.) -/
def loadPacked (g : Agent) (t : CpyTy) (h c tok off size : Nat) (s : State) : CopyOut × State :=
  match runEng (engDesc g h) s with
  | (.error e, s) => ({ CopyOut.ok [] with stop := some e }, s)
  | (.ok d, s) =>
    if coordOk (tileCounts d.shape d.tile) c = false ∨ size < packedSize t d then
      ({ CopyOut.ok [] with stop := some (.cause 8) }, s)
    else
      match t with
      | .raw => loadImage g d h c tok off s
      | t => expandBlocks g t d c tok off d.blocks 0 [] [] s

/-! ### The copy queues (R302, R303) -/

/-- The end of a copy: its counter, status and queue (R117, R295, R303). -/
def State.endCopy (s : State) (core q : Nat) (e : EngEntry) (out : CopyOut) (arr : Option Nat) (crc : Option Nat) : State :=
  let tok := crewTok e.warp
  let sum := crc32c out.bytes
  let (status, cause) :=
    match out.dec, out.stop with
    | some (f, b), _ => (statusWord 5 out.count (failDetail 1 f.sub f.off b 0), 1)
    | none, some (.cause c) => (failStatus out.write c out.count, c)
    | none, _ => (statusWord (match crc with
        | some x => if x = sum then 0 else 4
        | none => 0) out.count sum, 0)
  let s := match arr with
    | none => s
    | some off => s.changeCounter tok off fun c =>
      let c := c.arrive out.count
      if cause = 0 then c else c.fail cause
  s.finishOp core q e status (cause = 0)

/-- A copy performed, unless it must wait. -/
def State.afterCopy (s : State) (core q : Nat) (e : EngEntry) (r : CopyOut × State) (arr crc : Option Nat) : State :=
  match r.1.stop with
  | none | some (.cause _) => r.2.endCopy core q e r.1 arr crc
  | some x => s.holdOp core q e x

/-- A task's drain through copy queue 0 ends: the step is done when its status is OK; else the task stops there, TRUNCATED with the
cause, after the steps done (R315, R316, R356). (DEDUCED: notes/assumptions/99.) -/
def Engines.drainDone (g : Engines) (num : Nat) (cause : Nat) : Engines :=
  { g with deck := g.deck.map fun t =>
      if t.num = num ∧ t.copies then
        if cause = 0 then { t with copies := false, at_ := t.at_ + 1 }
        else { t with copies := false, ended := some (statusWord 5 t.at_ (failDetail cause 0 0 0 t.at_), none) }
      else t }

/-- The bytes of a drained element: .f32, or rounded to .bf16 (R314). -/
def drainBytes (elem x : Nat) : List Byte :=
  if elem = 9 then natToBytes 4 x
  else natToBytes 2 (convert (.flt .bf16) (.flt .f32) .rne x).val

/-- mdrain.g performed by copy queue 0 (R314): element (e0 = n, e1 = i) of the tile. -/
def State.performDrain (s : State) (core q : Nat) (e : EngEntry) (add : Bool) (recd : List Byte) (coord : Nat)
    (rows : List (List Nat)) (task : Nat) : State :=
  let r := (parseLayout recd).getD default
  let t0 := r.tile.headD 1
  let tes := (List.range (product r.tile)).filter fun te => te / t0 < rows.length
  let src := fun te => (pure (drainBytes r.elem ((rows.getD (te / t0) []).getD (te % t0) 0)) : EngM (List Byte))
  let (out, s') := storePlain (s.agentOf e core) r coord add src tes s
  let ends := fun (cause : Nat) =>
    let s := s'.finishOp core q e 0 false
    (s.setEngs core ((s.engs core).drainDone task cause)).settleFences core
  match out.stop with
  | none => ends 0
  | some (.cause c) => ends c
  | some x => s.holdOp core q e x

/-- COPY_PERFORM: the head of a copy queue performed (R300 to R303). (DEDUCED: notes/assumptions/43.) -/
def execCopyPerform (core q : Nat) (s : State) : Host.Outcome State Fault Refusal :=
  if 4 ≤ q then .next s
  else
    match s.headReady core q with
    | none => .next s
    | some e =>
      let g := s.agentOf e core
      let tok := crewTok e.warp
      match e.op with
      | .load t crc arr recd coord off size ctr expect =>
        let r := ((parseLayout recd).getD default).patched (e.count.map fun n => n * patchUnit (e.patch.getD 0))
        let out := if r.packed then loadPacked g t r.base coord.toNat tok off size s
          else loadElems g r coord.toNat tok off (List.range (product r.tile)) [] s
        .next (s.afterCopy core q e out (if arr then some ctr else none) (if crc then some expect else none))
      | .store add crc arr recd coord off _ ctr expect =>
        let r := ((parseLayout recd).getD default).patched (e.count.map fun n => n * patchUnit (e.patch.getD 0))
        let out := storePlain g r coord.toNat add (fun te => engSpad g tok (off + r.z * te) r.z) (List.range (product r.tile)) s
        .next (s.afterCopy core q e out (if arr then some ctr else none) (if crc then some expect else none))
      | .drain add recd coord rows task => .next (s.performDrain core q e add recd coord.toNat rows task)
      | _ => .next s

/-! ### Bulk transfers (R307, R308) -/

/-- Where a bulk's arrivals go: a counter of this module, another module, or nowhere because it is refused. -/
inductive BulkEnd where
  | none
  | here (tok off : Nat)
  | there (m : Nat)
  | refused
  deriving DecidableEq, Repr, Inhabited

/-- The counter of a bulk, and whether its crew can take the .xd range (R306, R308). Another module verifies a handle itself; a
module that no one holds takes none. (DEDUCED: notes/assumptions/41.) (DEDUCED: notes/assumptions/40.) -/
def State.bulkEnd (s : State) (num : Nat) (xd arr : Bool) (dst n h : Nat) : BulkEnd :=
  if arr = false then .none
  else if handleModule h ≠ s.module_ then
    (if s.peers.get (handleModule h) && !Config.handleRefused num then .there (handleModule h) else .refused)
  else
    match s.handleTarget h with
    | some (tok, off) => if xd ∧ (s.crew tok).size < dst + n then .refused else .here tok off
    | none => .refused

/-- A piece of up to 256 bytes within one page on both sides (R307). -/
def pieceLength (src dst n : Nat) : Nat := Nat.min (Nat.min n 256) (Nat.min (8192 - src % 8192) (8192 - dst % 8192))

/-- A piece's bytes. -/
def bulkRead (g : Agent) (xs : Bool) (tok src n : Nat) : EngM (List Byte) :=
  if xs then engSpad g tok src n else engRead g src n false

/-- A piece for a crew of another module leaves by the link its destination names. -/
def engSend (g : Agent) (m dst n : Nat) : EngM Unit :=
  engCarry g { (default : Xlat) with pa := moduleBase m + dst } n true

/-- A piece written. (DEDUCED: notes/assumptions/41.) -/
def bulkWrite (g : Agent) (xd : Bool) (target : BulkEnd) (dst : Nat) (bs : List Byte) : EngM Unit :=
  if xd then
    match target with
    | .here tok _ => engSpadWrite tok dst bs
    | .there m => engSend g m dst bs.length
    | _ => pure ()
  else engWrite g dst bs false

/-- The pieces of a bulk: bytes written so far. -/
def bulkPieces (g : Agent) (xs xd : Bool) (tok : Nat) (target : BulkEnd) :
    Nat → Nat → Nat → Nat → Nat → State → CopyOut × State
  | 0, _, _, _, done, s => (⟨none, false, none, [], done⟩, s)
  | fuel + 1, src, dst, n, done, s =>
    if n = 0 then (⟨none, false, none, [], done⟩, s)
    else
      let k := pieceLength src dst n
      match runEng (bulkRead g xs tok src k) s with
      | (.error e, s) => (⟨some e, false, none, [], done⟩, s)
      | (.ok bs, s) =>
        match runEng (bulkWrite g xd target dst bs) s with
        | (.error e, s) => (⟨some e, true, none, [], done⟩, s)
        | (.ok _, s) => bulkPieces g xs xd tok target fuel (src + k) (dst + k) (n - k) (done + k) s

/-- The counter of a bulk changed, if it is here. (DEDUCED: notes/assumptions/40.) -/
def State.bulkCounter (s : State) (t : BulkEnd) (f : Counter → Counter) : State :=
  match t with
  | .here tok off => s.changeCounter tok off f
  | _ => s

/-- BULK_PERFORM: the head of the bulk queue performed (R307, R308, R321). (DEDUCED: notes/assumptions/43.) -/
def execBulkPerform (core : Nat) (s : State) : Host.Outcome State Fault Refusal :=
  match s.headReady core 6 with
  | none => .next s
  | some e =>
    match e.op with
    | .bulk xs xd arr src dst len h =>
      let n := bulkLength e len
      let tok := crewTok e.warp
      let target := s.bulkEnd e.num xd arr dst.toNat n h.toNat
      if 0xFF_FFF0 < n then .next (s.finishOp core 6 e (failStatus false 10 0) false)
      else if n = 0 then .next (s.finishOp core 6 e (statusWord 0 0 0) true)
      else if target = .refused ∧ xd then .next (s.finishOp core 6 e (failStatus false 9 0) false)
      else
        let (out, s') := bulkPieces (s.agentOf e core) xs xd tok target (n / 16 + 1) src.toNat dst.toNat n 0 s
        match out.stop with
        | some (.cause c) =>
          let s := s'.bulkCounter target fun x => (x.arrive out.count).fail c
          .next (s.finishOp core 6 e (failStatus out.write c out.count) false)
        | none =>
          let s := s'.bulkCounter target fun x => x.arrive out.count
          .next (if target = .refused then s.finishOp core 6 e (failStatus false 9 out.count) false
            else s.finishOp core 6 e (statusWord 0 out.count 0) true)
        | some x => .next (s.holdOp core 6 e x)
    | _ => .next s

/-- BULK_PIECE_ARRIVAL: a piece from another module reaches a counter's crew (R306, R307); one whose handle is refused, or
whose range leaves the allocation, is dropped. -/
def execBulkPieceArrival (handle : DWord) (xd : Option Nat) (bytes : List Byte) (count : Nat) (s : State) :
    Host.Outcome State Fault Refusal :=
  match (if handleModule handle.toNat = s.module_ then s.handleTarget handle.toNat else none) with
  | none => .next s
  | some (tok, off) =>
    match xd with
    | none => .next (s.changeCounter tok off (Counter.arrive · count))
    | some dst =>
      if (s.crew tok).size < dst + bytes.length then .next s
      else .next ((s.setCrewBytes tok dst bytes).changeCounter tok off (Counter.arrive · count))

/-! ### Code tables (R318) -/

/-- The status of a table operation: valid and complete. -/
def tableStatus (lens : List Nat) : Nat := (if tableValid lens then 2 ^ 8 else 0) + (if tableComplete lens then 2 ^ 9 else 0)

/-- ENCODER_TABLE_OP: a ctload or ctsave at the head of the encoder queue performed (R318). (DEDUCED: notes/assumptions/46.) -/
def execEncoderTableOp (core : Nat) (s : State) : Host.Outcome State Fault Refusal :=
  match s.headReady core 5 with
  | none => .next s
  | some e =>
    let g := s.agentOf e core
    let tok := crewTok e.warp
    let after := fun (r : Except EngStop Unit × State) (status : State → Nat) =>
      match r with
      | (.ok _, s') => s'.finishOp core 5 e (status s') true
      | (.error (.cause c), s') => s'.finishOp core 5 e (failStatus false c 0) false
      | (.error x, _) => s.holdOp core 5 e x
    let lens := fun (s : State) (k : Nat) => slotLengths (s.ctx e.ctx).tables k
    match e.op with
    | .ctload x k a =>
      let act : EngM Unit := do
        let bs ← if x then engSpad g tok a.toNat 128 else engRead g a.toNat 128 false
        modify fun s => s.setCtx e.ctx { s.ctx e.ctx with tables := (s.ctx e.ctx).tables.set k (tableLengths bs) }
      .next (after (runEng act s) (fun s => tableStatus (lens s k)))
    | .ctsave x k a =>
      let bs := tableBytes (lens s k)
      let act : EngM Unit := if x then engSpadWrite tok a.toNat bs else engWrite g a.toNat bs false
      .next (after (runEng act s) (fun s => tableStatus (lens s k)))
    | _ => .next s

/-! ### The update unit (R110, R168 to R174, R319) -/

/-- The class record of a pool header: base, next, limit, freehead (R168). -/
def classRecord (hd : List Byte) (c : Nat) : List Nat := fieldsOf hd (0x20 + 32 * (c - 1)) 8 4

/-- A class record is usable (R168). -/
def recordUsable (r : List Nat) (c : Nat) : Bool :=
  let base := r.getD 0 0
  let next := r.getD 1 0
  let limit := r.getD 2 0
  base % 16 == 0 && next % 16 == 0 && limit % 16 == 0 && base ≤ next && next ≤ limit && (next - base) % classSize c == 0
    && (limit - base) % classSize c == 0

/-- The header keeps its rules (R168). -/
def poolOk (hd : List Byte) : Bool :=
  fieldOf hd 0 2 == 1 && fieldOf hd 2 6 == 0 && fieldOf hd 0x18 8 == 0 && fieldOf hd 0x160 32 == 0

/-- An 8-byte word of the pool header written. -/
def poolWrite (g : Agent) (pool off x : Nat) : EngM Unit := engWrite g (pool + off) (natToBytes 8 x) false

/-- The class that can give a slot, from the fit class up. -/
def poolClass (hd : List Byte) (len : Nat) : Option Nat :=
  ((List.range 11).drop (fitClass len)).find? fun c =>
    let r := classRecord hd c
    recordUsable r c && (r.getD 3 0 != 0 || r.getD 1 0 + classSize c ≤ r.getD 2 0)

/-- allocate_slot (R169): the slot's address and class, or NO_SPACE. (DESIGN CHOICE: notes/assumptions/144.) -/
def allocateSlot (g : Agent) (pool len : Nat) : EngM (Option (Nat × Nat)) := do
  let hd ← engRead g pool 384 false
  match (if poolOk hd then poolClass hd len else none) with
  | none =>
    poolWrite g pool 0x10 ((fieldOf hd 0x10 8 + 1) % 2 ^ 64)
    pure none
  | some c =>
    let r := classRecord hd c
    let at_ := 0x20 + 32 * (c - 1)
    let head := r.getD 3 0
    let next := r.getD 1 0
    let a ← if head ≠ 0 then do
        let link ← engRead g head 8 true
        poolWrite g pool (at_ + 0x18) (bytesToNat link)
        pure head
      else do
        poolWrite g pool (at_ + 8) (next + classSize c)
        pure next
    poolWrite g pool 8 ((fieldOf hd 8 8 + 1) % 2 ^ 64)
    pure (some (a, c))

/-- How an update ends: a status word. -/
inductive Updated where
  | status (x : Nat) (ok : Bool)
  deriving DecidableEq, Repr, Inhabited

/-- kvput's status word after OK (R319). -/
def kvStatus (e : IndexEntry) (fresh : Bool) : Nat :=
  e.length * 2 ^ 8 + e.cls * 2 ^ 32 + e.reuse * 2 ^ 36 + (if fresh then 2 ^ 44 else 0) + e.mode * 2 ^ 45

/-- The slot of a new stream: the old one when it fits, else a new one (R170). An old entry that is inconsistent has no slot, also
where a full write replaces its block unread. (DESIGN CHOICE: notes/assumptions/118.) -/
def chooseSlot (g : Agent) (d : Desc) (old : IndexEntry) (len : Nat) : EngM (Option (Nat × Nat × Bool)) :=
  if old.ok && old.hasSlot && (len + 7) / 8 ≤ classSize old.cls then pure (some (old.addr, old.cls, false))
  else do
    match ← allocateSlot g d.slotpool len with
    | some (a, c) => pure (some (a, c, true))
    | none => pure none

/-- The new stream and entry stored (R110, R170, R174). -/
def storeBlock (g : Agent) (d : Desc) (ord : Nat) (old : IndexEntry) (b : Block) : EngM Updated := do
  let coded := encodeBlock ((← get).ctx g.ctx).tables d.tables b
  let entryAt := d.indexbase + 16 * ord
  let slice := homeSlice (← engXlate g entryAt .write false).pa
  if coded.mode = 3 then
    let e : IndexEntry := ⟨(old.reuse + 1) % 256, 0, 0, 3, 0, 0, coded.const_, true⟩
    engWrite g entryAt e.bytes false
    modify fun s => s.countSlice slice 0x0105 1
    pure (.status (kvStatus e false) true)
  else
    match ← chooseSlot g d old coded.length with
    | none => pure (.status statusNoSpace false)
    | some (a, c, fresh) =>
      engWrite g a coded.bytes true
      let crc := if d.crc then crc16 coded.bytes else 0
      let e : IndexEntry := ⟨(old.reuse + 1) % 256, crc, coded.length, coded.mode, coded.table, c, a / 16, true⟩
      engWrite g entryAt e.bytes false
      modify fun s => (s.countSlice slice 0x0105 1).countSlice slice 0x0106 (if fresh && old.hasSlot then 1 else 0)
      pure (.status (kvStatus e fresh) true)

/-- kvput's update of one block (R110, R172, R319). -/
def updateBlock (g : Agent) (t : FTy) (h c tok off first n : Nat) : EngM Updated := do
  let d ← engDesc g h
  if coordOk (tileCounts d.shape d.tile) c = false ∨ d.size < first + n then throw (.cause 8)
  let bytes ← engSpad g tok (off + 16) (n * (fltBits t / 8))
  let vals := (fieldsOf bytes 0 (fltBits t / 8) n).map (fmtOf t).decode
  let ord := d.firstBlock c + first / 256
  let e ← engEntry g d ord
  if n = 256 then
    storeBlock g d ord e (mergeBlock d c (first / 256) 0 vals default)
  else
    let bs ← engSlot g e
    match decodeBlock ((← get).ctx g.ctx).tables d.tables d.crc e bs with
    | .error f =>
      countBlock g false
      pure (.status (statusWord 5 0 (failDetail 1 f.sub f.off (first / 256) 0)) false)
    | .ok old =>
      countBlock g true
      storeBlock g d ord e (mergeBlock d c (first / 256) (first % 256) vals old)

/-- BLOCK_UPDATE: a kvput at the head of the encoder queue performed (R110, R319). -/
def execBlockUpdate (core : Nat) (s : State) : Host.Outcome State Fault Refusal :=
  match s.headReady core 5 with
  | none => .next s
  | some e =>
    match e.op with
    | .kvput t h coord off first n =>
      match runEng (updateBlock (s.agentOf e core) t h.toNat coord.toNat (crewTok e.warp) off first n) s with
      | (.ok (.status x ok), s') => .next (s'.finishOp core 5 e x ok)
      | (.error (.cause c), s') => .next (s'.finishOp core 5 e (failStatus false c 0) false)
      | (.error x, _) => .next (s.holdOp core 5 e x)
    | _ => .next s

end Sys2Proof.Machine
end

