-- ==== Sys2Proof/Machine/Matrix.lean ====
section
/-! DEFINITION. The matrix deck: the open task buffer, tasks, their steps and their ends (R139 to R141, R312 to R317). -/

namespace Sys2Proof.Machine

open Sys2Proof

/-! ### Building a task (R312, R313) -/

/-- The class of a weight mload; none for mload.acc. -/
def loadClass : MLoad → Option Nat
  | .packed _ | .image _ => some 0
  | .tile t => some (mtyClass t)
  | .acc _ => none

/-- The class of a step's planes, if it has one. -/
def stepClass : DeckOp → Option Nat
  | .load f _ _ => loadClass f
  | .mul _ _ t _ _ => some (mtyClass t)
  | _ => none

/-- The class of the last weight mload of a buffer. -/
def lastWeight (steps : List DeckOp) : Option Nat :=
  steps.foldl (fun c x =>
    match x with
    | .load f _ _ => if (loadClass f).isSome then loadClass f else c
    | _ => c) none

/-- A step added to the open buffer; a 17th faults (R312). -/
def State.addStep (s : State) (i : Instr) (x : DeckOp) : Except Trap State :=
  .ok ((s.upCur fun w => { w with taskBuf := w.taskBuf ++ [x] }).advance i.len)

/-- The buffer is full. -/
def State.bufFull (s : State) : Bool := 16 ≤ s.curWarp.taskBuf.length

/-- A step over a scratchpad range: aligned, inside the own allocation. -/
def State.addSpan (s : State) (i : Instr) (off n : Nat) (x : DeckOp) : Except Trap State :=
  match firstTrap [s.checkAlign off 16, s.checkOwn off n] with
  | some t => .error t
  | none => s.addStep i x

/-- The weight mload's class differs from an earlier one's of the buffer. -/
def State.classClash (s : State) (c : Option Nat) : Bool :=
  match c with
  | none => false
  | some c => s.curWarp.taskBuf.any fun x =>
    match stepClass x with
    | some k => k != c
    | none => false

/-- Tile extents that a packed mload takes (R313). -/
def matTile (tile : List Nat) : Bool :=
  let k := tile.headD 0
  tile == [k, 64, 1, 1, 1] && k % 32 == 0 && 32 ≤ k && k ≤ 192

/-- A descriptor that a packed mload of format `t` takes. -/
def matDesc (t : F8Ty) (d : Desc) : Bool := d.ty == t && matTile d.tile

/-- mload (R312, R313). (DESIGN CHOICE: notes/assumptions/142.) -/
def execMload (f : MLoad) (a b : Operand) (s : State) : Host.Outcome State Fault Refusal :=
  let i : Instr := .mload f a b
  runOp i s fun s =>
    if s.bufFull ∨ s.classClash (loadClass f) then s.illegal
    else
      let off := s.lead32 a
      let step : DeckOp := .load f (BitVec.ofNat 64 off) 0
      match f with
      | .packed t =>
        let h := s.lead64 a
        if h % 128 ≠ 0 then s.illegal
        else
          s.readRecord i.len h 128 none fun s db =>
            match parseDesc db with
            | none => s.illegal
            | some d =>
              if matDesc t d ∧ coordOk (tileCounts d.shape d.tile) (s.lead64 b) then
                s.addStep i (.load f (BitVec.ofNat 64 h) (BitVec.ofNat 64 (s.lead64 b)))
              else s.illegal
      | .tile t => s.addSpan i off (planeBytes t) step
      | .image _ => s.addSpan i off 16 step
      | .acc _ => s.addSpan i off 32768 step

/-- mswap (R312). -/
def execMswap (s : State) : Host.Outcome State Fault Refusal :=
  runOp .mswap s fun s => if s.bufFull then s.illegal else s.addStep .mswap .swap

/-- mmul (R312, R313). -/
def execMmul (m : Nat) (zero : Bool) (t : MTy) (j : Nat) (a : Operand) (s : State) : Host.Outcome State Fault Refusal :=
  let i : Instr := .mmul m zero t j a
  runOp i s fun s =>
    let clash : Bool := match lastWeight s.curWarp.taskBuf with
      | some c => c != mtyClass t
      | none => false
    if s.bufFull ∨ clash then s.illegal
    else s.addSpan i (s.lead32 a) (rowsBytes t m) (.mul m zero t j (s.lead32 a))

/-- A record that mdrain.g takes (R313). -/
def drainRecord (add : Bool) (r : Layout) : Bool :=
  r.packed == false && (r.elem == 9 || (r.elem == 11 && !add)) && r.ilv == 1 && 2 ≤ r.ndim && r.tile.getD 0 1 ≤ 64
    && r.tile.getD 1 1 ≤ 128 && (r.tile.drop 2).all (· == 1)

/-- mdrain (R312, R313). -/
def execMdrain (f : MDrain) (j : Nat) (d a b : Operand) (s : State) : Host.Outcome State Fault Refusal :=
  let i : Instr := .mdrain f j d a b
  runOp i s fun s =>
    let used := usedRows s.curWarp.taskBuf j
    let off := s.lead32 a
    let step := fun (x y : Nat) (r : List Byte) => DeckOp.drain f j d (BitVec.ofNat 64 x) (BitVec.ofNat 64 y) r
    if s.bufFull then s.illegal
    else
      match f with
      | .xf32 => s.addSpan i off (used * 256) (step off 0 [])
      | .xbf16 => s.addSpan i off (used * 128) (step off 0 [])
      | .vreg => if 3 < off then s.illegal else s.addStep i (step off 0 [])
      | .glob | .globAdd =>
        match s.checkAlign (s.lead64 a) 64 with
        | some t => .error t
        | none =>
          s.readRecord i.len (s.lead64 a) 64 none fun s bytes =>
            match parseLayout bytes with
            | none => s.illegal
            | some r =>
              if drainRecord (f == .globAdd) r ∧ coordOk (tileCounts r.shape r.tile) (s.lead64 b) then
                s.addStep i (step (s.lead64 a) (s.lead64 b) bytes)
              else s.illegal

/-- The vector destinations of a task: register and words, one entry per mdrain.v. -/
def taskRegs (steps : List DeckOp) : List (Operand × Nat) :=
  steps.filterMap fun x =>
    match x with
    | .drain .vreg _ d _ _ _ => some (d, 64)
    | _ => none

/-- The input mask names an undefined tag (R313). -/
def State.maskUndefined (s : State) (mask : Nat) : Bool :=
  (List.range 64).any fun t => mask / 2 ^ t % 2 == 1 && !((s.crewOf s.cur.warp).tags.get t).defined

/-- mtask (R313, R315): the buffer goes onto the deck; st and the drains' registers become pending. -/
def execMtask (d a : Operand) (s : State) : Host.Outcome State Fault Refusal :=
  let i : Instr := .mtask d a
  engineOp i s fun s =>
    let w := s.cur.warp
    let x := s.curWarp
    let mask := s.lead64 a
    if x.taskBuf.isEmpty ∨ s.maskUndefined mask then s.illegal
    else
      let core := s.coreOf w
      let n := s.nextOp
      let t : DeckTask :=
        { num := n, warp := w, ctx := s.ctxOf w, st := d, mask := mask, fence := none, steps := x.taskBuf, at_ := 0,
          running := false, begun := false, copies := false, mat := default, hold := none, failed := [], ended := none }
      let g := s.engs core
      let pend := (⟨d, 1, n⟩ : Pending) :: (taskRegs x.taskBuf).map fun (r, k) => ⟨r, k, n⟩
      let s := { s.setEngs core { g with deck := g.deck ++ [t] } with nextOp := n + 1 }
      .ok ((s.upCur fun y => { y with taskBuf := [], pending := y.pending ++ pend }).advance i.len)

/-! ### Hazards and the start of a task (R315, R317) -/

/-- The task drains to global memory. -/
def drainsGlobal (steps : List DeckOp) : Bool :=
  steps.any fun x =>
    match x with
    | .drain .glob .. | .drain .globAdd .. => true
    | _ => false

/-- The task has a packed mload. -/
def loadsPacked (steps : List DeckOp) : Bool :=
  steps.any fun x =>
    match x with
    | .load (.packed _) _ _ => true
    | _ => false

/-- First and last-plus-one vector register of each mdrain.v. (DEDUCED: notes/assumptions/61.) -/
def vregRanges (steps : List DeckOp) : List (Nat × Nat) :=
  (taskRegs steps).filterMap fun (r, k) =>
    match r with
    | .v n => some (n, n + k)
    | _ => none

/-- Two register ranges overlap. -/
def rangesMeet (p q : Nat × Nat) : Bool := p.1 < q.2 && q.1 < p.2

/-- A hazard of a task with an earlier one (R315). -/
def State.hazard (s : State) (early late : DeckTask) : Bool :=
  let es := s.taskSpans early
  let ls := s.taskSpans late
  es.any (fun p => ls.any fun q => p.overlaps q && (p.write || q.write))
    || (early.warp == late.warp
      && (vregRanges early.steps).any fun p => (vregRanges late.steps).any fun q => rangesMeet p q)
    || (drainsGlobal early.steps && loadsPacked late.steps)

/-- Every tag of a mask is full. -/
def State.maskFull (s : State) (tok mask : Nat) : Bool :=
  (List.range 64).all fun t => mask / 2 ^ t % 2 == 0 || ((s.crew tok).tags.get t).full

/-- The task may start: no fence and no hazard before it, its input tags full, its crew resident, an engine free; one that had
started before a save needs only the engine (R317). -/
def State.taskStarts (s : State) (core idx : Nat) : Bool :=
  let deck := (s.engs core).deck
  match deck[idx]? with
  | none => false
  | some t =>
    let before := deck.take idx
    let c := s.crew (crewTok t.warp)
    t.fence.isNone && !t.running && t.ended.isNone && c.live && c.resident && !c.saving
      && (deck.filter (·.running)).length < 4
      && (t.begun || before.all (fun e => e.fence.isNone && !s.hazard e t) && s.maskFull (crewTok t.warp) t.mask)

/-- The next step of a running task may be performed: nothing holds it and its tags are ready (R311). -/
def State.taskGoes (s : State) (t : DeckTask) : Bool :=
  t.running && t.hold.isNone && !t.copies && t.ended.isNone && (s.crew (crewTok t.warp)).live && (s.crew (crewTok t.warp)).resident
    && (t.steps.length ≤ t.at_ || s.tagsReady (s.stepSpans (crewTok t.warp) (t.steps.take t.at_) (t.steps.getD t.at_ .swap)))

/-! ### Planes and sums (R139 to R141, R314) -/

/-- The value of a plane's element without its scale; the planes of a task start all zero. -/
def Plane.value (p : Plane) (i : Nat) : FVal :=
  match p.ty with
  | none => .fin false 0 0
  | some (.f8 t) => f8Decode t (p.w.getD i 0)
  | some .f16 => (fmtOf .f16).decode (p.w.getD i 0)
  | some .bf16 => (fmtOf .bf16).decode (p.w.getD i 0)

/-- The value of an activation's code. -/
def mtyValue (t : MTy) (x : Nat) : FVal :=
  match t with
  | .f8 t => f8Decode t x
  | .f16 => (fmtOf .f16).decode x
  | .bf16 => (fmtOf .bf16).decode x

/-- A sum of products as it builds: a NaN seen, infinities of either sign seen, the finite sum. -/
structure Sum where
  nan : Bool
  pos : Bool
  neg : Bool
  sum : Dy
  deriving DecidableEq, Repr, Inhabited

/-- One product added exactly (R141). (DEDUCED: notes/assumptions/42.) -/
def Sum.add (a : Sum) (x y : FVal) : Sum :=
  match exactMul x y with
  | .nan _ => { a with nan := true }
  | .inf n _ => if n then { a with neg := true } else { a with pos := true }
  | .val p => { a with sum := a.sum.add p }

/-- A group term, scaled by 2^e (R139 to R141). -/
def Sum.term (a : Sum) (e : Int) : FVal :=
  if a.nan || (a.pos && a.neg) then .nan false
  else if a.pos then .inf false
  else if a.neg then .inf true
  else .fin (a.sum.neg && a.sum.m != 0) a.sum.m (a.sum.e + e)

/-- One term added to an accumulator with one rounding to nearest even. -/
def accumulate (acc : Nat) (x : FVal) : Nat :=
  ((exactAdd .rne ((fmtOf .f32).decode acc) x).round (fmtOf .f32) .rne).val

/-- The exact sum over one group of a row and a column. (DEDUCED: notes/assumptions/42.) -/
def groupSum (t : MTy) (p : Plane) (row : List Nat) (n width per k : Nat) : Sum :=
  (List.range width).foldl (fun a i => a.add (mtyValue t (row.getD (k + i) 0)) (p.value (k + i + per * n)))
    ⟨false, false, false, ⟨false, 0, 0⟩⟩

/-- The scale code of a plane's group; a plane not loaded holds zeros. -/
def Plane.scale (p : Plane) (n g : Nat) : Nat := p.sc.getD (6 * n + g) 0

/-- One output element: six groups in ascending k (R139, R140). -/
def dotElem (t : MTy) (p : Plane) (row scales : List Nat) (n acc : Nat) : Nat :=
  (List.range 6).foldl (fun acc g =>
    if mtyClass t = 0 then
      let sa := scales.getD g 0
      let sw := p.scale n g
      let x := groupSum t p row n 32 192 (32 * g)
      accumulate acc ({ x with nan := x.nan || sa == 255 || sw == 255 }.term ((sa : Int) + sw - 254))
    else accumulate acc ((groupSum t p row n 16 96 (16 * g)).term 0)) acc

/-- Row `i` of the activations and its scales (R314). -/
def actRow (t : MTy) (m : Nat) (bs : List Byte) (i : Nat) : List Nat × List Nat :=
  if mtyClass t = 0 then (fieldsOf bs (192 * i) 1 192, fieldsOf bs (192 * (16 * 2 ^ m) + 6 * i) 1 6)
  else (fieldsOf bs (192 * i) 2 96, [])

/-- A row of +0. -/
def zeroRow : List Nat := List.replicate 64 0

/-- mmul's effect on an accumulator (R314). -/
def mulAcc (t : MTy) (m : Nat) (zero : Bool) (p : Plane) (bs : List Byte) (a : Acc) : Acc :=
  let a : Acc := if zero then ⟨[], 0⟩ else a
  let n := 16 * 2 ^ m
  let rows := (List.range n).map fun i =>
    let (row, sc) := actRow t m bs i
    let old := a.rows.getD i zeroRow
    (List.range 64).map fun c => dotElem t p row sc c (old.getD c 0)
  ⟨rows ++ a.rows.drop n, Nat.max a.used n⟩

/-- A plane from plain bytes (R314). -/
def tilePlane (t : MTy) (bs : List Byte) : Plane :=
  if mtyClass t = 0 then { ty := some t, w := fieldsOf bs 0 1 12288, sc := fieldsOf bs 12288 1 384 }
  else { ty := some t, w := fieldsOf bs 0 2 6144, sc := [] }

/-- A plane from the codes and scales of a tile of `kt` rows: element (k, n) is tile element k + kt n (R314). -/
def codesPlane (t : F8Ty) (kt : Nat) (codes scales : List Nat) : Plane :=
  { ty := some (.f8 t)
    w := (List.range 12288).map fun i => if i % 192 < kt then codes.getD (i % 192 + kt * (i / 192)) 0 else 0
    sc := (List.range 384).map fun i => if 32 * (i % 6) < kt then scales.getD (i % 6 + kt / 32 * (i / 6)) 0 else 0 }

/-- An accumulator from 32 KiB (R314). -/
def accOf (bs : List Byte) : Acc := ⟨(List.range 128).map fun i => fieldsOf bs (256 * i) 4 64, 128⟩

/-! ### The steps (R314, R316) -/

/-- A decode fault of a step: its fault, block in the tile, tensor handle and tile coordinate. -/
structure StepFault where
  fault : DecFault
  block : Nat
  handle : DWord
  coord : DWord
  deriving DecidableEq, Repr, Inhabited

/-- The blocks of a packed tile decoded: codes and scales so far. -/
def deckBlocks (g : Agent) (d : Desc) (h c : DWord) :
    Nat → Nat → List Nat → List Nat → EngM (Except StepFault (List Nat × List Nat))
  | 0, _, codes, scales => pure (.ok (codes, scales))
  | n + 1, i, codes, scales => do
    match ← engBlock g d (d.firstBlock c.toNat + i) with
    | .error f => pure (.error ⟨f, i, h, c⟩)
    | .ok b =>
      let b := d.clearBlock c.toNat i b
      deckBlocks g d h c n (i + 1) (codes ++ b.codes) (scales ++ b.scales)

/-- A packed mload: its descriptor read again (R74, R316), its blocks decoded. -/
def loadTensor (g : Agent) (t : F8Ty) (h c : DWord) : EngM (Except StepFault Plane) := do
  let d ← engDesc g h.toNat
  if matDesc t d = false ∨ coordOk (tileCounts d.shape d.tile) c.toNat = false then throw (.cause 8)
  match ← deckBlocks g d h c d.blocks 0 [] [] with
  | .error f => pure (.error f)
  | .ok (codes, scales) => pure (.ok (codesPlane t (d.tile.headD 0) codes scales))

/-- The descriptor that an image's handle names, where it can be read: the shape that says which elements are edge elements (R78). -/
def imageDesc (g : Agent) (h : DWord) (n : Nat) : EngM (Option Desc) := do
  match runEng (engDesc g h.toNat) (← get) with
  | (.ok d, _) => pure (if d.blocks = n then some d else none)
  | (.error _, _) => pure none

/-- The tile that an image holds: a tile of its tensor, which one the header does not say (R301). -/
def Desc.imageTile (d : Desc) (c : DWord) : Nat :=
  ((coordOf c.toNat).zip ((tileCounts d.shape d.tile).zip [0, 20, 36, 48, 56])).foldl (fun acc (x, t, at_) => acc + x % Nat.max t 1 * 2 ^ at_) 0

/-- A block of an image as the decoder delivers it, its edge elements zero (R78). (DESIGN CHOICE: notes/assumptions/38.) -/
def clearImage (d : Option Desc) (c : DWord) (i : Nat) (b : Block) : Block :=
  match d with
  | none => b
  | some d => d.clearBlock (d.imageTile c) i b

/-- The blocks of an image decoded. `permit` and `crc` come from its header. (DESIGN CHOICE: notes/assumptions/38.) -/
def imageDecode (g : Agent) (tok off permit : Nat) (crc : Bool) (d : Option Desc) (h c : DWord) :
    Nat → Nat → List Nat → List Nat → EngM (Except StepFault (List Nat × List Nat))
  | 0, _, codes, scales => pure (.ok (codes, scales))
  | n + 1, i, codes, scales => do
    let e := parseEntry (← engSpad g tok (off + 16 + 16 * i) 16)
    let size := ((← get).crew tok).size
    if e.ok && e.hasSlot && size < e.addr + e.streamBytes then throw (.cause 8)
    let bs ← if e.ok && e.hasSlot then engSpad g tok e.addr e.streamBytes else pure []
    let r := decodeBlock ((← get).ctx g.ctx).tables permit crc e bs
    countBlock g (match r with
      | .ok _ => true
      | .error _ => false)
    match r with
    | .error f => pure (.error ⟨f, i, h, c⟩)
    | .ok b =>
      let b := clearImage d c i b
      imageDecode g tok off permit crc d h c n (i + 1) (codes ++ b.codes) (scales ++ b.scales)

/-- mload.img (R301, R314): the header's format, tables and flags stand for the descriptor's. An image of another format,
of a block count no weight tile has, or that leaves the allocation is cause 8. (DESIGN CHOICE: notes/assumptions/31.) (DESIGN CHOICE: notes/assumptions/38.) -/
def loadImagePlane (g : Agent) (t : F8Ty) (tok off : Nat) (c : DWord) : EngM (Except StepFault Plane) := do
  let hd ← engSpad g tok off 16
  let fmt := fieldOf hd 0 1
  let nb := fieldOf hd 4 4
  let ty : F8Ty := ⟨fmt % 8, fmt / 8 % 2 == 1, fmt / 16 % 2 == 1⟩
  if ty ≠ t ∨ 32 ≤ fmt ∨ nb % 8 ≠ 0 ∨ nb = 0 ∨ 48 < nb ∨ ((← get).crew tok).size < off + 16 + 16 * nb then throw (.cause 8)
  let h := BitVec.ofNat 64 (fieldOf hd 8 8)
  match ← imageDecode g tok off (fieldOf hd 1 1) (fieldOf hd 2 1 % 2 == 1) (← imageDesc g h nb) h c nb 0 [] [] with
  | .error f => pure (.error f)
  | .ok (codes, scales) => pure (.ok (codesPlane t (4 * nb) codes scales))

/-- Vector registers written by mdrain.v: lane l of v(B + n) gets row 32 rb + l, column n; a lane that exited gets nothing
(R230, R314). -/
def Warp.drainRows (w : Warp) (base rb : Nat) (a : Acc) : Warp :=
  (lanesOf w.liveLanes).foldl (fun w l =>
    let i := 32 * rb + l
    let row := if i < a.used then a.rows.getD i zeroRow else zeroRow
    (List.range 64).foldl (fun w n => w.setV (base + n) l (BitVec.ofNat 32 (row.getD n 0))) w) w

/-- The first pending write of a register by an operation taken out. -/
def dropPending (num : Nat) (r : Operand) : List Pending → List Pending
  | [] => []
  | p :: t => if p.num = num ∧ p.reg = r then t else p :: dropPending num r t

/-- mdrain.v's write, if it still stands pending. (DEDUCED: notes/assumptions/61.) -/
def State.drainV (s : State) (w num rb : Nat) (d : Operand) (a : Acc) : State :=
  let x := s.warp w
  match d with
  | .v n =>
    if x.pending.any fun p => p.num == num ∧ p.reg == d then
      s.setWarp w { x.drainRows n rb a with pending := dropPending num d x.pending }
    else s
  | _ => s

/-- The bytes that mdrain.x writes. -/
def drainX (f : MDrain) (a : Acc) : List Byte :=
  ((List.range a.used).flatMap fun i => a.rows.getD i zeroRow).flatMap fun x => drainBytes (if f = .xbf16 then 11 else 9) x

/-- What a step does: a new engine state, or a copy handed to copy queue 0. -/
inductive StepOut where
  | go (m : MatState)
  | copy (add : Bool) (recd : List Byte) (coord : DWord) (rows : List (List Nat))
  | fault (f : StepFault)
  deriving Repr, Inhabited

/-- A loaded plane put into the shadow plane. -/
def shadowed (m : MatState) : Except StepFault Plane → StepOut
  | .ok p => .go { m with shadow := p }
  | .error f => .fault f

/-- One step of a task on its engine (R314). -/
def deckStep (g : Agent) (t : DeckTask) (x : DeckOp) : EngM StepOut := do
  let tok := crewTok t.warp
  let m := t.mat
  match x with
  | .load (.packed ty) h c => pure (shadowed m (← loadTensor g ty h c))
  | .load (.tile ty) a _ => pure (.go { m with shadow := tilePlane ty (← engSpad g tok a.toNat (planeBytes ty)) })
  | .load (.image ty) a _ =>
    pure (shadowed m (← loadImagePlane g ty tok a.toNat (Config.imageCoord (16 * t.num + t.at_))))
  | .load (.acc j) a _ => pure (.go { m with accs := m.accs.set j (accOf (← engSpad g tok a.toNat 32768)) })
  | .swap => pure (.go { m with active := m.shadow, shadow := m.active })
  | .mul k zero ty j a =>
    let bs ← engSpad g tok a (rowsBytes ty k)
    pure (.go { m with accs := m.accs.set j (mulAcc ty k zero m.active bs (m.accs.get j)) })
  | .drain f j d a b recd =>
    let acc := m.accs.get j
    match f with
    | .xf32 | .xbf16 =>
      engSpadWrite tok a.toNat (drainX f acc)
      pure (.go m)
    | .vreg =>
      modify fun s => s.drainV t.warp t.num a.toNat d acc
      pure (.go m)
    | .glob => pure (.copy false recd b (acc.rows.take acc.used))
    | .globAdd => pure (.copy true recd b (acc.rows.take acc.used))

/-! ### Running and ending (R315 to R317) -/

/-- A task of a deck changed. -/
def State.setTask (s : State) (core : Nat) (t : DeckTask) : State :=
  let g := s.engs core
  s.setEngs core { g with deck := g.deck.map fun u => if u.num = t.num ∧ u.fence.isNone then t else u }

/-- The status of a task stopped by a cause code at its step: the count is the steps done (R316, R356). (DEDUCED: notes/assumptions/99.) -/
def stopStatus (t : DeckTask) (cause : Nat) : Nat := statusWord 5 t.at_ (failDetail cause 0 0 0 t.at_)

/-- The deferred DECODE_FAULT of a task (R178, R316, R331). -/
def taskTrap (t : DeckTask) (f : StepFault) : Trap :=
  { cause := causeDecodeFault, sub := f.fault.sub, addr := f.handle, coord := some f.coord, deferred := true,
    bitoff := f.fault.off % 2 ^ 12, block := f.block % 2 ^ 8, step := t.at_ % 16 }

/-- A drain's copy put into copy queue 0, when there is room (R294, R314). -/
def State.pushDrain (s : State) (core : Nat) (t : DeckTask) (op : EngOp) : Option State :=
  let g := s.engs core
  let flow := ([0, 1, 2, 3, 6].map g.count).sum
  if g.count 0 < queueRoom 0 ∧ flow < 128 then
    let e : EngEntry :=
      { num := s.nextOp, since := s.cycle, warp := t.warp, ctx := t.ctx, st := .z, patch := none, count := none, hold := none, begun := false,
        failed := [], op := op }
    some { s.setEngs core (g.setList 0 (g.list 0 ++ [e])) with nextOp := s.nextOp + 1 }
  else none

/-- One step of a running task performed: the task goes on, ends, or waits; the flag says whether its next step may follow. (DEDUCED: notes/assumptions/99.) -/
def State.stepTask (s : State) (core : Nat) (t : DeckTask) : State × DeckTask × Bool :=
  let put := fun (s : State) (t : DeckTask) (more : Bool) => (s.setTask core t, t, more)
  if t.steps.length ≤ t.at_ then put s { t with ended := some (statusWord 0 t.steps.length 0, none) } false
  else
    let tok := crewTok t.warp
    let x := t.steps.getD t.at_ .swap
    let wait := fun (t : DeckTask) => { t with hold := some 0 }
    match runEng (deckStep ⟨core, t.ctx, t.failed, some t.walked, s.lateSince t.ctx t.linkSince⟩ t x) s with
    | (.ok (.go m), s') =>
      put (s'.tagsDone (s.taskSpans t) (s.stepSpans tok (t.steps.take t.at_) x) (s.spansFrom t (t.at_ + 1)))
        { t with mat := m, at_ := t.at_ + 1, linkSince := none } true
    | (.ok (.copy add recd coord rows), s') =>
      (match s'.pushDrain core t (.drain add recd coord rows t.num) with
        | some s' => put s' { t with copies := true } false
        | none => put s (wait t) false)
    | (.ok (.fault f), s') =>
      put s' { t with ended := some (statusWord 5 t.at_ (failDetail 1 f.fault.sub f.fault.off f.block t.at_), some (taskTrap t f)) } false
    | (.error (.cause c), s') => put s' { t with ended := some (stopStatus t c, none) } false
    | (.error (.hold va kind), _) =>
      (match s.hold t.ctx va kind core true with
        | some (s, n) => put s { t with hold := some n } false
        | none => put s (wait t) false)
    | (.error (.miss va kind), _) =>
      let (s, noted) := s.engMiss core t.ctx va kind
      put s (wait (if noted then { t with walked := dedup (va / 8192 :: t.walked) } else t)) false
    | (.error .wait, _) => put s (wait { t with linkSince := some (t.linkSince.getD s.cycle) }) false

/-- Steps of a running task until one must wait or the task ends. -/
def State.runTask (s : State) (core : Nat) (t : DeckTask) : Nat → State
  | 0 => s
  | n + 1 =>
    if s.taskGoes t then
      match s.stepTask core t with
      | (s, t, true) => s.runTask core t n
      | (s, _, false) => s
    else s

/-- DECK_TASK_START (R312, R315, R317): a task takes a free engine, with the engine state it holds (all planes and accumulators
zero before its first step), or goes on at the step where it waited. -/
def execDeckTaskStart (core idx : Nat) (s : State) : Host.Outcome State Fault Refusal :=
  match ((s.engs core).deck)[idx]? with
  | none => .next s
  | some t =>
    let n := t.steps.length + 1
    if s.taskStarts core idx then
      let t := { t with running := true, begun := true, hold := none }
      .next ((s.setTask core t).runTask core t n)
    else if s.taskGoes t then .next (s.runTask core t n)
    else .next s

/-- DECK_TASK_COMPLETE (R315, R316): the status is written, registers of drains not reached are pending no more, and a decode
fault waits for the read of the status; a warp that has ended reports it in its crew's failure. -/
def execDeckTaskComplete (core idx : Nat) (s : State) : Host.Outcome State Fault Refusal :=
  match ((s.engs core).deck)[idx]? with
  | none => .next s
  | some t =>
    match t.ended with
    | none => .next s
    | some (status, trap) =>
      let g := s.engs core
      let s := s.setEngs core { g with deck := g.deck.eraseIdx idx }
      let bound := (s.warp t.warp).pending.any fun p => p.num == t.num && p.reg == t.st
      let s := s.writeEngStatus t.warp t.st t.num status
      let x := s.warp t.warp
      let x := { x with pending := x.pending.filter fun p => p.num != t.num }
      let s := match trap, t.st with
        | some f, .s n =>
          if bound then s.setWarp t.warp { x with deckFaults := x.deckFaults.set n f }
          else (s.setWarp t.warp x).failCrew (crewTok t.warp) (s.failureTrap t.warp f)
        | _, _ => s.setWarp t.warp x
      .next ((s.emptyL1 core).settleFences core)

end Sys2Proof.Machine
end

