-- ==== Sys2Proof/Machine/Responses.lean ====
section
/-! DEFINITION. Answers to requests that left the module: responses, acknowledgements, timeouts, retired tags
(R97, R98, R115, R116, R271, R439, R440). -/

namespace Sys2Proof.Machine

open Sys2Proof

/-! ### The end of a request -/

/-- A port whose drain has no request left becomes drained and answers its command (R440). -/
def State.drainCheck (s : State) (port : Nat) : State :=
  let p := s.ports.get port
  if p.state = 3 ∧ (s.reqs.all fun r => r.2.port != port || r.2.tag == none) then
    let s := { s with ports := s.ports.set port { p with state := 4, drain := none } }
    let s := s.post (eventMsg 1 0xC5 0 (natToBytes 1 port ++ natToBytes 1 4 ++ natToBytes 1 s.module_ ++ natToBytes 5 0))
    match p.drain with
    | some h => s.reply h 0x70 0 []
    | none => s
  else s

/-- A wait for the remote-store counter. -/
def Wait.onStores : Wait → Bool
  | .fence => true
  | _ => false

/-- A store that waits for room under the counter. -/
def Wait.onRoom : Wait → Bool
  | .room none => true
  | _ => false

/-- A warp whose counter went down: fences and releases go on at zero, blocked stores when there is room (R97, R292). -/
def State.settleStores (s : State) (w : Nat) : State :=
  let x := s.warp w
  let n := s.outstanding w
  let x := if n = 0 then x.retry s.cycle (x.waiting Wait.onStores) else x
  s.setWarp w (if n < 256 then x.retry s.cycle (x.waiting Wait.onRoom) else x)

/-- A request leaves the table. -/
def State.dropReq (s : State) (id : Nat) : State :=
  let r := s.reqs.get id
  (({ s with reqs := s.reqs.del id }).drainCheck r.port).settleStores r.warp

/-- The request's response can come: it left on a port that is up or draining and was not discarded (R438, R439). (DESIGN CHOICE: notes/assumptions/12.) -/
def Req.open_ (s : State) (r : Req) : Bool :=
  r.tag != none && !r.discarded && (r.port == slicePort || (s.ports.get r.port).state == 2 || (s.ports.get r.port).state == 3)

/-- An earlier write of the module to some of the bytes is not yet answered: a request is performed behind it (R87, R95, R105). -/
def State.behindWrite (s : State) (id : Nat) (r : Req) : Bool :=
  s.reqs.any fun p => p.1 < id && p.2.writes && p.2.pa < r.pa + r.size && r.pa < p.2.pa + p.2.size

/-- A request's answer is there in this cycle: its performer can give it, and it is not lost on the way (R115, R121, R439). (DESIGN CHOICE: notes/assumptions/12.) -/
def State.answers (s : State) (id : Nat) (r : Req) : Bool := r.open_ s && !s.silent.get r.port && !s.behindWrite id r

/-! ### What the other side does -/

/-- The request performed at its landing or module: memory after it, and each lane's old value or error (R92, R424). -/
def State.performReq (s : State) (r : Req) : State × Got :=
  let s := s.countServed r.pa
  match r.kind with
  | .load =>
    let s := s.logReads r.ctx r.bytes (r.ops.filter fun o => s.readBad o.pa r.bytes)
    let g := r.ops.foldl (fun (g : Got) o =>
      if s.readBad o.pa r.bytes then { g with faults := g.faults ++ [⟨causeMemoryUncorrectable, o.va, laneBit o.lane, 0⟩] }
      else { g with vals := g.vals.set o.lane (bytesToNat (s.readPhys o.pa r.bytes)) }) ⟨[], []⟩
    (s, g)
  | .store => ((r.ops.foldl (fun s o => s.storePhys r.ctx o.pa o.va (natToBytes r.bytes o.b)) s).wroteWhole r.ops r.bytes, ⟨[], []⟩)
  | .atom op ty _ => s.atomLanes op ty r.bytes r.ctx ⟨[], []⟩ r.ops
  | _ => (s, ⟨[], []⟩)

/-! ### Delivery to waiting lanes (R271) -/

/-- The wait of a request's lanes. -/
def State.memWaiter (s : State) (id : Nat) (r : Req) : Option (WaitRec × MemWait) :=
  (s.warp r.warp).waits.findSome? fun rec_ =>
    match rec_.wait with
    | .mem m => if m.reqs.contains id then some (rec_, m) else none
    | _ => none

/-- An answer delivered: the instruction completes when it was the last. -/
def State.deliver (s : State) (id : Nat) (r : Req) (g : Got) : State :=
  match s.memWaiter id r with
  | none => s
  | some (rec_, m) =>
    let m' := { m with
      reqs := m.reqs.filter (· != id), got := m.got ++ g.vals, faults := m.faults ++ g.faults,
      some_ := m.some_ || !g.vals.isEmpty }
    if m'.reqs.isEmpty then s.finishMem r.warp rec_ { m' with got := sortBy (·.1) m'.got }
    else
      let x := s.warp r.warp
      s.setWarp r.warp { x with waits := x.waits.map fun y => if y == rec_ then { rec_ with wait := .mem m' } else y }

/-- All lanes of a request failed with a cause, at the landing of the port that carried it (R55, R331). -/
def Req.fault (r : Req) (cause : Nat) : AccessFault := ⟨cause, lowestVa r.ops, opLanes r.ops, r.port⟩

/-- Such a failure as an answer. -/
def reqFault (r : Req) (cause : Nat) : Got := ⟨[], [r.fault cause]⟩

/-- A late response is dropped and counted (R439). (DEDUCED: notes/assumptions/30.) -/
def State.lateResponse (s : State) (id : Nat) : State :=
  match s.late.find id with
  | none => s
  | some port =>
    let p := s.ports.get port
    (({ s with late := s.late.del id, ports := s.ports.set port { p with late := p.late + 1 } }).countLink port 0x0205 1)

/-- A response arrives (R271): a load's or an atomic's lanes get their values or a fault. -/
def execMemoryResponse (id : Nat) (s : State) : Host.Outcome State Fault Refusal :=
  match s.reqs.find id with
  | none => .next (s.lateResponse id)
  | some r =>
    let ret := match r.kind with
      | .load => true
      | .atom _ _ ret => ret
      | _ => false
    if ret = false ∨ r.open_ s = false ∨ s.behindWrite id r then .next s
    else
      match s.fabricFault r.ctx r.pa r.size (r.writes) with
      | some c => .next ((s.deliver id r (reqFault r c)).dropReq id)
      | none =>
        let (s, g) := s.performReq r
        let s := if r.home = 0 ∧ r.kind = .load then s.fillL1 (s.coreOf r.warp) r.pa r.size true else s
        .next ((s.deliver id r g).dropReq id)

/-- A remote store's failure recorded in its warp's indicator (R98, R269). -/
def State.recordStore (s : State) (r : Req) (cause : Nat) : State :=
  if (s.warp r.warp).live then
    s.setWarp r.warp ((s.warp r.warp).recordRemote ⟨cause, lowestVa r.ops, r.port⟩)
  else s

/-- A request without response ends: it leaves the warp's count, L1 keeps no byte older than it, and lanes that acquire through it
go on (R87, R93, R95, R97). -/
def State.endStore (s : State) (id : Nat) (r : Req) : State :=
  ((s.dropL1 (s.coreOf r.warp) r.pa r.size).deliver id r ⟨[], []⟩).dropReq id

/-- A store's acknowledgement (R97): performed; a miss at the landing is recorded (R269). -/
def execRemoteStoreAck (id : Nat) (s : State) : Host.Outcome State Fault Refusal :=
  match s.reqs.find id with
  | none => .next (s.lateResponse id)
  | some r =>
    let store := match r.kind with
      | .store => true
      | .atom _ _ ret => !ret
      | _ => false
    if store = false ∨ r.open_ s = false ∨ s.behindWrite id r then .next s
    else
      match s.fabricFault r.ctx r.pa r.size true with
      | some c => .next ((s.recordStore r c).endStore id r)
      | none => .next ((s.performReq r).1.endStore id r)

/-- A request that timed out: performed before that or never (never, if it had not left its port), its tag retired for twice fabrictimeout (R115, R439, R445). -/
def State.timedOut (s : State) (id : Nat) (r : Req) (performed : Bool) : State :=
  let s := if performed ∧ r.tag.isSome ∧ r.discarded = false ∧ s.fabricFault r.ctx r.pa r.size r.writes = none then (s.performReq r).1 else s
  let p := s.ports.get r.port
  let p := match r.tag with
    | some t => { p with retired := p.retired.set t (s.cycle + 2 * s.fabricLimit r.ctx) }
    | none => p
  ({ s with ports := s.ports.set r.port p, late := s.late.set id r.port }).countLink r.port 0x0204 1

/-- A remote store's response timeout (R98); an acknowledgement that is there in the same cycle wins (R121). -/
def execRemoteStoreTimeout (id : Nat) (performed : Bool) (s : State) : Host.Outcome State Fault Refusal :=
  match s.reqs.find id with
  | none => .next s
  | some r =>
    let store := match r.kind with
      | .store => true
      | .atom _ _ ret => !ret
      | _ => false
    if store = false ∨ s.cycle < r.deadline then .next s
    else if s.answers id r then
      match s.fabricFault r.ctx r.pa r.size true with
      | some c => .next ((s.recordStore r c).endStore id r)
      | none => .next ((s.performReq r).1.endStore id r)
    else .next (((s.timedOut id r performed).recordStore r causeFabricTimeout).endStore id r)

/-- The carried deadline ran out at the performer: the request is discarded unperformed (R439). -/
def execRequestDeadlineExpiry (id : Nat) (s : State) : Host.Outcome State Fault Refusal :=
  match s.reqs.find id with
  | none => .next s
  | some r =>
    if s.cycle + 10 * Config.cyclesPerUs < r.deadline then .next s
    else .next { s with reqs := s.reqs.set id { r with discarded := true } }

/-- A retired tag may be used again (R445). (DEDUCED: notes/assumptions/30.) -/
def execRetiredTagReuse (port tag : Nat) (s : State) : Host.Outcome State Fault Refusal :=
  let p := s.ports.get port
  match p.retired.find tag with
  | none => .next s
  | some c =>
    if s.cycle < c then .next s
    else .next (({ s with ports := s.ports.set port { p with retired := p.retired.del tag } }).sendWaiting)

end Sys2Proof.Machine
end

