-- ==== Sys2Proof/Machine/Tickets.lean ====
section
/-! DEFINITION. Tickets: their tables, ldt, redeem, tkdrop and tkstat, and the tables' own steps (R79, R105 to R109,
R278 to R285, R292). -/

namespace Sys2Proof.Machine

open Sys2Proof

/-! ### Tables and entries (R79, R278, R279) -/

/-- The ticket table of an address (R79). -/
def State.tableOf (s : State) (x : Xlat) : Nat :=
  match regionOf x.pa with
  | .slice n _ => n
  | .core n _ => n % 64
  | .hbm => homeSlice x.pa
  | _ => 64 + s.namedPort x.pa

/-- Entries of a table, and its staging room in 16-byte units (R278, R279). -/
def tableEntries (table : Nat) : Nat := if table < 64 then 4096 else 2048
def tableUnits (table : Nat) : Nat := if table < 64 then 0x8_0000 / 16 else 0x4_0000 / 16

/-- The number of an entry in the state's table. -/
def entryKey (table entry : Nat) : Nat := table * 4096 + entry

/-- Staging units of an entry. -/
def TicketEntry.units (e : TicketEntry) : Nat := if e.state = 0 then 0 else (e.bytes + 15) / 16

/-- Units in use in a table. -/
def State.usedUnits (s : State) (table : Nat) : Nat :=
  ((s.tickets.filter fun p => p.1 / 4096 == table).map fun p => p.2.units).sum

/-- The lowest free entry from `i`, looking at `n` entries. (DESIGN CHOICE: notes/assumptions/25.) -/
def State.freeFrom (s : State) (table : Nat) : Nat → Nat → Option Nat
  | 0, _ => none
  | n + 1, i => if (s.tickets.get (entryKey table i)).state = 0 then some i else s.freeFrom table n (i + 1)

/-- A free entry for a ticket of `bytes` bytes, unless the table is full (R279). (DESIGN CHOICE: notes/assumptions/25.) -/
def State.freeEntry (s : State) (table bytes : Nat) : Option Nat :=
  if s.usedUnits table + (bytes + 15) / 16 ≤ tableUnits table then s.freeFrom table (tableEntries table) 0 else none

/-- A ticket's bits below its check (R278). -/
def ticketLow (module_ ctx reuse entry table : Nat) (block : Bool) : Nat :=
  1 + module_ % 64 * 2 ^ 2 + (if block then 2 ^ 8 else 0) + table * 2 ^ 9 + entry * 2 ^ 16 + reuse * 2 ^ 28 + ctx * 2 ^ 36

/-- A ticket with its keyed check (R278). -/
def ticketOf (key module_ ctx reuse entry table : Nat) (block : Bool) : Nat :=
  let low := ticketLow module_ ctx reuse entry table block
  low + (Config.ticketCheck key low).toNat * 2 ^ 48

/-- A ticket's fields (R278). -/
def tkEntry (t : Nat) : Nat := bits t 27 16
def tkTable (t : Nat) : Nat := bits t 15 9
def tkReuse (t : Nat) : Nat := bits t 35 28
def tkKey (t : Nat) : Nat := entryKey (tkTable t) (tkEntry t)

/-- An entry freed: its reuse count advances and keeps the end reason (R279). -/
def TicketEntry.free (e : TicketEntry) (spent : Bool) : TicketEntry :=
  { e with reuse := (e.reuse + 1) % 256, state := 0, spent := spent, parts := [], data := [], err := none, reqs := [] }

/-- A wait for room in a ticket table. -/
def Wait.onTable (table : Nat) : Wait → Bool
  | .room (some g) => g.table == table
  | _ => false

/-- A wait for a ticket of an entry. -/
def Wait.onTicket (key : Nat) : Wait → Bool
  | .redeem t .. => tkKey t.toNat == key
  | _ => false

/-- The waits of a kind of resident crews, a lower core number first, then a lower warp: the order in which their requests stand at a
table (R121, R292). -/
def State.waitersOf (s : State) (f : Wait → Bool) : List (Nat × WaitRec) :=
  let ws := (s.warps.filter fun p => p.2.live && (s.crewOf p.1).resident && p.2.waits.any fun r => f r.wait).map (·.1)
  (sortBy s.coreOf ws).flatMap fun w => ((s.warp w).waits.filter fun r => f r.wait).map fun r => (w, r)

/-- A redeem of the entry is blocked at its table (R106, R108). -/
def State.redeemBlocked (s : State) (key : Nat) : Bool := !(s.waitersOf (Wait.onTicket key)).isEmpty

/-! ### Issuing (R280) -/

/-- The requests of a gather that leave the module, sent for its entry (R72, R439); none when a landing is lost. -/
def State.sendGather (s : State) (ctx key : Nat) : List GatherPart → Option State
  | [] => some s
  | p :: t =>
    if isRemote p.pa then
      match s.carrier p.pa with
      | none => none
      | some port =>
        let r : Req :=
          { kind := .ticket key, warp := noWarp, ctx := ctx, va := p.va, pa := p.pa, size := p.size, bytes := 0, home := p.home,
            ops := p.ops, port := port, tag := none, deadline := s.cycle + s.fabricLimit ctx, discarded := false }
        let e := s.tickets.get key
        (({ s with tickets := s.tickets.set key { e with reqs := e.reqs ++ [s.nextReq] } }).send r).sendGather ctx key t
    else s.sendGather ctx key t

/-- The requests of an entry leave the table of requests. -/
def State.dropReqs (s : State) (ids : List Nat) : State := ids.foldl (fun s id => s.dropReq id) s

/-- An entry freed, as spent or as expired (R279). -/
def State.endTicket (s : State) (key : Nat) (spent : Bool) : State :=
  let e := s.tickets.get key
  let s := ({ s with tickets := s.tickets.set key (e.free spent) }).dropReqs e.reqs
  if spent then s else s.countSlice (key / 4096) 0x0104 1

/-- A ticket issued on a table with room for lanes of a warp: the entry becomes pending, the lanes get the ticket; a read that must
leave the module is sent, and one whose landing is lost expires at once (R72, R280). Its life counts from here, the allocation, also for
lanes that were blocked at a full table. (DESIGN CHOICE: notes/assumptions/138.) -/
def State.issueTicket (s : State) (w : Nat) (lanes : LaneSet) (entry : Nat) (g : Gather) : State :=
  let ctx := s.ctxOf w
  let key := entryKey g.table entry
  let e := s.tickets.get key
  let t := ticketOf s.key s.module_ ctx e.reuse entry g.table g.block
  let life := (s.ctx ctx).ticketlife.toNat * Config.cyclesPerUs
  let e := { e with
    state := 1, ctx := ctx, block := g.block, deadline := s.cycle + life, lanes := lanes, width := g.width,
    parts := g.parts.flatMap (·.ops), bytes := g.bytes, err := none, data := [], reqs := [] }
  let s := (s.setWarp w ((s.warp w).writeLanes lanes 2 g.d fun _ => t)).countSlice g.table 0x0103 1
  let s := { s with tickets := s.tickets.set key e }
  match s.sendGather ctx key g.parts with
  | some s => s
  | none => s.endTicket key false

/-- The ldts blocked on a table take the entries that are free, a lower core number first; they are released in the next cycle
(R280, R292). -/
def State.wakeRoom (s : State) (table : Nat) : State :=
  (s.waitersOf (Wait.onTable table)).foldl (fun s p =>
    match p.2.wait with
    | .room (some g) =>
      (match s.freeEntry table g.bytes with
        | some entry =>
          let s := s.issueTicket p.1 p.2.lanes entry g
          s.setWarp p.1 ((s.warp p.1).release s.cycle p.2 p.2.lanes)
        | none => s)
    | _ => s) s

/-- The end of an ldt: a full table blocks it, or gives ldt.try the null ticket (R280). -/
def State.ldtOn (s : State) (len : Nat) (try_ : Bool) (g : Gather) : State :=
  match s.freeEntry g.table g.bytes with
  | some entry => (s.issueTicket s.cur.warp s.cur.lanes entry g).advance len
  | none => if try_ then (s.writeRes 2 g.d fun _ => 0).advance len else s.block len (.room (some g))

/-- A translated request as a part of a gather. -/
def Part.gather (p : Part) : GatherPart := { va := p.va, pa := p.x.pa, size := p.size, home := p.x.home, ops := p.ops }

/-- ldt of a lane ticket (R280). -/
def execLdt (try_ : Bool) (w : Width) (d a : Operand) (s : State) : Host.Outcome State Fault Refusal :=
  let i : Instr := .ldt try_ w d a
  runOp i s fun s =>
    let ops := s.laneOps false a none (fun _ => 0) fun _ => 0
    s.globalAccess i.len w.bytes .read ops fun s parts =>
      match dedup (parts.map fun p => s.tableOf p.x) with
      | [table] =>
        .ok (s.ldtOn i.len try_
          { table := table, block := false, width := w, bytes := laneCount s.cur.lanes * w.bytes, parts := parts.map Part.gather, d := d })
      | _ => .error (s.mkTrap causeIllegalOperand)

/-- The tables that the bytes of a block need: in a remote window each 256-byte granule goes by a port of its own (R72); elsewhere the
first byte's is the block's (R79). -/
def State.blockTables (s : State) (x : Xlat) (n : Nat) : List Nat :=
  match regionOf x.pa with
  | .remote .. => dedup ((List.range ((x.pa + n - 1) / 256 + 1 - x.pa / 256)).map fun k => s.namedPort (256 * (x.pa / 256 + k)))
  | _ => [s.tableOf x]

/-- What class 4 finds at an address of a block (R267). -/
def State.blockFault (s : State) (all : Nat → List LaneOp) (p : Nat × Xl) : Option Trap :=
  match p.2 with
  | .fault c => some (s.lanesTrap c (all p.1))
  | .ok x => if x.packed then some (s.lanesTrap causePackedAccess (all p.1)) else none
  | .miss => none

/-- ldt of a block ticket (R280): class 1 checks, alignment, range, the translation of every page that it touches, then the one-page
rule (R267). -/
def execLdtBlock (try_ : Bool) (d a b : Operand) (s : State) : Host.Outcome State Fault Refusal :=
  let i : Instr := .ldtBlock try_ d a b
  runOp i s fun s =>
    let n := s.lead32 b
    let va := s.lead64 a
    let all := fun (va : Nat) => (lanesOf s.cur.lanes).map fun l => ({ lane := l, va := va, pa := 0, b := 0, c := 0 } : LaneOp)
    if s.same64 a = false ∨ s.same32 b = false ∨ n < 16 ∨ 4096 < n ∨ n % 16 ≠ 0 then .error (s.mkTrap causeIllegalOperand)
    else if va % 16 ≠ 0 then .error (s.lanesTrap causeMisaligned (all va))
    else if 2 ^ 53 < va + n then .error (s.lanesTrap causeProtection (all va))
    else
      let last := (va + n - 1) / 8192 * 8192
      let pages := (if last ≤ va then [va] else [va, last]).map fun v => (v, s.xlateWarp s.cur.warp v .read)
      let missing := pages.filter fun p => p.2 == .miss
      match missing.map (·.1), pages.findSome? (s.blockFault all), s.xlateWarp s.cur.warp va .read with
      | v :: vs, _, _ => .ok (s.waitWalk i.len (v :: vs) .read)
      | [], some t, _ => .error t
      | [], none, .miss | [], none, .fault _ => .ok s
      | [], none, .ok x =>
        let s := s.spendWalk
        if s.beforeSwing x then .ok (s.waitWalk i.len [va] .read)
        else if va / 2 ^ x.bits ≠ (va + n - 1) / 2 ^ x.bits ∨ (s.blockTables x n).length ≠ 1 then .error (s.mkTrap causeIllegalOperand)
        else
          let part : LaneOp := { lane := 0, va := va, pa := x.pa, b := 0, c := 0, mig := x.mig }
          .ok (s.ldtOn i.len try_
            { table := s.tableOf x, block := true, width := .n8, bytes := n,
              parts := [{ va := va, pa := x.pa, size := n, home := x.home, ops := [part] }], d := d })

/-! ### The owner's read (R105, R108) -/

/-- The bytes of one part of a ticket's read. -/
def TicketEntry.partBytes (e : TicketEntry) : Nat := if e.block then e.bytes else e.width.bytes

/-- Two failures of one ticket's read: the lanes of both, the lower address with its cause (R67, R108). -/
def joinErr (a b : Option AccessFault) : Option AccessFault :=
  match a, b with
  | some x, some y =>
    let low := if y.addr < x.addr then y else x
    some { low with lanes := x.lanes ||| y.lanes }
  | none, y => y
  | x, none => x

/-- The lanes that a part of a ticket's read stands for. -/
def TicketEntry.lanesOf (e : TicketEntry) (ops : List LaneOp) : LaneSet := if e.block then e.lanes else opLanes ops

/-- The attributes a part of a ticket's read keeps. -/
def LaneOp.xlat (o : LaneOp) : Xlat := { (default : Xlat) with pa := o.pa, mig := o.mig }

/-- Parts of a ticket's read performed: their bytes staged by lane, and what failed noted (R81, R105, R108). No L1 keeps bytes older than
what the read returns: the read stands as an earlier load of its thread (R87, R105). -/
def State.stageParts (s : State) (key : Nat) (ops : List LaneOp) : State :=
  let e := s.tickets.get key
  let n := e.partBytes
  let s := ops.foldl (fun s o => s.touch o.xlat n) s
  let line := ops.filterMap fun o => (s.lineFault o.xlat n).map fun f => (⟨f.1, o.va, e.lanesOf [o], f.2⟩ : AccessFault)
  let sound := ops.filter fun o => (s.lineFault o.xlat n).isNone
  let bad := sound.filter fun o => s.readBad o.pa n
  let s := s.logReads e.ctx n bad
  let errs := line ++ bad.map fun o => (⟨causeMemoryUncorrectable, o.va, e.lanesOf [o], 0⟩ : AccessFault)
  let data := (sound.filter fun o => !s.readBad o.pa n).map fun o => (o.lane, s.readPhys o.pa n)
  let s := ops.foldl (fun s o => (s.countServed o.pa).dropEveryL1 o.pa n) s
  { s with tickets := s.tickets.set key { e with err := errs.foldl (fun a f => joinErr a (some f)) e.err, data := e.data ++ data } }

/-- A live entry whose every part is read is ready. -/
def State.readied (s : State) (key : Nat) : State :=
  let e := s.tickets.get key
  if e.state = 1 ∧ e.reqs = [] then { s with tickets := s.tickets.set key { e with state := 2, data := sortBy (·.1) e.data } } else s

/-- A request of a ticket's read answered: its entry waits for it no more. -/
def State.answeredPart (s : State) (key id : Nat) : State :=
  let e := s.tickets.get key
  ({ s with tickets := s.tickets.set key { e with reqs := e.reqs.filter (· != id) } }).dropReq id

/-- What a redeem finds at its ticket's entry (R281). -/
inductive Found where
  | pending
  | ready (err : Option AccessFault)
  | past (status : Nat)
  deriving DecidableEq, Repr, Inhabited

/-- The entry is live under the ticket. -/
def TicketEntry.live (e : TicketEntry) (t : Nat) : Bool := e.reuse == tkReuse t && e.state != 0

/-- SPENT or EXPIRED for a ticket whose entry is not live under it (R281). -/
def TicketEntry.past (e : TicketEntry) (t : Nat) : Nat :=
  if tkReuse t = (e.reuse + 255) % 256 ∧ e.spent then statusSpent else statusExpired

/-- What a ticket's entry holds for it. -/
def TicketEntry.found (e : TicketEntry) (t : Nat) : Found :=
  if e.live t then (if e.state = 2 then .ready e.err else .pending) else .past (e.past t)

/-- The lanes of a redeem that take gathered bytes (R281); a scalar destination takes the lowest lane's only. -/
def TicketEntry.takers (e : TicketEntry) (lanes : LaneSet) (d : Operand) : LaneSet :=
  match d with
  | .s _ => if e.lanes.getLsbD (leader lanes) then laneBit (leader lanes) else 0
  | _ => lanes &&& e.lanes

/-- A ready entry's bytes delivered to lanes of a warp: a lane ticket's to its destination, a block's into the scratchpad (R281). -/
def State.giveTicket (s : State) (e : TicketEntry) (w : Nat) (lanes : LaneSet) (d : Operand) (off : Nat) : State :=
  if e.block then s.storeX ((s.crewOf w).phys off) (e.data.get 0)
  else s.setWarp w ((s.warp w).writeLanes (e.takers lanes d) (widthWords e.width) d fun l =>
    Width.extend e.width (bytesToNat (e.data.get l)))

/-- The response fault of an entry's error record (R108, R281): traplanes names the affected lanes that redeem, for a block those of the
issuer; where none of them redeems, the trap's group. (DESIGN CHOICE: notes/assumptions/139.) -/
def faultTrap (f : AccessFault) (lanes : LaneSet) (pc : DWord) : Trap :=
  { cause := f.cause, slot := slotOfPc pc, lanes := f.lanes &&& lanes, addr := BitVec.ofNat 64 f.addr, landing := f.landing }

/-- What trapsupply needs after it (R336). -/
def TicketEntry.supply (e : TicketEntry) (lanes : LaneSet) (len : Nat) (d st : Operand) : Option Supply :=
  if e.block then none
  else some { d := d, width := e.width, group := lanes, len := len, got := e.data.map fun p => (p.1, bytesToNat p.2), st := some st }

/-- A blocked redeem takes its step again, with the operands it was sent with (R106, R281). -/
def State.redeemAgain (s : State) (w : Nat) (r : WaitRec) : State :=
  match r.wait with
  | .redeem t d off st =>
    let t := t.toNat
    let key := tkKey t
    let e := s.tickets.get key
    let done := fun (s : State) (x : Nat) =>
      s.setWarp w (((s.warp w).writeLanes r.lanes 1 st fun _ => x).release s.cycle r r.lanes)
    match e.found t with
    | .pending => s
    | .past x => done s x
    | .ready none => done ((s.endTicket key true).giveTicket e w r.lanes d (off.getD 0)) statusOk
    | .ready (some f) =>
      let s := s.endTicket key true
      (s.setWarp w ((s.warp w).retry s.cycle r.lanes)).takeResponse w
        { faultTrap f r.lanes r.pc with group := r.lanes, ret := some r.pc, port := r.port } (e.supply r.lanes r.len d st)
  | _ => s

/-- The redeems blocked on an entry take their step again, a lower core number first (R106, R281). (DEDUCED: notes/assumptions/59.) -/
def State.wakeRedeems (s : State) (key : Nat) : State :=
  (s.waitersOf (Wait.onTicket key)).foldl (fun s p => s.redeemAgain p.1 p.2) s

/-- What follows when an entry is ready or ends: blocked redeems, then ldts that wait for room. -/
def State.settleTicket (s : State) (key : Nat) : State := (s.wakeRedeems key).wakeRoom (key / 4096)

/-- An entry freed, with those it wakes (R279, R292). -/
def State.freeTicket (s : State) (key : Nat) (spent : Bool) : State := (s.endTicket key spent).settleTicket key

/-- The owner's read of a ticketed load is done, whole in local memory, or a request's part of it behind a port (R105): a landing
miss is noted for the part's lanes; a revoked extent reclaims the entry (R108). -/
def execTicketReady (table entry : Nat) (s : State) : Host.Outcome State Fault Refusal :=
  let key := entryKey table entry
  let e := s.tickets.get key
  if e.state ≠ 1 then .next s
  else if e.reqs = [] then .next (((s.stageParts key e.parts).readied key).settleTicket key)
  else
    match e.reqs.find? fun id => s.answers id (s.reqs.get id) with
    | none => .next s
    | some id =>
      let r := s.reqs.get id
      match s.fabricFault r.ctx r.pa r.size false with
      | none => .next ((((s.stageParts key r.ops).answeredPart key id).readied key).settleTicket key)
      | some c =>
        if c = causeLandingLost then .next (s.freeTicket key false)
        else
          let err := joinErr e.err (some { r.fault c with lanes := e.lanesOf r.ops })
          let s := { s with tickets := s.tickets.set key { e with err := err } }
          .next (((s.answeredPart key id).readied key).settleTicket key)

/-- The deadline of an entry (R108): it is reclaimed as expired, unless a redeem has arrived by then and waits. (DEDUCED: notes/assumptions/59.) -/
def State.ticketExpired (s : State) (key : Nat) (e : TicketEntry) : Bool :=
  e.state != 0 && decide (e.deadline ≤ s.cycle) && !s.redeemBlocked key

def execTicketDeadline (table entry : Nat) (s : State) : Host.Outcome State Fault Refusal :=
  let key := entryKey table entry
  if s.ticketExpired key (s.tickets.get key) then .next (s.freeTicket key false) else .next s

/-! ### Redeeming, dropping and asking (R281 to R284) -/

/-- The subcode of the first check a ticket fails (R282); 0 for none. `kind` is the kind the form asks for, if it does. -/
def State.ticketCheck (s : State) (t : Nat) (kind : Option Bool) : Nat :=
  let table := tkTable t
  if t = 0 then 1
  else if bits t 7 2 ≠ s.module_ then 2
  else if t % 4 ≠ 1 ∨ 80 ≤ table ∨ tableEntries table ≤ tkEntry t
      ∨ (Config.ticketCheck s.key (t % 2 ^ 48)).toNat ≠ t / 2 ^ 48 then 3
  else if bits t 47 36 ≠ s.ctxOf s.cur.warp then 4
  else
    match kind with
    | some k => if (bits t 8 8 == 1) == k then 0 else 5
    | none => 0

/-- TICKET_FAULT (R282, R326). -/
def State.ticketTrap (s : State) (t sub : Nat) : Trap :=
  { s.mkTrap causeTicketFault with sub := sub, addr := BitVec.ofNat 64 t }

/-- A status written to every executing lane (R281). -/
def State.writeStatus (s : State) (d : Operand) (x : Nat) : State := s.writeRes 1 d fun _ => x

/-- The destination check the table makes for a live entry (R281). -/
def State.redeemCheck (s : State) (e : TicketEntry) (d : Operand) (off : Nat) : Option Trap :=
  if e.block then
    match s.ownPhys (crewTok s.cur.warp) off e.bytes with
    | some _ => none
    | none => some { s.mkTrap causeScratchBound with addr := BitVec.ofNat 64 (Nat.max off (s.crewOf s.cur.warp).size) }
  else if e.width = .w64 then
    match d with
    | .v n => if n % 2 = 0 then none else some (s.mkTrap causeIllegalOperand)
    | .s _ => none
    | _ => some (s.mkTrap causeIllegalOperand)
  else none

/-- The table's atomic step (R106, R281). -/
def State.redeemStep (s : State) (len : Nat) (try_ : Bool) (t : Nat) (d : Operand) (off : Nat) (st : Operand) :
    Except Trap State :=
  let key := tkKey t
  let e := s.tickets.get key
  let lanes := s.cur.lanes
  match (if e.live t then s.redeemCheck e d off else none) with
  | some trap => .error trap
  | none =>
    match e.found t with
    | .past x => .ok ((s.writeStatus st x).advance len)
    | .pending =>
      if try_ then .ok ((s.writeStatus st statusPending).advance len)
      else .ok (s.block len (.redeem (BitVec.ofNat 64 t) d (if e.block then some off else none) st))
    | .ready none =>
      .ok ((((s.freeTicket key true).giveTicket e s.cur.warp lanes d off).writeStatus st statusOk).advance len)
    | .ready (some f) =>
      .ok ((s.freeTicket key true).issueTrap (faultTrap f lanes s.cur.pc) (e.supply lanes len d st))

/-- redeem of a lane ticket (R281). -/
def execRedeem (try_ : Bool) (d a c : Operand) (s : State) : Host.Outcome State Fault Refusal :=
  let i : Instr := .redeem try_ d a c
  runOp i s fun s =>
    let t := s.lead64 a
    if s.same64 a = false then .error (s.mkTrap causeIllegalOperand)
    else if s.ticketCheck t (some false) ≠ 0 then .error (s.ticketTrap t (s.ticketCheck t (some false)))
    else s.redeemStep i.len try_ t d 0 c

/-- redeem.x of a block ticket (R281). (DEDUCED: notes/assumptions/22.) -/
def execRedeemX (try_ : Bool) (a b c : Operand) (s : State) : Host.Outcome State Fault Refusal :=
  let i : Instr := .redeemX try_ a b c
  runOp i s fun s =>
    let t := s.lead64 a
    let off := s.lead32 b
    if s.same64 a = false then .error (s.mkTrap causeIllegalOperand)
    else if s.ticketCheck t (some true) ≠ 0 then .error (s.ticketTrap t (s.ticketCheck t (some true)))
    else if off % 16 ≠ 0 then .error { s.mkTrap causeMisaligned with addr := BitVec.ofNat 64 off }
    else s.redeemStep i.len try_ t .z off c

/-- tkdrop and tkstat share their checks (R283, R284). -/
def tkOp (i : Instr) (d a : Operand) (f : State → Nat → TicketEntry → State × Nat) (s : State) :
    Host.Outcome State Fault Refusal :=
  checkedOp i s fun s =>
    let t := s.lead64 a
    if s.same64 a = false then .error (s.mkTrap causeIllegalOperand)
    else if s.ticketCheck t none ≠ 0 then .error (s.ticketTrap t (s.ticketCheck t none))
    else
      let (s, x) := f s t (s.tickets.get (tkKey t))
      .ok (s.writeStatus d x)

/-- tkdrop (R283). -/
def execTkdrop (d a : Operand) (s : State) : Host.Outcome State Fault Refusal :=
  tkOp (.tkdrop d a) d a (fun s t e => if e.live t then (s.freeTicket (tkKey t) true, statusOk) else (s, e.past t)) s

/-- tkstat (R284): in the entry's deadline cycle the reclamation is seen first (R292). -/
def execTkstat (d a : Operand) (s : State) : Host.Outcome State Fault Refusal :=
  tkOp (.tkstat d a) d a (fun s t e =>
    match (if s.ticketExpired (tkKey t) e then e.free false else e).found t with
    | .pending => (s, statusPending)
    | .ready err => (s, if err.isSome then statusOk + 2 ^ 8 else statusOk)
    | .past x => (s, x)) s

end Sys2Proof.Machine
end

