-- ==== Sys2Proof/Machine/Placement.lean ====
section
/-! DEFINITION. Crews placed on cores, swapped out and resumed, and their end: the placement pass, aging, drain reservations,
pre-emption, stall hints, the save and the resume of R340 to R342 (R14 to R17, R35, R44, R60, R387, R394 to R399, R401, R402). -/

namespace Sys2Proof.Machine

open Sys2Proof

/-! ### Fits (R17, R60, R396) -/

/-- The crews that hold an allocation of a core, but for those of a list. -/
def State.crewsOn (s : State) (core : Nat) (but : List Nat) : List Nat :=
  (s.crews.filter fun p => p.2.live && p.2.resident && p.2.core == core && !but.contains p.1).map (·.1)

/-- The lowest offset from `from_` at which `size` bytes fit between ranges in rising order (R60). -/
def lowestRange (size limit : Nat) : Nat → List (Nat × Nat) → Option Nat
  | from_, [] => if from_ + size ≤ limit then some from_ else none
  | from_, (b, n) :: t =>
    if from_ + size ≤ b then (if from_ + size ≤ limit then some from_ else none) else lowestRange size limit (Nat.max from_ (b + n)) t

/-- The base a crew of `size` bytes would take on a core without the crews of a list. -/
def State.freeRange (s : State) (core size : Nat) (but : List Nat) : Option Nat :=
  lowestRange size (s.capacity core) 0
    (sortBy (·.1) ((s.crewsOn core but).map fun t => ((s.crew t).base, (s.crew t).size)))

/-- Warps and registers that a quadrant holds without the crews of a list. -/
def State.quadHeld (s : State) (core : Nat) (but : List Nat) (q : Nat) : Nat × Nat :=
  let ws := (s.quadWarps core q).filter fun w => !but.contains (crewTok w)
  (ws.length, (ws.map fun w => (s.warp w).quota).sum)

/-- The engines of a core without a crew's operations. -/
def Engines.without (g : Engines) (tok : Nat) : Engines :=
  { copy := g.copy.map fun (q, l) => (q, l.filter fun e => crewTok e.warp != tok)
    bulk := g.bulk.filter fun e => crewTok e.warp != tok, enc := g.enc.filter fun e => crewTok e.warp != tok
    bin := g.bin.filter fun e => crewTok e.warp != tok, deck := g.deck.filter fun t => crewTok t.warp != tok }

/-- What a crew needs of a core: its scratch size, its warps' slots and quotas, and its token when it was swapped out. -/
structure Need where
  scratch : Nat
  warps : List (Nat × Nat)
  tok : Option Nat
  deriving DecidableEq, Repr, Inhabited

/-- The queues of a core, the crews of a list put aside, have room for the saved operations of a crew that returns (R3, R294, R342).
(DESIGN CHOICE: notes/assumptions/130.) -/
def State.opsRoom (s : State) (core tok : Nat) (but : List Nat) : Bool :=
  let g := s.savedOps.get tok
  let left := but.foldl Engines.without (s.engs core)
  let n := fun q => left.count q + g.count q
  (List.range 8).all (fun q => n q ≤ queueRoom q) && ([0, 1, 2, 3, 6].map n).sum ≤ 128

/-- The base and starting quadrant of a crew on a core (R396), the crews of a list put aside. -/
def State.fitOn (s : State) (core : Nat) (need : Need) (but : List Nat) : Option (Nat × Nat) :=
  if s.online core = false ∨ need.tok.any (fun t => !s.opsRoom core t but) then none
  else
    match s.freeRange core need.scratch but, startQuadrant (s.quadHeld core but) need.warps with
    | some b, some q => some (b, q)
    | _, _ => none

/-- The context has or can have a resident slot (R3, R396). -/
def State.ctxRoom (s : State) (ctx : Nat) (but : List Nat) : Bool :=
  let cs := dedup ((s.crews.filter fun p => p.2.live && p.2.resident && !but.contains p.1).map fun p => p.2.ctx)
  cs.contains ctx || cs.length < 256

/-! ### What a launch places next (R395, R402) -/

/-- A crew, or a gang, to be placed: new crews by index, or swapped-out crews by token. -/
inductive Next where
  | new (index : Nat)
  | back (toks : List Nat)
  deriving DecidableEq, Repr, Inhabited

/-- A swapped-out crew may return: its save is made and no hint holds it. -/
def Crew.returns (c : Crew) : Bool := c.live && !c.resident && !c.saving && c.hint.isNone

/-- The swapped-out crew of lowest index that may return, with its gang. -/
def State.nextBack (s : State) (slot : Nat) : Option (List Nat) :=
  (leastBy (fun t => (s.crew t).index) ((s.crewsOf slot).filter fun t =>
    (s.gangOf t).all fun u => 2 ^ 16 ≤ u || (s.crew u).returns)).map fun t => (s.gangOf t).filter fun u => u < 2 ^ 16

/-- The next crew or gang of a launch, if any is left (R395). -/
def State.nextOf (s : State) (slot : Nat) : Option Next :=
  let l := s.launch slot
  if l.live = false ∨ l.held ∨ l.cancelled then none
  else
    match s.nextBack slot with
    | some ts => some (.back ts)
    | none => if l.next < l.spec.crews then some (.new l.next) else none

/-- Slots and quotas of the live warps of a swapped-out crew. -/
def State.warpQuotas (s : State) (tok : Nat) : List (Nat × Nat) := (s.warpsOf tok).map fun w => (slotOf w, (s.warp w).quota)

/-- The crews of a placement, in rank order. -/
def State.needs (s : State) (slot : Nat) (x : Next) : List Need :=
  let l := s.launch slot
  match x with
  | .new _ => List.replicate l.spec.gang ⟨l.spec.scratch, startQuotas l.spec, none⟩
  | .back ts => ts.map fun t => ⟨(s.crew t).size, s.warpQuotas t, some t⟩

/-- Whether an idle core could hold the crew. (DEDUCED: notes/assumptions/66.) -/
def State.couldHold (s : State) (core : Nat) (need : Need) : Bool := s.fitsIdle core need.scratch need.warps

/-- Idle cores of a list could hold the crews of a gang, in rank order on ascending cores (R396). -/
def State.couldSeat (s : State) : List Nat → List Need → Bool
  | _, [] => true
  | [], _ :: _ => false
  | c :: cs, n :: ns => if s.couldHold c n then s.couldSeat cs ns else s.couldSeat cs (n :: ns)

/-- A place for one crew: core, base, quadrant. -/
abbrev Place := Nat × Nat × Nat

/-- The crews of a gang given to distinct cores of a list in ascending order (R396). -/
def State.fitGang (s : State) (but : List Nat) : List Nat → List Need → Option (List Place)
  | _, [] => some []
  | [], _ :: _ => none
  | c :: cs, n :: ns =>
    match s.fitOn c n but with
    | some (b, q) =>
      (match s.fitGang but cs ns with
        | some ps => some ((c, b, q) :: ps)
        | none => none)
    | none => s.fitGang but cs (n :: ns)

/-- Cores of which a launch may use: not those on which a blocking launch waits (R395), nor those of a cluster reserved for a
launch at its level or above (R398). (DEDUCED: notes/assumptions/66.) -/
def State.allowed (s : State) (slot : Nat) (blockers : List Nat) (core : Nat) : Bool :=
  let l := s.launch slot
  let reserved := s.launches.any fun p =>
    p.2.live && p.1 != slot && p.2.reserved == some (core / 8) && l.eff ≤ p.2.eff
  let waited := blockers.any fun b =>
    match s.nextOf b with
    | none => false
    | some x =>
      let ns := s.needs b x
      if ns.length = 1 then s.couldHold core (ns.headD default)
      else s.couldSeat (clusterCores (core / 8)) ns && ns.any (s.couldHold core)
  !reserved && !waited

/-- What is placed is a gang, or what is left of one (R14, R396). -/
def State.ganged (s : State) (slot : Nat) (x : Next) : Bool :=
  match x with
  | .new _ => decide (1 < (s.launch slot).spec.gang)
  | .back ts => ts.any fun t => (s.crew t).gang != 0

/-- Where the next crew or gang of a launch goes (R396), the crews of a list put aside. -/
def State.placeFor (s : State) (slot : Nat) (x : Next) (blockers but : List Nat) : Option (List Place) :=
  let l := s.launch slot
  let ok := s.allowed slot blockers
  let ns := s.needs slot x
  if s.ctxRoom l.ctx but = false then none
  else if s.ganged slot x then (List.range 32).findSome? fun c => s.fitGang but ((clusterCores c).filter ok) ns
  else
    ((List.range 256).map fun i => (l.ptr + i) % 256).findSome? fun c =>
      if ok c then s.fitGang but [c] ns else none

/-! ### Placing new crews (R15, R44, R387, R306) -/

/-- A warp at crew start (R15, R387). -/
def newWarp (r : LaunchRec) (slot st quota cycle : Nat) : Warp :=
  let entry := if r.stages = 0 then BitVec.ofNat 64 (r.entry / 4) else (r.stage.getD st default).entry / 4
  { (default : Warp) with
    live := true, quota := quota, stage := st, fpmode := fpmodeOf r.fpmode
    lanes := (List.range 32).map fun l => (l, { live := true, pc := entry, tid := 32 * slot + l, age := 0, readyAt := cycle + 1 }) }

/-- The warps of a new crew put into the table, those of an earlier crew of its token gone. -/
def State.startWarps (s : State) (tok : Nat) (r : LaunchRec) : State :=
  let old := s.warps.filter fun p => crewTok p.1 != tok
  let st := stageSlots r
  (startQuotas r).foldl (fun s p => s.setWarp (warpNo tok p.1) (newWarp r p.1 (st.getD p.1 0) p.2 s.cycle)) { s with warps := old }

/-- The lowest token no live crew holds (R306). (DESIGN CHOICE: notes/assumptions/107.) -/
def State.freshToken (s : State) : Nat := FMap.fresh (s.crews.filter fun p => p.2.live) 1

/-- One new crew of a launch at a place; `gang` is its gang's number. (DESIGN CHOICE: notes/assumptions/3.) -/
def State.placeNew (s : State) (slot index gang rank : Nat) (p : Place) : State × Nat :=
  let l := s.launch slot
  let tok := s.freshToken
  let st := s.sched.stamp
  let c : Crew := { (default : Crew) with
    live := true, resident := true, launch := slot, index := index, ctx := l.ctx, core := p.1, q0 := p.2.2, gang := gang, rank := rank,
    base := p.2.1, size := l.spec.scratch, slots := l.spec.warps, placedAt := st
    quotas := (List.range l.spec.stages).map fun i => (i, (l.spec.stage.getD i default).qmin) }
  let s := ({ s with sched := { s.sched with stamp := st + 1 } }.setCrew tok c).startWarps tok l.spec
  (s.emptyL1 p.1, tok)

/-- New crews of a gang, or a single crew. -/
def State.placeGang (s : State) (slot index : Nat) (ps : List Place) : State :=
  match ps with
  | [p] => (s.placeNew slot index 0 0 p).1
  | ps =>
    let g := s.gangs.fresh 1
    let put := fun (acc : State × List Nat) (x : Place × Nat) =>
      let (s, tok) := acc.1.placeNew slot (index + x.2) g x.2 x.1
      (s, acc.2 ++ [tok])
    let (s, toks) := (ps.zip (List.range ps.length)).foldl put (s, [])
    s.setGang g { (default : Gang) with live := true, launch := slot, crews := toks }

/-! ### The save (R119, R290, R339 to R341) -/

/-- A wait for a response that must end before a save. -/
def Wait.response : Wait → Bool
  | .mem _ | .fence | .pool .. | .csr .. => true
  | _ => false

/-- A wait whose instruction issues again after a resume: it has sent nothing (R290, R419). -/
def Wait.resent : Wait → Bool
  | .tlb _ | .held _ | .room none => true
  | _ => false

/-- The lanes of a warp saved blocked at a ticket table: their requests are sent again, with the operands they had (R290, R292). -/
def State.resendTickets (s : State) (w : Nat) : State :=
  (s.warp w).waits.foldl (fun s r =>
    match r.wait with
    | .redeem .. => s.redeemAgain w r
    | .room (some g) => s.wakeRoom g.table
    | _ => s) s

/-- A warp may be saved: no response is out, no remote store unacknowledged, no chain that must first write back. (DEDUCED: notes/assumptions/18.) -/
def State.warpDrained (s : State) (w : Nat) : Bool :=
  let x := s.warp w
  let chainOk := fun (port : Nat) =>
    match x.chain port with
    | none => true
    | some c => !x.unparkable s.cycle port c
  x.waits.all (fun r => !r.wait.response) && s.reqs.all (fun p => p.2.warp != w) && chainOk 0 && chainOk 1

/-- A drain's copy that cannot be performed before the save: copy queue 0 begins with an operation of the crew that has not started,
or with a drain that waits on a tag (R317). -/
def State.drainStuck (s : State) (core tok : Nat) : Bool :=
  match ((s.engs core).list 0).head? with
  | none => true
  | some e => crewTok e.warp == tok && !e.begun && (!e.op.isDrain || !s.tagsReady (s.spansOf e))

/-- A task of a saving crew that is to be waited for: it can go on, ends, is held, or drains through a copy that can go on (R317,
R419). -/
def State.taskBusy (s : State) (core tok : Nat) (t : DeckTask) : Bool :=
  t.running && (t.ended.isSome || t.hold.isSome || s.taskGoes t || (t.copies && !s.drainStuck core tok))

/-- A crew may be saved: its warps are drained, its running deck tasks wait on a tag, and no operation of its has begun and not
ended (R317, R340, R419). -/
def State.crewDrained (s : State) (tok : Nat) : Bool :=
  let core := (s.crew tok).core
  let g := s.engs core
  (s.warpsOf tok).all s.warpDrained
    && g.deck.all (fun t => crewTok t.warp != tok || !s.taskBusy core tok t)
    && (([0, 1, 2, 3, 5, 6, 7].flatMap g.list).all fun e => crewTok e.warp != tok || !e.begun)

/-- Deadlines as remaining time, and back (R51). -/
def mapDeadlines (f : Nat → Nat) (r : WaitRec) : WaitRec :=
  match r.wait with
  | .maskT k d dl => { r with wait := .maskT k d (dl.map fun (l, t) => (l, f t)) }
  | .sleep dl => { r with wait := .sleep (dl.map fun (l, t) => (l, f t)) }
  | _ => r

/-- A warp as saved: chains parked, resent waits undone, deadlines as remaining time, age counters zero. -/
def Warp.saved (w : Warp) (cycle : Nat) : Warp :=
  let w := w.parkChains cycle
  let w := w.unwait (w.waiting Wait.resent)
  let w := { w with waits := w.waits.map (mapDeadlines (· - cycle)) }
  w.mapLanes w.liveLanes fun x => { x with age := 0, readyAt := 0 }

/-- The operations of a crew, out of the engines of its core. -/
def Engines.ofCrew (g : Engines) (tok : Nat) : Engines :=
  { copy := g.copy.map fun (q, l) => (q, l.filter fun e => crewTok e.warp == tok)
    bulk := g.bulk.filter fun e => crewTok e.warp == tok, enc := g.enc.filter fun e => crewTok e.warp == tok
    bin := g.bin.filter fun e => crewTok e.warp == tok
    deck := (g.deck.filter fun t => crewTok t.warp == tok).map fun t => { t with running := false } }

/-- Saved operations put behind a core's own, in queue order; the crew returns only where they find room. (DESIGN CHOICE: notes/assumptions/130.) -/
def Engines.append (g h : Engines) : Engines :=
  { copy := [0, 1, 2, 3].map fun q => (q, g.copy.get q ++ h.copy.get q), bulk := g.bulk ++ h.bulk, enc := g.enc ++ h.enc,
    bin := g.bin ++ h.bin, deck := g.deck ++ h.deck }

/-- One crew saved (R340): its warps, operations, sort-yard threads and scratchpad leave the core; each warp's two records stand in the
save area (R152, R380). (DESIGN CHOICE: notes/assumptions/17.) -/
def State.saveCrew (s : State) (tok : Nat) : State :=
  let c := s.crew tok
  let s := (s.warpsOf tok).foldl (fun s w => s.setWarp w ((s.warp w).saved s.cycle)) s
  let g := s.engs c.core
  let k := s.core c.core
  let yard := ((k.bins.filter fun p => p.2.key.crew == tok).map (·.2), k.yardWait.filter fun p => p.1.crew == tok)
  let s := { s.setEngs c.core (g.without tok) with
    savedOps := s.savedOps.set tok (g.ofCrew tok), savedYard := s.savedYard.set tok yard }
  let s := s.setCore c.core (k.dropYard tok)
  let image := s.mem.read (c.phys 0) c.size
  let records := (s.warpsOf tok).flatMap fun w => [s.slotBytes w 0, s.slotBytes w 1]
  let until_ := match c.hint with
    | some _ => some (s.cycle + 1000 * Config.cyclesPerUs)
    | none => none
  (s.setCrew tok { c with
    resident := false, saving := false, hinted := false, leaveFor := none, image := image
    records := records, returnAt := until_ }).settleFences c.core

/-- A launch whose crews were all placed starts its wait anew when one is swapped out (R394). -/
def State.restartWait (s : State) (slot : Nat) : State :=
  let l := s.launch slot
  if (s.nextOf slot).isNone then s.setLaunch slot { l with levelSince := s.cycle } else s

/-- A save that a stall hint asked for begins when its cycle is over, since a release in that cycle keeps the crew (R375, R401). -/
def Crew.held (c : Crew) (cycle : Nat) : Bool := c.hinted && decide (cycle ≤ c.savingAt)

/-- CONTEXT_SAVE (R340): a crew whose swap-out was asked for is saved with its gang, once all of them are drained. -/
def execContextSave (tok : Nat) (s : State) : Host.Outcome State Fault Refusal :=
  let ts := (s.gangOf tok).filter fun t => (s.crew t).saving
  if (s.crew tok).live ∧ (s.crew tok).saving ∧ (s.crew tok).held s.cycle = false ∧ ts.all s.crewDrained then
    .next (ts.foldl State.saveCrew (s.restartWait (s.crew tok).launch))
  else .next s

/-- A swap-out asked for: from the next cycle on the crew and its gang issue nothing more (R35, R52, R340). A stall hint adds its
condition for return to a save that is under way (R406). (DESIGN CHOICE: notes/assumptions/17.) -/
def State.swapOut (s : State) (hint : Option (Nat × Nat)) (tok : Nat) : State :=
  ((s.gangOf tok).filter fun t => t < 2 ^ 16).foldl (fun s t =>
    let c := s.crew t
    if c.live ∧ c.resident then s.setCrew t { c with
      saving := true, savingAt := if c.saving then c.savingAt else s.cycle, hint := if c.hint.isSome then c.hint else hint
      hinted := hint.isSome && (c.hinted || !c.saving) } else s) s

/-! ### The resume (R342) -/

/-- A warp as resumed: deadlines as cycles again, its lanes eligible in the next cycle. -/
def Warp.resumed (w : Warp) (cycle : Nat) : Warp :=
  let w := { w with waits := w.waits.map (mapDeadlines (· + cycle)) }
  w.mapLanes w.liveLanes fun x => { x with readyAt := cycle + 1 }

/-- A saved bin back on a core: whole and in its filing order, its age restarted, where a bin is free and no thread waits for one;
else its threads are filed behind those, one by one in their old lanes' order, as of this cycle (R39, R51, R342).
(DESIGN CHOICE: notes/assumptions/131.) -/
def State.restoreBin (s : State) (core : Nat) (b : Bin) : State :=
  let c := s.core core
  if c.yardWait.isEmpty ∧ c.bins.length < 64 then
    s.setCore core { c with bins := c.bins.set (c.bins.fresh 0) { b with since := s.cycle } }
  else b.threads.foldl (fun s t => s.enterYard core b.key { t with filed := s.cycle }) s

/-- Threads of the sort yard back on a core: bins first, then those that waited for one (R51). -/
def State.restoreYard (s : State) (core : Nat) (bins : List Bin) (waiting : List (BinKey × YardThread)) : State :=
  let s := bins.foldl (fun s b => s.restoreBin core b) s
  waiting.foldl (fun s p => s.enterYard core p.1 { p.2 with filed := s.cycle }) s

/-- A response fault of handler lanes, saved as pending, is a double fault at the resume (R334, R342). -/
def State.handlerPending (s : State) (w : Nat) : State :=
  match (s.warp w).handler with
  | none => s
  | some h =>
    match (s.warp w).pendingFaults.find? fun p => p.1.group &&& h.lanes ≠ 0 with
    | some (t, sup) => s.takeTrap w t sup
    | none => s

/-- Chains that the save parked in handler mode go on with the handler; the others wait for its end (R151, R342). -/
def State.resumeMarked (s : State) (w : Nat) : State :=
  [0, 1].foldl (fun s port => if (((s.warp w).parked port).map (·.atResume)).getD false then s.resumeChain w port else s) s

/-- What a resumed warp takes up: parked chains, then a fault saved as pending (R342). -/
def State.wakeWarp (s : State) (w : Nat) : State :=
  let s := s.setWarp w ((s.warp w).resumed s.cycle)
  let s := s.handlerPending w
  let s := s.takePending w
  if (s.warp w).handler.isSome then s.resumeMarked w else s.resumeChains w

/-- One crew resumed at a place: scratchpad, operations, threads, and counters that arrivals completed meanwhile (R117, R342). -/
def State.resumeCrew (s : State) (tok : Nat) (p : Place) : State :=
  let c := s.crew tok
  let st := s.sched.stamp
  let g := s.savedOps.get tok
  let yard := s.savedYard.get tok
  let c' := { c with
    resident := true, core := p.1, base := p.2.1, q0 := p.2.2, image := [], records := [], returnAt := none
    placedAt := st }
  let s := { s with savedOps := s.savedOps.del tok, savedYard := s.savedYard.del tok, sched := { s.sched with stamp := st + 1 } }
  let s := (s.setCrew tok c').storeX (c'.phys 0) c.image
  let s := (s.setEngs p.1 ((s.engs p.1).append g)).restoreYard p.1 yard.1 yard.2
  let s := (s.warpsOf tok).foldl State.wakeWarp (s.emptyL1 p.1)
  let s := (s.warpsOf tok).foldl State.resendTickets s
  (s.warpsOf tok).foldl State.settleAwait s

/-! ### The placement pass (R394 to R399) -/

/-- A crew or gang placed for a launch: the launch's level, pointer and round robin follow (R394 to R396, R398). -/
def State.placeNext (s : State) (slot : Nat) (x : Next) (ps : List Place) : State :=
  let l := s.launch slot
  let gang := s.ganged slot x
  let s := match x with
    | .new i => s.placeGang slot i ps
    | .back ts => (ts.zip ps).foldl (fun s (t, p) => s.resumeCrew t p) s
  let next := match x with
    | .new i => i + ps.length
    | .back _ => l.next
  let ptr := if gang then l.ptr else ((ps.headD default).1 + 1) % 256
  let s := s.setLaunch slot { l with
    eff := l.level, levelSince := s.cycle, next := next, ptr := ptr, blockedSince := none, reserved := none }
  { s with sched := { s.sched with rr := s.sched.rr.set l.eff (l.uid + 1) } }

/-- A set of crews that leave together: a gang's crews or one crew, with the highest level and latest placement among them. -/
structure Victim where
  toks : List Nat
  level : Nat
  placed : Nat
  deriving DecidableEq, Repr, Inhabited

/-- Victims of effective level below a launch's with a crew on one of the cores, lowest level and latest placed first (R399). -/
def State.victims (s : State) (level : Nat) (cores : List Nat) : List Victim :=
  let here := (s.crews.filter fun p => p.2.live && p.2.resident && !p.2.saving && p.1 < 2 ^ 16 && cores.contains p.2.core).map (·.1)
  let firsts := here.filter fun t => (s.gangOf t).all fun u => !(here.contains u && u < t)
  let vs := firsts.map fun t =>
    let ts := (s.gangOf t).filter fun u => u < 2 ^ 16
    ({ toks := ts, level := (s.launchOf (warpNo t 0)).eff, placed := (s.crew t).placedAt } : Victim)
  sortBy (fun v => v.level * 2 ^ 64 + (2 ^ 63 - v.placed)) (vs.filter fun v => v.level < level)

/-- The shortest run of victims from the first whose removal makes the test true. -/
def shortestRun (test : List Nat → Bool) (vs : List Victim) : Option (List Victim) :=
  ((List.range (vs.length + 1)).drop 1).findSome? fun k =>
    if test ((vs.take k).flatMap (·.toks)) then some (vs.take k) else none

/-- Victims whose removal is not needed put back, the last ones first. -/
def prune (test : List Nat → Bool) : List Victim → List Victim → List Victim
  | [], kept => kept
  | v :: earlier, kept =>
    if test ((earlier.reverse ++ kept).flatMap (·.toks)) then prune test earlier kept else prune test earlier (v :: kept)

/-- How a set of victims ranks: its highest level, then its latest placements. (DESIGN CHOICE: notes/assumptions/65.) -/
def victimKey (vs : List Victim) : Nat :=
  (vs.foldl (fun m v => Nat.max m v.level) 0) * 2 ^ 70 + (2 ^ 64 - vs.foldl (fun m v => Nat.min m v.placed) (2 ^ 63))

/-- The set of crews to swap out for a launch that cannot place (R399): the best set over all cores, or all clusters for a
gang; where its context has no resident slot, crews of any core may have to leave (R396). (DESIGN CHOICE: notes/assumptions/65.) -/
def State.chooseVictims (s : State) (slot : Nat) (x : Next) (blockers leaving : List Nat) : Option (List Victim) :=
  let l := s.launch slot
  let ns := s.needs slot x
  let ok := s.allowed slot blockers
  let spots := if s.ganged slot x then (List.range 32).map clusterCores else (List.range 256).map fun c => [c]
  let sets := spots.filterMap fun cores =>
    let test := fun but => s.ctxRoom l.ctx (leaving ++ but) && (s.fitGang (leaving ++ but) (cores.filter ok) ns).isSome
    let from_ := if s.ctxRoom l.ctx leaving then cores else List.range 256
    (shortestRun test (s.victims l.eff from_)).map fun vs => prune test vs.reverse []
  leastBy victimKey sets

/-- The crews that are being swapped out for a launch. -/
def State.leavingFor (s : State) (uid : Nat) : List Nat :=
  (s.crews.filter fun p => p.2.live && p.2.saving && p.2.leaveFor == some uid).map (·.1)

/-- Pre-emption for a launch (R399), unless the crews that already leave for it make it fit. (DESIGN CHOICE: notes/assumptions/65.) -/
def State.preempt (s : State) (slot : Nat) (x : Next) (blockers : List Nat) : State :=
  let uid := (s.launch slot).uid
  let leaving := s.leavingFor uid
  if !leaving.isEmpty && (s.placeFor slot x blockers leaving).isSome then s
  else
    match s.chooseVictims slot x blockers leaving with
    | none => s
    | some vs => (vs.flatMap (·.toks)).foldl (fun s t =>
        let s := s.swapOut none t
        s.setCrew t { s.crew t with leaveFor := some uid }) s

/-- Order within a level: round robin after the launch that placed last there (R395). -/
def State.turnOf (s : State) (slot : Nat) : Nat :=
  let l := s.launch slot
  let after := s.sched.rr.get l.eff
  (31 - l.eff) * 2 ^ 65 + (if l.uid < after then 2 ^ 64 else 0) + l.uid

/-- One pass: launches in order place crews until each has placed all it can; `n` bounds the turns. `stuck` are the launches
that cannot place. -/
def State.passTurns (s : State) (stuck : List Nat) : Nat → State × List Nat
  | 0 => (s, stuck)
  | n + 1 =>
    let ready := (s.launches.filter fun p => !stuck.contains p.1 && (s.nextOf p.1).isSome).map (·.1)
    match leastBy s.turnOf ready with
    | none => (s, stuck)
    | some slot =>
      match s.nextOf slot with
      | none => (s, stuck)
      | some x =>
        let above := stuck.filter fun b => (s.launch slot).eff < (s.launch b).eff
        match s.placeFor slot x above [] with
        | some ps => (s.placeNext slot x ps).passTurns stuck n
        | none => (s.preempt slot x above).passTurns (stuck ++ [slot]) n

/-- A launch that stays blocked counts its wait from its first blocked pass (R398). -/
def State.noteBlocked (s : State) (slot : Nat) : State :=
  let l := s.launch slot
  if l.live ∧ l.blockedSince.isNone then s.setLaunch slot { l with blockedSince := some s.cycle } else s

/-- PLACEMENT_PASS (R395 to R399). -/
def execPlacementPass (s : State) : Host.Outcome State Fault Refusal :=
  let (s, stuck) := s.passTurns [] (2 ^ 40)
  .next (stuck.foldl State.noteBlocked s)

/-- LEVEL_AGING (R394): 500 µs with crews left and none placed raise the effective level. -/
def State.ageDue (s : State) (slot : Nat) : Bool :=
  let l := s.launch slot
  (s.nextOf slot).isSome && l.level < 31 && l.eff < Nat.max l.level (Nat.min (l.level + 4) 30)
    && l.levelSince + agePeriod ≤ s.cycle

def execLevelAging (slot : Nat) (s : State) : Host.Outcome State Fault Refusal :=
  let l := s.launch slot
  if s.ageDue slot then
    .next (s.setLaunch slot { l with eff := l.eff + 1, levelSince := l.levelSince + agePeriod })
  else .next s

/-- The sublists of `k` elements of a list. -/
def picks {α : Type} (k : Nat) : List α → List (List α)
  | [] => if k = 0 then [[]] else []
  | a :: t => if k = 0 then [[]] else (picks (k - 1) t).map (a :: ·) ++ picks k t

/-- The least number of crews that must leave a core for a crew to fit on it. -/
def State.crewsBetween (s : State) (core : Nat) (need : Need) : Option Nat :=
  let on := s.crewsOn core []
  (List.range (on.length + 1)).find? fun k => (picks k on).any fun but => (s.fitOn core need but).isSome

/-- The lesser of two numbers that may be absent. -/
def lesser : Option Nat → Option Nat → Option Nat
  | some a, some b => some (Nat.min a b)
  | some a, none => some a
  | none, b => b

/-- The least number of crews that stand between crews and a fit on ascending cores of a list, in rank order (R396, R398). -/
def State.seatsBetween (s : State) : List Nat → List Need → Option Nat
  | _, [] => some 0
  | [], _ :: _ => none
  | c :: cs, n :: ns =>
    let here := match s.crewsBetween c n, s.seatsBetween cs ns with
      | some a, some b => some (a + b)
      | _, _ => none
    lesser here (s.seatsBetween cs (n :: ns))

/-- The least number of crews that stand between a placement and a fit on a cluster. -/
def State.clusterBetween (s : State) (cluster : Nat) (ns : List Need) : Option Nat := s.seatsBetween (clusterCores cluster) ns

/-- A launch is due a drain reservation: blocked for 100 µs, none held (R398). -/
def State.drainDue (s : State) (slot : Nat) : Bool :=
  let l := s.launch slot
  (s.nextOf slot).isSome && l.reserved.isNone && (match l.blockedSince with
    | some c => c + 100 * Config.cyclesPerUs ≤ s.cycle
    | none => false)

/-- The cluster a launch reserves: the one with the fewest crews between, not reserved, ties to the lower number (R398). -/
def State.reservable (s : State) (slot : Nat) : Option Nat :=
  match s.nextOf slot with
  | none => none
  | some x =>
    let free := (List.range 32).filter fun c => s.launches.all fun p => !p.2.live || p.2.reserved != some c
    let costs := free.filterMap fun c => (s.clusterBetween c (s.needs slot x)).map fun k => (c, k)
    (leastBy (·.2) costs).map (·.1)

/-- DRAIN_RESERVATION (R398). -/
def execDrainReservation (slot : Nat) (s : State) : Host.Outcome State Fault Refusal :=
  if s.drainDue slot then
    match s.reservable slot with
    | some c => .next (s.setLaunch slot { s.launch slot with reserved := some c })
    | none => .next s
  else .next s

/-! ### The end of a crew (R14, R35, R36, R132) -/

/-- Nothing of a crew is left: no warp, no thread in the sort yard, no engine operation, no held spawn, no unacknowledged store. -/
def State.crewOver (s : State) (tok : Nat) : Bool :=
  let c := s.crew tok
  let k := s.core c.core
  let g := s.engs c.core
  let mine := fun (w : Nat) => crewTok w == tok
  c.live && tok < 2 ^ 16 && (s.warpsOf tok).isEmpty
    && k.bins.all (fun p => p.2.key.crew != tok) && k.yardWait.all (fun p => p.1.crew != tok)
    && (s.savedYard.find tok).isNone && (s.savedOps.find tok).isNone
    && ([0, 1, 2, 3, 5, 6, 7].flatMap g.list).all (fun e => !mine e.warp) && g.deck.all (fun t => !mine t.warp)
    && s.sched.spawns.all (fun h => !mine h.warp) && s.reqs.all (fun p => p.2.warp != noWarp + tok)

/-- The crew's record moved to a number that is no token: its allocation stays valid for its gang (R35, R306), on the core that it had,
wherever the rest of the gang is resumed. (DESIGN CHOICE: notes/assumptions/132.) -/
def State.retire (s : State) (tok : Nat) : State :=
  let c := s.crew tok
  let k := s.crews.fresh (2 ^ 16)
  let g := s.gang c.gang
  { s with crews := (s.crews.del tok).set k c }.setGang c.gang { g with crews := g.crews.map fun t => if t = tok then k else t }

/-- A gang whose crews have all ended is gone, with their allocations. -/
def State.dropGang (s : State) (n : Nat) : State :=
  let g := s.gang n
  if g.crews.all fun t => 2 ^ 16 ≤ t then
    { s with crews := s.crews.filter fun p => !g.crews.contains p.1, gangs := s.gangs.del n }
  else s

/-- A crew of which nothing is left leaves, its launch counts it, and a launch without crews ends (R14, R36). -/
def State.completeCrew (s : State) (tok : Nat) : State :=
  if s.crewOver tok = false then s
  else
    let c := s.crew tok
    let l := s.launch c.launch
    let l := { l with flags := Nat.lor l.flags c.flags }
    let l := if c.cancelled then { l with cancelledCount := l.cancelledCount + 1 } else { l with completed := l.completed + 1 }
    let s := s.setLaunch c.launch l
    let s := if c.gang = 0 then { s with crews := s.crews.del tok } else (s.retire tok).dropGang c.gang
    s.settleLaunch c.launch

/-- CREW_COMPLETE (R14, R36). -/
def execCrewComplete (tok : Nat) (s : State) : Host.Outcome State Fault Refusal := .next (s.completeCrew tok)

/-- A cancel, after the crews that ended in its cycle: of a launch whose last crew did, it finds the end (R323, R406). -/
def State.cancelNow (s : State) (ctx h : Nat) : State × Nat :=
  ((s.crews.map (·.1)).foldl State.completeCrew s).cancelUnit ctx h

/-! ### Stall hints (R401, R402) -/

/-- The pages of a module's remote window. -/
def toModule (m pa : Nat) : Bool :=
  match regionOf pa with
  | .remote n _ => n == m
  | _ => false

/-- A recorded wait has the peer module as a signaller (R401). -/
def State.waitsOn (s : State) (peer w : Nat) (r : WaitRec) : Bool :=
  match r.wait with
  | .await o _ =>
    (match s.counterPlace (crewTok w) o with
      | some (t, off) => (s.crew t).shared.contains off && !(s.counter t off).complete
      | none => false)
  | .redeem t .. =>
    let e := s.tickets.get (tkKey t.toNat)
    e.state == 1 && e.parts.any fun p => toModule peer p.pa
  | .room none => s.reqs.any fun p => p.2.warp == w && (match p.2.kind with
    | .store => toModule peer p.2.pa
    | .atom _ _ ret => !ret && toModule peer p.2.pa
    | _ => false)
  | _ => false

/-- A wait that the wait-for table records (R49). -/
def Wait.recorded : Wait → Bool
  | .mask _ | .maskT .. | .bar .. | .stage _ | .qput .. | .qtake .. | .await .. | .redeem .. | .sleep _ | .room _ | .trapret => true
  | _ => false

/-- The lanes blocked in recorded waits; the lanes that a trap suspended are in none (R332). -/
def Warp.recordedLanes (x : Warp) : LaneSet :=
  let m := x.waiting Wait.recorded
  match x.handler with
  | some h => m &&& h.lanes
  | none => m

/-- A crew is selected by a hint: every live lane waits in a recorded wait, one of them on the peer (R401). -/
def State.stalledOn (s : State) (peer tok : Nat) : Bool :=
  let ws := s.warpsOf tok
  !ws.isEmpty && ws.all (fun w =>
      let x := s.warp w
      !x.stopped && x.liveLanes &&& ~~~x.recordedLanes == 0)
    && ws.any fun w => (s.warp w).waits.any fun r => s.waitsOn peer w r

/-- At the end of a hint's cycle its saves stand only for crews, or gangs, that still wait: a release in the cycle won (R375,
R401). -/
def State.settleHints (s : State) : State :=
  { s with crews := s.crews.map fun (p : Nat × Crew) =>
    let c := p.2
    let stalled := match c.hint with
      | some h => (s.gangOf p.1).any fun t => s.stalledOn h.2 t
      | none => true
    if c.live && c.saving && c.hinted && decide (c.savingAt = s.cycle) && !stalled
    then (p.1, { c with saving := false, hinted := false, hint := none }) else p }

/-- STALL_HINT (R401): crews all of whose warps wait, one for the named peer, are swapped out. -/
def execStallHint (landing peer : Nat) (s : State) : Host.Outcome State Fault Refusal :=
  let s := s.countLink landing 0x0203 1
  let hints := s.sched.hints.filter fun h => !(h.1 == landing && h.2.1 == peer)
  let s := { s with sched := { s.sched with hints := hints ++ [(landing, peer, s.cycle)] } }
  let toks := (s.crews.filter fun p => p.2.live && p.2.resident && s.stalledOn peer p.1).map (·.1)
  .next (toks.foldl (fun s t => s.swapOut (some (landing, peer)) t) s)

/-- STALL_HINT_WITHDRAW (R402): the crews it swapped out may return. -/
def execStallHintWithdraw (landing peer : Nat) (s : State) : Host.Outcome State Fault Refusal :=
  let hints := s.sched.hints.filter fun h => !(h.1 == landing && h.2.1 == peer)
  .next { s with
    sched := { s.sched with hints := hints }
    crews := s.crews.map fun (t, c) => (t, if c.hint = some (landing, peer) then { c with hint := none, returnAt := none } else c) }

/-- HINT_RETURN_TIMEOUT (R402): 1 ms after its save the crew may return. -/
def execHintReturnTimeout (tok : Nat) (s : State) : Host.Outcome State Fault Refusal :=
  let c := s.crew tok
  match c.returnAt with
  | some t => if t ≤ s.cycle then .next (s.setCrew tok { c with hint := none, returnAt := none }) else .next s
  | none => .next s

end Sys2Proof.Machine
end

