-- ==== Sys2Proof/Machine/Launching.lean ====
section
/-! DEFINITION. The binning engine and the commands it releases, and the starting and cancelling of launches by a program
(R320 to R323, R397). -/

namespace Sys2Proof.Machine

open Sys2Proof

/-! ### Binning (R320) -/

/-- What a bin computes from its keys: per destination the items in order, and the items dropped. -/
structure BinTable where
  items : List (List Nat)
  dropped : Nat
  deriving DecidableEq, Repr, Inhabited

/-- Items `j` up filed by key, each destination's items latest first. -/
def fileKeys (dests : Nat) : List Nat → Nat → FMap (List Nat) → Nat → FMap (List Nat) × Nat
  | [], _, m, dropped => (m, dropped)
  | k :: t, j, m, dropped =>
    if dests ≤ k then fileKeys dests t (j + 1) m (dropped + 1) else fileKeys dests t (j + 1) (m.set k (j :: m.get k)) dropped

/-- The table of a list of keys. -/
def binKeys (dests : Nat) (keys : List Nat) : BinTable :=
  let (m, dropped) := fileKeys dests keys 0 [] 0
  { items := (List.range dests).map fun k => (m.get k).reverse, dropped := dropped }

/-- The count of each destination. -/
def BinTable.counts (b : BinTable) : List Nat := b.items.map List.length

/-- Entries: count and offset of each destination (R320). -/
def binEntries : List Nat → Nat → List Byte
  | [], _ => []
  | n :: t, off => natToBytes 4 n ++ natToBytes 4 off ++ binEntries t (off + n)

/-- The items' total. -/
def BinTable.total (b : BinTable) : Nat := b.counts.sum

/-- The bytes that bin writes from offset 8 of its table up. -/
def BinTable.bytes (b : BinTable) (list : Bool) : List Byte :=
  natToBytes 4 b.dropped ++ natToBytes 4 b.total ++ binEntries b.counts 0
    ++ (if list then b.items.flatMap fun l => l.flatMap (natToBytes 4) else [])

/-! ### Release of held commands (R321, R397) -/

/-- The patched count of a command: 0 for a destination the table does not have. -/
def patchedCount (counts : List Nat) (p : Nat) : Nat := counts.getD (patchIndex p) 0

/-- A held command that a bin of a crew over a table releases: of that crew, of that table, issued in an earlier cycle. (DEDUCED: notes/assumptions/45.) -/
def State.heldBy (s : State) (tok tab w patch since : Nat) : Bool :=
  crewTok w == tok && patchTable patch == tab && since < s.cycle

/-- Queue entries with their counts. -/
def State.releaseQueue (s : State) (tok tab : Nat) (counts : List Nat) (l : List EngEntry) : List EngEntry :=
  l.map fun e =>
    match e.patch, e.count with
    | some p, none => if s.heldBy tok tab e.warp p e.since then { e with count := some (patchedCount counts p) } else e
    | _, _ => e

/-- Crews of a patched spawn: the quotient rounded up, then up to a multiple of the gang size (R321). -/
def patchedCrews (count unit gang : Nat) : Nat := ((count + unit - 1) / unit + gang - 1) / gang * gang

/-- A held spawn released: its launch takes the patched count, and st is written (R321, R322, R397). -/
def State.releaseSpawn (s : State) (counts : List Nat) (h : HeldSpawn) : State :=
  let l := s.launch h.slot
  let crews := patchedCrews (patchedCount counts h.patch) (patchUnit h.patch) l.spec.gang
  let s := { s with sched := { s.sched with spawns := s.sched.spawns.filter fun x => x.num != h.num } }
  if s.placeable l.spec then
    let s := s.setLaunch h.slot { l with spec := { l.spec with crews := crews }, held := false, levelSince := s.cycle }
    (s.writeEngStatus h.warp h.st h.num (statusOk + unitHandle 0 l.ctx l.job h.slot * 2 ^ 16)).settleLaunch h.slot
  else
    let j := s.job l.job
    let s := s.setLaunch h.slot { l with live := false }
    let s := s.setJob l.job { j.count 3 0 none with spawnOut := j.spawnOut ++ [3] }
    ((s.unplaceable l.ctx l.spec.done).writeEngStatus h.warp h.st h.num statusUnplaceable).progress jobFuel

/-- Every held command that a completed bin releases. (DEDUCED: notes/assumptions/45.) -/
def State.releaseHeld (s : State) (core tok tab : Nat) (counts : List Nat) : State :=
  let g := s.engs core
  let rel := s.releaseQueue tok tab counts
  let s' := s.setEngs core { g with copy := g.copy.map fun (q, l) => (q, rel l), bulk := rel g.bulk }
  (s.sched.spawns.filter fun h => s.heldBy tok tab h.warp h.patch h.since).foldl (fun s h => s.releaseSpawn counts h) s'

/-- BIN_PERFORM: the head of the binning queue performed (R320, R321). -/
def execBinPerform (core : Nat) (s : State) : Host.Outcome State Fault Refusal :=
  match s.headReady core 7 with
  | none => .next s
  | some e =>
    match e.op with
    | .bin x keys n tab dests list =>
      let g := s.agentOf e core
      let tok := crewTok e.warp
      let act : EngM BinTable := do
        let bs ← if x then engSpad g tok keys.toNat (4 * n) else engRead g keys.toNat (4 * n) false
        let b := binKeys dests (fieldsOf bs 0 4 n)
        engSpadWrite tok (tab + 8) (b.bytes list)
        pure b
      (match runEng act s with
        | (.ok b, s') => .next ((s'.finishOp core 7 e (statusWord 0 b.total 0) true).releaseHeld core tok tab b.counts)
        | (.error (.cause c), s') => .next ((s'.finishOp core 7 e (failStatus false c 0) false).releaseHeld core tok tab [])
        | (.error x, _) => .next (s.holdOp core 7 e x))
    | _ => .next s

/-! ### spawn and cancel (R322, R323) -/

/-- A spawn that finds every slot held: its record says so, if it names one (R388, R389). (DEDUCED: notes/assumptions/63.) -/
def State.noSlot (s : State) (r : LaunchRec) : State :=
  s.launchDone (s.ctxOf s.cur.warp) r.done ⟨3, statusNoSpace, 0, 0, 0, 0, none⟩

/-- A launch accepted from a spawn: its status word. (DEDUCED: notes/assumptions/63.) -/
def State.spawnLaunch (s : State) (r : LaunchRec) : State × Nat :=
  let l := s.launchOf s.cur.warp
  if s.placeable r = false then
    let j := s.job l.job
    ((s.setJob l.job { j.count 3 0 none with spawnOut := j.spawnOut ++ [3] }).unplaceable l.ctx r.done, statusUnplaceable)
  else
    match s.freeLaunch with
    | none => (s.noSlot r, statusNoSpace)
    | some slot => (s.startLaunch slot r l.job none l.uid false s.cycle, statusOk + unitHandle 0 l.ctx l.job slot * 2 ^ 16)

/-- A held spawn takes its launch slot and waits for its bin (R321); st stays pending. -/
def State.spawnHeld (s : State) (r : LaunchRec) (d : Operand) (patch : Nat) : State :=
  let l := s.launchOf s.cur.warp
  match s.freeLaunch with
  | none => (s.noSlot r).writeRes 2 d fun _ => statusNoSpace
  | some slot =>
    let n := s.nextOp
    let h : HeldSpawn := { slot := slot, num := n, since := s.cycle, warp := s.cur.warp, st := d, patch := patch }
    let s := { s.startLaunch slot r l.job none l.uid true s.cycle with nextOp := n + 1 }
    let s := { s with sched := { s.sched with spawns := s.sched.spawns ++ [h] } }
    s.upCur fun x => if d = .z then x else { x with pending := x.pending ++ [⟨d, 1, n⟩] }

/-- spawn (R322): the record is read and checked at issue. -/
def execSpawn (held : Bool) (d a b : Operand) (s : State) : Host.Outcome State Fault Refusal :=
  let i : Instr := .spawn held d a b
  engineOp i s fun s =>
    let va := s.lead64 a
    let patch := s.lead64 b
    if held ∧ patchOk patch false = false then s.illegal
    else
      match s.checkAlign va 256 with
      | some t => .error t
      | none =>
        s.readRecord i.len va 256 none fun s bs =>
          match parseLaunch held bs with
          | none => s.illegal
          | some r =>
            if held then .ok ((s.spawnHeld r d patch).advance i.len)
            else
              let (s, st) := s.spawnLaunch r
              .ok ((s.writeRes 2 d fun _ => st).advance i.len)

/-- cancel (R323): a warp whose own unit is cancelled stops and takes no result. -/
def execCancel (d a : Operand) (s : State) : Host.Outcome State Fault Refusal :=
  let i : Instr := .cancel d a
  engineOp i s fun s =>
    let h := s.lead64 a
    if h / 2 ^ 48 ≠ 0 then s.illegal
    else
      let (t, st) := s.cancelNow (s.ctxOf s.cur.warp) h
      if t.curWarp.live then .ok ((t.writeRes 1 d fun _ => st).advance i.len) else .ok t

end Sys2Proof.Machine
end

