-- ==== Sys2Proof/Machine/Invalidate.lean ====
section
/-! DEFINITION. Invalidation, the swing of a migration, and the page tables of the pool window (R411, R415, R421). -/

namespace Sys2Proof.Machine

open Sys2Proof

/-! ### Invalidation (R415) -/

/-- The invalidation covers some byte of `2 ^ n` bytes from page `vpn` of a context. -/
def Inval.covers (i : Inval) (ctx vpn n : Nat) : Bool :=
  (i.all || i.ctx == ctx) && (i.len == 0 || (vpn * 2 ^ n < i.va + i.len && i.va < (vpn + 1) * 2 ^ n))

/-- The invalidation covers some of the page of an address of a context. -/
def Inval.hits (i : Inval) (ctx va : Nat) : Bool := i.covers ctx (va / 2 ^ 13) 13

/-- TLB and walk-cache entries the invalidation covers are gone. -/
def State.dropTranslations (s : State) (i : Inval) : State :=
  { s with
    cores := s.cores.map fun p => (p.1, { p.2 with tlb := p.2.tlb.filter fun t => !(i.covers t.ctx t.vpn t.bits) })
    walkCache := s.walkCache.filter fun w => !(i.covers w.ctx w.path (levelBits w.level)) }

/-- A blocked ldt was translated through the range. -/
def Inval.onLdt (i : Inval) (ctx : Nat) : Wait → Bool
  | .room (some g) => g.parts.any fun p => p.ops.any fun o => i.hits ctx o.va
  | _ => false

/-- ldts that wait for room with a translation that is discarded issue again, and translate anew (R415). (DEDUCED: notes/assumptions/59.) -/
def State.retryLdts (s : State) (i : Inval) : State :=
  { s with warps := s.warps.map fun (n, w) => (n, w.retry s.cycle (w.waiting (i.onLdt (s.ctxOf n)))) }

/-- An invalidation begins (R415). -/
def State.invalidate (s : State) (i : Inval) : State :=
  { (s.dropTranslations i).retryLdts i with invals := s.invals.set s.nextInval i, nextInval := s.nextInval + 1 }

/-- The invalidation is that of a migrate command (R421). -/
def Inval.swings (i : Inval) : Bool :=
  match i.after with
  | .swing .. => true
  | _ => false

/-- A ticket's read of local memory is still to come through a discarded translation; at a swing it is made at the new home instead
(R83). -/
def Inval.onTicket (i : Inval) (e : TicketEntry) : Bool :=
  e.state == 1 && e.reqs.isEmpty && !i.swings && e.parts.any fun o => i.hits e.ctx o.va

/-- Every access translated through a discarded translation has ended (R415 condition 3). -/
def State.invalDone (s : State) (i : Inval) : Bool :=
  s.reqs.all (fun r => !(i.hits r.2.ctx r.2.va || r.2.ops.any fun o => i.hits r.2.ctx o.va))
    && s.tickets.all fun p => !i.onTicket p.2

/-- The lanes of a pool instruction that wait for a request, or for its invalidation. -/
def State.poolWaiter (s : State) (w req : Nat) : Option WaitRec :=
  (s.warp w).waits.find? fun r => match r.wait with
    | .pool n _ _ => n == req
    | _ => false

/-- A pool instruction completes: results written, its lanes go on (R287 to R289). -/
def State.finishPool (s : State) (w : Nat) (r : WaitRec) (d : Operand) (x nw : Nat) (st : Operand) (status : Nat) : State :=
  let y := ((s.warp w).writeLanes r.lanes nw d (fun _ => x)).writeLanes r.lanes 1 st (fun _ => status)
  s.setWarp w (y.release s.cycle r r.lanes)

/-- A wait for walks. -/
def Wait.onWalk : Wait → Bool
  | .tlb _ => true
  | _ => false

/-- What lanes waiting for walks do when translations may have changed: they try again. -/
def State.retryWalks (s : State) (of_ : Nat → Bool) : State :=
  { s with warps := s.warps.map fun (n, w) => (n, if of_ n then w.retry s.cycle (w.waiting Wait.onWalk) else w) }

/-- A ticket's read that has not been made follows its page to the new frame, past the unit's pull (R83). -/
def TicketEntry.moved (e : TicketEntry) (m : MigSlot) : TicketEntry :=
  if e.state = 1 ∧ e.ctx = m.ctx then
    { e with parts := e.parts.map fun o =>
        if m.old ≤ o.pa ∧ o.pa < m.old + m.size then { o with pa := m.new + (o.pa - m.old), mig := true } else o }
  else e

/-- The swing (R81, R421): the slot becomes live, and held requests go on. (DEDUCED: notes/assumptions/77.) -/
def State.swing (s : State) (slot : Nat) : State :=
  let m := s.migs.get slot
  let live := { m with state := if m.state = 1 then 2 else m.state }
  ({ s with migs := s.migs.set slot live, tickets := s.tickets.map fun (p : Nat × TicketEntry) => (p.1, if m.state = 1 then p.2.moved m else p.2) }).retryWalks
    fun w => s.ctxOf w == m.ctx

/-- Memory without the bytes of a range, their poison and their errors. -/
def State.clearRange (s : State) (a n : Nat) : State :=
  { s with
    mem := s.mem.filter fun c => !(a ≤ c.1 && c.1 < a + n)
    poison := s.poison.filter fun p => !(a ≤ 32 * p.1 && 32 * p.1 < a + n)
    badWords := s.badWords.filter fun p => !(a ≤ 8 * p.1 && 8 * p.1 < a + n) }

/-- Pinned frames released by PIN_SET are zeroed (R469). -/
def State.releasePins (s : State) (slice : Bool) (unit frames : Nat) : State :=
  let old := if slice then s.slicePins.get unit else (s.core unit).pins
  let base := if slice then sliceBase unit + 0x20_0000 - 8192 * old else coreBase unit + coreSram - 8192 * old
  let s := s.clearRange base (8192 * (old - frames))
  if slice then { s with slicePins := s.slicePins.set unit frames } else s.setCore unit { s.core unit with pins := frames }

/-- What follows a completed invalidation. -/
def State.afterInval (s : State) (id : Nat) (i : Inval) : State :=
  match i.after with
  | .nothing => s
  | .reply h op body => s.reply h op 0 body
  | .swing h slot => (s.swing slot).reply h 0x32 0 (natToBytes 1 slot)
  | .pin h slice unit frames => (s.releasePins slice unit frames).reply h 0x86 0 []
  | .destroy h => { s with ctxs := s.ctxs.del h.ctx }.reply h 0x02 0 []
  | .pool w d va st status =>
    match (s.warp w).waits.find? fun r => (match r.wait with
        | .pool n _ _ => n == 2 ^ 32 + id
        | _ => false) with
    | some r => s.finishPool w r d va (if d = .z then 0 else 2) st status
    | none => s

/-- An invalidation completes (R415): its translations are discarded again with what walks in progress brought, and what
waits for it happens. -/
def execInvalidationComplete (id : Nat) (s : State) : Host.Outcome State Fault Refusal :=
  match s.invals.find id with
  | none => .next s
  | some i =>
    if s.invalDone i then .next (({ s with invals := s.invals.del id }.dropTranslations i).afterInval id i) else .next s

/-! ### Tables of the pool window (R411) -/

/-- The start of a pool address in the pool window (R286). -/
def poolVa (pa : Nat) : Nat := 0x10_0000_0000_0000 + (pa - 0x8_0000_0000_0000)

/-- Bytes of a page by the attribute's page code, and its leaf level (R287, R407). -/
def pageBits (code : Nat) : Nat := if code = 0 then 13 else if code = 1 then 23 else 33
def pageLevel (code : Nat) : Nat := if code = 0 then 3 else if code = 1 then 2 else 1

/-- An 8-byte word of a context's tables written to local HBM; a failed channel drops and logs it (R427). -/
def State.write8 (s : State) (ctx a x : Nat) : State := s.storePhys ctx a 0 (natToBytes 8 x)

/-- A table frame zeroed, line by line (R411, R427). -/
def State.zeroFrame (s : State) (ctx f : Nat) : State :=
  (List.range 32).foldl (fun s k => s.storePhys ctx (f + 256 * k) 0 (natToBytes 256 0)) s

/-- A free table frame popped from a context's stack and zeroed (R411). -/
def State.popFrame (s : State) (ctx : Nat) : Option (State × Nat) :=
  let st := (s.ctx ctx).stack
  let n := s.mem.readNat st 8
  if n = 0 then none
  else
    let f := s.mem.readNat (st + 8 + 8 * n) 8
    some ((s.write8 ctx st (n - 1)).zeroFrame ctx f, f)

/-- The address of the entry of a level, tables made on the way from popped frames (R411). -/
def State.entryFor (s : State) (ctx va frame : Nat) (depth : Nat) : Nat → Option (State × Nat)
  | 0 => some (s, frame + 8 * (va / 2 ^ levelBits depth % 1024))
  | n + 1 =>
    let a := frame + 8 * (va / 2 ^ levelBits depth % 1024)
    let e := s.mem.readNat a 8
    if pteValid e then s.entryFor ctx va (pteFrame e) (depth + 1) n
    else
      match s.popFrame ctx with
      | none => none
      | some (s, f) => (s.write8 ctx a (f + 1)).entryFor ctx va f (depth + 1) n

/-- A leaf of a level installed; none when the stack runs out. -/
def State.installLeaf (s : State) (ctx va level e : Nat) : Option State :=
  match s.entryFor ctx va (s.ctx ctx).root 0 level with
  | none => none
  | some (s, a) => some (s.write8 ctx a e)

/-- The leaf that lalloc's attributes give a frame (R287, R408); a grant clears write unless access[1] is set (R443). -/
def poolLeaf (attr pa : Nat) (write : Bool) : Nat :=
  pa + 0x25 + (if write then 0x40 else 0) + attr / 2 ^ 9 % 2 * 2 ^ 8 + attr / 2 ^ 7 % 4 * 2 ^ 9 + attr / 2 ^ 5 % 4 * 2 ^ 11

/-- Leaves installed for `n` pages from a pool address. -/
def State.installPages (s : State) (ctx attr : Nat) (write : Bool) (pa : Nat) : Nat → Option State
  | 0 => some s
  | n + 1 =>
    let code := attr / 2 ^ 12 % 4
    match s.installLeaf ctx (poolVa pa) (pageLevel code) (poolLeaf attr pa write) with
    | none => none
    | some s => s.installPages ctx attr write (pa + 2 ^ pageBits code) n

/-- The address of an existing entry of a level on the way to an address. -/
def State.findEntry (s : State) (va frame depth : Nat) : Nat → Option Nat
  | 0 => some (frame + 8 * (va / 2 ^ levelBits depth % 1024))
  | n + 1 =>
    let e := s.mem.readNat (frame + 8 * (va / 2 ^ levelBits depth % 1024)) 8
    if pteValid e then s.findEntry va (pteFrame e) (depth + 1) n else none

/-- Every entry of a table frame is not present. -/
def State.frameEmpty (s : State) (f : Nat) : Bool := (List.range 1024).all fun i => s.mem.get (f + 8 * i) % 2 == 0

/-- A level-3 frame without present entries pushed back, unless the stack is full (R411). -/
def State.pushFrame (s : State) (ctx va : Nat) : State :=
  match s.findEntry va (s.ctx ctx).root 0 2 with
  | none => s
  | some a =>
    let e := s.mem.readNat a 8
    let st := (s.ctx ctx).stack
    let n := s.mem.readNat st 8
    if pteValid e ∧ pteLeaf e = false ∧ s.frameEmpty (pteFrame e) ∧ n < s.mem.readNat (st + 8) 8 then
      ((s.write8 ctx a 0).write8 ctx (st + 16 + 8 * n) (pteFrame e)).write8 ctx st (n + 1)
    else s

/-- The leaves of `n` pages from a pool address removed (R288, R411). -/
def State.removePages (s : State) (ctx code pa : Nat) : Nat → State
  | 0 => s
  | n + 1 =>
    let s := match s.findEntry (poolVa pa) (s.ctx ctx).root 0 (pageLevel code) with
      | some a => s.write8 ctx a 0
      | none => s
    let s := if code = 0 then s.pushFrame ctx (poolVa pa) else s
    s.removePages ctx code (pa + 2 ^ pageBits code) n

/-! ### Poisoned table entries (R424) -/

/-- A table entry read on the way to an address, down `n` levels, is poisoned (R424). -/
def State.pathBad (s : State) (va frame depth : Nat) : Nat → Bool
  | 0 => false
  | n + 1 =>
    let a := frame + 8 * (va / 2 ^ levelBits depth % 1024)
    let e := s.mem.readNat a 8
    s.readBad a 8 || (pteValid e && s.pathBad va (pteFrame e) (depth + 1) n)

/-- The tables missing on the way to an address, down `n` levels (R411). -/
def State.tablesMissing (s : State) (va frame depth : Nat) : Nat → Nat
  | 0 => 0
  | n + 1 =>
    let e := s.mem.readNat (frame + 8 * (va / 2 ^ levelBits depth % 1024)) 8
    if pteValid e then s.tablesMissing va (pteFrame e) (depth + 1) n else n + 1

/-- A word of a context's table-frame stack that taking `k` frames reads is poisoned (R411, R424). -/
def State.stackBad (s : State) (ctx k : Nat) : Bool :=
  let st := (s.ctx ctx).stack
  let n := s.mem.readNat st 8
  k != 0 && (s.readBad st 8 || (List.range (Nat.min k n)).any fun i => s.readBad (st + 8 + 8 * (n - i)) 8)

/-- The first page of `n` whose installation reads a poisoned entry or stack word (R411, R424). (DEDUCED: notes/assumptions/122.) -/
def State.installBad (s : State) (ctx attr : Nat) (write : Bool) (pa : Nat) : Nat → Option Nat
  | 0 => none
  | n + 1 =>
    let code := attr / 2 ^ 12 % 4
    let va := poolVa pa
    let root := (s.ctx ctx).root
    if s.pathBad va root 0 (pageLevel code) ∨ s.stackBad ctx (s.tablesMissing va root 0 (pageLevel code)) then some va
    else
      match s.installLeaf ctx va (pageLevel code) (poolLeaf attr pa write) with
      | none => none
      | some s => s.installBad ctx attr write (pa + 2 ^ pageBits code) n

/-- Returning the frame of a page's level-3 table reads a poisoned word (R411, R424). -/
def State.pushBad (s : State) (ctx va : Nat) : Bool :=
  match s.findEntry va (s.ctx ctx).root 0 2 with
  | none => false
  | some a =>
    let e := s.mem.readNat a 8
    s.readBad a 8 || (pteValid e && pteLeaf e == false
      && (s.readBad (pteFrame e) 8192 || (s.frameEmpty (pteFrame e) && s.readBad (s.ctx ctx).stack 16)))

/-- The first page of `n` whose removal reads a poisoned entry or stack word (R411, R424). (DEDUCED: notes/assumptions/122.) -/
def State.removeBad (s : State) (ctx code pa : Nat) : Nat → Option Nat
  | 0 => none
  | n + 1 =>
    let va := poolVa pa
    let cleared := match s.findEntry va (s.ctx ctx).root 0 (pageLevel code) with
      | some a => s.write8 ctx a 0
      | none => s
    if s.pathBad va (s.ctx ctx).root 0 (pageLevel code) ∨ (code = 0 ∧ cleared.pushBad ctx va) then some va
    else (s.removePages ctx code pa 1).removeBad ctx code (pa + 2 ^ pageBits code) n

/-! ### Leaves found by a walk (R443) -/

/-- The leaf entry on the way to an address, if there is one, and the level at which the way ends. -/
def State.leafOn (s : State) (va frame depth : Nat) : Nat → Option Nat × Nat
  | 0 => (none, depth)
  | n + 1 =>
    let a := frame + 8 * (va / 2 ^ levelBits depth % 1024)
    let e := s.mem.readNat a 8
    if pteValid e = false then (none, depth)
    else if n = 0 ∨ pteLeaf e then (some a, depth)
    else s.leafOn va (pteFrame e) (depth + 1) n

/-- The leaves of a range removed as a context's tables hold them, whatever their size (R411, R443); none when an entry read on the
way is poisoned (R424). `fuel` bounds the pages. -/
def State.removeFound (s : State) (ctx hi : Nat) : Nat → Nat → Option State
  | 0, _ => some s
  | fuel + 1, va =>
    if hi ≤ va then some s
    else
      let root := (s.ctx ctx).root
      let (a, depth) := s.leafOn va root 0 4
      let cleared := match a with
        | some a => s.write8 ctx a 0
        | none => s
      let pushes := a.isSome && depth == 3
      if s.pathBad va root 0 depth ∨ (pushes ∧ cleared.pushBad ctx va) then none
      else (if pushes then cleared.pushFrame ctx va else cleared).removeFound ctx hi fuel ((va / 2 ^ levelBits depth + 1) * 2 ^ levelBits depth)

end Sys2Proof.Machine
end

