-- ==== Sys2Proof/Machine/Pool.lean ====
section
/-! DEFINITION. Pool allocation: lalloc, lfree, lquota, the landing's answers, and the fabric timeout of every request that
waits for a response (R70, R115, R286 to R289, R442). -/

namespace Sys2Proof.Machine

open Sys2Proof

/-! ### Attributes and quotas (R287, R442) -/

/-- Fields of the lalloc attribute word. -/
def attrPage (a : Nat) : Nat := bits a 13 12
def attrPlace (a : Nat) : Nat := bits a 11 10
def attrLanding (a : Nat) : Nat := bits a 3 0

/-- The attribute word and size hold values the table allows (R287 step 1). -/
def attrOk (size a : Nat) : Bool :=
  bits a 31 14 == 0 && attrPage a != 3 && attrPlace a != 3 && bits a 8 7 != 3 && bits a 6 5 < 2 && bits a 4 4 == 0
    && size != 0 && size ≤ 2 ^ 46

/-- The size rounded up to the page size (R287 step 2). -/
def roundedSize (size a : Nat) : Nat := (size + 2 ^ pageBits (attrPage a) - 1) / 2 ^ pageBits (attrPage a) * 2 ^ pageBits (attrPage a)

/-- Bytes of a context's live allocations at a landing. -/
def Landing.used (l : Landing) (ctx : Nat) : Nat :=
  ((l.allocs.filter fun a => a.ctx == ctx && !a.revoked).map (·.size)).sum

/-- The remaining quota (R289, R442). -/
def Landing.remaining (l : Landing) (ctx : Nat) : Nat := l.quota.get ctx - l.used ctx

/-- An allocation of the landing overlaps a range. -/
def Landing.taken (l : Landing) (off size : Nat) : Option PoolAlloc :=
  l.allocs.find? fun a => !a.revoked && off < a.off + a.size && a.off < off + size

/-- The lowest aligned free range in [lo, hi), past each allocation in the way. (DESIGN CHOICE: notes/assumptions/24.) -/
def Landing.fitIn (l : Landing) (size align hi : Nat) : Nat → Nat → Option Nat
  | 0, _ => none
  | n + 1, off =>
    let off := (off + align - 1) / align * align
    if hi < off + size then none
    else
      match l.taken off size with
      | none => some off
      | some a => l.fitIn size align hi n (a.off + a.size)

/-- Where a landing that follows the lowest-address rule grants a range (R70, R287 step 5). (DESIGN CHOICE: notes/assumptions/24.) -/
def Landing.place (l : Landing) (size attr : Nat) : Option Nat :=
  let align := 2 ^ pageBits (attrPage attr)
  let fuel := l.allocs.length + 1
  let fast := if attrPlace attr = 2 then none else l.fitIn size align 0x100_0000_0000 fuel 0
  match fast with
  | some off => some off
  | none =>
    if attrPlace attr = 1 then none
    else (sortBy (·.1) l.extents).findSome? fun e => l.fitIn size align (e.1 + e.2) fuel e.1

/-- The landing's answer to a pool request when nothing outside says otherwise. -/
def State.poolAnswer (s : State) (r : Req) : PoolAnswer :=
  let l := s.landings.get r.port
  match r.kind with
  | .alloc size attr _ =>
    if l.remaining r.ctx < roundedSize size attr then .quota
    else
      match l.place (roundedSize size attr) attr with
      | some off => .granted off
      | none => .noRoom
  | .free _ => .freed
  | _ => .quotaLeft (l.remaining r.ctx)

/-- The landing can grant the range: aligned, inside one of its kinds of memory that place allows, and free (R70). -/
def Landing.canGrant (l : Landing) (size attr off : Nat) : Bool :=
  off % 2 ^ pageBits (attrPage attr) == 0 && (l.taken off size).isNone
    && ((attrPlace attr != 2 && off + size ≤ 0x100_0000_0000)
      || (attrPlace attr != 1 && l.extents.any fun e => e.1 ≤ off && off + size ≤ e.1 + e.2))

/-! ### Results -/

/-- A trap taken by the lanes of a waiting pool instruction. -/
def State.poolTrap (s : State) (w : Nat) (r : WaitRec) (t : Trap) : State :=
  (s.setWarp w ((s.warp w).retry s.cycle r.lanes)).takeResponse w
    { t with group := r.lanes, ret := some r.pc, port := r.port, slot := slotOfPc r.pc }

/-- A pool request fails: its lanes take the trap, or the host's command is refused with status 7 (R434). -/
def State.poolStop (s : State) (id : Nat) (r : Req) (t : Trap) : State :=
  let s1 := { s with reqs := s.reqs.del id }.drainCheck r.port
  match r.kind with
  | .alloc _ _ (some h) => s1.reply h 0x50 7 []
  | _ =>
    match s.poolWaiter r.warp id with
    | some rec_ => s1.poolTrap r.warp rec_ { t with lanes := rec_.lanes }
    | none => s1

/-- A pool request fails with a cause that names its landing, but for ILLEGAL_OPERAND. (DEDUCED: notes/assumptions/120.) -/
def State.poolFault (s : State) (id : Nat) (r : Req) (cause : Nat) : State :=
  s.poolStop id r { cause := cause, landing := if cause = causeIllegalOperand then 0 else r.port }

/-- A pool request meets a poisoned table entry or stack word at a page (R424). (DEDUCED: notes/assumptions/122.) -/
def State.poolPoisoned (s : State) (id : Nat) (r : Req) (va : Nat) : State :=
  s.poolStop id r { cause := causeMemoryUncorrectable, addr := BitVec.ofNat 64 va }

/-- A pool request ends with a value and a status (R287 to R289); a host's allocation is refused unless OK. -/
def State.poolDone (s : State) (id : Nat) (r : Req) (x status : Nat) : State :=
  let s1 := { s with reqs := s.reqs.del id }.drainCheck r.port
  match r.kind with
  | .alloc _ _ (some h) => s1.reply h 0x50 7 []
  | _ =>
    match s.poolWaiter r.warp id with
    | some rec_ =>
      (match rec_.wait with
        | .pool _ d st => s1.finishPool r.warp rec_ d x 2 st status
        | _ => s1)
    | none => s1

/-- Replace the request a waiting pool instruction waits for. -/
def State.rewait (s : State) (w : Nat) (rec_ : WaitRec) (n : Nat) : State :=
  match rec_.wait with
  | .pool _ d st =>
    let x := s.warp w
    s.setWarp w { x with waits := x.waits.map fun y => if y == rec_ then { rec_ with wait := .pool n d st } else y }
  | _ => s

/-- The invalidation of an instruction's own range, after which it completes (R287 step 5, R288). -/
def State.poolInval (s : State) (id : Nat) (r : Req) (va len x status : Nat) : State :=
  let s1 := { s with reqs := s.reqs.del id }.drainCheck r.port
  match r.kind with
  | .alloc _ _ (some h) =>
    s1.invalidate { ctx := r.ctx, all := false, va := va, len := len, after := .reply h 0x50 (natToBytes 8 x) }
  | _ =>
    match s.poolWaiter r.warp id with
    | some rec_ =>
      (match rec_.wait with
        | .pool _ d st =>
          (s1.rewait r.warp rec_ (2 ^ 32 + s1.nextInval)).invalidate
            { ctx := r.ctx, all := false, va := va, len := len, after := .pool r.warp d x st status }
        | _ => s1)
    | none => s1.invalidate { ctx := r.ctx, all := false, va := va, len := len, after := .nothing }

/-! ### The landing's answers -/

/-- A granted range: mapped, then invalidated, then given (R287 step 5); without frames enough, or over a poisoned table, the
grant is returned (R411, R424). -/
def State.granted (s : State) (id : Nat) (r : Req) (size attr off : Nat) : State :=
  let pa := poolBase r.port + off
  let l := s.landings.get r.port
  let pages := size / 2 ^ pageBits (attrPage attr)
  match s.installBad r.ctx attr true pa pages, s.installPages r.ctx attr true pa pages with
  | some va, _ => s.poolPoisoned id r va
  | none, none =>
    (match r.kind with
      | .alloc _ _ (some h) => ({ s with reqs := s.reqs.del id }.drainCheck r.port).reply h 0x50 4 []
      | _ => s.poolDone id r 0 statusNoSpace)
  | none, some s =>
    let gone := fun (a : PoolAlloc) => a.revoked && a.ctx == r.ctx && off < a.off + a.size && a.off < off + size
    let a : PoolAlloc := { ctx := r.ctx, off := off, size := size, attr := attr, revoked := false, due := none }
    let s := { s with landings := s.landings.set r.port { l with allocs := (l.allocs.filter fun a => !gone a) ++ [a] } }
    s.poolInval id r (poolVa pa) size (poolVa pa) statusOk

/-- The allocation that starts at a pool address, at a landing. -/
def Landing.startsAt (l : Landing) (ctx off : Nat) : Option PoolAlloc := l.allocs.find? fun a => a.ctx == ctx && a.off == off

/-- Tickets whose read of some of a range of the pool is still to come expire (R288, R292). -/
def State.expireRange (s : State) (pa n : Nat) : State :=
  let hit := fun (e : TicketEntry) => e.state == 1 && e.parts.any fun o => pa < o.pa + e.partBytes && o.pa < pa + n
  ((s.tickets.filter fun p => hit p.2).map (·.1)).foldl (fun s k => if hit (s.tickets.get k) then s.freeTicket k false else s) s

/-- An allocation that is freed: its grants end, and its mapping goes (R288, R443). -/
def State.endAlloc (s : State) (r : Req) (a : PoolAlloc) : State :=
  let l := s.landings.get r.port
  let s := { s with landings := s.landings.set r.port { l with
    allocs := l.allocs.filter (· != a)
    grants := l.grants.filter fun g => !(g.omod == s.module_ && g.octx == r.ctx && a.covers g.off g.len) } }
  (s.removePages r.ctx (attrPage a.attr) (poolBase r.port + a.off) (a.size / 2 ^ pageBits (attrPage a.attr))).expireRange
    (poolBase r.port + a.off) a.size

/-- The removal of an allocation's mapping reads a poisoned word, at the page answered (R424). -/
def State.endBad (s : State) (r : Req) (a : PoolAlloc) : Option Nat :=
  s.removeBad r.ctx (attrPage a.attr) (poolBase r.port + a.off) (a.size / 2 ^ pageBits (attrPage a.attr))

/-- An allocation freed, then its translations, then the instruction completes (R288); a poisoned table faults it with
nothing freed (R424). -/
def State.freed (s : State) (id : Nat) (r : Req) (off : Nat) (a : PoolAlloc) : State :=
  match s.endBad r a with
  | some va => s.poolPoisoned id r va
  | none => (s.endAlloc r a).poolInval id r (poolVa (poolBase r.port + off)) a.size 0 (if a.revoked then statusExpired else statusOk)

/-- An lfree that finds its landing lost: a live allocation was revoked by the loss (R116, R288, R291). -/
def State.freeLost (s : State) (id : Nat) (r : Req) (va : Nat) : State :=
  let off := va - poolVa (poolBase r.port)
  match (s.landings.get r.port).startsAt r.ctx off with
  | some a =>
    let b := { a with revoked := true }
    let l := s.landings.get r.port
    { s with landings := s.landings.set r.port { l with allocs := l.allocs.map fun x => if x = a then b else x } }.freed id r off b
  | none => s.poolFault id r causeIllegalOperand

/-- An lfree whose answer does not come in time: the module's mapping goes, whether or not the landing freed the range, and as of a store
whose outcome is unknown the warp's indicator records FABRIC_TIMEOUT (R98, R288, R291, R439). (DEDUCED: notes/assumptions/120.) -/
def State.freeUnknown (s : State) (id : Nat) (r : Req) (va : Nat) (performed : Bool) : State :=
  let noted := if (s.warp r.warp).live then s.setWarp r.warp ((s.warp r.warp).recordRemote ⟨causeFabricTimeout, va, r.port⟩) else s
  match (s.landings.get r.port).startsAt r.ctx (va - poolVa (poolBase r.port)) with
  | none => if performed then noted.poolDone id r 0 statusOk else s.poolFault id r causeIllegalOperand
  | some a =>
    if performed then noted.poolDone id r 0 statusOk
    else
      match s.endBad r a with
      | some v => s.poolPoisoned id r v
      | none =>
        let pa := poolBase r.port + a.off
        ((noted.removePages r.ctx (attrPage a.attr) pa (a.size / 2 ^ pageBits (attrPage a.attr))).expireRange pa a.size).poolInval
          id r (poolVa pa) a.size 0 statusOk

/-- The performer has acted on a request whose answer is lost: nothing more comes of it but its timeout (R98, R115). -/
def State.answered (s : State) (id : Nat) (r : Req) : State := { s with reqs := s.reqs.set id { r with discarded := true } }

/-- A landing acts on a pool request, and its answer is lost: a grant counts until it is revoked, twice fabrictimeout later
(R287); a release has removed the mapping and the allocation (R288). (DESIGN CHOICE: notes/assumptions/113.) -/
def State.poolLost (s : State) (id : Nat) (r : Req) : State :=
  let l := s.landings.get r.port
  let s1 := s.answered id r
  match r.kind, s.poolAnswer r with
  | .alloc size attr _, .granted off =>
    let a : PoolAlloc := { ctx := r.ctx, off := off, size := roundedSize size attr, attr := attr, revoked := false,
                           due := some (s.cycle + 2 * s.fabricLimit r.ctx) }
    { s1 with landings := s.landings.set r.port { l with allocs := l.allocs ++ [a] } }
  | .free va, _ =>
    (match l.startsAt r.ctx (va - poolVa (poolBase r.port)) with
      | some a =>
        if (s.endBad r a).isSome then s1
        else
          (s1.endAlloc r a).invalidate
            { ctx := r.ctx, all := false, va := poolVa (poolBase r.port + a.off), len := a.size, after := .nothing }
      | none => s1)
  | _, _ => s1

/-- Grants that were never confirmed are revoked when their time is past (R287). (DESIGN CHOICE: notes/assumptions/113.) -/
def State.revokeGrants (s : State) : State :=
  if s.landings.all fun p => p.2.allocs.all fun a => a.due.isNone then s
  else
    { s with landings := s.landings.map fun (p : Nat × Landing) => (p.1, { p.2 with
        allocs := p.2.allocs.filter fun a => match a.due with
          | some c => s.cycle < c
          | none => true }) }

/-- A landing answers a pool instruction (R287 to R289). An answer that the landing cannot give changes nothing; a
`timeout` says that the landing acted and its answer is lost. -/
def execLandingPoolResponse (id : Nat) (answer : PoolAnswer) (s : State) : Host.Outcome State Fault Refusal :=
  match s.reqs.find id with
  | none => .next (s.lateResponse id)
  | some r =>
    if r.open_ s = false then .next s
    else
      let l := s.landings.get r.port
      match r.kind, answer with
      | .free va, .lost => .next (s.freeLost id r va)
      | _, .lost => .next (s.poolFault id r causeLandingLost)
      | _, .timeout => .next (s.poolLost id r)
      | .alloc size attr _, .granted off =>
        if l.canGrant (roundedSize size attr) attr off ∧ roundedSize size attr ≤ l.remaining r.ctx then
          .next (s.granted id r (roundedSize size attr) attr off)
        else .next s
      | .alloc .., .noRoom => .next (s.poolDone id r 0 statusNoSpace)
      | .alloc .., .quota => .next (s.poolFault id r causeQuota)
      | .free va, .freed =>
        let off := va - poolVa (poolBase r.port)
        (match l.startsAt r.ctx off with
          | some a => .next (s.freed id r off a)
          | none => .next (s.poolFault id r causeIllegalOperand))
      | .quota, .quotaLeft n => .next (s.poolDone id r n statusOk)
      | _, _ => .next s

/-! ### The instructions -/

/-- A pool request sent to its landing; a lost landing faults (R287, R289). -/
def State.askLanding (s : State) (len landing : Nat) (kind : ReqKind) (va : Nat) (d st : Operand) : Except Trap State :=
  if s.portLost landing then .error { s.mkTrap causeLandingLost with landing := landing }
  else
    let ctx := s.ctxOf s.cur.warp
    let r : Req :=
      { kind := kind, warp := s.cur.warp, ctx := ctx, va := va, pa := poolBase landing, size := 0, bytes := 0, home := 1,
        ops := [], port := landing, tag := none, deadline := s.cycle + s.fabricLimit ctx, discarded := false }
    .ok ((s.block len (.pool s.nextReq d st)).send r)

/-- A landing is attached at a port. -/
def State.attached (s : State) (landing : Nat) : Bool := landing < 16 && (s.ports.get landing).attached

/-- lalloc (R287). -/
def execLalloc (d a b c : Operand) (s : State) : Host.Outcome State Fault Refusal :=
  let i : Instr := .lalloc d a b c
  runOp i s fun s =>
    let size := s.lead64 a
    let attr := s.lead32 b
    if s.same64 a = false ∨ s.same32 b = false ∨ attrOk size attr = false ∨ s.attached (attrLanding attr) = false then
      .error (s.mkTrap causeIllegalOperand)
    else s.askLanding i.len (attrLanding attr) (.alloc size attr none) 0 d c

/-- The landing of a pool virtual address, if it lies in the pool window (R286). -/
def landingOfVa (va : Nat) : Option Nat :=
  if 0x10_0000_0000_0000 ≤ va ∧ va < 0x14_0000_0000_0000 then some ((va - 0x10_0000_0000_0000) / 0x4000_0000_0000) else none

/-- lfree (R288): a release at pool scope, then the landing's release; an allocation of a lost landing needs no answer. -/
def execLfree (d a : Operand) (s : State) : Host.Outcome State Fault Refusal :=
  let i : Instr := .lfree d a
  runOp i s fun s =>
    let va := s.lead64 a
    if s.same64 a = false then .error (s.mkTrap causeIllegalOperand)
    else
      s.release true i.len fun s =>
        match landingOfVa va with
        | none => .error (s.mkTrap causeIllegalOperand)
        | some l =>
          if s.portLost l then
            let ctx := s.ctxOf s.cur.warp
            match (s.landings.get l).startsAt ctx (va - poolVa (poolBase l)) with
            | none => .error (s.mkTrap causeIllegalOperand)
            | some al =>
              let r : Req :=
                { kind := .free va, warp := s.cur.warp, ctx := ctx, va := 0, pa := poolBase l, size := 0, bytes := 0, home := 1,
                  ops := [], port := l, tag := none, deadline := 0, discarded := false }
              let s := s.block i.len (.pool s.nextReq .z d)
              .ok ({ s with nextReq := s.nextReq + 1 }.freed s.nextReq r (va - poolVa (poolBase l)) al)
          else s.askLanding i.len l (.free va) va .z d

/-- lquota (R289). (DEDUCED: notes/assumptions/22.) -/
def execLquota (d a : Operand) (s : State) : Host.Outcome State Fault Refusal :=
  let i : Instr := .lquota d a
  runOp i s fun s =>
    let l := s.lead32 a
    if s.attached l = false then .error (s.mkTrap causeIllegalOperand)
    else s.askLanding i.len l .quota 0 d .z

/-- A request that waits for a response times out (R98, R115): its lanes fault, a ticket read reclaims its entry, a host's
allocation is refused. (DEDUCED: notes/assumptions/120.) -/
def execFabricTimeout (id : Nat) (performed : Bool) (s : State) : Host.Outcome State Fault Refusal :=
  match s.reqs.find id with
  | none => .next s
  | some r =>
    if s.cycle < r.deadline then .next s
    else
      match r.kind with
      | .load | .atom _ _ true =>
        let s := s.timedOut id r performed
        .next ((s.deliver id r (reqFault r causeFabricTimeout)).dropReq id)
      | .ticket key => .next ((s.timedOut id r performed).freeTicket key false)
      | .free va => .next ((s.timedOut id r false).freeUnknown id r va performed)
      | .alloc .. | .quota => .next ((s.timedOut id r false).poolFault id r causeFabricTimeout)
      | _ => .next s

end Sys2Proof.Machine
end

