-- ==== Sys2Proof/Machine/Pages.lean ====
section
/-! DEFINITION. Walks, faults held for the driver, and the memory channels' own steps: frames, scrub, background pulls and
remap tables (R407 to R413, R416 to R419, R421, R424 to R427, R462, R463). -/

namespace Sys2Proof.Machine

open Sys2Proof

/-! ### Lanes that wait for a page (R413, R416) -/

/-- A wait for the walk of a page. -/
def Wait.onPage (vpn : Nat) : Wait → Bool
  | .tlb ps => ps.contains vpn
  | _ => false

/-- A warp's lanes that wait for a page issue again; a fault of the walk is kept for them. -/
def Warp.wakePage (w : Warp) (cycle vpn : Nat) (fault : Option Nat) : Warp :=
  let m := w.waiting (Wait.onPage vpn)
  if m = 0 then w
  else
    let x := w.retry cycle m
    match fault with
    | some c => { x with walkFaults := x.walkFaults ++ [⟨vpn, c, m⟩] }
    | none => x

/-- A warp's lanes that wait for a page wait for the held fault that stands for it, and for nothing else (R416). -/
def Warp.holdPage (w : Warp) (vpn n : Nat) : Warp :=
  { w with waits := w.waits.map fun r => if r.wait.onPage vpn then { r with wait := .held n } else r }

/-- The lanes of some warps that wait for a page are held for the driver (R416). -/
def State.holdPage (s : State) (of_ : Nat → Bool) (vpn n : Nat) : State :=
  { s with warps := s.warps.map fun (k, w) => (k, if of_ k then w.holdPage vpn n else w) }

/-- A wait for a held fault. -/
def Wait.onHeld (n : Nat) : Wait → Bool
  | .held k => k == n
  | _ => false

/-- The end of a held fault in a warp: its lanes issue again; a failed one's page faults for them (R418). -/
def Warp.wakeHeld (w : Warp) (cycle n vpn : Nat) (retry : Bool) : Warp :=
  let m := w.waiting (Wait.onHeld n)
  if m = 0 then w
  else
    let x := w.retry cycle m
    if retry then x else { x with walkFaults := x.walkFaults ++ [⟨vpn, causePageFault, m⟩] }

/-- The lanes of some warps that wait for a page issue again. -/
def State.wakePage (s : State) (of_ : Nat → Bool) (vpn : Nat) (fault : Option Nat) : State :=
  { s with warps := s.warps.map fun (n, w) => (n, if of_ n then w.wakePage s.cycle vpn fault else w) }

/-- A pending miss ends. -/
def State.endMiss (s : State) (core : Nat) (m : Miss) : State :=
  let c := s.core core
  { s.setCore core { c with misses := c.misses.filter (· != m) } with sched := { s.sched with walkers := core + 1 } }

/-- Lanes of some warps wait for a page; a miss that only engines wait for is judged by their own accesses (R416). -/
def State.lanesWait (s : State) (of_ : Nat → Bool) (vpn : Nat) : Bool :=
  s.warps.any fun p => of_ p.1 && p.2.waiting (Wait.onPage vpn) != 0

/-- A walk of a core's pending miss ends (R407, R412, R413): the TLB is filled and the lanes go on; or they fault; or the page
is held for the driver, and they wait (R416). -/
def execPageWalk (core idx : Nat) (s : State) : Host.Outcome State Fault Refusal :=
  match (s.core core).misses[idx]? with
  | none => .next s
  | some m =>
    let s := (s.endMiss core m).countWalk m.ctx m.va
    let here := fun w => s.coreOf w == core && s.ctxOf w == m.ctx
    match s.walk m.ctx m.va with
    | (.leaf e size, cache) =>
      let s := s.cacheWalk cache
      .next ((s.setCore core ((s.core core).fillTlb m.ctx m.va e size)).wakePage here m.vpn none)
    | (.notPresent w, cache) =>
      let s := s.cacheWalk cache
      if w && s.lanesWait here m.vpn then
        match s.hold m.ctx m.va m.kind core false with
        | some (s, n) => .next (s.holdPage here m.vpn n)
        | none => .next (s.wakePage here m.vpn (some causePageFault))
      else .next (s.wakePage here m.vpn (some causePageFault))
    | (.bad, cache) => .next ((s.cacheWalk cache).wakePage here m.vpn (some causeProtection))
    | (.poisoned pa, cache) =>
      .next (((s.cacheWalk cache).logWalk m.ctx pa m.va).wakePage here m.vpn (some causeMemoryUncorrectable))

/-! ### The end of a held fault (R418) -/

/-- An engine operation held for a fault goes on; a failed one remembers the page. -/
def EngEntry.unhold (e : EngEntry) (n vpn : Nat) (retry : Bool) : EngEntry :=
  if e.hold = some n then { e with hold := none, failed := if retry then e.failed else e.failed ++ [vpn] } else e

/-- A deck task held for a fault goes on. -/
def DeckTask.unhold (t : DeckTask) (n vpn : Nat) (retry : Bool) : DeckTask :=
  if t.hold = some n then { t with hold := none, failed := if retry then t.failed else t.failed ++ [vpn] } else t

/-- The engines of a core with the operations held for a fault going on. -/
def Engines.unhold (g : Engines) (n vpn : Nat) (retry : Bool) : Engines :=
  let go := fun (l : List EngEntry) => l.map fun e => e.unhold n vpn retry
  { g with
    copy := g.copy.map fun (q, l) => (q, go l)
    bulk := go g.bulk, enc := go g.enc, bin := go g.bin
    deck := g.deck.map fun (t : DeckTask) => t.unhold n vpn retry }

/-- A held fault ends: every access it held walks again, or faults PAGE_FAULT. -/
def State.endHeld (s : State) (n : Nat) (h : Held) (retry : Bool) : State :=
  let s := { s with held := s.held.del n, warps := s.warps.map fun (p : Nat × Warp) => (p.1, p.2.wakeHeld s.cycle n h.vpn retry) }
  { s with engines := s.engines.map fun (p : Nat × Engines) => (p.1, p.2.unhold n h.vpn retry) }

/-- The cycles of 100 ms. -/
def heldLimit : Nat := 100000 * Config.cyclesPerUs

/-- A fault not resolved within 100 ms is failed (R418). -/
def execHeldFaultTimeout (number : Nat) (s : State) : Host.Outcome State Fault Refusal :=
  match s.held.find number with
  | none => .next s
  | some h => if s.cycle < h.since + heldLimit then .next s else .next (s.endHeld number h false)

/-! ### Channels (R426, R427, R462, R463) -/

/-- A record for a channel in the error log (R425). (DESIGN CHOICE: notes/assumptions/70.) -/
def State.logChannel (s : State) (kind ch : Nat) : State := s.logError kind 8 0xFFFF ch 0 0

/-- A channel failed (R427, R449). (DESIGN CHOICE: notes/assumptions/70.) -/
def State.failChannel (s : State) (ch : Nat) : State :=
  { s with chans := s.chans.set ch { s.chans.get ch with failed := true } }.logChannel 6 ch

/-- The n-th granule's address of a channel, ascending (R56, R426, R463). -/
def granuleOf (ch n : Nat) : Nat :=
  let hi := n / 4096 % 12288
  let mid := n / 64 % 64
  hi * 2 ^ 25 + Nat.xor (ch % 32) (hi % 32) * 2 ^ 20 + mid * 2 ^ 14 + Nat.xor (ch / 32) (mid / 8) * 2 ^ 11 + n % 64 * 32

/-- Granules of a channel: 1.5 GiB (R462). -/
def channelGranules : Nat := 12288 * 4096

/-- An entry of a channel's remap table fails its check or differs from its mirror (R463). -/
def Chan.entryBad (c : Chan) (i : Nat) : Bool := c.badTable.contains i || c.table.get i != c.mirror.get i

/-- A channel's refresh slot: the array is refreshed, which no program sees (R462). -/
def execRefreshSlot (_channel : Nat) (s : State) : Host.Outcome State Fault Refusal := .next s

/-- A granule scrubbed: poison is found, or an error of one symbol is corrected in place and counted (R424, R463). -/
def State.scrubGranule (s : State) (a : Nat) : State :=
  if s.badGranule (a / 32) then s.findPoison a 0xFFFF 0
  else if (s.weak.find (a / 32)).isSome then
    ({ s with weak := s.weak.del (a / 32) }).countCorrected 6 (homeSlice a)
  else s

/-- A channel's scrub slot: eight granules are scrubbed, and one remap entry is checked (R462, R463). A failed channel skips it.
(DESIGN CHOICE: notes/assumptions/71.) -/
def execScrubSlot (ch : Nat) (s : State) : Host.Outcome State Fault Refusal :=
  let c := s.chans.get ch
  if c.failed then .next s
  else
    let s := (List.range 8).foldl (fun s k => s.scrubGranule (granuleOf ch (c.scrub + k))) s
    let c := s.chans.get ch
    let bad := c.entryBad c.check
    let s := { s with chans := s.chans.set ch { c with scrub := (c.scrub + 8) % channelGranules, check := (c.check + 1) % 512 } }
    .next (if bad then { s with agenda := .event (.remapReload ch) :: s.agenda } else s)

/-- The reload of a channel's remap table from its mirror (R427): the channel resumes, or fails. (DESIGN CHOICE: notes/assumptions/71.) -/
def execRemapReload (ch : Nat) (s : State) : Host.Outcome State Fault Refusal :=
  let c := s.chans.get ch
  if c.failed ∨ (c.badTable.isEmpty ∧ c.table = c.mirror) then .next s
  else
    let s := { s with chans := s.chans.set ch { c with table := c.mirror, badTable := c.badMirror } }.logChannel 5 ch
    .next (if c.badMirror.isEmpty then s else s.failChannel ch)

/-- The channel a line of a migrating page is pulled in: that of its old frame, of its new one, or any (R421, R462). (DESIGN CHOICE: notes/assumptions/72.) -/
def MigSlot.lineChannel (m : MigSlot) (line : Nat) : Option Nat :=
  if m.old + 256 * line < hbmEnd then some (chanOf (m.old + 256 * line))
  else if m.new + 256 * line < hbmEnd then some (chanOf (m.new + 256 * line))
  else none

/-- A line's old frame can be reached now. -/
def State.lineReachable (s : State) (m : MigSlot) (line : Nat) : Bool :=
  let a := m.old + 256 * line
  !isRemote a || (match s.carrier a with
    | some port => (s.ports.get port).state == 2
    | none => true)

/-- A line of a live migration that a channel's pull slot may take. -/
def MigSlot.wants (m : MigSlot) (ch line : Nat) : Bool :=
  !m.pulled.contains line && (m.failed.find line).isNone && (m.lineChannel line == some ch || m.lineChannel line == none)

/-- The next line for a channel's pull slot: the lowest slot's lowest line not yet pulled (R421). (DESIGN CHOICE: notes/assumptions/72.) -/
def State.nextPull (s : State) (ch : Nat) : Option (Nat × Nat) :=
  s.migs.findSome? fun p =>
    if p.2.state = 2 then
      ((List.range p.2.lines).find? (p.2.wants ch)).bind fun l => if s.lineReachable p.2 l then some (p.1, l) else none
    else none

/-- A channel's pull slot: at most one line of a live migration (R421, R462). A failed channel skips it. -/
def execBackgroundPullSlot (ch : Nat) (s : State) : Host.Outcome State Fault Refusal :=
  if (s.chans.get ch).failed then .next s
  else
    match s.nextPull ch with
    | some (slot, line) => .next (s.pull slot line true)
    | none => .next s

end Sys2Proof.Machine
end

