-- ==== Sys2Proof/Machine/Links.lean ====
section
/-! DEFINITION. The fabric's own steps: links up and down, lost landings, extents, and requests of other modules
(R71, R92, R116, R438 to R440, R444). -/

namespace Sys2Proof.Machine

open Sys2Proof

/-! ### Requests that will not be served (R72, R98, R108, R116) -/

/-- A request whose landing is lost: loads and atomics fault, stores are dropped and recorded, tickets expire, pool
instructions fault, and the release of a lost allocation completes (R116, R288). -/
def State.loseReq (s : State) (id : Nat) (r : Req) : State :=
  match r.kind with
  | .load => (s.deliver id r (reqFault r causeLandingLost)).dropReq id
  | .atom _ _ true => (s.deliver id r (reqFault r causeLandingLost)).dropReq id
  | .atom _ _ false | .store => (s.recordStore r causeLandingLost).endStore id r
  | .ticket key => s.freeTicket key false
  | .free va =>
    let off := va - poolVa (poolBase r.port)
    (match (s.landings.get r.port).startsAt r.ctx off with
      | some a => s.freed id r off a
      | none => s.poolFault id r causeIllegalOperand)
  | .alloc .. => s.poolFault id r causeLandingLost
  | .quota => s.poolFault id r causeLandingLost

/-- The requests that meet a test are lost. -/
def State.loseReqs (s : State) (p : State → Req → Bool) : State :=
  s.reqs.foldl (fun s x =>
    match s.reqs.find x.1 with
    | some r => if p s r then s.loseReq x.1 r else s
    | none => s) s

/-- Requests that no port may carry are lost (R72, R439). -/
def State.loseUnsent (s : State) : State := s.loseReqs fun s r => r.tag == none && (s.carrier r.pa).isNone

/-- A request to `n` bytes from an offset of a landing's pool. -/
def Req.inPool (r : Req) (landing off n : Nat) : Bool :=
  match regionOf r.pa with
  | .pool l o => l == landing && o < off + n && off < o + Nat.max 1 r.size
  | _ => false

/-- The allocations that touch a range of a landing are revoked, and its grants end (R71, R116, R444). -/
def Landing.revoke (l : Landing) (off n : Nat) : Landing :=
  { l with
    allocs := l.allocs.map fun a => if a.off < off + n ∧ off < a.off + a.size then { a with revoked := true } else a
    grants := l.grants.filter fun g => !(g.off < off + n && off < g.off + g.len) }

/-- Bytes of a pool window (R55). -/
def poolWindow : Nat := 0x4000_0000_0000

/-! ### Link state (R438, R440) -/

/-- A port's state changed, with its LINK_STATE event naming a module number (R437, R438). -/
def State.setLink (s : State) (port : Nat) (p : Port) (module_ : Nat) : State :=
  { s with ports := s.ports.set port p }.post
    (eventMsg 1 0xC5 0 (natToBytes 1 port ++ natToBytes 1 p.state ++ natToBytes 1 module_ ++ natToBytes 5 0))

/-- The LINK command that a port owes an answer is answered. (DESIGN CHOICE: notes/assumptions/74.) -/
def State.answerLink (s : State) (port status : Nat) : State :=
  let p := s.ports.get port
  match p.drain with
  | some h => { s with ports := s.ports.set port { p with drain := none } }.reply h 0x70 status []
  | none => s

/-- No port has come up since the last reset: the module has no number yet (R438). (DESIGN CHOICE: notes/assumptions/73.) -/
def State.numbered (s : State) : Bool := s.ports.any fun p => p.2.up

/-- A link finishes training (R438): up, unless its landing gives another number than the first gave. (DESIGN CHOICE: notes/assumptions/73.) (DESIGN CHOICE: notes/assumptions/76.) (DESIGN CHOICE: notes/assumptions/110.) -/
def State.linkUp (s : State) (port module_ : Nat) : State :=
  let p := s.ports.get port
  if p.attached = false ∨ (p.state ≠ 0 ∧ p.state ≠ 1) then s
  else if s.numbered ∧ module_ ≠ s.module_ then s.setLink port { p with state := 1 } module_
  else
    let s := { s with module_ := module_ }
    let s := if p.up then s.countLink port 0x0206 1 else s
    let p := s.ports.get port
    ((s.setLink port { p with state := 2, up := true, lost := false, since := none } module_).answerLink port 0).sendWaiting

/-- LINK_UP (R438). (DESIGN CHOICE: notes/assumptions/73.) (DESIGN CHOICE: notes/assumptions/76.) (DESIGN CHOICE: notes/assumptions/110.) -/
def execLinkUp (port module_ : Nat) (s : State) : Host.Outcome State Fault Refusal := .next (s.linkUp port module_)

/-- A link leaves up other than by drain, or fails its training (R438, R440). Requests that nothing can carry any more are
lost, and an unanswered LINK command is refused. (DESIGN CHOICE: notes/assumptions/74.) -/
def State.linkDown (s : State) (port : Nat) : State :=
  let p := s.ports.get port
  if p.state = 1 ∨ p.state = 2 ∨ p.state = 3 then
    let since := if p.state = 1 then p.since else some s.cycle
    ((s.setLink port { p with state := 0, since := since } s.module_).answerLink port 7).loseUnsent
  else s

/-- LINK_DOWN (R438, R440). (DESIGN CHOICE: notes/assumptions/74.) -/
def execLinkDown (port : Nat) (s : State) : Host.Outcome State Fault Refusal := .next (s.linkDown port)

/-- The request is a ticket's of a port's table. -/
def Req.ofTable (r : Req) (port : Nat) : Bool :=
  match r.kind with
  | .ticket key => key / 4096 == 64 + port
  | _ => false

/-- A landing is lost (R116, R440): its link is down, its allocations revoked, its requests and those of every pending ticket in the
port's table lost, the loss logged. -/
def State.loseLanding (s : State) (port : Nat) : State :=
  let p := s.ports.get port
  let s := s.setLink port { p with state := 0, lost := true, since := none } s.module_
  let s := { s with
    landings := s.landings.set port ((s.landings.get port).revoke 0 poolWindow)
    mgr := { s.mgr with lost := s.mgr.lost + 1 } }
  let s := s.logError 8 0 0xFFFF port (poolBase port) 0
  ((s.answerLink port 7).loseReqs fun _ r => r.inPool port 0 poolWindow || r.ofTable port).loseUnsent

/-- A landing not back up within 100 µs is lost (R440). (DESIGN CHOICE: notes/assumptions/76.) -/
def execLandingLost (port : Nat) (s : State) : Host.Outcome State Fault Refusal :=
  let p := s.ports.get port
  match p.since with
  | some c => if p.lost = false ∧ c + 100 * Config.cyclesPerUs ≤ s.cycle then .next (s.loseLanding port) else .next s
  | none => .next s

/-- A landing reports its own failure (R440). -/
def execLandingFailureReport (port : Nat) (s : State) : Host.Outcome State Fault Refusal :=
  let p := s.ports.get port
  if p.attached ∧ p.lost = false then .next (s.loseLanding port) else .next s

/-! ### Extents (R71, R444) -/

/-- The EXTENT report (R437). -/
def State.reportExtent (s : State) (landing kind off len : Nat) : State :=
  s.post (eventMsg 1 0xC6 0 (natToBytes 1 landing ++ natToBytes 1 kind ++ natToBytes 6 0 ++ natToBytes 8 off ++ natToBytes 8 len))

/-- Add Capacity: allocations may be placed in the extent (R70, R444). -/
def execExtentAdd (landing off len : Nat) (s : State) : Host.Outcome State Fault Refusal :=
  let l := s.landings.get landing
  let l := { l with extents := l.extents ++ [(off, len)], gone := l.gone.filter fun g => !(g.1 < off + len && off < g.1 + g.2) }
  .next ({ s with landings := s.landings.set landing l }.reportExtent landing 1 off len)

/-- Release Capacity: no allocation lay in the extent (R71, R444); one that holds an allocation is not released. -/
def execExtentRelease (landing off len : Nat) (s : State) : Host.Outcome State Fault Refusal :=
  let l := s.landings.get landing
  if (l.taken off len).isSome then .next s
  else
    .next ({ s with landings := s.landings.set landing { l with extents := l.extents.filter (· != (off, len)) } }.reportExtent
      landing 2 off len)

/-- The translations of a range of a landing's pool discarded, for every tenant and grantee that reached it (R415, R444). -/
def State.invalPool (s : State) (landing off len : Nat) : State :=
  let l := s.landings.get landing
  let hit := fun (o n : Nat) => o < off + len && off < o + n
  let ctxs := dedup (((l.allocs.filter fun a => hit a.off a.size).map (·.ctx))
    ++ ((l.grants.filter fun g => g.tmod == s.module_ && hit g.off g.len).map (·.tctx)))
  ctxs.foldl (fun s c =>
    s.invalidate { ctx := c, all := false, va := poolVa (poolBase landing + off), len := len, after := .nothing }) s

/-- Forced Capacity Release (R71, R444): every allocation and grant in the extent is revoked. -/
def execExtentForcedRelease (landing off len : Nat) (s : State) : Host.Outcome State Fault Refusal :=
  let s := s.invalPool landing off len
  let l := (s.landings.get landing).revoke off len
  let l := { l with extents := l.extents.filter (· != (off, len)), gone := l.gone ++ [(off, len)] }
  let s := { s with landings := s.landings.set landing l }
  let mine := fun (r : Req) => match r.kind with
    | .free _ => false
    | _ => r.inPool landing off len
  .next ((s.loseReqs fun _ r => mine r).reportExtent landing 3 off len)

/-! ### Requests of other modules (R92, R439) -/

/-- A response to another module: its data, or the cause that its access met. -/
def State.respond (s : State) (sender status : Nat) (body : List Byte) : State :=
  { s with mgr := { s.mgr with outbox := s.mgr.outbox ++ [{ kind := 3, qp := sender, opcode := 0, flags := 0, tag := 0, ctx := 0, status := status, body := body }] } }

/-- An update of a block by another module's engine at its home slice, where it holds the block's lock from the read of the old entry on
(R110, R111, R179): it has merged into the entry that stands, and writes the stream and then the entry; one that has not is answered
with the entry that stands, to be merged anew. (DESIGN CHOICE: notes/assumptions/134.) -/
def State.updateFrom (s : State) (sender pa : Nat) (old : List Byte) (slot : List (Nat × List Byte)) (new : List Byte) : State :=
  if s.readBad pa 16 then (s.logRead 0xFFFF pa 16 0).respond sender causeMemoryUncorrectable []
  else if s.readPhys pa 16 = old then
    let t := slot.foldl (fun s p => s.storePhys 0xFFFF p.1 0 p.2) s
    ((t.storePhys 0xFFFF pa 0 new).countSlice (homeSlice pa) 0x0105 1).respond sender 0 []
  else s.respond sender 0 (s.readPhys pa 16)

/-- A remote request performed at this module's HBM, the performing point, as one step, and answered (R92, R99, R439); one that
arrives with no cycle of its count left is discarded, unperformed and unanswered. An address outside
the local HBM is answered with PAGE_FAULT (R69). -/
def execRemoteRequest (sender pa : Nat) (req : RemoteReq) (s : State) : Host.Outcome State Fault Refusal :=
  let n := match req.op with
    | .read n => n
    | .write bs => bs.length
    | .atom _ ty _ _ => ty.bytes
    | .update _ _ slot _ => slot.foldl (fun n p => Nat.max n (p.1 + p.2.length - pa)) 16
  if req.left = 0 then .next s
  else if hbmEnd < pa + n then .next (s.respond sender causePageFault [])
  else
    let s := s.countSlice (homeSlice pa) 0x0101 1
    match req.op with
    | .read n =>
      if s.readBad pa n then .next ((s.logRead 0xFFFF pa n 0).respond sender causeMemoryUncorrectable [])
      else .next (s.respond sender 0 (s.readPhys pa n))
    | .write bs => .next ((s.storePhys 0xFFFF pa 0 bs).respond sender 0 [])
    | .update _ old slot new => .next (s.updateFrom sender pa old slot new)
    | .atom o ty b c =>
      match s.atomLane o ty ty.bytes 0xFFFF ⟨0, 0, pa, b, c, false⟩ with
      | (s, some v) => .next (s.respond sender 0 (natToBytes ty.bytes v))
      | (s, none) => .next ((s.logRead 0xFFFF pa ty.bytes 0).respond sender causeMemoryUncorrectable [])

end Sys2Proof.Machine
end

