-- ==== Sys2Proof/Machine/Commands.lean ====
section
/-! DEFINITION. Commands of the host: what all of them share, contexts, jobs, translations, migration, the index audit and debug
(R113, R171, R333, R415, R418, R420 to R422, R430, R433 to R436). -/

namespace Sys2Proof.Machine

open Sys2Proof

/-! ### What every command shares (R430, R433, R435, R452) -/

/-- A QP bound to a session (R430, R452). -/
def State.managed (s : State) (qp : Nat) : Bool := 1 ≤ qp && qp ≤ 15 && (s.mgr.qps.get qp).session.isSome

/-- The rights of a QP's session. -/
def State.rights (s : State) (qp : Nat) : Nat := ((s.mgr.qps.get qp).session).getD 0

/-- A negative acknowledgement on a QP (R429 to R431): 1 invalid request, 2 remote access error, 3 remote operational error. (PRESUMED: notes/assumptions/7.) -/
def State.nak (s : State) (qp syndrome : Nat) : State :=
  { s with mgr := { s.mgr with outbox := s.mgr.outbox ++ [{ kind := 2, qp := qp, opcode := 0, flags := 0, tag := 0, ctx := 0, status := syndrome, body := [] }] } }

/-- A command that needs a session right (R430, R452): on a QP without a session it is no command; without the right it is
refused with status 5. -/
def command (h : Hdr) (op right : Nat) (s : State) (f : State → State) : Host.Outcome State Fault Refusal :=
  if s.managed h.qp = false then .next (s.nak h.qp 1)
  else if s.rights h.qp / 2 ^ right % 2 = 0 then .next (s.reply h op 5 [])
  else .next (f s)

/-- The context of a command exists and is not being destroyed (R435, R436). (DEDUCED: notes/assumptions/129.) -/
def State.liveCtx (s : State) (c : Nat) : Bool := (s.ctx c).live && !(s.ctx c).dying

/-- A command on its header's context. -/
def ctxCommand (h : Hdr) (op right : Nat) (s : State) (f : State → State) : Host.Outcome State Fault Refusal :=
  command h op right s fun s => if s.liveCtx h.ctx then f s else s.reply h op 6 []

/-! ### Contexts (R329, R434, R436) -/

/-- CTX_CREATE (R329, R434). (DEDUCED: notes/assumptions/86.) -/
def execCtxCreate (h : Hdr) (root stack save savesize : Nat) (s : State) : Host.Outcome State Fault Refusal :=
  command h 0x01 0 s fun s =>
    if (s.ctx h.ctx).live then s.reply h 0x01 8 []
    else if root % 8192 ≠ 0 ∨ hbmEnd ≤ root ∨ stack % 8 ≠ 0 ∨ hbmEnd ≤ stack ∨ save % 8 ≠ 0 then s.reply h 0x01 3 []
    else
      (s.setCtx h.ctx {
        live := true, root := root, stack := stack, save := save, savesize := savesize, trapbase := 0, ticketlife := 1000,
        fabrictimeout := 2000, reformage := 256, tables := [], qp := h.qp, dying := false }).reply h 0x01 0 []

/-- The queue pair of an RDMA request. -/
def rdmaQp : Instr → Option Nat
  | .rdmaWrite qp .. | .rdmaRead qp .. => some qp
  | _ => none

/-- The key an RDMA request names. -/
def rdmaKey : Instr → Option Nat
  | .rdmaWrite _ k .. | .rdmaRead _ k .. => some k
  | _ => none

/-- An RDMA request that an input brings. -/
def Input.rdma : Input → Option Instr
  | .kept i => some i
  | .event i => if (rdmaQp i).isSome then some i else none
  | _ => none

/-- RDMA requests that have arrived and wait (R118, R421, R441). -/
def State.waitingRdma (s : State) : List Instr :=
  (s.mgr.pending.map (·.1) ++ s.inbox.filterMap fun p => p.2.rdma) ++ s.agenda.filterMap fun x => match x with
    | .kept i => some i
    | _ => none

/-- A request for a key has arrived and waits: its window ends after it (R441). -/
def State.keyBusy (s : State) (k : Nat) : Bool := s.waitingRdma.any fun i => rdmaKey i == some k

/-- A request for a window of a context has arrived and waits. -/
def State.windowsBusy (s : State) (c : Nat) : Bool :=
  s.mgr.windows.any fun p => p.2.access / 8 % 2 == 0 && p.2.ctx == c && s.keyBusy p.2.rkey

/-- The context holds no crew, no engine operation, no request but tickets' reads, and no RDMA request waits for a window of it. -/
def State.ctxDrained (s : State) (c : Nat) : Bool :=
  (s.crews.all fun p => !p.2.live || p.2.ctx != c)
    && (s.engines.all fun (p : Nat × Engines) =>
      ([0, 1, 2, 3, 5, 6, 7].flatMap p.2.list).all (fun e => e.ctx != c) && p.2.deck.all fun t => t.ctx != c)
    && !s.windowsBusy c && s.reqs.all fun p => p.2.ctx != c || (match p.2.kind with
      | .ticket _ => true
      | _ => false)

/-- Every ticket of a context reclaimed (R109). -/
def State.reclaimTickets (s : State) (c : Nat) : State :=
  s.tickets.foldl (fun s p => if p.2.ctx = c ∧ p.2.state ≠ 0 then s.freeTicket p.1 false else s) s

/-- A context's allocations returned to their landings, and the grants it made or was given ended (R436 step 5). -/
def Landing.dropTenant (l : Landing) (module_ c : Nat) : Landing :=
  { l with
    allocs := l.allocs.filter fun a => a.ctx != c
    grants := l.grants.filter fun g => !((g.omod == module_ && g.octx == c) || (g.tmod == module_ && g.tctx == c)) }

/-- The mapping of an allocation of a destroyed context goes, as lfree removes it (R436 step 5); a poisoned table keeps it (R424). (DEDUCED: notes/assumptions/122.) -/
def State.unmapAlloc (s : State) (c landing : Nat) (a : PoolAlloc) : State :=
  let pages := a.size / 2 ^ pageBits (attrPage a.attr)
  let pa := poolBase landing + a.off
  if (s.removeBad c (attrPage a.attr) pa pages).isSome then s else s.removePages c (attrPage a.attr) pa pages

/-- The mappings of every allocation of a context go (R436 step 5). -/
def State.unmapAllocs (s : State) (c : Nat) : State :=
  s.landings.foldl (fun s p => (p.2.allocs.filter fun a => a.ctx == c).foldl (fun s a => s.unmapAlloc c p.1 a) s) s

/-- Steps 3 to 6 of a destruction, whose crews are gone (R436). -/
def State.teardown (s : State) (h : Hdr) : State :=
  let s := (s.reclaimTickets h.ctx).unmapAllocs h.ctx
  let s := { s with
    mgr := { s.mgr with windows := s.mgr.windows.filter fun p => p.2.access / 8 % 2 == 1 || p.2.ctx != h.ctx }
    landings := s.landings.map fun (p : Nat × Landing) => (p.1, p.2.dropTenant s.module_ h.ctx) }
  s.invalidate { ctx := h.ctx, all := false, va := 0, len := 0, after := .destroy h }

/-- Every job of a context cancelled (R393, R436 step 1). -/
def State.cancelJobs (s : State) (c : Nat) : State :=
  s.jobs.foldl (fun s p => if p.2.live ∧ p.2.ctx = c then (s.cancelUnit c (unitHandle 3 c p.1 0)).1 else s) s

/-- CTX_DESTROY (R436): the jobs are cancelled at once; when the crews have drained, the rest follows. -/
def execCtxDestroy (h : Hdr) (s : State) : Host.Outcome State Fault Refusal :=
  let p : Instr × List Nat := (.ctxDestroy h, [])
  if s.mgr.pending.contains p then
    if s.ctxDrained h.ctx then .next ({ s with mgr := { s.mgr with pending := s.mgr.pending.filter (· != p) } }.teardown h)
    else .next s
  else
    ctxCommand h 0x02 0 s fun s =>
      let s := (s.setCtx h.ctx { s.ctx h.ctx with dying := true }).cancelJobs h.ctx
      { s with mgr := { s.mgr with pending := s.mgr.pending ++ [p] } }

/-- A landing can be asked now: status 7 when it is lost or not attached, 8 while its link trains or is drained. (DESIGN CHOICE: notes/assumptions/75.) -/
def State.landingStatus (s : State) (l : Nat) : Nat :=
  let p := s.ports.get l
  if p.attached = false ∨ s.portLost l then 7 else if p.state = 2 ∨ p.state = 3 then 0 else 8

/-- CTX_QUOTA (R442). (DESIGN CHOICE: notes/assumptions/75.) -/
def execCtxQuota (h : Hdr) (landing bytes : Nat) (s : State) : Host.Outcome State Fault Refusal :=
  ctxCommand h 0x03 0 s fun s =>
    if 15 < landing then s.reply h 0x03 3 []
    else if s.landingStatus landing ≠ 0 then s.reply h 0x03 (s.landingStatus landing) []
    else
      let l := s.landings.get landing
      let l := { l with quota := l.quota.set h.ctx bytes }
      { s with landings := s.landings.set landing l }.reply h 0x03 0 (natToBytes 8 (l.remaining h.ctx))

/-! ### Jobs (R323, R384, R393) -/

/-- JOB_SUBMIT (R384, R388). -/
def execJobSubmit (h : Hdr) (job : Nat) (s : State) : Host.Outcome State Fault Refusal :=
  ctxCommand h 0x10 0 s fun s =>
    match s.submitJob h.ctx job with
    | (some x, s) => s.reply h 0x10 0 (natToBytes 8 x)
    | (none, s) => s.reply h 0x10 3 []

/-- UNIT_CANCEL (R323, R393). -/
def execUnitCancel (h : Hdr) (handle : DWord) (s : State) : Host.Outcome State Fault Refusal :=
  ctxCommand h 0x11 0 s fun s =>
    if 2 ^ 48 ≤ handle.toNat then s.reply h 0x11 3 []
    else
      let (s, st) := s.cancelNow h.ctx handle.toNat
      s.reply h 0x11 0 (natToBytes 1 st)

/-! ### Translations (R415, R418) -/

/-- TLB_INVAL (R415): the reply follows completion. -/
def execTlbInval (h : Hdr) (va length : Nat) (s : State) : Host.Outcome State Fault Refusal :=
  ctxCommand h 0x30 1 s fun s =>
    if 2 ^ 53 < va + length then s.reply h 0x30 3 []
    else s.invalidate { ctx := h.ctx, all := false, va := va, len := length, after := .reply h 0x30 [] }

/-- FAULT_RESOLVE (R418); a context being destroyed still has its held faults (R436). (DEDUCED: notes/assumptions/129.) -/
def execFaultResolve (h : Hdr) (number answer : Nat) (s : State) : Host.Outcome State Fault Refusal :=
  command h 0x31 1 s fun s =>
    if (s.ctx h.ctx).live = false then s.reply h 0x31 6 []
    else if 1 < answer then s.reply h 0x31 3 []
    else
      match s.held.find number with
      | some f => if f.ctx = h.ctx then (s.endHeld number f (answer == 0)).reply h 0x31 0 [] else s.reply h 0x31 6 []
      | none => s.reply h 0x31 6 []

/-! ### Migration (R420 to R422) -/

/-- A frame of a migration lies where R420 allows. -/
def migFrameOk (size a : Nat) (new : Bool) : Bool :=
  a % size == 0 && (match regionOf a with
    | .hbm => true
    | .pool .. => true
    | .remote .. => !new
    | _ => false)

/-- MIGRATE arm (R420): the lowest free slot. -/
def execMigrateArm (h : Hdr) (size old new : Nat) (s : State) : Host.Outcome State Fault Refusal :=
  ctxCommand h 0x32 1 s fun s =>
    let bytes := if size = 0 then 8192 else 2 ^ 23
    if 1 < size ∨ migFrameOk bytes old false = false ∨ migFrameOk bytes new true = false then s.reply h 0x32 3 []
    else
      match (List.range 64).find? fun i => (s.migs.get i).state == 0 with
      | none => s.reply h 0x32 4 []
      | some i =>
        { s with migs := s.migs.set i {
          state := 1, ctx := h.ctx, old := old, new := new, size := bytes, pulled := [], failed := [], touched := 0,
          background := 0, started := false } }.reply h 0x32 0 (natToBytes 1 i)

/-- A command on a slot of the context, in states that allow it (R435). -/
def slotCommand (h : Hdr) (slot : Nat) (s : State) (ok : MigSlot → Bool) (f : State → MigSlot → State) :
    Host.Outcome State Fault Refusal :=
  ctxCommand h 0x32 1 s fun s =>
    let m := s.migs.get slot
    if 63 < slot then s.reply h 0x32 3 []
    else if m.state = 0 ∨ m.ctx ≠ h.ctx then s.reply h 0x32 6 []
    else if ok m = false then s.reply h 0x32 8 []
    else f s m

/-- MIGRATE start (R421): the context's translations are invalidated, and the slot goes live when that completes. (DEDUCED: notes/assumptions/77.) -/
def execMigrateStart (h : Hdr) (slot : Nat) (s : State) : Host.Outcome State Fault Refusal :=
  slotCommand h slot s (fun m => m.state == 1 && !m.started) fun s m =>
    { s with migs := s.migs.set slot { m with started := true } }.invalidate
      { ctx := h.ctx, all := false, va := 0, len := 0, after := .swing h slot }

/-- MIGRATE abort (R422): every line not yet pulled fails; requests held until the swing go on. -/
def execMigrateAbort (h : Hdr) (slot : Nat) (s : State) : Host.Outcome State Fault Refusal :=
  slotCommand h slot s (fun m => m.state == 1 || m.state == 2) fun s m =>
    ({ s with migs := s.migs.set slot { m with state := 4 } }.retryWalks fun w => s.ctxOf w == m.ctx).reply h 0x32 0
      (natToBytes 1 slot)

/-- MIGRATE release (R421): only of a complete or aborted slot. -/
def execMigrateRelease (h : Hdr) (slot : Nat) (s : State) : Host.Outcome State Fault Refusal :=
  slotCommand h slot s (fun m => m.state == 3 || m.state == 4) fun s _ =>
    { s with migs := s.migs.del slot }.reply h 0x32 0 (natToBytes 1 slot)

/-! ### The index audit (R113, R171) -/

/-- Engine operations in progress: running tasks, and operations that have begun and are held. (DEDUCED: notes/assumptions/83.) -/
def State.opsInProgress (s : State) : List Nat :=
  (s.engines ++ s.savedOps).flatMap fun (p : Nat × Engines) =>
    ((([0, 1, 2, 3, 5, 6, 7].flatMap p.2.list).filter fun e => e.begun).map (·.num))
      ++ (p.2.deck.filter fun t => t.begun).map (·.num)

/-- The slots of a class's free list, followed from its head; `n` bounds its length. -/
def freeList (g : Agent) : Nat → Nat → EngM (List Nat)
  | 0, _ => pure []
  | n + 1, a =>
    if a = 0 then pure []
    else do
      let next := bytesToNat (← engRead g a 8 true)
      pure (a :: (← freeList g n next))

/-- Slots pushed onto a class's free list one by one. -/
def pushSlots (g : Agent) (pool c : Nat) : List Nat → EngM Unit
  | [] => pure ()
  | a :: t => do
    let hd ← engRead g pool 384 false
    engWrite g a (natToBytes 8 ((classRecord hd c).getD 3 0)) true
    poolWrite g pool (0x20 + 32 * (c - 1) + 0x18) a
    pushSlots g pool c t

/-- The slots of a class that nothing references and the free list does not hold, returned; their count. -/
def auditClass (g : Agent) (pool : Nat) (used : List (Nat × Nat)) (c : Nat) : EngM Nat := do
  let hd ← engRead g pool 384 false
  let r := classRecord hd c
  if recordUsable r c = false then pure 0
  else do
    let base := r.getD 0 0
    let n := (r.getD 1 0 - base) / classSize c
    let free ← freeList g (n + 1) (r.getD 3 0)
    let lost := ((List.range n).map fun k => base + classSize c * k).filter fun a => !used.contains (a, c) && !free.contains a
    pushSlots g pool c lost
    pure lost.length

/-- The counts of the classes in turn. -/
def auditClasses (g : Agent) (pool : Nat) (used : List (Nat × Nat)) : List Nat → EngM (List Nat)
  | [] => pure []
  | c :: t => do
    let n ← auditClass g pool used c
    pure (n :: (← auditClasses g pool used t))

/-- The index entries of a tensor. -/
def allEntries (g : Agent) (d : Desc) : List Nat → EngM (List IndexEntry)
  | [] => pure []
  | k :: t => do
    let e ← engEntry g d k
    pure (e :: (← allEntries g d t))

/-- The audit of a tensor's pool (R171). -/
def auditPool (handle : Nat) (g : Agent) : EngM (List Nat) := do
  let d ← engDesc g handle
  let es ← allEntries g d (List.range d.blockcount)
  let used := (es.filter IndexEntry.hasSlot).map fun e => (e.addr, e.cls)
  auditClasses g d.slotpool used ((List.range 10).map (· + 1))

/-- INDEX_AUDIT (R113, R171): it waits for the engine operations in progress at its start; a refused one returns no slot (R435). (DEDUCED: notes/assumptions/83.) -/
def execIndexAudit (h : Hdr) (handle : Nat) (s : State) : Host.Outcome State Fault Refusal :=
  match s.mgr.pending.find? fun p => p.1 == .indexAudit h handle with
  | some p =>
    if p.2.any fun n => s.opsInProgress.contains n then .next s
    else
      let s := { s with mgr := { s.mgr with pending := s.mgr.pending.filter (· != p) } }
      match s.unitRun h.ctx (auditPool handle) with
      | (.ok ns, s) => .next (s.reply h 0x40 0 (ns.flatMap (natToBytes 4)))
      | (.error _, t) => .next ({ s with errlog := t.errlog, mgr := t.mgr }.reply h 0x40 3 [])
  | none =>
    ctxCommand h 0x40 1 s fun s =>
      if handle % 128 ≠ 0 then s.reply h 0x40 3 []
      else { s with mgr := { s.mgr with pending := s.mgr.pending ++ [(.indexAudit h handle, s.opsInProgress)] } }

/-! ### Debug (R333, R434) -/

/-- The warp stopped by brk that a debug command names. -/
def State.stoppedWarp (s : State) (h : Hdr) (crew slot : Nat) : Option Nat :=
  (s.warps.find? fun p =>
    p.2.live && p.2.stopped && slotOf p.1 == slot && s.ctxOf p.1 == h.ctx && (s.crewOf p.1).index == crew).map (·.1)

/-- A control register number (R196). -/
def csrExists (r : Nat) : Bool :=
  [0x01, 0x02, 0x10, 0x11, 0x12, 0x13, 0x14, 0x20, 0x21, 0x22, 0x23, 0x30].contains r || (0x40 ≤ r && r < 0x48)
    || (0x50 ≤ r && r < 0x58)

/-- A control register that can be written (R329). -/
def csrWritable (r : Nat) : Bool :=
  csrExists r && !(([0x11, 0x12, 0x13, 0x14, 0x20, 0x30] : List Nat).contains r)

/-- The register that class, lane and number name exists in a warp. -/
def Warp.debugOk (w : Warp) (cls lane number : Nat) : Bool :=
  if cls = 0 then lane < 32 && number < w.quota
  else if cls = 1 then number < 64
  else if cls = 2 then csrExists number
  else cls == 3 && lane < 32

/-- The value a debug read gives. (DEDUCED: notes/assumptions/84.) -/
def State.debugValue (s : State) (w cls lane number : Nat) : Nat :=
  let x := s.warp w
  if cls = 0 then (x.v number lane).toNat
  else if cls = 1 then (x.s number).toNat
  else if cls = 2 then (s.csr w number).toNat
  else (x.lane lane).pc.toNat

/-- DEBUG read (R434). -/
def execDebugRead (h : Hdr) (cls lane crew warp number : Nat) (s : State) : Host.Outcome State Fault Refusal :=
  ctxCommand h 0x60 2 s fun s =>
    match s.stoppedWarp h crew warp with
    | none => s.reply h 0x60 6 []
    | some w =>
      if (s.warp w).debugOk cls lane number = false then s.reply h 0x60 3 []
      else s.reply h 0x60 0 (natToBytes 8 (s.debugValue w cls lane number))

/-- The register a debug write names takes the value; a read-only control register ignores it (R8). (DEDUCED: notes/assumptions/84.) -/
def State.debugSet (s : State) (w cls lane number : Nat) (v : DWord) : State :=
  let x := s.warp w
  if cls = 0 then s.setWarp w (x.setV number lane (v.setWidth 32))
  else if cls = 1 then s.setWarp w (x.setS number v)
  else if cls = 2 ∧ csrWritable number = false then s
  else if cls = 2 then
    let y := BitVec.ofNat 64 (Nat.land v.toNat (csrMask number))
    if number = 0x10 ∨ number = 0x21 ∨ number = 0x22 ∨ number = 0x23 then s.setCtxCsr (s.ctxOf w) number y else s.setCsr w number y
  else s.setWarp w (x.setLane lane { x.lane lane with pc := v })

/-- DEBUG write (R434): a control register takes only a value of its range. -/
def execDebugWrite (h : Hdr) (cls lane crew warp number : Nat) (value : DWord) (s : State) : Host.Outcome State Fault Refusal :=
  ctxCommand h 0x60 2 s fun s =>
    match s.stoppedWarp h crew warp with
    | none => s.reply h 0x60 6 []
    | some w =>
      if (s.warp w).debugOk cls lane number = false
          ∨ (cls = 2 ∧ csrInRange number (Nat.land value.toNat (csrMask number)) = false) then
        s.reply h 0x60 3 []
      else
        let s := s.debugSet w cls lane number value
        s.reply h 0x60 0 (natToBytes 8 (s.debugValue w cls lane number))

/-- DEBUG resume (R333, R434): the lanes, at the word after the brk since they stopped, are eligible again. -/
def execDebugResume (h : Hdr) (crew warp : Nat) (s : State) : Host.Outcome State Fault Refusal :=
  ctxCommand h 0x60 2 s fun s =>
    match s.stoppedWarp h crew warp with
    | none => s.reply h 0x60 6 []
    | some w =>
      let x := s.warp w
      (s.setWarp w { x.mapLanes x.liveLanes (fun l => { l with readyAt := Nat.max l.readyAt (s.cycle + 1) }) with stopped := false }).reply
        h 0x60 0 (natToBytes 8 0)

end Sys2Proof.Machine
end

