-- ==== Sys2Proof/Machine/Flume.lean ====
section
/-! DEFINITION. Flume issue groups: what a member computes, which members may join, cancellation, timing, write-back
(R142 to R154, R195, R241 to R261), and the float instructions, majors 0x20 to 0x3F. -/

namespace Sys2Proof.Machine

open Sys2Proof

/-! ### Members -/

/-- What a flume member computes. -/
inductive FKind where
  | arith (op : FOp) (t : FTy)
  | cvt (d s : Ty)
  | cmp (cc : FCond) (t : FTy)
  | quant (d : F8Ty) (s : FTy)
  | dequant (d : FTy) (s : F8Ty)
  deriving DecidableEq, Repr, Inhabited

/-- A flume member: what it computes, its rounding modifier, its destination and sources; c is ffma's addend. -/
structure FInst where
  kind : FKind
  rm : RMod
  d : Operand
  a : Operand
  b : Operand
  c : Operand
  deriving DecidableEq, Repr, Inhabited

/-- An F3 form of an operation; ffma adds d (R245). -/
def f3 (op : FOp) (t : FTy) (d a b : Operand) : FInst :=
  ⟨.arith op t, .mode, d, a, b, if op = .ffma then d else .z⟩

/-- The member an instruction of majors 0x20 to 0x3F is. -/
def flumeOf : Instr → Option FInst
  | .faddF32 _ d a b => some (f3 .fadd .f32 d a b)
  | .faddF16 _ d a b => some (f3 .fadd .f16 d a b)
  | .faddBf16 _ d a b => some (f3 .fadd .bf16 d a b)
  | .fsubF32 _ d a b => some (f3 .fsub .f32 d a b)
  | .fsubF16 _ d a b => some (f3 .fsub .f16 d a b)
  | .fsubBf16 _ d a b => some (f3 .fsub .bf16 d a b)
  | .fmulF32 _ d a b => some (f3 .fmul .f32 d a b)
  | .fmulF16 _ d a b => some (f3 .fmul .f16 d a b)
  | .fmulBf16 _ d a b => some (f3 .fmul .bf16 d a b)
  | .ffmaF32 _ d a b => some (f3 .ffma .f32 d a b)
  | .ffmaF16 _ d a b => some (f3 .ffma .f16 d a b)
  | .ffmaBf16 _ d a b => some (f3 .ffma .bf16 d a b)
  | .fmaxF32 _ d a b => some (f3 .fmax .f32 d a b)
  | .fmaxF16 _ d a b => some (f3 .fmax .f16 d a b)
  | .fmaxBf16 _ d a b => some (f3 .fmax .bf16 d a b)
  | .fminF32 _ d a b => some (f3 .fmin .f32 d a b)
  | .fminF16 _ d a b => some (f3 .fmin .f16 d a b)
  | .fminBf16 _ d a b => some (f3 .fmin .bf16 d a b)
  | .fgateF32 _ d a b => some (f3 .fgate .f32 d a b)
  | .fgateF16 _ d a b => some (f3 .fgate .f16 d a b)
  | .fgateBf16 _ d a b => some (f3 .fgate .bf16 d a b)
  | .fclampF32 _ d a b => some (f3 .fclamp .f32 d a b)
  | .fclampF16 _ d a b => some (f3 .fclamp .f16 d a b)
  | .fclampBf16 _ d a b => some (f3 .fclamp .bf16 d a b)
  | .fdivF32 _ d a b => some (f3 .fdiv .f32 d a b)
  | .fscaleF32 _ d a b => some (f3 .fscale .f32 d a b)
  | .fsqrt _ t d a => some (f3 .fsqrt t d a .z)
  | .frsq _ t d a => some (f3 .frsq t d a .z)
  | .frcp _ t d a => some (f3 .frcp t d a .z)
  | .fexp2 _ t d a => some (f3 .fexp2 t d a .z)
  | .flog2 _ t d a => some (f3 .flog2 t d a .z)
  | .fround _ t d a => some (f3 .fround t d a .z)
  | .fcvt _ dt st d a => some ⟨.cvt dt st, .mode, d, a, .z, .z⟩
  | .fcmp cc t d a b => some ⟨.cmp cc t, .mode, d, a, b, .z⟩
  | .fquant dt st d a => some ⟨.quant dt st, .mode, d, a, .z, .z⟩
  | .fdequant dt st m d a => some ⟨.dequant dt st, m, d, a, .z, .z⟩
  | .floatTyped (.op o t) m d a b c => some ⟨.arith o t, m, d, a, b, c⟩
  | .floatTyped (.cvt dt st) m d a _ _ => some ⟨.cvt dt st, m, d, a, .z, .z⟩
  | _ => none

/-- The operation has one source (R249). -/
def isUnary (op : FOp) : Bool :=
  match op with
  | .fsqrt | .frsq | .frcp | .fexp2 | .flog2 | .fround => true
  | _ => false

/-- The positions that read an operand, with the type each is read in (R242, R250). -/
def FInst.sources (i : FInst) : List (Ty × Operand) :=
  match i.kind with
  | .arith op t =>
    if isUnary op then [(.flt t, i.a)]
    else if op = .fscale then [(.flt t, i.a), (.int .i32, i.b)]
    else if op = .ffma then [(.flt t, i.a), (.flt t, i.b), (.flt t, i.c)]
    else [(.flt t, i.a), (.flt t, i.b)]
  | .cvt _ s => [(s, i.a)]
  | .cmp _ t => [(.flt t, i.a), (.flt t, i.b)]
  | .quant _ s => [(.flt s, i.a)]
  | .dequant _ _ => [(.int .n32, i.a)]

/-- The format of a member's result (R242, R258); fcmp's is a 32-bit integer, fquant's two bytes. -/
def FInst.result (i : FInst) : Ty :=
  match i.kind with
  | .arith _ t => .flt t
  | .cvt d _ => d
  | .cmp .. => .int .n32
  | .quant d _ => .f8 d
  | .dequant d _ => .flt d

/-! ### Which words may join (R195, R257, R258) -/

/-- The member may stand after another (R257). -/
def FInst.mayFollow (i : FInst) : Bool :=
  match i.kind with
  | .dequant .. => false
  | _ => true

/-- Every position of the consumer that reads z has the producer's destination format (R258). -/
def formatsAgree (producer consumer : FInst) : Bool :=
  consumer.sources.all fun p => p.2 != .z || p.1 == producer.result

/-! ### Reading and computing (R143, R241 to R259) -/

/-- The code of a small constant in an 8-bit format, rounded to it where it has no such value (R188, R244).
(DEDUCED: notes/assumptions/121.) -/
def f8Const (t : F8Ty) (n : Nat) : Nat := (quantElement t .rne ((fmtOf .f32).decode (floatConst 8 23 n))).val

/-- The bits a source position reads in a lane; z in a consumer is the producer's result (R143). -/
def State.srcTy (s : State) (w l : Nat) (t : Ty) (o : Operand) (zin : Option Nat) : Nat :=
  match o, zin with
  | .z, some x => x
  | o, _ =>
    match t with
    | .int t => s.srcBits w l t o
    | .flt t => s.srcFlt w l t o
    | .f8 t =>
      match o with
      | .k n => f8Const t n
      | o => s.src32 w l o % 256

/-- A member's source values in a lane. -/
def State.memberIn (s : State) (w l : Nat) (i : FInst) (zin : Option Nat) : List Nat :=
  i.sources.map fun p => s.srcTy w l p.1 p.2 zin

/-- A member's result in a lane from its source values, but for fquant, which takes the whole group (R255). -/
def FInst.compute (i : FInst) (fpmode : Nat) (v : List Nat) : FRes :=
  let rm := rmOf i.rm fpmode
  let x := v.getD 0 0
  let y := v.getD 1 0
  match i.kind with
  | .arith op t => floatOp op t rm x y (v.getD 2 0) (signedOf 32 y)
  | .cvt d s => convert d s rm x
  | .cmp cc t => fcompare (fmtOf t) cc x y
  | .quant d _ => ⟨f8Nan d, 0⟩
  | .dequant d s => dequant d s rm x

/-- The results of a member in the executing lanes (R255, R259). -/
def FInst.run (i : FInst) (fpmode : Nat) (ins : FMap (List Nat)) : FMap FRes :=
  match i.kind with
  | .quant d t =>
    let xs := ins.map fun p => (p.1, (fmtOf t).decode (p.2.getD 0 0))
    let s := groupScale d (xs.map (·.2))
    xs.map fun p =>
      let r := quantOf d s p.2
      (p.1, { r with val := (s + 127).toNat * 256 + r.val })
  | _ => ins.map fun p => (p.1, i.compute fpmode p.2)

/-! ### Cancellation (R148, R149) -/

/-- The exact, unrounded result of a producer as a finite real, if it is one (R148). -/
def FInst.exactResult (i : FInst) (fpmode : Nat) (v : List Nat) : Option Dy :=
  let rm := rmOf i.rm fpmode
  let x := v.getD 0 0
  let y := v.getD 1 0
  match i.kind with
  | .arith op t =>
    let f := fmtOf t
    match exactOf op rm (f.decode x) (f.decode y) (f.decode (v.getD 2 0)) with
    | some (.val d) => some d
    | some _ => none
    | none =>
      match op, f.decode x with
      | .fscale, .fin n m e => some ⟨n, m, e + signedOf 32 y⟩
      | .fround, .fin .. | .fmax, _ | .fmin, _ | .fgate, _ | .fclamp, _ =>
        (match f.decode (i.compute fpmode v).val with
          | .fin n m e => some ⟨n, m, e⟩
          | _ => none)
      | _, _ => none
  | .cvt (.flt _) s =>
    match tyValue s x with
    | .fin n m e => some ⟨n, m, e⟩
    | _ => none
  | .dequant _ s =>
    match f8Decode s x with
    | .fin n m e => if x / 256 % 256 = 0xFF then none else some ⟨n, m, e + (x / 256 % 256 : Nat) - 127⟩
    | _ => none
  | _ => none

/-- The interval I of R148 around the exact result. -/
def cancelInterval (p : Dy) : Dy × Dy :=
  if p.m = 0 then (p, p)
  else
    let q : Dy := ⟨false, 1, (Nat.log2 p.m : Int) + p.e - 7⟩
    (p.add q.negate, p.add q)

/-- An IEEE value without its sign. -/
def FVal.absV : FVal → FVal
  | .inf _ => .inf false
  | .fin _ m e => .fin false m e
  | x => x

/-- A condition of fcmp on two values (R248). -/
def fcondHolds (cc : FCond) (x y : FVal) : Bool :=
  let nan := x.isNan || y.isNan
  match cc with
  | .eq => !nan && x.eqNum y
  | .ne => nan || !x.eqNum y
  | .lt => !nan && x.ltNum y
  | .le => !nan && !y.ltNum x
  | .gt => !nan && y.ltNum x
  | .ge => !nan && !x.ltNum y
  | .un => nan
  | .ord => !nan

/-- Which of its results that do not pass z through a consumer gives at a value of z; `x` and `y` are its operands, none
where it reads z. Where z equals the other operand, the operand is the result. (DEDUCED: notes/assumptions/58.) -/
def outcomeAt (k : FKind) (x y : Option FVal) (z : FVal) : Option Nat :=
  let pick := fun (c : Bool) (n : Nat) => if c then some n else none
  match k with
  | .cmp cc _ => some (if fcondHolds cc (x.getD z) (y.getD z) then 1 else 0)
  | .arith op _ =>
    match op, x, y with
    | .fmax, some o, none | .fmax, none, some o => pick (!o.isNan && !o.ltTotal z) 0
    | .fmin, some o, none | .fmin, none, some o => pick (!o.isNan && !z.ltTotal o) 0
    | .fgate, none, some o => pick (o.isNan || z.absV.ltNum o) 0
    | .fgate, some o, none => some (if !o.isNan && !(o.isZero && !o.neg) && !o.absV.ltNum z then 1 else 0)
    | .fclamp, none, some o =>
      if o.isNan then some 0
      else if !o.absV.negate.ltTotal z then some 1
      else pick (!z.ltTotal o.absV) 2
    | .fclamp, some o, none => pick (o.isNan || !z.absV.ltTotal o.absV) 0
    | _, some _, some _ => some 0
    | _, _, _ => none
  | _ => none

/-- A comparison for equality changes its result inside the interval. -/
def splits (k : FKind) (x y : Option FVal) (lo hi : FVal) : Bool :=
  match k with
  | .cmp .eq _ | .cmp .ne _ => (x.toList ++ y.toList).any fun o => lo.ltNum o && o.ltNum hi
  | _ => false

/-- The consumer gives one result, not its z input, at every point of the interval and at the rounded value (R148): the
results of each of its operations are given by neighbouring values of z, so the ends decide. -/
def constantOn (k : FKind) (lo hi rounded : FVal) (x y : Option FVal) : Bool :=
  match outcomeAt k x y lo, outcomeAt k x y hi, outcomeAt k x y rounded with
  | some a, some b, some c => a == b && b == c && !(!(x.isNone && y.isNone) && splits k x y lo hi)
  | _, _, _ => false

/-- The consumer's operations that cancel (R148). -/
def cancels (k : FKind) : Bool :=
  match k with
  | .cmp .. => true
  | .arith op _ => op == .fmax || op == .fmin || op == .fgate || op == .fclamp
  | _ => false

/-- The consumer's result is a bound that z gives, of the sign of its other operand: one value where z is one value. -/
def boundOf (k : FKind) (x y : Option FVal) : Bool :=
  match k, x, y with
  | .arith .fclamp _, some _, none => true
  | _, _, _ => false

/-- The exact result of a producer is finite, in any format (R148). -/
def FInst.finiteResult (i : FInst) (fpmode : Nat) (v : List Nat) : Bool :=
  let fin := fun (x : FVal) => match x with
    | .fin .. => true
    | _ => false
  match i.kind with
  | .cmp .. => true
  | .cvt _ s => fin (tyValue s (v.getD 0 0))
  | .quant _ t => fin ((fmtOf t).decode (v.getD 0 0))
  | _ => (i.exactResult fpmode v).isSome

/-- A source of a member is a signalling NaN in a lane (R263). -/
def FInst.readsSnan (i : FInst) (v : List Nat) : Bool := (i.sources.zip v).any fun p => (tyValue p.1.1 p.2).isSnan

/-- The consumer cancels its producer in a lane (R148): the exact result is finite, whatever it rounds to, and the consumer
gives one result on the whole interval and at the rounded value, as one that names no z always does. A producer that reads a
signalling NaN is not cancelled (R263). (DEDUCED: notes/assumptions/58.) -/
def cancelled (producer consumer : FInst) (fpmode : Nat) (pin cin : List Nat) (pres : FRes) : Bool :=
  producer.d == .z && cancels consumer.kind && !producer.readsSnan pin &&
    if consumer.a == .z || consumer.b == .z then
      match producer.result, producer.exactResult fpmode pin with
      | .flt t, some p =>
        let f := fmtOf t
        let op := fun (o : Operand) n => if o = .z then none else some (f.decode (cin.getD n 0))
        let rounded := f.decode pres.val
        let ends := if p.m = 0 then (rounded, rounded) else
          let iv := cancelInterval p
          (.fin iv.1.neg iv.1.m iv.1.e, .fin iv.2.neg iv.2.m iv.2.e)
        constantOn consumer.kind ends.1 ends.2 rounded (op consumer.a 0) (op consumer.b 1)
          || (p.m == 0 && boundOf consumer.kind (op consumer.a 0) (op consumer.b 1))
      | _, _ => false
    else producer.finiteResult fpmode pin

/-- The NV and DZ flags that the classes of a member's operands determine (R149): neither a sign nor a finite value's range
is a class, so they do not tell an infinity's sign. (DEDUCED: notes/assumptions/58.) -/
def FInst.classFlags (i : FInst) (fpmode : Nat) (v : List Nat) : Nat :=
  let fl := Nat.land (i.compute fpmode v).fl (Nat.lor flagNV flagDZ)
  let val := fun (t : Ty) n => tyValue t (v.getD n 0)
  let ranged := fun (t : Ty) => match val t 0 with
    | .fin _ m _ => m != 0
    | _ => false
  let snan := (List.range i.sources.length).any fun n => ((i.sources.zip v).getD n ((.int .n32, .z), 0)) |> fun p => (tyValue p.1.1 p.2).isSnan
  let zeroInf := fun (t : FTy) =>
    let x := val (.flt t) 0
    let y := val (.flt t) 1
    (x.isZero && y.isInf) || (x.isInf && y.isZero)
  match i.kind with
  | .arith .fadd _ | .arith .fsub _ => if snan then fl else 0
  | .arith .ffma t => if snan || zeroInf t then fl else 0
  | .arith .fsqrt t | .arith .frsq t | .arith .flog2 t => if ranged (.flt t) || (val (.flt t) 0).isInf then 0 else fl
  | .cvt _ s => if ranged s then 0 else fl
  | _ => fl

/-! ### Timing (R146, R147, R260) -/

/-- Digits of a member's result (R142, R260). -/
def FInst.digits (i : FInst) : Nat :=
  match i.kind with
  | .cmp .. | .quant .. => 4
  | _ =>
    match i.result with
    | .flt .f32 => 14
    | .flt .f16 => 7
    | .flt .bf16 => 5
    | .f8 _ => 4
    | .int t => t.bits / 2

/-- Online delay (R146, R260); `corr` and `lag` are the producer's. -/
def FInst.delay (i : FInst) (corr lag : Nat) : Nat :=
  match i.kind with
  | .cmp .. | .cvt .. => 1
  | .quant .. => corr - lag
  | .dequant .. => 1
  | .arith op _ =>
    match op with
    | .fadd | .fsub => 2
    | .fmul | .ffma => 3
    | .fdiv | .fsqrt | .frcp | .frsq => 4
    | .fexp2 | .flog2 => 6
    | _ => 1

/-- The correction step of the last of the members (R147). -/
def corrStep : List FInst → Nat → Nat → Nat
  | [], corr, _ => corr
  | i :: t, corr, lag =>
    let lag' := lag + i.delay corr lag + 1
    corrStep t (Nat.max (i.digits + lag') corr + 1) lag'

/-- The chain's total (R147). -/
def chainTotal : List FInst → Nat
  | [] => 0
  | i :: t => corrStep t (i.digits + 1) 0

/-! ### Running a group (R259) -/

/-- A member with its inputs and results in every executing lane. -/
structure Ran where
  inst : FInst
  ins : FMap (List Nat)
  res : FMap FRes
  deriving Repr, Inhabited

/-- The members run in order; each consumer's z is its producer's result (R143, R259). -/
def State.runMembers (s : State) (w : Nat) (lanes : LaneSet) (fpmode : Nat) : List FInst → Option (FMap FRes) → List Ran
  | [], _ => []
  | i :: t, prev =>
    let ins := (lanesOf lanes).map fun l => (l, s.memberIn w l i (prev.map fun p => (p.get l).val))
    let res := i.run fpmode ins
    ⟨i, ins, res⟩ :: s.runMembers w lanes fpmode t (some res)

/-- Which members are cancelled in a lane (R148, R149): a consumer cancels its producer, and with it a producer's producer
that also writes z. -/
def cancelMarks (fpmode l : Nat) : List Ran → List Bool
  | [] => []
  | [_] => [false]
  | p :: c :: t =>
    let rest := cancelMarks fpmode l (c :: t)
    let here := cancelled p.inst c.inst fpmode (p.ins.get l) (c.ins.get l) (p.res.get l)
    (here || (rest.headD false && p.inst.d == .z)) :: rest

/-- The flags of each member in a lane, cancellation applied (R259), each with whether it can trap: a cancelled member's
cannot (R149, R150). (DEDUCED: notes/assumptions/58.) -/
def memberFlags (fpmode l : Nat) (rs : List Ran) : List (Nat × Bool) :=
  (rs.zip (cancelMarks fpmode l rs)).map fun p =>
    if p.2 then (p.1.inst.classFlags fpmode (p.1.ins.get l), false) else ((p.1.res.get l).fl, true)

/-- The first member of a lane that raised an enabled flag, plus 1 (R338). -/
def firstTrapping (enabled : Nat) : List Nat → Nat → Nat
  | [], _ => 0
  | f :: t, n => if Nat.land f enabled != 0 then n + 1 else firstTrapping enabled t (n + 1)

/-- Register words of a member's destination (R338). -/
def FInst.words (i : FInst) : Nat :=
  if i.d = .z then 0 else match i.result with
    | .int t => intWords t
    | _ => 1

/-- A 32-bit result is sign-extended in a scalar register (R123, R338). -/
def FInst.signExt (i : FInst) : Bool :=
  match i.result with
  | .int t => t.signed && !t.wide
  | _ => false

/-- The register words of a member's result; a narrow integer is extended to 32 bits (R123). -/
def FInst.resultWords (i : FInst) (x : Nat) : List Nat :=
  if i.d = .z then []
  else
    match i.result with
    | .int t => if t.wide then [x % 2 ^ 32, x / 2 ^ 32 % 2 ^ 32] else [extendInt t (intOf t x) % 2 ^ 32]
    | _ => [x]

/-- One lane's entry of a chain; a lane that traps holds the flags that its trap reports. (DEDUCED: notes/assumptions/58.) -/
def laneOfChain (fpmode enabled l : Nat) (rs : List Ran) : ChainLane :=
  let fl := memberFlags fpmode l rs
  let live := fl.map fun p => if p.2 then p.1 else 0
  let trap := firstTrapping enabled live 0
  { res := rs.flatMap fun r => r.inst.resultWords (r.res.get l).val
    flags := (if trap = 0 then fl.map (·.1) else live).foldl Nat.lor 0
    trapMember := trap }

/-- The chain an issue group opens (R144, R147, R259). -/
def State.openChain (s : State) (is : List FInst) : Chain :=
  let fpmode := s.curWarp.fpmode.toNat
  let rs := s.runMembers s.cur.warp s.cur.lanes fpmode is none
  { port := s.cur.port
    members := is.map fun i => { dest := i.d, words := i.words, signExt := i.signExt }
    lanes := s.cur.lanes
    mode := fpmode % 2 ^ 13
    done := 0
    total := chainTotal is
    start := s.cycle
    results := (lanesOf s.cur.lanes).map fun l => (l, laneOfChain fpmode (fpmode / 256 % 32) l rs)
    pc := s.cur.pc }

/-- The members of a group that are cancelled in some executing lane (R149, R460). -/
def State.cancelledMembers (s : State) (is : List FInst) : Nat :=
  let fpmode := s.curWarp.fpmode.toNat
  let rs := s.runMembers s.cur.warp s.cur.lanes fpmode is none
  ((List.range is.length).filter fun j =>
    (lanesOf s.cur.lanes).any fun l => (cancelMarks fpmode l rs).getD j false).length

/-- The core's counts of members issued and cancelled (R460). -/
def State.countMembers (s : State) (is : List FInst) : State :=
  let core := s.coreOf s.cur.warp
  let ctx := s.ctxOf s.cur.warp
  if (s.core core).evsel.isEmpty then s
  else (s.countCore core ctx 0x0006 is.length).countCore core ctx 0x0007 (s.cancelledMembers is)

/-- A flume issue group (R259): the members latch and run, the chain opens on its port; its lanes go on, or, when its latched
fpmode enables a flag, hold until it has written back (R150). -/
def flumeOp (i : Instr) (s : State) : Host.Outcome State Fault Refusal :=
  let group := i :: s.cur.tail
  groupOp group s fun s =>
    let s := s.countMembers (group.filterMap flumeOf)
    let c := s.openChain (group.filterMap flumeOf)
    let len := (group.map Instr.len).sum
    let s := s.upCur fun w => w.setChain s.cur.port (some c)
    .ok (if c.enabled = 0 then s.advance len
      else (s.advance len).upCur fun w =>
        { w with waits := w.waits ++ [⟨s.cur.lanes, s.cur.pc, len, s.cur.port, .chain s.cur.port⟩] })

/-- The chain of a port, or of its record slot, that is in its write-back cycle (R147, R153); whether it is in the slot. A chain
that traps waits for the other port's chain that no record can take (R151). -/
def Warp.dueChain (x : Warp) (cycle port : Nat) : Option (Chain × Bool) :=
  match x.chain port, x.parked port with
  | some c, r =>
    if c.writeback ≤ cycle && (!c.trapping || decide (x.strikeCycle cycle (1 - port) ≤ cycle)) then some (c, false)
    else r.bind fun d => if d.counting && d.writeback ≤ cycle then some (d, true) else none
  | none, some d => if d.counting && d.writeback ≤ cycle then some (d, true) else none
  | none, none => none

/-- A chain's write-back cycle (R144, R147, R153): results and flags, or FP_TRAP, port A's where both ports' chains raise one
(`Warp.firstTrap`, R343); then a trap that waited for it is taken (R151). -/
def execFlumeWriteback (w port : Nat) (s : State) : Host.Outcome State Fault Refusal :=
  let x := s.warp w
  match x.dueChain s.cycle port with
  | none => .next s
  | some (c, true) => .next (s.setWarp w ((x.commitChain c).setParked port none))
  | some (c, false) =>
    if c.trapping then .next (s.takeTrap w c.trap)
    else .next ((s.setWarp w ((x.commitChain c).setChain port none)).takePending w)

/-! ### The instructions -/

def execFaddF32 (ch : Bool) (d a b : Operand) (s : State) := flumeOp (.faddF32 ch d a b) s
def execFaddF16 (ch : Bool) (d a b : Operand) (s : State) := flumeOp (.faddF16 ch d a b) s
def execFaddBf16 (ch : Bool) (d a b : Operand) (s : State) := flumeOp (.faddBf16 ch d a b) s
def execFsubF32 (ch : Bool) (d a b : Operand) (s : State) := flumeOp (.fsubF32 ch d a b) s
def execFsubF16 (ch : Bool) (d a b : Operand) (s : State) := flumeOp (.fsubF16 ch d a b) s
def execFsubBf16 (ch : Bool) (d a b : Operand) (s : State) := flumeOp (.fsubBf16 ch d a b) s
def execFmulF32 (ch : Bool) (d a b : Operand) (s : State) := flumeOp (.fmulF32 ch d a b) s
def execFmulF16 (ch : Bool) (d a b : Operand) (s : State) := flumeOp (.fmulF16 ch d a b) s
def execFmulBf16 (ch : Bool) (d a b : Operand) (s : State) := flumeOp (.fmulBf16 ch d a b) s
def execFfmaF32 (ch : Bool) (d a b : Operand) (s : State) := flumeOp (.ffmaF32 ch d a b) s
def execFfmaF16 (ch : Bool) (d a b : Operand) (s : State) := flumeOp (.ffmaF16 ch d a b) s
def execFfmaBf16 (ch : Bool) (d a b : Operand) (s : State) := flumeOp (.ffmaBf16 ch d a b) s
def execFmaxF32 (ch : Bool) (d a b : Operand) (s : State) := flumeOp (.fmaxF32 ch d a b) s
def execFmaxF16 (ch : Bool) (d a b : Operand) (s : State) := flumeOp (.fmaxF16 ch d a b) s
def execFmaxBf16 (ch : Bool) (d a b : Operand) (s : State) := flumeOp (.fmaxBf16 ch d a b) s
def execFminF32 (ch : Bool) (d a b : Operand) (s : State) := flumeOp (.fminF32 ch d a b) s
def execFminF16 (ch : Bool) (d a b : Operand) (s : State) := flumeOp (.fminF16 ch d a b) s
def execFminBf16 (ch : Bool) (d a b : Operand) (s : State) := flumeOp (.fminBf16 ch d a b) s
def execFgateF32 (ch : Bool) (d a b : Operand) (s : State) := flumeOp (.fgateF32 ch d a b) s
def execFgateF16 (ch : Bool) (d a b : Operand) (s : State) := flumeOp (.fgateF16 ch d a b) s
def execFgateBf16 (ch : Bool) (d a b : Operand) (s : State) := flumeOp (.fgateBf16 ch d a b) s
def execFclampF32 (ch : Bool) (d a b : Operand) (s : State) := flumeOp (.fclampF32 ch d a b) s
def execFclampF16 (ch : Bool) (d a b : Operand) (s : State) := flumeOp (.fclampF16 ch d a b) s
def execFclampBf16 (ch : Bool) (d a b : Operand) (s : State) := flumeOp (.fclampBf16 ch d a b) s
def execFdivF32 (ch : Bool) (d a b : Operand) (s : State) := flumeOp (.fdivF32 ch d a b) s
def execFscaleF32 (ch : Bool) (d a b : Operand) (s : State) := flumeOp (.fscaleF32 ch d a b) s
def execFsqrt (ch : Bool) (t : FTy) (d a : Operand) (s : State) := flumeOp (.fsqrt ch t d a) s
def execFrsq (ch : Bool) (t : FTy) (d a : Operand) (s : State) := flumeOp (.frsq ch t d a) s
def execFrcp (ch : Bool) (t : FTy) (d a : Operand) (s : State) := flumeOp (.frcp ch t d a) s
def execFexp2 (ch : Bool) (t : FTy) (d a : Operand) (s : State) := flumeOp (.fexp2 ch t d a) s
def execFlog2 (ch : Bool) (t : FTy) (d a : Operand) (s : State) := flumeOp (.flog2 ch t d a) s
def execFround (ch : Bool) (t : FTy) (d a : Operand) (s : State) := flumeOp (.fround ch t d a) s
def execFcvt (ch : Bool) (dt st : Ty) (d a : Operand) (s : State) := flumeOp (.fcvt ch dt st d a) s
def execFcmp (cc : FCond) (t : FTy) (d a b : Operand) (s : State) := flumeOp (.fcmp cc t d a b) s
def execFquant (dt : F8Ty) (st : FTy) (d a : Operand) (s : State) := flumeOp (.fquant dt st d a) s
def execFdequant (dt : FTy) (st : F8Ty) (m : RMod) (d a : Operand) (s : State) := flumeOp (.fdequant dt st m d a) s
def execFloatTyped (f : FTyped) (m : RMod) (d a b c : Operand) (s : State) := flumeOp (.floatTyped f m d a b c) s

end Sys2Proof.Machine
end

