-- ==== Sys2Proof/Machine/Fetch.lean ====
section
/-! DEFINITION. Fetching and decoding an issue group (R181 to R183, R195, R198, R199, R257, R258). -/

namespace Sys2Proof.Machine

open Sys2Proof

/-- One word's fetch: the word, a fault with its landing, a translation not there yet, or a wait for a link. -/
inductive FetchRes where
  | word (w : Nat)
  | fault (cause landing : Nat)
  | miss
  | wait
  deriving DecidableEq, Repr, Inhabited

/-- The fetch of a word past its links: its migrating line is pulled first, as the fetch itself will do (R81). -/
def State.fetchLocal (s : State) (x : Xlat) : FetchRes :=
  let s := s.touch x 4
  match s.lineFault x 4 with
  | some (c, l) => .fault c l
  | none => if s.readBad x.pa 4 then .fault causeMemoryUncorrectable 0 else .word (bytesToNat (s.readPhys x.pa 4))

/-- The fetch of a word behind a fabric port (R72, R183, R438, R439): it waits for its link, at most for the fabric timeout. -/
def State.fetchRemote (s : State) (w : Nat) (pc : DWord) (x : Xlat) : FetchRes :=
  let ctx := s.ctxOf w
  match s.carrier x.pa with
  | none => .fault causeLandingLost (s.landingOf x.pa)
  | some port =>
    if (s.ports.get port).state ≠ 2 then
      (if s.linkLate w (linkKey false pc) then .fault causeFabricTimeout port else .wait)
    else if s.silent.get port then .fault causeFabricTimeout port
    else
      match s.fabricFault ctx x.pa 4 false with
      | some c => .fault c port
      | none => s.fetchLocal x

/-- The fetch of the word at a word address, translated at its own byte address (R183). -/
def State.fetchWord (s : State) (w : Nat) (pc : DWord) : FetchRes :=
  let va := pc.toNat * 4
  if 2 ^ 53 ≤ va then .fault causeProtection 0
  else
    match s.xlateWarp w va .fetch with
    | .miss => .miss
    | .fault c => .fault c 0
    | .ok x =>
      if x.packed then .fault causePackedAccess 0
      else if s.beforeSwing x then .wait
      else if isRemote x.pa then s.fetchRemote w pc x
      else s.fetchLocal x

/-- The lines of a migrating page that the fetched words touch are pulled (R81). -/
def State.fetchTouch (s : State) (w : Nat) (pc : DWord) : Nat → State
  | 0 => s
  | n + 1 =>
    let s := match s.xlateWarp w (pc.toNat * 4) .fetch with
      | .ok x => if s.beforeSwing x then s else s.touch x 4
      | _ => s
    s.fetchTouch w (pc + 1) n

/-- An issue group fetched and decoded: its instructions; the word, counted from the first, that is no instruction; the
word that faults; the word that misses; a wait for a link. -/
inductive Fetched where
  | run (i : Instr) (tail : List Instr)
  | bad (n : Nat)
  | fault (n cause landing : Nat)
  | miss (n : Nat)
  | wait
  deriving DecidableEq, Repr, Inhabited

/-- Words fetched one after another from offset `n`; the first that cannot be had ends it. -/
def State.fetchMore (s : State) (w : Nat) (pc : DWord) (n : Nat) : Nat → Except Fetched (List Nat)
  | 0 => .ok []
  | k + 1 =>
    match s.fetchWord w (pc + BitVec.ofNat 64 n) with
    | .fault c l => .error (.fault n c l)
    | .miss => .error (.miss n)
    | .wait => .error .wait
    | .word x =>
      match s.fetchMore w pc (n + 1) k with
      | .error e => .error e
      | .ok xs => .ok (x :: xs)

/-- Words of a packet up to its end: those behind the known ones are taken as zero. -/
def padWords (ws : List Nat) (room : Nat) : List Nat := (ws ++ List.replicate (room - ws.length) 0).take room

/-- The words of an instruction whose first word, and extension word, are known; one that is no instruction has the literal words
that its operand codes ask for (R182, R193). -/
def rawLen (known : List Nat) (room : Nat) : Nat :=
  let first := known.headD 0
  match parse first ((padWords known room).drop 1) with
  | some i => i.len
  | none =>
    let codes := wA first :: wB first :: (if known.length = 2 then [(Ext.ofWord (known.getD 1 0)).c] else [])
    let lits := if wMajor first < 0x40 ∨ known.length = 2 then (codes.filter fun c => 0xFE ≤ c).map (· - 0xFD) else []
    known.length + lits.headD 0

/-- The words of the instruction that starts at word `n` of the group, with `room` words left in its packet (R182, R193). -/
def State.fetchMember (s : State) (w : Nat) (pc : DWord) (n room : Nat) : Except Fetched (List Nat) :=
  match s.fetchMore w pc n 1 with
  | .error e => .error e
  | .ok ws =>
    let two := isFXMajor (wMajor (ws.headD 0)) && 2 ≤ room
    match (if two then s.fetchMore w pc (n + 1) 1 else .ok []) with
    | .error e => .error e
    | .ok more =>
      let known := ws ++ more
      match s.fetchMore w pc (n + known.length) (Nat.min room (rawLen known room) - known.length) with
      | .error e => .error e
      | .ok rest => .ok (known ++ rest)

/-- The words of a group from word `n`, with `room` words left in its packet: its instruction's, and those of every member that a
chain bit leads to; a word after a chain bit is fetched to see whether it may be one (R183, R195). -/
def State.fetchWords (s : State) (w : Nat) (pc : DWord) (n : Nat) : Nat → Except Fetched (List Nat)
  | 0 => .ok []
  | room + 1 =>
    match s.fetchMember w pc n (room + 1) with
    | .error e => .error e
    | .ok ws =>
      let first := ws.headD 0
      if wChain first && isFlumeMajor (wMajor first) && ws.length == 1 && room != 0 then
        match s.fetchMore w pc (n + 1) 1 with
        | .error e => .error e
        | .ok x =>
          if isFlumeMajor (wMajor (x.headD 0)) then
            match s.fetchWords w pc (n + 1) room with
            | .error e => .error e
            | .ok t => .ok (ws ++ t)
          else .ok (ws ++ x)
      else .ok ws

/-- The members after a chained one, in the fetched words: a chain bit before a word that may not follow fails at the word that
carries it (R195, R257), formats that differ fail at the consumer (R199, R258); `room` counts the packet's words from word `n`;
a failure names its word. (DEDUCED: notes/assumptions/51.) -/
def chainTail (ws : List Nat) (prev : Instr) (n : Nat) : Nat → Except Nat (List Instr)
  | 0 => if prev.chain then .error (n - 1) else .ok []
  | room + 1 =>
    if prev.chain = false then .ok []
    else if isFlumeMajor (wMajor (ws.getD n 0)) = false ∨ wMajor (ws.getD n 0) = 0x3E then .error (n - 1)
    else
      match decode (padWords (ws.drop n) (room + 1)) with
      | .error _ => .error n
      | .ok i =>
        match flumeOf prev, flumeOf i with
        | some p, some c =>
          if c.mayFollow = false then .error (n - 1)
          else if formatsAgree p c = false then .error n
          else
            match chainTail ws i (n + 1) room with
            | .error e => .error e
            | .ok t => .ok (i :: t)
        | _, _ => .error (n - 1)

/-- The group that fetched words make: fetched whole first, then judged in ascending order (R199). (DEDUCED: notes/assumptions/51.) -/
def groupOf (ws : List Nat) (room : Nat) : Fetched :=
  match decode (padWords ws room) with
  | .error _ => .bad 0
  | .ok i =>
    match chainTail ws i 1 (room - 1) with
    | .error n => .bad n
    | .ok t => .run i t

/-- The issue group at a word address (R183, R195). (DEDUCED: notes/assumptions/51.) -/
def State.fetchGroup (s : State) (w : Nat) (pc : DWord) : Fetched :=
  let room := 3 - slotOfPc pc
  match s.fetchWords w pc 0 room with
  | .error e => e
  | .ok ws => groupOf ws room

end Sys2Proof.Machine
end

