-- ==== Sys2Proof/Machine/Schedule.lean ====
section
/-! DEFINITION. The warp schedulers: lane groups, eligibility, the turn of each quadrant, the two ports, and the issue of a
group (R19 to R26, R147, R271, R413, R457, R460). -/

namespace Sys2Proof.Machine

open Sys2Proof

/-- The pipe of a major opcode (R20): 0 integer, 1 flume, 2 lane, 3 control, 4 memory, 5 engine, 6 system. -/
def pipeOf (major : Nat) : Nat :=
  if major < 0x20 then 0
  else if major < 0x40 then 1
  else if major < 0x50 then 2
  else if major < 0x60 then 3
  else if major < 0x70 then 4
  else if major < 0x78 then 5
  else 6

/-! ### The scoreboard (R21, R147, R293) -/

/-- The registers that `n` register words from an operand cover, numbered for the scoreboard. -/
def regsOf (o : Operand) (n : Nat) : List Nat :=
  match o with
  | .v r => (List.range n).map (· + r)
  | .s r => [badS r]
  | _ => []

/-- The registers a position of an instruction reads or writes. -/
def positionRegs (p : Pos × Operand) : List Nat :=
  match p.2 with
  | .s r => if p.1 = .quad then (List.range 4).map fun k => badS (r + k) else [badS r]
  | o => regsOf o p.1.vregs

/-- The registers an instruction waits for: its operands, reform's carried registers (R38), and all vector registers for
stagenext, which clears them (R46). -/
def instrRegs (i : Instr) : List Nat :=
  i.positions.flatMap positionRegs ++ (match i with
    | .reform _ k => List.range k
    | .stagenext _ => List.range 192
    | _ => [])

/-- The destinations of an open chain. -/
def chainRegs (c : Option Chain) : List Nat :=
  match c with
  | none => []
  | some c => c.members.flatMap fun m => regsOf m.dest m.words

/-- The destinations that a response will write (R271, R287 to R289). -/
def Wait.regs : Wait → List Nat
  | .mem m => regsOf m.d m.words
  | .pool _ d st => regsOf d 2 ++ regsOf st 1
  | _ => []

/-- A chain that is counted out in its record slot (R153). -/
def countingChain (c : Option Chain) : Option Chain := c.bind fun c => if c.counting then some c else none

/-- The registers of a warp with pending writes. (DEDUCED: notes/assumptions/52.) -/
def Warp.busyRegs (w : Warp) : List Nat :=
  chainRegs w.chainA ++ chainRegs w.chainB ++ chainRegs (countingChain w.recA) ++ chainRegs (countingChain w.recB)
    ++ w.pending.flatMap (fun p => regsOf p.reg p.words) ++ w.waits.flatMap fun r => r.wait.regs

/-- No operand of the group has a pending write. (DEDUCED: notes/assumptions/52.) -/
def Warp.regsFree (w : Warp) (is : List Instr) : Bool :=
  let busy := w.busyRegs
  busy.isEmpty || is.all fun i => (instrRegs i).all fun r => !busy.contains r

/-! ### Lane groups (R19) -/

/-- The unblocked live lanes of a warp that may issue in this cycle: outside a handler's suspension, in a resident crew. In the
cycle of a pre-emption request the warps still issue (R52, R343). -/
def State.issueLanes (s : State) (w : Nat) : LaneSet :=
  let x := s.warp w
  let c := s.crewOf w
  if x.live && !x.stopped && c.live && c.resident && !(c.saving && decide (c.savingAt < s.cycle)) then
    let free := laneSet ((List.range 32).filter fun l => (x.lane l).live && decide ((x.lane l).readyAt ≤ s.cycle)) &&& ~~~x.blocked &&& ~~~x.holding
    match x.handler with
    | some h => free &&& h.lanes
    | none => free
  else 0

/-- Held lanes that belong to the lane group at a word: it issues with them (R19, R271). In handler mode only the handler's lanes
are in a group. (DESIGN CHOICE: notes/assumptions/115.) -/
def Warp.awaits (x : Warp) (pc : DWord) : Bool :=
  let m := x.holdingFor pc &&& x.liveLanes
  (match x.handler with
    | some h => m &&& h.lanes
    | none => m) != 0

/-- A group of a warp: its word address, lanes, pipe and age. -/
structure Group where
  pc : DWord
  lanes : LaneSet
  pipe : Nat
  age : Nat
  deriving DecidableEq, Repr, Inhabited

/-- The pipe a word's group goes to; a word that cannot be fetched goes to none. -/
def State.pipeAt (s : State) (w : Nat) (pc : DWord) : Nat :=
  match s.fetchWord w pc with
  | .word x => pipeOf (wMajor x)
  | _ => 7

/-- The global addresses that an instruction's lanes, or its leader, access: through these it may need misses (R413). -/
def State.accessVas (s : State) (i : Instr) : List Nat :=
  let lanes := fun (a : Operand) (b : Option Operand) => (lanesOf s.cur.lanes).map (s.laneVa false a b)
  match i with
  | .ldG _ _ _ _ a | .stG _ _ _ _ a | .ldt _ _ _ a => lanes a none
  | .ldOffset false _ _ _ _ a b | .stOffset false _ _ _ _ a b => lanes a (some b)
  | .atomG _ _ _ _ _ a _ _ => lanes a none
  | .ldtBlock _ _ a _ | .cpyLd _ _ _ _ _ a _ _ | .cpySt _ _ _ _ _ a _ _ => [s.lead64 a]
  | .spawn _ _ a _ | .mload (.packed _) a _ | .mdrain .glob _ _ a _ | .mdrain .globAdd _ _ a _ => [s.lead64 a]
  | .kvput _ _ a _ _ => [s.lead64 a]
  | .bulk false _ _ _ _ a => [s.quad a 0]
  | _ => []

/-- The core has room for the misses that an instruction needs, or none is pending there (R413): one that needs more than 16 by
itself opens 16 and issues again. (DEDUCED: notes/assumptions/68.) -/
def State.missRoom (s : State) (w : Nat) (pc : DWord) (lanes : LaneSet) (i : Instr) : Bool :=
  let core := s.coreOf w
  let ctx := s.ctxOf w
  let pending := (s.core core).misses
  pending.isEmpty ||
    (let vas := { s with cur := { s.cur with warp := w, lanes := lanes, pc := pc } }.accessVas i
     let pages := (dedup (vas.map (· / 8192))).filter fun p =>
       s.xlate core ctx (8192 * p) .read == .miss && !pending.any fun m => m.ctx == ctx && m.vpn == p
     decide (pending.length + pages.length ≤ 16))

/-- The issue group at a word address may issue (R21, R413). -/
def State.groupReady (s : State) (w : Nat) (pc : DWord) (lanes : LaneSet) : Bool :=
  match s.fetchGroup w pc with
  | .wait => false
  | .miss n =>
    let c := s.core (s.coreOf w)
    let page := (pc + BitVec.ofNat 64 n).toNat * 4 / 8192
    c.misses.length < 16 || c.misses.any fun m => m.ctx == s.ctxOf w && m.vpn == page
  | .run i t => (s.warp w).regsFree (i :: t) && s.engineRoom w i && s.missRoom w pc lanes i
  | _ => true

/-- The greatest age counter of a set of lanes (R24). -/
def Warp.ageOf (w : Warp) (m : LaneSet) : Nat := (lanesOf m).foldl (fun a l => Nat.max a (w.lane l).age) 0

/-- A port takes a group: its flume slot is free (R147). -/
def Warp.portTakes (w : Warp) (port : Nat) (g : Group) : Bool := g.pipe != 1 || (w.chain port).isNone

/-- The eligible groups of a warp in ascending program counter: ready, and accepted by their pipe on one of the ports (R19, R21). -/
def State.eligible (s : State) (w : Nat) : List Group :=
  let x := s.warp w
  let free := s.issueLanes w
  let pcs := sortBy id (dedup ((lanesOf free).map fun l => (x.lane l).pc.toNat))
  let at_ := fun (pc : DWord) => laneSet ((lanesOf free).filter fun l => (x.lane l).pc == pc)
  ((pcs.map (BitVec.ofNat 64)).filter fun pc => !x.awaits pc && s.groupReady w pc (at_ pc)).map (fun pc =>
    ({ pc := pc, lanes := at_ pc, pipe := s.pipeAt w pc, age := x.ageOf (at_ pc) } : Group))
    |>.filter fun g => x.portTakes 0 g || x.portTakes 1 g

/-- The groups of the two ports (R23, R24), and whether age forced port A's. (DESIGN CHOICE: notes/assumptions/27.) -/
def Warp.choose (w : Warp) (gs : List Group) : Option Group × Option Group × Bool :=
  let mine := gs.filter (w.portTakes 0)
  let oldest := leastBy (fun g => 2 ^ 64 - g.age) (mine.filter fun g => 64 ≤ g.age)
  let a := match oldest with
    | some g => some g
    | none => mine.head?
  let b := match (gs.filter fun g => some g != a).head? with
    | some g => if w.portTakes 1 g && (a.map (·.pipe)) != some g.pipe then some g else none
    | none => none
  (a, b, oldest.isSome)

/-- The age counters after a selection (R24): every lane in an eligible group counts it; those that issue go back to zero when
they do. -/
def Warp.countAges (w : Warp) (gs : List Group) : Warp :=
  gs.foldl (fun w g => w.mapLanes g.lanes fun x => { x with age := x.age + 1 }) w

/-- The lanes of an issue start to age anew (R24). -/
def State.clearAges (s : State) (i : Issue) : State :=
  s.setWarp i.warp ((s.warp i.warp).mapLanes i.lanes fun x => { x with age := 0 })

/-- A group as an issue on a port. -/
def issueOf (w : Nat) (port : Nat) (g : Group) : Issue :=
  { warp := w, lanes := g.lanes, pc := g.pc, port := port, tail := [], bad := 0 }

/-! ### The order of one cycle's issues (R23, R53, R121, R325, R343, R406) -/

/-- The instructions of an issue, none when it is no group of instructions. -/
def State.issueInstrs (s : State) (i : Issue) : List Instr :=
  match s.fetchGroup i.warp i.pc with
  | .run x t => x :: t
  | _ => []

/-- An exit that ends its warp with a fault to report: its crew fails by it (R390). -/
def State.exitFails (s : State) (i : Issue) : Bool :=
  (s.warp i.warp).liveLanes &&& ~~~i.lanes == 0 && (s.lastFault i.warp).isSome

/-- An issue's rank in its cycle: what ends a crew well or starts a launch comes before a cancel, and a cancel before the rest
(R343, R406); of the rest, arrivals on gang barriers, which go by crew rank, come first (R53), and an arming of a counter comes
after the arrivals on it (R325). (DESIGN CHOICE: notes/assumptions/27.) -/
def State.issueRank (s : State) (i : Issue) : Nat :=
  match s.issueInstrs i with
  | .exit :: _ => if s.exitFails i then 3 else 0
  | .spawn .. :: _ => 0
  | .cancel .. :: _ => 1
  | .barGang .. :: _ | .barGangArrive .. :: _ => 2
  | .arminit .. :: _ => 4
  | _ => 3

/-- The order of these among the warps of one cycle is fixed by a rule (R53, R121, R240, R325, R337, R343). -/
def ordered (i : Instr) : Bool :=
  match i with
  | .bar .. | .barArrive .. | .barGang .. | .barGangArrive .. | .qput .. | .qtake .. | .redeem .. | .redeemX .. | .tkdrop ..
  | .arminit .. | .arrive .. | .trap _ | .brk _ | .halt => true
  | _ => false

/-- Port B's group sees what port A's does: they name a register in common, or it reads memory behind an arming, or it cancels
(R23). -/
def State.pairTouches (s : State) (a b : Issue) : Bool :=
  let as := s.issueInstrs a
  let bs := s.issueInstrs b
  let regs := as.flatMap instrRegs
  (bs.flatMap instrRegs).any regs.contains
    || bs.any (fun i => match i with
      | .cancel .. => !as.any ordered
      | _ => false)
    || (as.any (fun i => match i with
      | .arminit .. => true
      | _ => false) && s.pipeAt b.warp b.pc == 4)

/-- The ranks of one warp's two issues: where port B's group depends on port A's, it does not come before it (R23).
(DESIGN CHOICE: notes/assumptions/27.) -/
def State.rankPair (s : State) : Option (Nat × Issue) → Option (Nat × Issue) → List (Nat × Issue)
  | some a, some b =>
    if b.1 < a.1 && s.pairTouches a.2 b.2 then
      let r := if (s.issueInstrs a.2).any ordered then a.1 else b.1
      [(r, a.2), (r, b.2)]
    else [a, b]
  | a, b => a.toList ++ b.toList

/-- Order of one cycle's issues: by rank, then ascending core, crew index, warp slot and port; arrivals on gang barriers ascending
crew index first, which is the order of the ranks of a gang (R53, R121, R292). (DESIGN CHOICE: notes/assumptions/27.) -/
def State.issueKey (s : State) (rank : Nat) (i : Issue) : Nat :=
  let core := s.coreOf i.warp
  let crew := (s.crewOf i.warp).index
  let place := if rank = 2 then crew * 256 + core else core * 2 ^ 24 + crew
  ((rank * 2 ^ 40 + place) * 64 + slotOf i.warp) * 2 + i.port

/-- A selected warp's turn: the groups of its two ports, with their ranks (R23). -/
def State.takeTurn (s : State) (w : Nat) : State × List (Nat × Issue) :=
  let x := s.warp w
  let gs := s.eligible w
  let (a, b, aged) := x.choose gs
  let s' := s.setWarp w (x.countAges gs)
  let s' := if aged then s'.countCore (s'.coreOf w) (s'.ctxOf w) 0x0004 1 else s'
  (s', s.rankPair ((a.map (issueOf w 0)).map fun i => (s.issueRank i, i)) ((b.map (issueOf w 1)).map fun i => (s.issueRank i, i)))

/-- The turns of a cycle taken: every selected warp's groups, in the order in which they are performed. -/
def State.takeTurns (s : State) : State :=
  let t := s.turns.foldl (fun (acc : State × List (Nat × Issue)) w =>
    let (s, is) := acc.1.takeTurn w
    (s, acc.2 ++ is)) ({ s with turns := [] }, [])
  { t.1 with issues := t.1.issues ++ sortBy (fun p => t.1.issueKey p.1 p.2) t.2 }

/-- A group is still there when its place in the cycle comes: no earlier issue of the cycle stopped, blocked or moved its lanes, or
took the room it needs (R23). (DESIGN CHOICE: notes/assumptions/27.) -/
def State.stillEligible (s : State) (i : Issue) : Bool :=
  i.lanes &&& ~~~(s.issueLanes i.warp) == 0
    && (lanesOf i.lanes).all (fun l => ((s.warp i.warp).lane l).pc == i.pc)
    && s.groupReady i.warp i.pc i.lanes

/-- The warp's other group of this cycle is still to come, or left a trap. -/
def State.paired (s : State) (w : Nat) : Bool :=
  s.issues.any (fun p => p.2.warp == w) || s.raised.any fun p => p.1 == w

/-- A noted trap of a warp is taken. -/
def State.takeRaised (s : State) (w : Nat) : State :=
  let rest := { s with raised := s.raised.filter (fun p => p.1 != w), cur := { s.cur with pairs := false } }
  match s.raised.find? fun p => p.1 == w with
  | some (_, t, sup) => if (s.warp w).live then rest.takeTrap w t sup else rest
  | none => rest

/-- After an issue of a warp that issues on both ports; `s` is the state before it. The first leaves its trap noted. After the second
a noted trap is taken; where both trap it is port A's, and port B's group has committed nothing (R23, R200, R343). -/
def State.afterPair (s t : State) (w : Nat) : State :=
  if s.issues.any fun p => p.2.warp == w then { t with cur := { t.cur with pairs := false } }
  else if s.raised.length < t.raised.length then
    if t.cur.port = 1 ∧ s.raised.any (fun p => p.1 == w) then s.takeRaised w
    else
      let others := s.raised.filter fun p => p.1 != w
      { t with raised := t.raised.drop s.raised.length ++ others }.takeRaised w
  else t.takeRaised w

/-! ### The round robin (R22) -/

/-- The warps of a quadrant with an eligible group, in ascending number. -/
def State.candidates (s : State) (core q : Nat) : List Nat :=
  (s.quadWarps core q).filter fun w => !(s.eligible w).isEmpty

/-- The warp after the one selected last, if any is a candidate; the table holds the number after it. The cyclic order among
warps of several crews is by crew token, then slot. (DESIGN CHOICE: notes/assumptions/27.) -/
def State.roundRobin (s : State) (core q : Nat) : Option Nat :=
  let ws := s.candidates core q
  let from_ := (s.core core).last.get q
  match ws.find? fun w => from_ ≤ w with
  | some w => some w
  | none => ws.head?

/-- The cores with a resident crew. -/
def State.busyCores (s : State) : List Nat :=
  sortBy id (dedup ((s.crews.filter fun p => p.2.live && p.2.resident).map fun p => p.2.core))

/-- The core advances in this cycle (R457). -/
def State.advances (s : State) : Bool := s.cycle % 8 < s.mgr.issue

/-- Every quadrant of a core selects its warp. -/
def State.selectCore (s : State) (core : Nat) : State :=
  (List.range 4).foldl (fun s q =>
    match s.roundRobin core q with
    | none => s
    | some w =>
      let c := s.core core
      { s.setCore core { c with last := c.last.set q (w + 1) } with turns := s.turns ++ [w] }) s

/-- The turns of a new cycle (R22, R457). (DESIGN CHOICE: notes/assumptions/1.) (DESIGN CHOICE: notes/assumptions/27.) -/
def State.selectTurns (s : State) : State :=
  if s.advances then
    s.busyCores.foldl (fun s c => (s.countCore c 0xFFFF 0x0001 1).selectCore c) { s with turns := [] }
  else { s with turns := [] }

/-! ### The issue of a group (R183, R199, R460) -/

/-- The number of a group's word among its chain's members: words before it that carry a chain bit (R331). -/
def State.memberAt (s : State) (w : Nat) (pc : DWord) : Nat → Nat
  | 0 => 0
  | n + 1 =>
    match s.fetchWord w pc with
    | .word x => if isFlumeMajor (wMajor x) && wChain x then 1 + s.memberAt w (pc + 1) n else 0
    | _ => 0

/-- The trap of a word that cannot be fetched (R183). (DEDUCED: notes/assumptions/51.) -/
def State.fetchTrap (s : State) (n cause landing : Nat) : Trap :=
  let pc := s.cur.pc + BitVec.ofNat 64 n
  { cause := cause, addr := byteAddr pc, slot := slotOfPc pc, landing := landing,
    member := s.memberAt s.cur.warp s.cur.pc n }

/-- A poisoned fetch is entered in the error log (R425). -/
def State.logFetch (s : State) (n cause : Nat) : State :=
  let va := (s.cur.pc + BitVec.ofNat 64 n).toNat * 4
  if cause = causeMemoryUncorrectable then
    (match s.xlateWarp s.cur.warp va .fetch with
      | .ok x => s.logRead (s.ctxOf s.cur.warp) x.pa 4 va
      | _ => s)
  else s

/-! ### The scalar unit (R26) -/

/-- The inverse of an odd number modulo 2^32, by Newton's steps. -/
def inv32 (m : Nat) : Nat :=
  (List.range 5).foldl (fun x _ => x * (2 + 2 ^ 32 - m * x % 2 ^ 32) % 2 ^ 32) m

/-- The strides that take a value to another in `g` lanes' distance, modulo 2^32. -/
def strides (g diff : Nat) : List Nat :=
  let k := ((List.range 5).find? fun k => g / 2 ^ k % 2 == 1).getD 0
  if diff % 2 ^ k ≠ 0 then []
  else (List.range (2 ^ k)).map fun j => (diff / 2 ^ k * inv32 (g / 2 ^ k) + j * 2 ^ (32 - k)) % 2 ^ 32

/-- The values of a set of lanes are uniform or affine (R26). -/
def affine (f : Nat → Nat) (lanes : LaneSet) : Bool :=
  match lanesOf lanes with
  | a :: b :: t =>
    (strides (b - a) ((f b + 2 ^ 32 - f a) % 2 ^ 32)).any fun d => t.all fun l => (f a + (l - a) * d) % 2 ^ 32 == f l
  | _ => true

/-- An operand's registers, or its word, are uniform or affine over a set of lanes; a scalar register or a constant always is. -/
def State.affineOperand (s : State) (w : Nat) (lanes : LaneSet) (p : Pos × Operand) : Bool :=
  match p.2 with
  | .v n => (List.range p.1.vregs).all fun k => affine (fun l => ((s.warp w).v (n + k) l).toNat) lanes
  | .tid => affine (fun l => s.src32 w l .tid) lanes
  | _ => true

/-- An operation of the integer pipe that may run on the scalar unit is counted when the hardware runs it there: its sources are
uniform or affine over the live lanes, and its result over the lanes that executed it (R26, R460); `s` is the state of the issue.
(DESIGN CHOICE: notes/assumptions/9.) -/
def State.countScalar (t s : State) (i : Instr) : State :=
  let w := s.cur.warp
  if (s.core (s.coreOf w)).evsel.isEmpty then t
  else
    let sources := i.positions.filter fun p => p.1.reads
    let results := i.positions.filter fun p => p.1.writes
    let may := s.pipeAt w s.cur.pc = 0 ∧ (t.warp w).handler = (s.warp w).handler ∧ Config.scalarUnit s.cycle w
      ∧ sources.all (s.affineOperand w (s.warp w).liveLanes) ∧ results.all (t.affineOperand w s.cur.lanes)
    t.countCore (s.coreOf w) (s.ctxOf w) 0x0005 (if may then 1 else 0)

/-- An issue performed, and counted where it ran on the scalar unit (R26). -/
def State.noteScalar (s : State) (i : Instr) (o : Host.Outcome State Fault Refusal) : Host.Outcome State Fault Refusal :=
  match o with
  | .next t => .next (t.countScalar s i)
  | o => o

/-- A group at its port: fetched and decoded, its instruction to be performed; or its fetch fault taken, or its lanes waiting
for a walk. (DEDUCED: notes/assumptions/50.) -/
def State.prepare (s : State) (i : Issue) : State × Option Instr :=
  let taken := fun (n : Nat) (i : Issue) =>
    ({ ((s.fetchTouch i.warp i.pc n).countCore (s.coreOf i.warp) (s.ctxOf i.warp) (2 + i.port) 1) with cur := i }).clearAges i
  match s.fetchGroup i.warp i.pc with
  | .run x t => (taken (x.len + (t.map Instr.len).sum) { i with tail := t }, some x)
  | .bad n => (taken (n + 1) { i with bad := n }, some .illegalInstruction)
  | .fault n c l =>
    let s := { (s.fetchTouch i.warp i.pc (n + 1)) with cur := i }.clearAges i
    (((s.logFetch n c).issueTrap (s.fetchTrap n c l)).spendWalk, none)
  | .miss n => ({ s with cur := i }.waitWalk 0 [(i.pc + BitVec.ofNat 64 n).toNat * 4] .fetch, none)
  | .wait => ({ s with cur := i }.stall, none)

/-- The words that a warp's lanes stand at and that wait for a link, each since its first cycle (R183, R439). -/
def State.noteLinks (s : State) (w : Nat) : State :=
  let x := s.warp w
  let pcs := (dedup ((lanesOf (s.issueLanes w)).map fun l => (x.lane l).pc.toNat)).map (BitVec.ofNat 64)
  let waiting := pcs.filter fun pc => s.fetchGroup w pc == .wait
  let kept := x.linkWaits.filter fun p => 2 ^ 64 ≤ p.1 || waiting.any fun pc => linkKey false pc == p.1
  s.setWarp w (waiting.foldl (fun x pc => x.waitLink s.cycle (linkKey false pc)) { x with linkWaits := kept })

/-- Every warp's fetches that wait for a link, looked at while some link of a landing is not up. -/
def State.settleLinks (s : State) : State :=
  if s.ports.any fun p => p.2.attached && p.2.state != 2 then
    ((s.warps.filter fun p => p.2.live).map (·.1)).foldl State.noteLinks s
  else s

end Sys2Proof.Machine
end

