-- ==== Sys2Proof/Machine/Deadlock.lean ====
section
/-! DEFINITION. The wait-for table, the walk over it, and the reports of deadlocks (R33, R49, R326, R327, R403 to R405). -/

namespace Sys2Proof.Machine

open Sys2Proof

/-! ### The table (R49, R403, R405) -/

/-- An entry of the table: waiter (a warp's number, or a number from `binWho`, `opWho` or `yardWho` up), wait kind and object, the
crew's token, what names it in a report, the arrival state of its object, and the lanes, with the port and the word of the first
that waits. `timed`: the wait ends by itself, at a deadline or when the fabric answers (R403). -/
structure WaitEntry where
  who : Nat
  kind : Nat
  object : Nat
  tok : Nat
  ctx : Nat
  crew : Nat
  slot : Nat
  arrivals : List Nat
  lanes : LaneSet
  pc : DWord
  port : Nat
  timed : Bool
  deriving DecidableEq, Repr, Inhabited

/-- Numbers of bins, of engine operations and of the threads of a crew that wait for a bin, among the waiters. -/
def binWho : Nat := 2 ^ 40
def opWho : Nat := 2 ^ 41
def yardWho : Nat := 2 ^ 42

/-- Kind and object of a lane's recorded wait, and whether it ends by itself: an mwaitt and a sleep at their deadlines, a redeem and
a wait for room with a ticket's deadline or the fabric's answer. Kinds 12 and 13 are the model's own for sleep and for room, which
no report can name. (DEDUCED: notes/assumptions/19.) -/
def State.waitKind (s : State) (w : Nat) (x : Wait) : Option (Nat × Nat × Bool) :=
  match x with
  | .mask k => some (1, k, false)
  | .maskT k _ _ => some (1, k, true)
  | .bar false id => some (2, id, false)
  | .bar true id => some (3, id, false)
  | .stage _ => some (4, (s.warp w).stage, false)
  | .qput st _ _ => some (5, st, false)
  | .qtake _ _ => some (6, (s.warp w).stage, false)
  | .await o _ => some (8, o / 16, false)
  | .redeem t _ _ _ => some (9, t.toNat % 4096, true)
  | .trapret => some (11, 0, false)
  | .sleep _ => some (12, 0, true)
  | .room _ => some (13, 0, true)
  | .tlb _ | .held _ | .mem _ | .fence | .pool .. | .csr .. | .chain _ => none

/-- The arrival state of a wait's object. -/
def State.arrivalsOf (s : State) (w kind object : Nat) : List Nat :=
  let x := s.warp w
  let c := s.crewOf w
  match kind with
  | 1 => [(x.masks.get object).toNat, (x.waiting (Wait.onMask object)).toNat]
  | 2 => [(s.barrier (crewTok w) false object).arrived]
  | 3 => [(s.barrier (crewTok w) true object).arrived]
  | 4 => [(x.waiting Wait.isStage).toNat, x.liveLanes.toNat]
  | 5 | 6 => [c.puts.get object, c.takes.get object]
  | 8 =>
    (match s.counterPlace (crewTok w) (16 * object) with
      | some (t, off) => [(s.counter t off).arrived, (s.counter t off).epoch]
      | none => [])
  | 11 => [(x.waiting (· == .trapret)).toNat]
  | _ => []

/-- An entry joined to those of the same waiter, kind and object. -/
def joinEntry (e : WaitEntry) : List WaitEntry → List WaitEntry
  | [] => [e]
  | f :: t =>
    if f.who = e.who ∧ f.kind = e.kind ∧ f.object = e.object ∧ f.timed = e.timed then { f with lanes := f.lanes ||| e.lanes } :: t
    else f :: joinEntry e t

/-- The lanes of a warp whose waits count: those that a trap suspended are in no blocked wait (R332). -/
def Warp.waitingLanes (x : Warp) : LaneSet :=
  match x.handler with
  | some h => h.lanes
  | none => x.liveLanes

/-- The entries of a warp's lanes. (DEDUCED: notes/assumptions/19.) -/
def State.warpEntries (s : State) (w : Nat) : List WaitEntry :=
  let c := s.crewOf w
  let x := s.warp w
  x.waits.foldl (fun acc r =>
    match s.waitKind w r.wait with
    | some (k, o, timed) =>
      let m := r.lanes &&& x.waitingLanes
      if m = 0 then acc
      else joinEntry { who := w, kind := k, object := o, tok := crewTok w, ctx := c.ctx, crew := c.index, slot := slotOf w,
                       arrivals := s.arrivalsOf w k o, lanes := m, pc := r.pc, port := r.port, timed := timed } acc
    | none => acc) []

/-- A bin's threads; until the bin is full or of age its age is a deadline (R40, R403). -/
def State.binEntries (s : State) (core : Nat) : List WaitEntry :=
  (s.core core).bins.map fun p =>
    let c := s.crew p.2.key.crew
    { who := binWho + core * 64 + p.1, kind := 7, object := p.1, tok := p.2.key.crew, ctx := c.ctx, crew := c.index, slot := 0,
      arrivals := [p.2.threads.length], lanes := 0, pc := 0, port := 0, timed := !s.binDue core p.1 }

/-- The threads of each crew that wait for a bin to free, outside every bin (R39). Their object is one past the bins.
(DEDUCED: notes/assumptions/19.) -/
def State.yardEntries (s : State) (core : Nat) : List WaitEntry :=
  let ts := (s.core core).yardWait
  (dedup (ts.map (·.1.crew))).map fun tok =>
    let c := s.crew tok
    { who := yardWho + tok, kind := 7, object := 64, tok := tok, ctx := c.ctx, crew := c.index, slot := 0,
      arrivals := [(ts.filter (·.1.crew == tok)).length], lanes := 0, pc := 0, port := 0, timed := false }

/-- The lowest tag that holds an access up. -/
def State.tagWait (s : State) (ps : List Span) : Option Nat :=
  ps.findSome? fun p => ((s.crew p.crew).tags.find? fun (_, t) => p.meets t && t.full == p.write).map (·.1)

/-- The tag that holds a deck task up: of its next step, or of its input mask before it starts. -/
def State.taskTag (s : State) (t : DeckTask) : Option Nat :=
  let tok := crewTok t.warp
  if t.fence.isSome ∨ t.ended.isSome ∨ t.copies then none
  else if t.running then
    (if t.steps.length ≤ t.at_ then none else s.tagWait (s.stepSpans tok (t.steps.take t.at_) (t.steps.getD t.at_ .swap)))
  else (List.range 64).find? fun k => t.mask / 2 ^ k % 2 == 1 && !((s.crew tok).tags.get k).full

/-- The entry of an engine operation that waits on a tag. -/
def State.opEntry (s : State) (num w tag : Nat) : WaitEntry :=
  let c := s.crewOf w
  { who := opWho + num, kind := 10, object := tag, tok := crewTok w, ctx := c.ctx, crew := c.index, slot := slotOf w,
    arrivals := [if (c.tags.get tag).full then 1 else 0], lanes := 0, pc := 0, port := 0, timed := false }

/-- The engine waits of a core. -/
def State.engineEntries (s : State) (core : Nat) : List WaitEntry :=
  let g := s.engs core
  let heads := [0, 1, 2, 3, 5, 6, 7].filterMap fun q => (g.list q).head?
  let ops := heads.filterMap fun e =>
    if e.hold.isNone && (e.patch.isNone || e.count.isSome) then (s.tagWait (s.spansOf e)).map (s.opEntry e.num e.warp) else none
  let tasks := g.deck.filterMap fun t => (s.taskTag t).map (s.opEntry t.num t.warp)
  ops ++ tasks

/-- The wait-for table of the resident crews. -/
def State.waitTable (s : State) : List WaitEntry :=
  let toks := (s.crews.filter fun p => p.2.live && p.2.resident && p.1 < 2 ^ 16).map (·.1)
  (toks.flatMap s.warpsOf).flatMap s.warpEntries ++ s.busyCores.flatMap fun c => s.binEntries c ++ s.yardEntries c ++ s.engineEntries c

/-! ### Signallers (R49, R403) -/

/-- A signaller of an entry: one that is live, or one that waits in an entry of the table. -/
inductive Sig where
  | live
  | entry (i : Nat)
  deriving DecidableEq, Repr, Inhabited

/-- A lane as a signaller: live unless it waits in an entry. -/
def laneSig (table : List WaitEntry) (w l : Nat) : Sig :=
  match table.findIdx? fun e => e.who == w && e.lanes.getLsbD l with
  | some i => .entry i
  | none => .live

/-- The live lanes of a warp as signallers; a stopped warp is not blocked. -/
def State.warpSigs (s : State) (table : List WaitEntry) (w : Nat) : List Sig :=
  (lanesOf (s.warp w).liveLanes).map (laneSig table w)

/-- The warps of a crew as signallers; a swapped-out crew is live. -/
def State.crewSigs (s : State) (table : List WaitEntry) (tok : Nat) : List Sig :=
  let c := s.crew tok
  if tok < 2 ^ 16 ∧ c.live ∧ c.resident = false then [.live] else (s.warpsOf tok).flatMap (s.warpSigs table)

/-- The bins of a core as signallers. -/
def State.binSigs (s : State) (table : List WaitEntry) (core : Nat) (of_ : Bin → Bool) : List Sig :=
  ((s.core core).bins.filter fun p => of_ p.2).map fun p =>
    match table.findIdx? fun e => e.who == binWho + core * 64 + p.1 with
    | some i => .entry i
    | none => .live

/-- The threads of a crew in the sort yard as signallers, by the bins they wait in or the wait for a bin. They are live threads,
which a barrier expects (R31, R42, R49). (DEDUCED: notes/assumptions/19.) -/
def State.yardSigs (s : State) (table : List WaitEntry) (tok : Nat) : List Sig :=
  s.binSigs table (s.crew tok).core (fun b => b.key.crew == tok)
    ++ (match table.findIdx? fun e => e.who == yardWho + tok with
      | some i => [.entry i]
      | none => [])

/-- The live threads of a crew as signallers of a barrier. -/
def State.threadSigs (s : State) (table : List WaitEntry) (tok : Nat) : List Sig :=
  s.crewSigs table tok ++ s.yardSigs table tok

/-- An operation as a signaller: it waits in its entry, or behind the entry of its queue's head, or is live. -/
def opSig (table : List WaitEntry) (head num : Nat) : Sig :=
  match table.findIdx? fun e => e.who == opWho + num with
  | some i => .entry i
  | none =>
    match table.findIdx? fun e => e.who == opWho + head with
    | some i => .entry i
    | none => .live

/-- The operations of a core that touch a tag's range of a crew, as signallers. -/
def State.tagSigs (s : State) (table : List WaitEntry) (core tok tag me : Nat) : List Sig :=
  let g := s.engs core
  let t := (s.crew tok).tags.get tag
  let touches := fun (ps : List Span) => ps.any fun p => p.crew == tok && p.meets t
  ([0, 1, 2, 3, 5, 6, 7].flatMap fun q =>
      let head := ((g.list q).head?.map (·.num)).getD 0
      ((g.list q).filter fun e => opWho + e.num != me && touches (s.spansOf e)).map fun e => opSig table head e.num)
    ++ (g.deck.filter fun k => opWho + k.num != me && touches (s.taskSpans k)).map fun k => opSig table k.num k.num

/-- An operation of the crew's core names the counter. -/
def State.namesCounter (s : State) (core tok off : Nat) : Bool :=
  let g := s.engs core
  ([0, 1, 2, 3].flatMap g.list).any fun e => crewTok e.warp == tok && (match e.op with
    | .load _ _ arr _ _ _ _ ctr _ => arr && ctr == off
    | .store _ _ arr _ _ _ _ ctr _ => arr && ctr == off
    | _ => false)

/-- The expected signallers of an entry (R49, R403); a wait that ends by itself has a live one. -/
def State.sigsOf (s : State) (table : List WaitEntry) (e : WaitEntry) : List Sig :=
  let w := e.who
  let tok := e.tok
  let x := s.warp w
  let crew := s.crewSigs table tok
  let gang := s.gangOf tok
  let core := (s.crew tok).core
  if e.timed then [.live]
  else match e.kind with
  | 1 => (lanesOf (x.masks.get e.object &&& ~~~(x.waiting (Wait.onMask e.object)))).map (laneSig table w)
  | 2 => s.threadSigs table tok
  | 3 => gang.flatMap (s.threadSigs table)
  | 4 =>
    let rest := x.liveLanes &&& ~~~(x.waiting Wait.isStage)
    if rest = 0 then [.live] else (lanesOf rest).map (laneSig table w)
  | 5 =>
    let mine := (s.warpsOf tok).filter fun v => (s.warp v).stage == e.object
    if mine.length < (s.stageDecl tok e.object).wmax then crew else mine.flatMap (s.warpSigs table)
  | 6 => crew
  | 7 =>
    if yardWho ≤ w then s.binSigs table core fun _ => true
    else
      (match (s.core core).bins.find e.object with
        | some b => if (s.freeSlot b.key).isSome then [.live] else s.crewSigs table tok
        | none => [.live])
  | 8 =>
    (match s.counterPlace tok (16 * e.object) with
      | none => [.live]
      | some (t, off) =>
        let c := s.crew t
        if c.shared.contains off ∨ s.namesCounter c.core t off then [.live] else gang.flatMap (s.crewSigs table))
  | 10 => s.crewSigs table tok ++ s.tagSigs table core tok e.object w
  | 11 =>
    (match x.handler with
      | some h => (lanesOf (h.lanes &&& x.liveLanes)).map (laneSig table w)
      | none => [.live])
  | _ => [.live]

/-! ### The walk (R404) -/

/-- The signallers of every entry, as one list per entry. -/
def State.allSigs (s : State) (table : List WaitEntry) : List (List Sig) := table.map (s.sigsOf table)

/-- The entries live after one more look, from those known to be live. -/
def spread (sigs : List (List Sig)) (alive : List Bool) : List Bool :=
  sigs.map fun l => l.any fun x =>
    match x with
    | .live => true
    | .entry i => alive.getD i false

/-- The live entries: looked for until nothing can change. -/
def liveEntries (sigs : List (List Sig)) : Nat → List Bool → List Bool
  | 0, alive => alive
  | n + 1, alive => liveEntries sigs n (spread sigs alive)

/-- The entries that entries of a set wait for, as numbers. (DEDUCED: notes/assumptions/19.) -/
def waitsFor (sigs : List (List Sig)) (from_ : List Nat) : List Nat :=
  dedup (from_.flatMap fun i => (sigs.getD i []).filterMap fun x =>
    match x with
    | .entry j => some j
    | .live => none)

/-- The entries reachable from a set in up to `n` more steps. -/
def reach (sigs : List (List Sig)) : Nat → List Nat → List Nat
  | 0, seen => seen
  | n + 1, seen => reach sigs n (dedup (seen ++ waitsFor sigs seen))

/-- The entries on a cycle with entry `i`; empty when none goes through it. -/
def cycleOf (sigs : List (List Sig)) (i : Nat) : List Nat :=
  let n := sigs.length
  let from_ := fun j => reach sigs n (waitsFor sigs [j])
  if (from_ i).contains i then (List.range n).filter fun j => (from_ i).contains j && (from_ j).contains i else []

/-- What a walk keeps of an entry for the next one. -/
def WaitEntry.kept (e : WaitEntry) : DeadEntry := { who := e.who, kind := e.kind, object := e.object, arrivals := e.arrivals }

/-- The cycles that a walk reports: entries dead at this walk and the last, unchanged, on one cycle. (DESIGN CHOICE: notes/assumptions/20.) -/
def reportCycles (sigs : List (List Sig)) (due : List Nat) : Nat → List (List Nat)
  | 0 => []
  | n + 1 =>
    match due with
    | [] => []
    | i :: rest =>
      let c := (cycleOf sigs i).filter due.contains
      if c.isEmpty then reportCycles sigs rest n else c :: reportCycles sigs (rest.filter fun j => !c.contains j) n

/-! ### Reports (R326, R327, R405) -/

/-- A member's word in a report. -/
def WaitEntry.word (e : WaitEntry) : Nat :=
  e.ctx % 2 ^ 12 * 2 ^ 52 + e.crew % 2 ^ 24 * 2 ^ 28 + e.slot % 64 * 2 ^ 22 + e.kind % 64 * 2 ^ 16 + e.object % 2 ^ 16

/-- The 64 bytes of a report. -/
def reportBytes (number cycle : Nat) (members : List WaitEntry) : List Byte :=
  let n := members.length
  let shown := (members.take 6).map WaitEntry.word
  natToBytes 4 number ++ natToBytes 2 n ++ natToBytes 2 (Nat.min n 6) ++ natToBytes 8 cycle
    ++ (shown ++ List.replicate (6 - shown.length) 0).flatMap (natToBytes 8)

/-- The arrivals of a member's lanes withdrawn (R327); the instance's count is unchanged. -/
def State.withdraw (s : State) (e : WaitEntry) : State :=
  let tok := crewTok e.who
  let back := fun (s : State) (gang : Bool) =>
    let b := s.barrier tok gang e.object
    s.setBarrier tok gang e.object { b with arrived := b.arrived - laneCount e.lanes }
  let s := if e.kind = 2 then back s false else if e.kind = 3 then back s true else s
  s.setWarp e.who ((s.warp e.who).unwait e.lanes)

/-- The trap of a member's lanes: each returns to the word of its own wait (R326, R327). -/
def WaitEntry.trap (e : WaitEntry) (number : Nat) : Trap :=
  { cause := causeDeadlock, addr := byteAddr e.pc, detail := number, slot := slotOfPc e.pc, port := e.port, group := e.lanes,
    ret := none }

/-- A report made: numbered, written to the rings of its members' jobs, logged and sent; then its warps take DEADLOCK. (DESIGN CHOICE: notes/assumptions/20.) -/
def State.report (s : State) (members : List WaitEntry) : State :=
  let members := sortBy WaitEntry.word members
  let n := s.sched.report
  let bytes := reportBytes n s.cycle members
  let warps := members.filter fun e => e.who < binWho
  let jobs := dedup (members.map fun e => (s.launch (s.crew e.tok).launch).job)
  let s := { s with sched := { s.sched with report := n + 1, deadlog := (s.sched.deadlog ++ [(n, bytes)]).drop (s.sched.deadlog.length - 255) } }
  let s := jobs.foldl (fun s j =>
    let x := s.job j
    if x.live ∧ x.reports ≠ 0 then (s.sysWrite x.ctx (x.reports + n % 64 * 64) bytes).2 else s) s
  let s := (dedup (members.map (·.ctx))).foldl (fun s c => s.post (eventMsg (s.ctxQp c) 0xC3 c bytes)) s
  let s := warps.foldl State.withdraw s
  warps.foldl (fun s e => if (s.warp e.who).live then s.takeTrap e.who (e.trap n) else s) s

/-- After reports, the entries whose wait or arrival state the reports changed are forgotten: the next walk is their first
(R327, R404). -/
def State.forget (s : State) (cycles : List (List Nat)) : State :=
  if cycles.isEmpty then s
  else
    let now := s.waitTable.map WaitEntry.kept
    { s with sched := { s.sched with dead := s.sched.dead.filter now.contains } }

/-- DEADLOCK_WALK (R404, R405). -/
def execDeadlockWalk (s : State) : Host.Outcome State Fault Refusal :=
  let table := s.waitTable
  let sigs := s.allSigs table
  let alive := liveEntries sigs table.length (table.map fun _ => false)
  let dead := (List.range table.length).filter fun i => !alive.getD i true
  let kept := fun i => (table.getD i default).kept
  let due := dead.filter fun i => s.sched.dead.contains (kept i)
  let cycles := reportCycles sigs due table.length
  let s' := { s with sched := { s.sched with dead := dead.map kept, walkAt := s.cycle } }
  .next ((cycles.foldl (fun s c => s.report (c.map fun i => table.getD i default)) s').forget cycles)

end Sys2Proof.Machine
end

