-- ==== Sys2Proof/Machine/Crypto.lean ====
section
/-! DEFINITION. The signatures of the module: SHA-512, and Ed25519 over it (R3, R450, R452 to R455). -/

namespace Sys2Proof.Machine

open Sys2Proof

/-! ### SHA-512 (R3, R453) -/

/-- The first 80 primes. -/
def shaPrimes : List Nat :=
  (List.range 410).filter fun p => decide (2 ≤ p) && (List.range p).all fun d => decide (d < 2) || p % d != 0

/-- The greatest `r` with `r ^ k ≤ x`, found bit by bit above `acc`. -/
def rootBits (k x : Nat) : Nat → Nat → Nat
  | 0, acc => acc
  | n + 1, acc => rootBits k x n (if (acc + 2 ^ n) ^ k ≤ x then acc + 2 ^ n else acc)

/-- The first 64 bits of the fraction of a prime's k-th root. (PRESUMED: notes/assumptions/133.) -/
def rootFraction (k p : Nat) : DWord := BitVec.ofNat 64 (rootBits k (p * 2 ^ (64 * k)) 69 0)

/-- The round constants: cube roots. -/
def shaRounds : List DWord := shaPrimes.map (rootFraction 3)

/-- The initial hash value: square roots. -/
def shaStart : List DWord := (shaPrimes.take 8).map (rootFraction 2)

/-- A message padded to whole blocks of 128 bytes: a one bit, zeros, its length in bits. -/
def shaPad (m : List Byte) : List Byte :=
  m ++ [0x80] ++ List.replicate ((239 - m.length % 128) % 128) 0 ++ (natToBytes 16 (8 * m.length)).reverse

/-- The next word of a block's schedule, which stands newest first. -/
def shaNext (ws : List DWord) : DWord :=
  let a := ws.getD 14 0
  let b := ws.getD 1 0
  (b.rotateRight 19 ^^^ b.rotateRight 61 ^^^ b >>> 6) + ws.getD 6 0 + (a.rotateRight 1 ^^^ a.rotateRight 8 ^^^ a >>> 7) + ws.getD 15 0

/-- The 80 words of a block's schedule. -/
def shaWords (block : List Byte) : List DWord :=
  let first := (List.range 16).map fun i => (BitVec.ofNat 64 (bytesToNat ((block.drop (8 * i)).take 8).reverse) : DWord)
  ((List.range 64).foldl (fun ws _ => shaNext ws :: ws) first.reverse).reverse

/-- One round. -/
def shaRound (h : List DWord) (kw : DWord × DWord) : List DWord :=
  let x := fun i => h.getD i 0
  let t := x 7 + (((x 4).rotateRight 14 ^^^ (x 4).rotateRight 18) ^^^ (x 4).rotateRight 41) + ((x 4 &&& x 5) ^^^ (~~~(x 4) &&& x 6)) + kw.1 + kw.2
  let u := (((x 0).rotateRight 28 ^^^ (x 0).rotateRight 34) ^^^ (x 0).rotateRight 39) + (((x 0 &&& x 1) ^^^ (x 0 &&& x 2)) ^^^ (x 1 &&& x 2))
  [t + u, x 0, x 1, x 2, x 3 + t, x 4, x 5, x 6]

/-- SHA-512 of a byte string, its 64 bytes in their order (R3, R453). (PRESUMED: notes/assumptions/133.) -/
def sha512 (m : List Byte) : List Byte :=
  let b := shaPad m
  let h := (List.range (b.length / 128)).foldl (fun h i =>
    let r := (shaRounds.zip (shaWords ((b.drop (128 * i)).take 128))).foldl shaRound h
    (h.zip r).map fun p => p.1 + p.2) shaStart
  h.flatMap fun w => (natToBytes 8 w.toNat).reverse

/-! ### Ed25519 (R3, R450) -/

/-- The field's prime, the group's order, and the curve's constant. -/
def edPrime : Nat := 2 ^ 255 - 19
def edOrder : Nat := 2 ^ 252 + 27742317777372353535851937790883648493

/-- Powers modulo a number, by the low 256 bits of the exponent. -/
def powMod (m b e : Nat) : Nat :=
  (List.range 256).reverse.foldl (fun acc i => if e.testBit i then acc * acc % m * b % m else acc * acc % m) (1 % m)

/-- The inverse in the field. -/
def edInv (x : Nat) : Nat := powMod edPrime x (edPrime - 2)

/-- A difference in the field. -/
def edSub (a b : Nat) : Nat := (a + (edPrime - b % edPrime)) % edPrime

/-- The curve's constant: -121665/121666. -/
def edD : Nat := edSub 0 (121665 * edInv 121666 % edPrime)

/-- A point in extended coordinates. -/
structure EdPoint where
  x : Nat
  y : Nat
  z : Nat
  t : Nat
  deriving DecidableEq, Repr

/-- The sum of two points; it holds of equal ones too. -/
def EdPoint.add (p q : EdPoint) : EdPoint :=
  let a := edSub p.y p.x * edSub q.y q.x % edPrime
  let b := (p.y + p.x) * (q.y + q.x) % edPrime
  let c := 2 * p.t * q.t * edD % edPrime
  let d := 2 * p.z * q.z % edPrime
  let e := edSub b a
  let f := edSub d c
  let g := d + c
  let h := b + a
  ⟨e * f % edPrime, g * h % edPrime, f * g % edPrime, e * h % edPrime⟩

/-- A multiple of a point, by a number below 2 ^ 256. -/
def EdPoint.mul (p : EdPoint) (n : Nat) : EdPoint :=
  (List.range 256).reverse.foldl (fun acc i => if n.testBit i then (acc.add acc).add p else acc.add acc) ⟨0, 1, 1, 0⟩

/-- Two points are the same. -/
def EdPoint.same (p q : EdPoint) : Bool :=
  p.x * q.z % edPrime == q.x * p.z % edPrime && p.y * q.z % edPrime == q.y * p.z % edPrime

/-- The x of a y with the given sign, if the curve has one. -/
def edX (y sign : Nat) : Option Nat :=
  let v := edSub (y * y % edPrime) 1 * edInv ((edD * (y * y % edPrime) + 1) % edPrime) % edPrime
  let r := powMod edPrime v ((edPrime + 3) / 8)
  let r := if r * r % edPrime = v then r else r * powMod edPrime 2 ((edPrime - 1) / 4) % edPrime
  if r * r % edPrime ≠ v ∨ (r = 0 ∧ sign = 1) then none else some (if r % 2 = sign then r else edPrime - r)

/-- The point that 32 bytes hold, lowest byte first: y, and the sign of x in bit 255. -/
def edDecode (n : Nat) : Option EdPoint :=
  let y := n % 2 ^ 255
  if edPrime ≤ y then none else (edX y (n / 2 ^ 255 % 2)).map fun x => ⟨x, y, 1, x * y % edPrime⟩

/-- A point as 32 bytes. -/
def EdPoint.encode (p : EdPoint) : Nat :=
  let i := edInv p.z
  p.y * i % edPrime + p.x * i % edPrime % 2 * 2 ^ 255

/-- The base point. -/
def edBase : EdPoint := ((edDecode (4 * edInv 5 % edPrime)).getD ⟨0, 1, 1, 0⟩)

/-- The number that binds a signature's point, the key and the message. -/
def edBind (r key : Nat) (m : List Byte) : Nat :=
  bytesToNat (sha512 (natToBytes 32 r ++ natToBytes 32 key ++ m)) % edOrder

/-- A signature of 64 bytes, lowest first, over a message is valid under a public key (R3, R450, R452, R455).
(PRESUMED: notes/assumptions/133.) -/
def edVerify (key : Nat) (m : List Byte) (sig : Nat) : Bool :=
  let r := sig % 2 ^ 256
  let s := sig / 2 ^ 256
  match edDecode key, edDecode r with
  | some a, some p => s < edOrder && ((edBase.mul s).mul 8).same ((p.add (a.mul (edBind r key m))).mul 8)
  | _, _ => false

/-- The secret number and the text that a private key of 32 bytes gives. -/
def edSecret (seed : Nat) : Nat × List Byte :=
  let h := sha512 (natToBytes 32 seed)
  let a := bytesToNat (h.take 32)
  (a % 2 ^ 254 / 8 * 8 + 2 ^ 254, h.drop 32)

/-- The public half of a private key. -/
def edPublic (seed : Nat) : Nat := (edBase.mul (edSecret seed).1).encode

/-- The signature of a message by a private key. (PRESUMED: notes/assumptions/133.) -/
def edSign (seed : Nat) (m : List Byte) : Nat :=
  let a := (edSecret seed).1
  let r := bytesToNat (sha512 ((edSecret seed).2 ++ m)) % edOrder
  let p := (edBase.mul r).encode
  p + (r + edBind p (edPublic seed) m * a) % edOrder * 2 ^ 256

/-- The identity key's public half (R450). -/
def identityKey : Nat := edPublic Config.identitySeed

/-- The identity key's signature over a message (R453). -/
def identitySign (m : List Byte) : Nat := edSign Config.identitySeed m

end Sys2Proof.Machine
end

