-- ==== Sys2Proof/Machine/Rdma.lean ====
section
/-! DEFINITION. The Ethernet door: windows, RDMA, events, and what is dropped or refused there (R429 to R432, R437, R441). -/

namespace Sys2Proof.Machine

open Sys2Proof

/-! ### Windows (R431, R441) -/

/-- Physical addresses, not a context's (R431). -/
def Window.physical (w : Window) : Bool := w.access / 8 % 2 == 1

/-- What a page of a virtual window is at the moment. -/
inductive WinPage where
  | absent
  | foreign
  | broken (pa : Option Nat)
  | ok (x : Xlat) (pte : Nat)
  deriving DecidableEq, Repr, Inhabited

/-- The page of an address, for a window's access byte (R431): its frame must be in local HBM with home 0 or 1, and a packed
page needs access[2]. -/
def State.winPage (s : State) (ctx va access : Nat) : WinPage :=
  if 2 ^ 53 ≤ va then .broken none
  else
    match (s.walk ctx va).1 with
    | .notPresent _ => .absent
    | .bad => .broken none
    | .poisoned pa => .broken (some pa)
    | .leaf e size =>
      let x : Xlat :=
        { pa := pteFrame e + va % 2 ^ size, home := pteHome e, order := pteOrder e, packed := ptePacked e, mig := pteMig e, bits := size }
      if hbmEnd ≤ x.pa ∨ 1 < x.home ∨ (x.packed ∧ access / 4 % 2 = 0) then .foreign
      else if x.order = 3 then .broken none
      else .ok x e

/-- Every page of a range may be registered; pages not present are accepted (R431). `n` counts 8 KiB pages. -/
def State.winOk (s : State) (ctx access : Nat) : Nat → Nat → Bool
  | 0, _ => true
  | n + 1, va =>
    (match s.winPage ctx va access with
      | .absent => true
      | .ok .. => true
      | _ => false) && s.winOk ctx access n (va + 8192)

/-- A remote key drawn at random: never 0, and none that stands (R431). (DESIGN CHOICE: notes/assumptions/82.) -/
def State.freshKey (s : State) : Nat :=
  let x := Config.draw s.mgr.draws % 2 ^ 32
  let used := s.mgr.windows.map fun p => p.2.rkey
  if x ≠ 0 ∧ used.contains x = false then x else ((List.range 257).find? fun k => k != 0 && !used.contains k).getD 1

/-- WIN_REG (R431). -/
def execWinReg (h : Hdr) (va length access : Nat) (s : State) : Host.Outcome State Fault Refusal :=
  command h 0x20 0 s fun s =>
    let phys := access / 8 % 2 == 1
    if 15 < access ∨ length = 0 ∨ length % 8192 ≠ 0 ∨ va % 8192 ≠ 0 then s.reply h 0x20 3 []
    else if phys = false ∧ s.liveCtx h.ctx = false then s.reply h 0x20 6 []
    else if phys ∧ s.rights h.qp % 4 ≠ 3 then s.reply h 0x20 5 []
    else if (if phys then decide (hbmEnd < va + length) else !(s.winOk h.ctx access (length / 8192) va)) then s.reply h 0x20 3 []
    else
      match (List.range 256).find? fun i => (s.mgr.windows.find i).isNone with
      | none => s.reply h 0x20 4 []
      | some i =>
        let k := s.freshKey
        let w : Window := { rkey := k, ctx := h.ctx, va := va, len := length, access := access }
        { s with mgr := { s.mgr with windows := s.mgr.windows.set i w, draws := s.mgr.draws + 1 } }.reply h 0x20 0
          (natToBytes 4 k ++ natToBytes 2 i)

/-- A window stops accepting requests: WIN_DEREG waits for the last byte of those that came before (R441). -/
def State.closing (s : State) (rkey : Nat) : Bool := s.mgr.pending.any fun p => match p.1 with
  | .winDereg _ k => k == rkey
  | _ => false

/-- WIN_DEREG (R441): the requests that arrived before it and wait are performed first. -/
def execWinDereg (h : Hdr) (rkey : Nat) (s : State) : Host.Outcome State Fault Refusal :=
  let p : Instr × List Nat := (.winDereg h rkey, [])
  if s.mgr.pending.contains p then
    if s.keyBusy rkey then .next s
    else
      let g := s.mgr
      .next ({ s with mgr := { g with pending := g.pending.filter (· != p), windows := g.windows.filter fun w => w.2.rkey != rkey } }.reply
        h 0x21 0 [])
  else
    command h 0x21 0 s fun s =>
      match s.mgr.windows.find? fun p => p.2.rkey == rkey with
      | none => s.reply h 0x21 6 []
      | some w =>
        if s.closing rkey then s.reply h 0x21 6 []
        else if s.keyBusy rkey then { s with mgr := { s.mgr with pending := s.mgr.pending ++ [p] } }
        else { s with mgr := { s.mgr with windows := s.mgr.windows.del w.1 } }.reply h 0x21 0 []

/-! ### RDMA (R431) -/

/-- A piece of a request: within one page, its address and translation. -/
structure Piece where
  va : Nat
  n : Nat
  x : Xlat
  deriving DecidableEq, Repr, Inhabited

/-- Why a request is refused: 2 remote access error, 3 remote operational error, with a walk's poisoned entry; `broken`: the walk met
one that breaks a rule. -/
structure Refused where
  syndrome : Nat
  pa : Option Nat
  va : Nat
  broken : Bool
  deriving DecidableEq, Repr, Inhabited

/-- The pieces of a request to a virtual window, every page checked (R431); `fuel` bounds the lines. -/
def State.pieces (s : State) (w : Window) (write : Bool) : Nat → Nat → Nat → Except Refused (List Piece)
  | 0, _, _ => .ok []
  | fuel + 1, va, n =>
    if n = 0 then .ok []
    else
      let k := Nat.min n (256 - va % 256)
      match s.winPage w.ctx va w.access with
      | .absent => .error ⟨3, none, va, false⟩
      | .foreign => .error ⟨2, none, va, false⟩
      | .broken pa => .error ⟨3, pa, va, true⟩
      | .ok x e =>
        if (if write then pteWrite e else pteRead e) = false then .error ⟨2, none, va, false⟩
        else
          match s.pieces w write fuel (va + k) (n - k) with
          | .ok ps => .ok (⟨va, k, x⟩ :: ps)
          | .error r => .error r

/-- The pieces of a request to a physical window. -/
def physPieces : Nat → Nat → Nat → List Piece
  | 0, _, _ => []
  | fuel + 1, va, n =>
    if n = 0 then []
    else
      let k := Nat.min n (256 - va % 256)
      ⟨va, k, { pa := va, home := 0, order := 0, packed := false, mig := false, bits := 13 }⟩ :: physPieces fuel (va + k) (n - k)

/-- The window of a key that a request stays inside and that allows it, with the request's pieces (R431). -/
def State.rdmaPieces (s : State) (rkey va n : Nat) (write : Bool) : Except Refused (Window × List Piece) :=
  match s.mgr.windows.find? fun p => p.2.rkey == rkey with
  | none => .error ⟨2, none, va, false⟩
  | some (_, w) =>
    if va < w.va ∨ w.va + w.len < va + n ∨ (if write then w.access / 2 else w.access) % 2 = 0 then .error ⟨2, none, va, false⟩
    else if w.physical then .ok (w, physPieces (n / 256 + 2) va n)
    else
      match s.pieces w write (n / 256 + 2) va n with
      | .ok ps => .ok (w, ps)
      | .error r => .error r

/-- A refused request: a table entry that is poisoned or breaks a rule is logged (R425, R431). (PRESUMED: notes/assumptions/7.)
(DESIGN CHOICE: notes/assumptions/135.) -/
def State.refuseRdma (s : State) (qp rkey : Nat) (r : Refused) : State :=
  let ctx := ((s.mgr.windows.find? fun p => p.2.rkey == rkey).map fun p => p.2.ctx).getD 0xFFFF
  let s := match r.pa with
    | some pa => s.logWalk ctx pa r.va
    | none => if r.broken then s.logError 4 6 ctx 0 0 r.va else s
  s.nak qp r.syndrome

/-- The answer to a request that was performed. -/
def State.rdmaDone (s : State) (qp : Nat) (body : List Byte) : State :=
  { s with mgr := { s.mgr with outbox := s.mgr.outbox ++ [{ kind := 1, qp := qp, opcode := 0, flags := 0, tag := 0, ctx := 0, status := 0, body := body }] } }

/-- The context an access of a window is logged under. (DEDUCED: notes/assumptions/81.) -/
def Window.owner (w : Window) : Nat := if w.physical then 0xFFFF else w.ctx

/-- The address an access supplies for the log. (DEDUCED: notes/assumptions/81.) -/
def Window.logVa (w : Window) (va : Nat) : Nat := if w.physical then 0 else va

/-- A piece of a write performed (R118, R422). -/
def State.writePiece (s : State) (w : Window) (p : Piece) (bs : List Byte) : State :=
  let s := (if p.x.mig && p.n = 256 then s.clearLine p.x else s.touch p.x p.n).countServed p.x.pa
  match s.lineFault p.x p.n with
  | some _ => s.logError 3 (storageRow p.x.pa) w.owner (placeOf p.x.pa) p.x.pa (w.logVa p.va)
  | none => s.storePhys w.owner p.x.pa (w.logVa p.va) bs

/-- The pieces of a write performed in order. -/
def State.writePieces (s : State) (w : Window) : List Piece → List Byte → State
  | [], _ => s
  | p :: t, bs => (s.writePiece w p (bs.take p.n)).writePieces w t (bs.drop p.n)

/-- The pieces of a read: the bytes, or none when one meets an error, which is logged. -/
def State.readPieces (s : State) (w : Window) : List Piece → State × Option (List Byte)
  | [] => (s, some [])
  | p :: t =>
    let s := (s.touch p.x p.n).countServed p.x.pa
    if (s.lineFault p.x p.n).isSome then
      (s.logError 3 (storageRow p.x.pa) w.owner (placeOf p.x.pa) p.x.pa (w.logVa p.va), none)
    else if s.readBad p.x.pa p.n then (s.logRead w.owner p.x.pa p.n (w.logVa p.va), none)
    else
      let bs := s.readPhys p.x.pa p.n
      match s.readPieces w t with
      | (s, some r) => (s, some (bs ++ r))
      | (s, none) => (s, none)

/-- A request to a migrating page before the swing waits for it (R421). -/
def State.rdmaHeld (s : State) (ps : List Piece) : Bool := ps.any fun p => s.beforeSwing p.x

/-- A request kept in its place until the swing, or gone from the waiting ones when it is performed. -/
def State.keepRdma (s : State) (i : Instr) (on : Bool) : State :=
  let kept := s.mgr.pending
  { s with mgr := { s.mgr with pending :=
      if on then (if kept.any fun p => p.1 == i then kept else kept ++ [(i, [])]) else kept.filter fun p => p.1 != i } }

/-- An RDMA request of a connection waits: its later messages wait behind it (R118). -/
def State.connectionHeld (s : State) (qp : Nat) : Bool := s.mgr.pending.any fun p => rdmaQp p.1 == some qp

/-- The READs of a connection that are outstanding (R429). -/
def State.readsWaiting (s : State) (qp : Nat) : Nat :=
  (s.waitingRdma.filter fun i => match i with
    | .rdmaRead q .. => q == qp
    | _ => false).length

/-! ### The order of commands (R433) -/

/-- The header of a command message. -/
def commandHdr : Instr → Option Hdr
  | .ctxCreate h .. | .ctxDestroy h | .ctxQuota h .. | .jobSubmit h _ | .unitCancel h _ | .winReg h .. | .winDereg h _ => some h
  | .tlbInval h .. | .faultResolve h .. | .migrateArm h .. | .migrateStart h _ | .migrateAbort h _ | .migrateRelease h _ => some h
  | .indexAudit h _ | .poolAlloc h .. | .poolGrant h .. | .poolRevoke h .. | .debugRead h .. | .debugWrite h .. => some h
  | .debugResume h .. | .linkDrain h _ | .linkRetrain h _ | .linkRestore h _ => some h
  | .idGet h | .sessionChallenge h | .sessionOpen h .. | .sessionClose h | .quote h _ | .ownerSet h _ | .configApply h _ => some h
  | .resetWarm h _ | .resetCold h => some h
  | .health h | .counterSet h .. | .counterRead h .. | .coreOffline h _ | .coreOnline h _ | .coreReset h _ | .pinSet h .. => some h
  | .channelRetrain h .. | .repair h .. | .logRead h .. | .unknownOpcode h .. => some h
  | _ => none

/-- The command that an invalidation answers. -/
def After.hdr : After → Option Hdr
  | .reply h .. | .swing h _ | .pin h .. | .destroy h => some h
  | _ => none

/-- A command of a queue pair has been begun and not answered: the next waits (R433). (DEDUCED: notes/assumptions/79.) -/
def State.unanswered (s : State) (qp : Nat) : Bool :=
  let of_ := fun (h : Option Hdr) => (h.map fun h => h.qp) == some qp
  s.mgr.pending.any (fun p => of_ (commandHdr p.1)) || s.invals.any (fun p => of_ p.2.after.hdr) || s.ports.any (fun p => of_ p.2.drain)
    || s.cores.any (fun p => p.2.leaving.any fun h => of_ (some h)) || s.reqs.any fun p => match p.2.kind with
      | .alloc _ _ h => of_ h
      | _ => false

/-- The queue pairs that the module has (R429, R472). -/
def queuePairs : Nat := 1024

/-- A frame or packet dropped and counted (R429). -/
def State.dropFrame (s : State) : State := { s with mgr := { s.mgr with frames := s.mgr.frames + 1 } }

/-- RDMA WRITE (R118, R431): no byte of a refused request is performed. (DEDUCED: notes/assumptions/80.) -/
def execRdmaWrite (qp rkey addr : Nat) (bytes : List Byte) (s : State) : Host.Outcome State Fault Refusal :=
  let i : Instr := .rdmaWrite qp rkey addr bytes
  if queuePairs ≤ qp then .next s.dropFrame
  else
  match s.rdmaPieces rkey addr bytes.length true with
  | .error r => .next ((s.keepRdma i false).refuseRdma qp rkey r)
  | .ok (w, ps) =>
    if s.rdmaHeld ps then .next (s.keepRdma i true)
    else .next (((s.keepRdma i false).writePieces w ps bytes).rdmaDone qp [])

/-- RDMA READ (R431). (DEDUCED: notes/assumptions/80.) -/
def execRdmaRead (qp rkey addr n : Nat) (s : State) : Host.Outcome State Fault Refusal :=
  let i : Instr := .rdmaRead qp rkey addr n
  if queuePairs ≤ qp then .next s.dropFrame
  else
  match s.rdmaPieces rkey addr n false with
  | .error r => .next ((s.keepRdma i false).refuseRdma qp rkey r)
  | .ok (w, ps) =>
    if s.rdmaHeld ps then .next (s.keepRdma i true)
    else
      match (s.keepRdma i false).readPieces w ps with
      | (s, some bs) => .next (s.rdmaDone qp bs)
      | (s, none) => .next (s.nak qp 3)

/-! ### Frames and messages refused or heeded (R429, R430, R435) -/

/-- A frame or packet that uses an unsupported option (R429): dropped and counted; a RoCEv2 request is answered with a NAK. -/
def execUnsupportedFrame (roce : Bool) (qp : Nat) (s : State) : Host.Outcome State Fault Refusal :=
  .next (if roce then s.dropFrame.nak qp 1 else s.dropFrame)

/-- A SEND on a QP that is no management QP (R430). -/
def execSendOnNonManagementQp (qp : Nat) (s : State) : Host.Outcome State Fault Refusal :=
  .next (if queuePairs ≤ qp then s.dropFrame else s.nak qp 1)

/-- A command message refused for its header or opcode (R434, R435); an identity opcode that is not listed is refused with status 2 on
QP 1 to 15 without a session too (R448, R451). -/
def execUnknownOpcode (h : Hdr) (opcode : Nat) (badHeader : Bool) (s : State) : Host.Outcome State Fault Refusal :=
  let ident := !badHeader && decide (0xA0 ≤ opcode ∧ opcode ≤ 0xAF ∧ 1 ≤ h.qp ∧ h.qp ≤ 15)
  if s.managed h.qp = false ∧ ident = false then .next (s.nak h.qp 1)
  else .next (s.reply h opcode (if badHeader then 1 else 2) [])

/-- A priority flow control frame (R429): the priority pauses or resumes. Only the two configured priorities have it. -/
def execPriorityFlowControlFrame (prio : Nat) (pause : Bool) (s : State) : Host.Outcome State Fault Refusal :=
  let g := s.mgr
  if prio ≠ g.pfc % 8 ∧ prio ≠ g.pfc / 8 % 8 then .next { s with mgr := { g with frames := g.frames + 1 } }
  else
    let rest := g.paused.filter (· != prio)
    .next { s with mgr := { g with paused := if pause then rest ++ [prio] else rest } }

/-- A congestion notification packet (R429): obeyed, which slows the sender and changes nothing else. -/
def execCongestionNotificationPacket (_qp : Nat) (s : State) : Host.Outcome State Fault Refusal :=
  .next { s with mgr := { s.mgr with cnps := s.mgr.cnps + 1 } }

/-! ### Events (R437) -/

/-- The first event of a queue pair, and the events without it. -/
def takeEvent (qp : Nat) : List Message → Option (Message × List Message)
  | [] => none
  | m :: t => if m.qp = qp then some (m, t) else (takeEvent qp t).map fun p => (p.1, m :: p.2)

/-- EVENT_DELIVERY (R437): the oldest event of a QP is sent; an event that waited takes the room. -/
def execEventDelivery (qp : Nat) (s : State) : Host.Outcome State Fault Refusal :=
  match takeEvent qp s.mgr.events with
  | none => .next s
  | some (m, rest) =>
    let g := s.mgr
    .next { s with mgr := { g with events := rest ++ g.waiting.take 1, waiting := g.waiting.drop 1, outbox := g.outbox ++ [m] } }

end Sys2Proof.Machine
end

