-- ==== Sys2Proof/Machine/Identity.lean ====
section
/-! DEFINITION. Identity, sessions, signed configuration, the resets, and power (R446 to R458, R465). -/

namespace Sys2Proof.Machine

open Sys2Proof

/-! ### Identity commands (R448, R450 to R453) -/

/-- An identity command is served on QP 1 to 15, with or without a session (R448, R451, R452). -/
def identity (h : Hdr) (s : State) (f : State → State) : Host.Outcome State Fault Refusal :=
  if 1 ≤ h.qp ∧ h.qp ≤ 15 then .next (f s) else .next (s.nak h.qp 1)

/-- An identity command that needs the owner right, bit 4. -/
def ownerCommand (h : Hdr) (op : Nat) (s : State) (f : State → State) : Host.Outcome State Fault Refusal :=
  identity h s fun s => if s.rights h.qp / 16 % 2 = 0 then s.reply h op 5 [] else f s

/-- A queue pair's record changed. -/
def State.setQp (s : State) (qp : Nat) (q : Qp) : State := { s with mgr := { s.mgr with qps := s.mgr.qps.set qp q } }

/-- ID_GET (R450, R451). -/
def execIdGet (h : Hdr) (s : State) : Host.Outcome State Fault Refusal :=
  identity h s fun s =>
    s.reply h 0xA0 0 (natToBytes 8 Config.serialNo ++ natToBytes 1 s.mgr.lastreset ++ natToBytes 5 0
      ++ natToBytes 32 identityKey ++ natToBytes 2 Config.certChain.length ++ Config.certChain)

/-- The cycles of 1 s. -/
def nonceLife : Nat := 1000000 * Config.cyclesPerUs

/-- SESSION_CHALLENGE (R451): a nonce drawn for the QP. -/
def execSessionChallenge (h : Hdr) (s : State) : Host.Outcome State Fault Refusal :=
  identity h s fun s =>
    let nonce := natToBytes 32 (Config.draw s.mgr.draws)
    let s := s.setQp h.qp { s.mgr.qps.get h.qp with nonce := some nonce, expires := s.cycle + nonceLife }
    { s with mgr := { s.mgr with draws := s.mgr.draws + 1 } }.reply h 0xA1 0 nonce

/-- A nonce lapses after 1 s (R451). -/
def execNonceExpiry (qp : Nat) (s : State) : Host.Outcome State Fault Refusal :=
  let q := s.mgr.qps.get qp
  if q.nonce.isSome ∧ q.expires ≤ s.cycle then .next (s.setQp qp { q with nonce := none }) else .next s

/-- The proof of a session (R452): a signature over the nonce, the QP number and the serial. -/
def proofOk (nonce : List Byte) (qp operator proof : Nat) : Bool :=
  edVerify operator (nonce ++ natToBytes 4 qp ++ natToBytes 8 Config.serialNo) proof

/-- The endorsement (R452): a signature by the owner key over the operator key, the rights and the serial. -/
def endorsementOk (owner : Option Nat) (operator rights endorsement : Nat) : Bool :=
  match owner with
  | none => true
  | some k => edVerify k (natToBytes 32 operator ++ natToBytes 4 rights ++ natToBytes 8 Config.serialNo) endorsement

/-- SESSION_OPEN (R452): it binds the QP to the operator key; the nonce is spent whatever the checks say. -/
def execSessionOpen (h : Hdr) (operator : Nat) (rights : Word) (endorsement proof : Nat) (s : State) :
    Host.Outcome State Fault Refusal :=
  identity h s fun s =>
    let q := s.mgr.qps.get h.qp
    let r := rights.toNat
    if 32 ≤ r then s.reply h 0xA2 3 []
    else
      let good := match q.nonce with
        | some n => proofOk n h.qp operator proof && endorsementOk s.mgr.owner operator r endorsement
        | none => false
      let granted := if s.mgr.owner.isSome then r else Nat.land r 16
      if good then (s.setQp h.qp { q with nonce := none, session := some granted, operator := operator }).reply h 0xA2 0 []
      else (s.setQp h.qp { q with nonce := none }).reply h 0xA2 5 []

/-- SESSION_CLOSE (R452): the QP is unbound, and its events flow on QP 1. -/
def execSessionClose (h : Hdr) (s : State) : Host.Outcome State Fault Refusal :=
  identity h s fun s =>
    let move := fun (l : List Message) => l.map fun m => if m.qp = h.qp then { m with qp := 1 } else m
    let s := s.setQp h.qp { s.mgr.qps.get h.qp with session := none, operator := 0 }
    { s with mgr := { s.mgr with events := move s.mgr.events, waiting := move s.mgr.waiting } }.reply h 0xA3 0 []

/-- A quote's bytes below the signature (R453). -/
def State.quoteBody (s : State) (nonce : Nat) : List Byte :=
  let g := s.mgr
  natToBytes 4 0x3154515A ++ natToBytes 2 1 ++ natToBytes 2 g.lastreset ++ natToBytes 8 Config.serialNo
    ++ natToBytes 4 g.colds ++ natToBytes 4 g.warms ++ natToBytes 8 s.cycle ++ natToBytes 64 Config.romHash
    ++ ((g.config.map sha512).getD (natToBytes 64 0)) ++ natToBytes 32 (g.owner.getD 0) ++ natToBytes 32 nonce

/-- QUOTE (R453). -/
def execQuote (h : Hdr) (nonce : Nat) (s : State) : Host.Outcome State Fault Refusal :=
  identity h s fun s =>
    let b := s.quoteBody nonce
    s.reply h 0xA4 0 (b ++ natToBytes 64 (identitySign b))

/-- OWNER_SET (R450, R451): the owner key is fused once. -/
def execOwnerSet (h : Hdr) (key : Nat) (s : State) : Host.Outcome State Fault Refusal :=
  ownerCommand h 0xA5 s fun s =>
    if s.mgr.owner.isSome then s.reply h 0xA5 8 [] else { s with mgr := { s.mgr with owner := some key } }.reply h 0xA5 0 []

/-! ### Signed configuration (R454, R455) -/

/-- A little-endian field of a blob. -/
def blobField (b : List Byte) (off n : Nat) : Nat := bytesToNat ((b.drop off).take n)

/-- The fields of a blob keep their rules (R454). -/
def State.blobOk (s : State) (b : List Byte) : Bool :=
  b.length == 128 && blobField b 0 4 == 0x3146435A && blobField b 4 2 == 1 && blobField b 6 2 == 0
    && s.mgr.sequence ≤ blobField b 8 8 && (blobField b 0x10 8 == 0 || blobField b 0x10 8 == Config.serialNo)
    && 600 ≤ blobField b 0x18 2 && blobField b 0x18 2 ≤ 1800 && blobField b 0x1A 1 < 64 && blobField b 0x1B 37 == 0

/-- Both limits of R457 are kept by 3% or 3 °C. -/
def Manager.cool (g : Manager) : Bool := decide (g.watts * 100 ≤ g.powercap * 97) && g.temps.all fun t => t ≤ (102 : Int)

/-- Since when both limits have been kept so, by the last sample and the cap in force (R456). (DESIGN CHOICE: notes/assumptions/112.) -/
def Manager.settleCool (g : Manager) (cycle : Nat) : Manager :=
  { g with coolSince := if g.cool then some (g.coolSince.getD cycle) else none }

/-- CONFIG_APPLY (R455): the fields in order, then the signature by the owner key. -/
def execConfigApply (h : Hdr) (blob : List Byte) (s : State) : Host.Outcome State Fault Refusal :=
  ownerCommand h 0xA6 s fun s =>
    if s.blobOk blob = false then s.reply h 0xA6 3 []
    else
      let signed := match s.mgr.owner with
        | some k => edVerify k (blob.take 64) (blobField blob 0x40 64)
        | none => false
      if signed then
        let g := { s.mgr with
          config := some blob, sequence := blobField blob 8 8, powercap := blobField blob 0x18 2, pfc := blobField blob 0x1A 1, paused := [] }
        { s with mgr := g.settleCool s.cycle }.reply h 0xA6 0 []
      else s.reply h 0xA6 5 []

/-! ### Resets (R446 to R449) -/

/-- Memory that a reset of this module leaves: landings and other modules, and its HBM when that is retained; then writes still in the
slices are lost (R447, R448, R458). (DESIGN CHOICE: notes/assumptions/88.) -/
def keptMemory (m : Memory) (dirty : FMap (List Byte)) (retain : Bool) : Memory :=
  let kept := m.filter fun c => 0x4_0000_0000_0000 ≤ c.1 || (retain && decide (c.1 < hbmEnd))
  if retain then dirty.foldl (fun m p => m.write (32 * p.1) p.2) kept else kept

/-- Granules whose poison stays with their data. -/
def keptPoison (p : FMap Bool) (retain : Bool) : FMap Bool :=
  p.filter fun g => 0x4_0000_0000_0000 ≤ 32 * g.1 || (retain && decide (32 * g.1 < hbmEnd))

/-- The manager after a reset: what is fused, counted since manufacture, or already sent stays (R447). (DEDUCED: notes/assumptions/89.) -/
def Manager.restart (g : Manager) (last : Nat) (warm : Bool) : Manager :=
  let r := Manager.reset
  { r with
    draws := g.draws, owner := g.owner, lastreset := last, outbox := g.outbox
    colds := if warm then g.colds else g.colds + 1, warms := if warm then g.warms + 1 else g.warms
    config := if warm then g.config else none, sequence := if warm then g.sequence else 0
    powercap := if warm then g.powercap else r.powercap, pfc := if warm then g.pfc else r.pfc
    temps := g.temps, coolant := g.coolant, watts := g.watts }

/-- A port after a reset: its landing trains, if one is attached. -/
def Port.restart (p : Port) : Port :=
  { (default : Port) with attached := p.attached, gives := p.gives, state := if p.attached then 1 else 0 }

/-- The links trained, in ascending order, before the module's cycles count and packets are taken (R438, R448 steps 5 to 8, R449).
(DESIGN CHOICE: notes/assumptions/110.) -/
def State.trainLinks (s : State) : State :=
  (List.range 16).foldl (fun s port =>
    if (s.ports.get port).attached then
      match (s.ports.get port).gives with
      | some n => s.linkUp port n
      | none => s.linkDown port
    else s) s

/-- A landing as a reset of this module leaves it: every tenant of the module ended (R447). -/
def Landing.restart (l : Landing) (module_ : Nat) : Landing :=
  { (default : Landing) with extents := l.extents, grants := l.grants.filter fun g => g.omod != module_ && g.tmod != module_ }

/-- A channel after a warm reset: its table loaded from the mirror, which it must pass (R427, R449 step 5). A failed channel that
passes holds poison where its data was retained unrefreshed (R470). (DESIGN CHOICE: notes/assumptions/124.) -/
def Chan.restart (c : Chan) (retain : Bool) : Chan :=
  { c with
    table := c.mirror, badTable := c.badMirror, failed := !c.badMirror.isEmpty, scrub := 0, check := 0
    stale := retain && (c.stale || c.failed), written := if retain && !c.failed then c.written else [] }

/-- The channels after a cold reset: what the makers fused is all that is left of the repair maps (R447). -/
def fusedChans (chans : FMap Chan) : FMap Chan :=
  chans.map fun (p : Nat × Chan) =>
    (p.1, { (default : Chan) with table := p.2.fused, mirror := p.2.fused, fused := p.2.fused })

/-- Channels that failed their training are logged (R449). -/
def State.logFailed (s : State) : State :=
  s.chans.foldl (fun s p => if p.2.failed then s.logChannel 6 p.1 else s) s

/-- The module after a reset; what lies outside it goes on (R447, R448). (DESIGN CHOICE: notes/assumptions/88.) (DEDUCED: notes/assumptions/89.) -/
def State.restart (s : State) (last : Nat) (warm retain : Bool) : State :=
  let chans : FMap Chan := if warm then s.chans.map fun (p : Nat × Chan) => (p.1, p.2.restart retain) else fusedChans s.chans
  { State.reset with
    agenda := s.agenda, key := s.key + 1, mem := keptMemory s.mem s.dirty retain
    poison := keptPoison s.poison retain, weak := keptPoison s.weak retain, sensors := s.sensors
    ports := s.ports.map fun (p : Nat × Port) => (p.1, p.2.restart)
    landings := s.landings.map fun (p : Nat × Landing) => (p.1, p.2.restart s.module_)
    silent := s.silent, peers := s.peers, chans := chans, mgr := s.mgr.restart last warm }.logFailed.trainLinks

/-- RESET with kind 1 (R446, R448): the reply goes first. -/
def execResetWarm (h : Hdr) (retain : Bool) (s : State) : Host.Outcome State Fault Refusal :=
  ownerCommand h 0xA7 s fun s => (s.reply h 0xA7 0 []).restart 1 true retain

/-- RESET with kind 2 (R446): the carrier cycles the power. -/
def execResetCold (h : Hdr) (s : State) : Host.Outcome State Fault Refusal :=
  ownerCommand h 0xA7 s fun s => (s.reply h 0xA7 0 []).restart 2 false false

/-- Power-on, or the carrier's reset input (R446). -/
def execPowerOn (s : State) : Host.Outcome State Fault Refusal := .next (s.restart s.mgr.nextreset false false)

/-! ### Power and temperature (R456, R457, R465) -/

/-- A limit of R457 is exceeded: power above the cap, or a die above 105 °C. (DESIGN CHOICE: notes/assumptions/90.) -/
def Manager.hot (g : Manager) : Bool := decide (g.powercap < g.watts) || g.temps.any fun t => (105 : Int) < t

/-- A sample of temperature and power (R465). (DESIGN CHOICE: notes/assumptions/90.) -/
def execPowerSample (temps : List Int) (coolant : Int) (power : Nat) (s : State) : Host.Outcome State Fault Refusal :=
  let g := { s.mgr with temps := temps, coolant := coolant, watts := power, sampled := s.cycle }
  .next { s with mgr := g.settleCool s.cycle }

/-- A sample is due: every 100 µs (R465). (DESIGN CHOICE: notes/assumptions/90.) -/
def State.sampleDue (s : State) : Bool := decide (s.mgr.sampled + 100 * Config.cyclesPerUs ≤ s.cycle)

/-- A throttling step is due: 100 µs after the last while a limit is exceeded, down to 4 (R457). -/
def State.stepDue (s : State) : Bool :=
  let g := s.mgr
  g.hot && (g.issue == 8 || (4 < g.issue && g.stepped + 100 * Config.cyclesPerUs ≤ s.cycle))

/-- THROTTLE_STEP (R456, R457). (DESIGN CHOICE: notes/assumptions/112.) -/
def execThrottleStep (s : State) : Host.Outcome State Fault Refusal :=
  if s.stepDue then .next { s with mgr := { s.mgr with issue := s.mgr.issue - 1, stepped := s.cycle } } else .next s

/-- The module may leave throttling: both below their limits for 1 ms (R456). -/
def State.exitDue (s : State) : Bool :=
  s.mgr.issue != 8 && s.mgr.cool && (match s.mgr.coolSince with
    | some c => c + 1000 * Config.cyclesPerUs ≤ s.cycle
    | none => false)

/-- THROTTLE_EXIT (R456). -/
def execThrottleExit (s : State) : Host.Outcome State Fault Refusal :=
  if s.exitDue then .next { s with mgr := { s.mgr with issue := 8 } } else .next s

/-- THERMAL_SHUTDOWN: a die at 115 °C, or the coolant lost (R456, R457). -/
def execThermalShutdown (s : State) : Host.Outcome State Fault Refusal :=
  .next { s with power := 0, mgr := { s.mgr with nextreset := 3 } }

/-- POWER_REMOVED (R456). -/
def execPowerRemoved (s : State) : Host.Outcome State Fault Refusal :=
  .next { s with power := 0, mgr := { s.mgr with nextreset := 0 } }

end Sys2Proof.Machine
end

