-- ==== Sys2Proof/Machine/PoolCommands.lean ====
section
/-! DEFINITION. Commands on pool memory, grants and links (R287, R434, R439, R440, R442, R443). -/

namespace Sys2Proof.Machine

open Sys2Proof

/-! ### POOL_ALLOC (R434) -/

/-- POOL_ALLOC: as lalloc for the context; the landing's answer decides the reply. -/
def execPoolAlloc (h : Hdr) (size : Nat) (attr : Word) (s : State) : Host.Outcome State Fault Refusal :=
  ctxCommand h 0x50 0 s fun s =>
    let a := attr.toNat
    let l := attrLanding a
    if attrOk size a = false ∨ s.attached l = false then s.reply h 0x50 3 []
    else if s.portLost l then s.reply h 0x50 7 []
    else
      s.send {
        kind := .alloc size a (some h), warp := noWarp, ctx := h.ctx, va := 0, pa := poolBase l, size := 0, bytes := 0,
        home := 1, ops := [], port := l, tag := none, deadline := s.cycle + s.fabricLimit h.ctx, discarded := false }

/-! ### Grants (R443) -/

/-- A module number of a grant command: 255 names the receiving module. -/
def State.grantModule (s : State) (m : Nat) : Nat := if m = 0xFF then s.module_ else m

/-- A module field's value is in range. -/
def moduleFieldOk (m : Nat) : Bool := m < 64 || m == 0xFF

/-- The range of a grant command: in one landing's pool window, whole frames. (DEDUCED: notes/assumptions/94.) -/
def grantRangeOk (va len : Nat) : Bool :=
  len != 0 && va % 8192 == 0 && len % 8192 == 0 && (landingOfVa va).isSome && landingOfVa (va + len - 1) == landingOfVa va

/-- The pool offset of a pool virtual address. -/
def poolOff (va : Nat) : Nat := (va - 0x10_0000_0000_0000) % 0x4000_0000_0000

/-- A live allocation of a context covers a range whole, in pages of the allocation. -/
def Landing.owns (l : Landing) (ctx off len : Nat) : Option PoolAlloc :=
  l.allocs.find? fun a => !a.revoked && a.ctx == ctx && a.covers off len

/-- A target's leaves for a range installed, read always and write when the access says so (R443 step 2); the range is cut
in the allocation's pages. -/
def State.installGrant (s : State) (target attr off len landing access : Nat) : Option State :=
  s.installPages target attr (access / 2 % 2 == 1) (poolBase landing + off) (len / 2 ^ pageBits (attrPage attr))

/-- The installation of a grant's leaves reads a poisoned table word (R424). (DEDUCED: notes/assumptions/122.) -/
def State.grantBad (s : State) (target attr off len landing access : Nat) : Bool :=
  (s.installBad target attr (access / 2 % 2 == 1) (poolBase landing + off) (len / 2 ^ pageBits (attrPage attr))).isSome

/-- A grant command passes its checks: field ranges, and that one of the modules is this one (R443). (DEDUCED: notes/assumptions/94.) -/
def State.grantCheck (s : State) (va len tmod omod : Nat) : Bool :=
  grantRangeOk va len && moduleFieldOk tmod && moduleFieldOk omod
    && (s.grantModule omod == s.module_ || s.grantModule tmod == s.module_)

/-- The install and invalidation of a target on this module, then the reply (R443); the range is whole pages of the allocation, as in the
owner's role. (DEDUCED: notes/assumptions/94.) -/
def State.grantTarget (s : State) (h : Hdr) (target attr va len access : Nat) : State :=
  let l := (landingOfVa va).getD 0
  if poolOff va % 2 ^ pageBits (attrPage attr) ≠ 0 ∨ len % 2 ^ pageBits (attrPage attr) ≠ 0 then s.reply h 0x51 3 []
  else if s.grantBad target attr (poolOff va) len l access then s.reply h 0x51 7 []
  else match s.installGrant target attr (poolOff va) len l access with
  | none => s.reply h 0x51 4 []
  | some s => s.invalidate { ctx := target, all := false, va := va, len := len, after := .reply h 0x51 [] }

/-- A landing whose loss falls in this cycle (R440, R445). -/
def State.losing (s : State) (l : Nat) : Bool :=
  let p := s.ports.get l
  match p.since with
  | some c => !p.lost && decide (c + 100 * Config.cyclesPerUs ≤ s.cycle)
  | none => false

/-- POOL_GRANT (R443), in the role that its module fields give this module; refused in the cycle of the landing's loss (R445). -/
def execPoolGrant (h : Hdr) (va length target access tmod omod : Nat) (s : State) : Host.Outcome State Fault Refusal :=
  command h 0x51 0 s fun s =>
    let l := (landingOfVa va).getD 0
    let off := poolOff va
    let o := s.grantModule omod
    let t := s.grantModule tmod
    if s.grantCheck va length tmod omod = false ∨ 3 < access ∨ 4095 < target then s.reply h 0x51 3 []
    else if (o = s.module_ ∧ s.liveCtx h.ctx = false) ∨ (t = s.module_ ∧ s.liveCtx target = false) then s.reply h 0x51 6 []
    else if s.losing l then s.reply h 0x51 7 []
    else if s.landingStatus l ≠ 0 then s.reply h 0x51 (s.landingStatus l) []
    else
      let x := s.landings.get l
      if o = s.module_ then
        match x.owns h.ctx off length with
        | none => s.reply h 0x51 7 []
        | some a =>
          if off % 2 ^ pageBits (attrPage a.attr) ≠ 0 ∨ length % 2 ^ pageBits (attrPage a.attr) ≠ 0 then s.reply h 0x51 3 []
          else
            let g : PoolGrant := ⟨o, h.ctx, t, target, off, length, access, a.attr⟩
            let granted := fun (s : State) => { s with landings := s.landings.set l { x with grants := x.grants ++ [g] } }
            if t = s.module_ ∧ s.grantBad target a.attr off length l access then s.reply h 0x51 7 []
            else if t = s.module_ then
              match s.installGrant target a.attr off length l access with
              | none => s.reply h 0x51 4 []
              | some s => (granted s).invalidate { ctx := target, all := false, va := va, len := length, after := .reply h 0x51 [] }
            else (granted s).reply h 0x51 0 []
      else
        match x.grants.find? fun g =>
          g.omod == o && g.octx == h.ctx && g.tmod == t && g.tctx == target && g.off ≤ off && off + length ≤ g.off + g.len with
        | none => s.reply h 0x51 7 []
        | some g => s.grantTarget h target g.attr va length access

/-- The target's leaves of a grant that the landing no longer records go as its tables hold them (R443). -/
def State.revokeTarget (s : State) (h : Hdr) (target va length : Nat) : State :=
  match s.removeFound target (va + length) (length / 8192 + 1) va with
  | none => s.reply h 0x52 7 []
  | some s => s.invalidate { ctx := target, all := false, va := va, len := length, after := .reply h 0x52 [] }

/-- POOL_REVOKE (R434, R443): the grant goes at the landing, the target's leaves on the module that holds the target. -/
def execPoolRevoke (h : Hdr) (va length target tmod omod : Nat) (s : State) : Host.Outcome State Fault Refusal :=
  command h 0x52 0 s fun s =>
    let l := (landingOfVa va).getD 0
    let off := poolOff va
    let o := s.grantModule omod
    let t := s.grantModule tmod
    if s.grantCheck va length tmod omod = false ∨ 4095 < target then s.reply h 0x52 3 []
    else if (o = s.module_ ∧ s.liveCtx h.ctx = false) ∨ (t = s.module_ ∧ s.liveCtx target = false) then s.reply h 0x52 6 []
    else if o = s.module_ ∧ s.landingStatus l ≠ 0 then s.reply h 0x52 (s.landingStatus l) []
    else
      let x := s.landings.get l
      let isIt := fun (g : PoolGrant) =>
        g.omod == o && g.octx == h.ctx && g.tmod == t && g.tctx == target && g.off == off && g.len == length
      match x.grants.find? isIt with
      | none => if o = s.module_ then s.reply h 0x52 6 [] else s.revokeTarget h target va length
      | some g =>
        let code := attrPage g.attr
        let n := length / 2 ^ pageBits code
        if t = s.module_ ∧ (s.removeBad target code (poolBase l + off) n).isSome then s.reply h 0x52 7 []
        else
        let s := if o = s.module_ then { s with landings := s.landings.set l { x with grants := x.grants.filter fun g => !isIt g } } else s
        if t = s.module_ then
          let s := s.removePages target code (poolBase l + off) n
          s.invalidate { ctx := target, all := false, va := va, len := length, after := .reply h 0x52 [] }
        else s.reply h 0x52 0 []

/-! ### LINK (R438 to R440) -/

/-- A LINK command on a port that no other LINK command holds. -/
def linkCommand (h : Hdr) (port : Nat) (s : State) (f : State → Port → State) : Host.Outcome State Fault Refusal :=
  command h 0x70 3 s fun s =>
    let p := s.ports.get port
    if 15 < port then s.reply h 0x70 3 []
    else if p.attached = false then s.reply h 0x70 7 []
    else if p.drain.isSome then s.reply h 0x70 8 []
    else f s p

/-- LINK drain (R440): no new request leaves; drained, and the reply, when none is outstanding. -/
def execLinkDrain (h : Hdr) (port : Nat) (s : State) : Host.Outcome State Fault Refusal :=
  linkCommand h port s fun s p =>
    if s.portLost port then s.reply h 0x70 7 []
    else if p.state ≠ 2 then s.reply h 0x70 8 []
    else ((s.setLink port { p with state := 3, drain := some h } s.module_).drainCheck port).loseUnsent

/-- LINK retrain (R440) of a link that is down or drained; the reply follows training. -/
def execLinkRetrain (h : Hdr) (port : Nat) (s : State) : Host.Outcome State Fault Refusal :=
  linkCommand h port s fun s p =>
    if p.state ≠ 0 ∧ p.state ≠ 4 then s.reply h 0x70 8 [] else s.setLink port { p with state := 1, drain := some h } s.module_

/-- LINK restore (R440, R471): what the old landing held is lost, the new one's pool is empty, and the link trains. -/
def execLinkRestore (h : Hdr) (port : Nat) (s : State) : Host.Outcome State Fault Refusal :=
  linkCommand h port s fun s p =>
    if p.state ≠ 0 ∧ p.state ≠ 4 then s.reply h 0x70 8 []
    else
      let l := (s.landings.get port).revoke 0 poolWindow
      let s := { s with landings := s.landings.set port { l with extents := [], quota := [], grants := [], gone := [] } }
      let s := s.loseReqs fun _ r => r.inPool port 0 poolWindow
      s.setLink port { s.ports.get port with state := 1, drain := some h } s.module_

end Sys2Proof.Machine
end

