-- ==== Sys2Proof/Machine/Fleet.lean ====
section
/-! DEFINITION. Fleet commands: health, counters, logs, cores, pinned frames, channels (R459 to R471). -/

namespace Sys2Proof.Machine

open Sys2Proof

/-! ### Health (R465, R466) -/

/-- A bit map's bytes, `n` bits, bit 0 first. -/
def bitMap (n : Nat) (f : Nat → Bool) : List Byte :=
  natToBytes (n / 8) ((List.range n).foldl (fun x i => if f i then x + 2 ^ i else x) 0)

/-- A count that saturates in `n` bytes. -/
def saturated (n x : Nat) : List Byte := natToBytes n (Nat.min x (2 ^ (8 * n) - 1))

/-- Remap entries in use in a channel. -/
def Chan.used (c : Chan) : Nat := (c.mirror.filter fun e => e.2.toNat / 2 ^ 63 == 1).length

/-- The most entries used by a channel of a stack. -/
def State.mostUsed (s : State) (stack : Nat) : Nat :=
  (List.range 32).foldl (fun m c => Nat.max m (s.chans.get (stack * 32 + c)).used) 0

/-- The report's first half: identity, state, power, temperatures, units. -/
def State.healthUnits (s : State) : List Byte :=
  let g := s.mgr
  natToBytes 8 Config.serialNo ++ natToBytes 8 s.cycle ++ natToBytes 1 (if g.issue = 8 then 0 else 1) ++ natToBytes 1 g.issue
    ++ natToBytes 2 g.watts ++ (List.range 5).flatMap (fun i => natToBytes 1 (wrapNat 8 (g.temps.getD i 0)))
    ++ natToBytes 1 (wrapNat 8 g.coolant) ++ natToBytes 6 0
    ++ bitMap 256 (fun c => !(s.core c).offline) ++ bitMap 256 (fun c => (s.chans.get c).failed)
    ++ (List.range 16).flatMap (fun p => natToBytes 1 (s.ports.get p).state)
    ++ (List.range 8).flatMap fun k => natToBytes 2 (s.mostUsed k)

/-- The report's counts. -/
def State.healthCounts (s : State) : List Byte :=
  let g := s.mgr
  (List.range 8).flatMap (fun i => saturated 4 (g.corrected.get (i + 1)))
    ++ (List.range 8).flatMap (fun i => saturated 4 (g.uncorrected.get (i + 1)))
    ++ saturated 4 g.poisoned ++ saturated 4 (s.sched.report - 1) ++ saturated 4 g.dropped
    ++ saturated 4 ((List.range 16).map fun p => (s.ports.get p).late).sum ++ saturated 2 g.lost ++ saturated 2 s.held.length
    ++ natToBytes 12 0

/-- HEALTH (R465, R466). (DESIGN CHOICE: notes/assumptions/109.) -/
def execHealth (h : Hdr) (s : State) : Host.Outcome State Fault Refusal :=
  command h 0x80 3 s fun s => s.reply h 0x80 0 (s.healthUnits ++ s.healthCounts)

/-! ### Event counters (R460, R461) -/

/-- Units of a counter class: cores, slices, ports. -/
def counterUnits (cls : Nat) : Nat := if cls = 0 then 256 else if cls = 1 then 64 else if cls = 2 then 16 else 0

/-- A source that a class of counters accepts (R460). -/
def sourceOk (cls source : Nat) : Bool :=
  if cls = 0 then source ≤ 0x000E
  else if cls = 1 then source == 0 || (0x0101 ≤ source && source ≤ 0x0108)
  else source == 0 || (0x0201 ≤ source && source ≤ 0x0206)

/-- COUNTER_SET (R461). (DEDUCED: notes/assumptions/85.) -/
def execCounterSet (h : Hdr) (cls unit counter : Nat) (select : Word) (count : DWord) (s : State) :
    Host.Outcome State Fault Refusal :=
  command h 0x81 3 s fun s =>
    let sel := Nat.land select.toNat 0xC000FFFF
    let x : DWord := BitVec.ofNat 64 sel
    if counterUnits cls ≤ unit ∨ 7 < counter ∨ sourceOk cls (sel % 2 ^ 16) = false ∨ (cls ≠ 0 ∧ sel / 2 ^ 30 % 2 = 1) then
      s.reply h 0x81 3 []
    else if cls = 0 then
      let c := s.core unit
      (s.setCore unit { c with
        evsel := c.evsel.set counter x, evcount := c.evcount.set counter count, evctx := c.evctx.set counter h.ctx }).reply h 0x81 0 []
    else if cls = 1 then
      { s with
        sliceSel := s.sliceSel.set (unit * 8 + counter) x
        sliceCount := s.sliceCount.set (unit * 8 + counter) count }.reply h 0x81 0 []
    else
      let p := s.ports.get unit
      { s with ports := s.ports.set unit { p with evsel := p.evsel.set counter x, evcount := p.evcount.set counter count } }.reply
        h 0x81 0 []

/-- The select and count of one counter of a unit. -/
def State.counterOf (s : State) (cls unit i : Nat) : Nat × Nat :=
  if cls = 0 then (((s.core unit).evsel.get i).toNat, ((s.core unit).evcount.get i).toNat)
  else if cls = 1 then ((s.sliceSel.get (unit * 8 + i)).toNat, (s.sliceCount.get (unit * 8 + i)).toNat)
  else (((s.ports.get unit).evsel.get i).toNat, ((s.ports.get unit).evcount.get i).toNat)

/-- COUNTER_READ (R459). -/
def execCounterRead (h : Hdr) (cls unit : Nat) (s : State) : Host.Outcome State Fault Refusal :=
  command h 0x82 3 s fun s =>
    if counterUnits cls ≤ unit then s.reply h 0x82 3 []
    else
      s.reply h 0x82 0 ((List.range 8).flatMap (fun i => natToBytes 4 (s.counterOf cls unit i).1)
        ++ (List.range 8).flatMap fun i => natToBytes 8 (s.counterOf cls unit i).2)

/-! ### Cores (R446, R447, R459, R468) -/

/-- A core holds no crew and no engine operation (R468); an ended crew whose gang goes on is no crew of the core. -/
def State.coreClear (s : State) (core : Nat) : Bool :=
  let g := s.engs core
  (s.crews.all fun p => 2 ^ 16 ≤ p.1 || !p.2.live || !p.2.resident || p.2.core != core)
    && ([0, 1, 2, 3, 5, 6, 7].flatMap g.list).isEmpty && g.deck.isEmpty

/-- A core out of placement. -/
def State.setOffline (s : State) (core : Nat) (on : Bool) (h : List Hdr) : State :=
  s.setCore core { s.core core with offline := on, leaving := h }

/-- Every accepted launch could still be placed without the core (R397, R468). -/
def State.spareable (s : State) (core : Nat) : Bool :=
  let t := s.setOffline core true []
  t.launches.all fun p => !p.2.live || t.placeable p.2.spec

/-- CORE_OFFLINE (R468): the core leaves placement, its crews are swapped out, and the reply follows when it is clear. -/
def execCoreOffline (h : Hdr) (core : Nat) (s : State) : Host.Outcome State Fault Refusal :=
  if (s.core core).leaving.contains h then
    if s.coreClear core then .next ((s.setOffline core true ((s.core core).leaving.filter (· != h))).reply h 0x83 0 []) else .next s
  else
    command h 0x83 3 s fun s =>
      let c := s.core core
      if 255 < core then s.reply h 0x83 3 []
      else if c.pins ≠ 0 ∨ s.spareable core = false then s.reply h 0x83 8 []
      else
        let toks := (s.crews.filter fun p => p.2.live && p.2.resident && p.2.core == core).map (·.1)
        toks.foldl (fun s t => s.swapOut none t) (s.setOffline core true (c.leaving ++ [h]))

/-- CORE_ONLINE (R459). -/
def execCoreOnline (h : Hdr) (core : Nat) (s : State) : Host.Outcome State Fault Refusal :=
  command h 0x84 3 s fun s =>
    if 255 < core then s.reply h 0x84 3 []
    else if (s.core core).leaving ≠ [] then s.reply h 0x84 8 []
    else (s.setOffline core false []).reply h 0x84 0 []

/-- CORE_RESET (R446, R447) of an offline core: its SRAM, L1, TLB, engines, sort yard and event counters are cleared. -/
def execCoreReset (h : Hdr) (core : Nat) (s : State) : Host.Outcome State Fault Refusal :=
  command h 0x85 3 s fun s =>
    let c := s.core core
    if 255 < core then s.reply h 0x85 3 []
    else if c.offline = false ∨ c.leaving ≠ [] then s.reply h 0x85 8 []
    else
      let s := (s.clearRange (coreBase core) coreSram).setCore core { (default : Core) with offline := true }
      { s with engines := s.engines.del core }.reply h 0x85 0 []

/-! ### Pinned frames (R469) -/

/-- A resident crew's allocation overlaps the top of its core's scratchpad. -/
def State.overlapsPins (s : State) (core frames : Nat) : Bool :=
  s.crews.any fun p => p.2.live && p.2.resident && p.2.core == core && coreSram - 8192 * frames < p.2.base + p.2.size

/-- PIN_SET (R469). -/
def execPinSet (h : Hdr) (cls unit frames : Nat) (s : State) : Host.Outcome State Fault Refusal :=
  command h 0x86 3 s fun s =>
    let slice := cls == 1
    let old := if slice then s.slicePins.get unit else (s.core unit).pins
    if 1 < cls ∨ (if slice then 63 else 255) < unit ∨ 192 < frames then s.reply h 0x86 3 []
    else if old < frames then
      if slice then { s with slicePins := s.slicePins.set unit frames }.reply h 0x86 0 []
      else if s.overlapsPins unit frames then s.reply h 0x86 8 []
      else (s.setCore unit { s.core unit with pins := frames }).reply h 0x86 0 []
    else if frames = old then s.reply h 0x86 0 []
    else s.invalidate { ctx := 0, all := true, va := 0, len := 0, after := .pin h slice unit frames }

/-! ### Channels (R426, R449, R470, R471) -/

/-- A line that a failed channel's slot of this cycle was to pull is marked failed (R422, R473). -/
def State.failPull (s : State) (ch : Nat) : State :=
  if s.agenda.contains (.event (.backgroundPullSlot ch)) then
    match s.nextPull ch with
    | some (slot, line) =>
      let m := s.migs.get slot
      let s := { s with migs := s.migs.set slot { m with failed := m.failed.set line causeMemoryUncorrectable } }
      (s.logError 3 (storageRow (s.ownAddr (m.old + 256 * line))) m.ctx (placeOf (s.ownAddr (m.old + 256 * line))) (m.old + 256 * line) 0).migSettle slot
    | none => s
  else s

/-- Every granule of a channel poisoned (R470): counted in the report, and at the eight slices of its stack, among which a channel's
granules are spread evenly (R56, R426, R460, R466). (DESIGN CHOICE: notes/assumptions/70.) -/
def State.poisonChannel (s : State) (ch : Nat) : State :=
  let s := { s with mgr := { s.mgr with poisoned := s.mgr.poisoned + channelGranules } }
  (List.range 8).foldl (fun s i => s.countSlice (ch / 32 * 8 + i) 0x0108 (channelGranules / 8)) s

/-- CHANNEL_RETRAIN (R470): `passed` is what the training of the channel finds before its table is loaded. -/
def execChannelRetrain (h : Hdr) (stack channel : Nat) (passed : Bool) (s : State) : Host.Outcome State Fault Refusal :=
  command h 0x87 3 s fun s =>
    let ch := stack * 32 + channel
    let c := s.chans.get ch
    if 7 < stack ∨ 31 < channel then s.reply h 0x87 3 []
    else if passed = false ∨ c.badMirror.isEmpty = false then ((s.failPull ch).failChannel ch).reply h 0x87 0 (natToBytes 1 1)
    else
      let x := { c with table := c.mirror, badTable := [], failed := false }
      let x := if c.failed then { x with stale := true, written := [] } else x
      let s := { s with chans := s.chans.set ch x }
      let s := if c.failed then s.poisonChannel ch else s
      s.reply h 0x87 0 (natToBytes 1 0)

/-- An entry of a remap table (R426). -/
def remapEntry (bank row spare : Nat) : DWord := BitVec.ofNat 64 (2 ^ 63 + bank * 2 ^ 42 + row * 2 ^ 24 + spare)

/-- The entry remaps a row of a bank. -/
def remaps (e : DWord) (bank row : Nat) : Bool :=
  e.toNat / 2 ^ 63 == 1 && bits e.toNat 47 42 == bank && bits e.toNat 41 24 == row

/-- A row read for its copy (R471): its four granules, of which an uncorrectable one is found and stays poisoned, and an error of one
symbol is corrected. (DESIGN CHOICE: notes/assumptions/93.) -/
def State.copyRow (s : State) (ch bank row : Nat) : State :=
  if (s.chans.get ch).failed then s
  else (List.range 4).foldl (fun s k => s.scrubGranule (granuleOf ch (Config.rowGranule ch bank row k % channelGranules))) s

/-- REPAIR (R471): the row is copied, the mirror entry is written, then the base-die entry. (DESIGN CHOICE: notes/assumptions/93.) -/
def execRepair (h : Hdr) (stack channel bank row : Nat) (s : State) : Host.Outcome State Fault Refusal :=
  command h 0x88 3 s fun s =>
    let ch := stack * 32 + channel
    let c := s.chans.get ch
    if 7 < stack ∨ 31 < channel ∨ 47 < bank ∨ 2 ^ 18 ≤ row then s.reply h 0x88 3 []
    else if c.mirror.any fun e => remaps e.2 bank row then s.reply h 0x88 8 []
    else
      match (List.range 512).find? fun i => (c.mirror.find i).isNone with
      | none => s.reply h 0x88 4 []
      | some i =>
        let spare := (Config.spareRow ch i).toNat
        let e := remapEntry bank row spare
        let s := s.copyRow ch bank row
        let x := { s.chans.get ch with
          mirror := c.mirror.set i e, table := c.table.set i e, badTable := c.badTable.filter (· != i), badMirror := c.badMirror.filter (· != i) }
        { s with chans := s.chans.set ch x }.reply h 0x88 0 (natToBytes 2 spare)

/-! ### Logs (R467) -/

/-- The error log with its sequence numbers. (DEDUCED: notes/assumptions/87.) -/
def State.numberedLog (s : State) : List (Nat × List Byte) :=
  (s.errlog.zip (List.range s.errlog.length)).map fun p =>
    let n := s.mgr.logNext - s.errlog.length + p.2
    (n, natToBytes 4 n ++ p.1.bytes)

/-- LOG_READ (R467): as many records as fit, oldest first. (DEDUCED: notes/assumptions/87.) -/
def execLogRead (h : Hdr) (kind from_ : Nat) (s : State) : Host.Outcome State Fault Refusal :=
  command h 0x89 3 s fun s =>
    if 1 < kind then s.reply h 0x89 3 []
    else
      let all := if kind = 0 then s.numberedLog else s.sched.deadlog
      let some_ := (all.filter fun p => from_ ≤ p.1).take (4060 / (if kind = 0 then 36 else 64))
      s.reply h 0x89 0 (natToBytes 2 some_.length ++ natToBytes 2 0 ++ some_.flatMap (·.2))

end Sys2Proof.Machine
end

