-- ==== Sys2Proof/Machine/Integer.lean ====
section
/-! DEFINITION. Integer and address instructions, majors 0x01 to 0x1B (R211 to R221). -/

namespace Sys2Proof.Machine

open Sys2Proof

/-! ### Exact values -/

/-- Zero bits above the highest set bit of an n-bit pattern (R215). -/
def clzNat (n x : Nat) : Nat := if x = 0 then n else n - 1 - Nat.log2 x

/-- Zero bits below the lowest set bit, at most `n` (R215). -/
def ctzNat : Nat → Nat → Nat
  | 0, _ => 0
  | n + 1, x => if x % 2 = 1 then 0 else 1 + ctzNat n (x / 2)

/-- Set bits among the low `n` (R215). -/
def popcNat : Nat → Nat → Nat
  | 0, _ => 0
  | n + 1, x => x % 2 + popcNat n (x / 2)

/-- An n-bit pattern rotated toward higher bits by k mod n (R214). -/
def rotNat (n x k : Nat) : Nat :=
  let r := k % n
  (x * 2 ^ r + x / 2 ^ (n - r)) % 2 ^ n

/-- shl (R214): x times 2^k; an amount of n or more gives 0, or under .sat the bound of x's sign. -/
def shlVal (t : IntTy) (sat : Bool) (x : Int) (k : Nat) : Int :=
  if t.bits ≤ k then
    (if sat then (if x = 0 then 0 else if x < 0 then minInt t else maxInt t) else 0)
  else x * 2 ^ k

/-- shr (R214): the pattern read as unsigned, divided by 2^k. -/
def shrVal (t : IntTy) (p k : Nat) : Int := if t.bits ≤ k then 0 else (p / 2 ^ k : Nat)

/-- sar (R214): the pattern read as signed, divided by 2^k and floored. -/
def sarVal (t : IntTy) (p k : Nat) : Int :=
  if t.bits ≤ k then (if signedOf t.bits p < 0 then -1 else 0) else signedOf t.bits p / 2 ^ k

/-- bfx (R216): `w` bits of x from bit `lo`, bits above x being its extension bits, read by the type's signedness. -/
def bfxVal (t : IntTy) (x : Int) (ctl : Nat) : Int :=
  let lo := ctl % 128
  let w := ctl / 256 % 128
  let f : Nat := ((x / 2 ^ lo) % 2 ^ w).toNat
  if w = 0 then 0 else if t.signed then signedOf w f else f

/-- bfi (R216): the low `w` bits of x, extended, put into the accumulator from bit `lo`. -/
def bfiVal (t : IntTy) (x : Int) (acc ctl : Nat) : Int :=
  let lo := ctl % 128
  let w := ctl / 256 % 128
  let f : Nat := (x % 2 ^ w).toNat
  let below := acc % 2 ^ lo
  let above := acc / 2 ^ (lo + w) * 2 ^ (lo + w)
  ((above + f * 2 ^ lo + below) % 2 ^ t.bits : Nat)

/-- The exact value r of an integer operation before it is wrapped or saturated (R213 to R217): `a`, `b` and `acc` are the
operands' bits, `k` the shift amount or field control or immediate. -/
def intEval (op : IntOp) (t : IntTy) (sat : Bool) (a b k acc : Nat) : Int :=
  let n := t.bits
  let x := intOf t a
  let y := intOf t b
  let p := a % 2 ^ n
  let q := b % 2 ^ n
  match op with
  | .add => x + y
  | .sub => x - y
  | .mul => x * y
  | .mulh => x * y / 2 ^ n
  | .mad => intOf t acc + x * y
  | .div => if y = 0 then (if t.signed then -1 else 2 ^ n - 1) else x.tdiv y
  | .rem => if y = 0 then x else x.tmod y
  | .min => if x ≤ y then x else y
  | .max => if x ≤ y then y else x
  | .and => (Nat.land p q : Nat)
  | .or => (Nat.lor p q : Nat)
  | .xor => (Nat.xor p q : Nat)
  | .not => (2 ^ n - 1 - p : Nat)
  | .shl | .shlImm _ => shlVal t sat x k
  | .shr | .shrImm _ => shrVal t p k
  | .sar | .sarImm _ => sarVal t p k
  | .rot | .rotImm _ => (rotNat n p k : Nat)
  | .bfx => bfxVal t x k
  | .bfi => bfiVal t x (acc % 2 ^ n) k
  | .clz => (clzNat n p : Nat)
  | .ctz => (ctzNat n p : Nat)
  | .popc => (popcNat n p : Nat)
  | .addImm _ => x + signedOf 8 k

/-- The number the operation takes beside its operands: an immediate, or b's 32 bits (R214, R216). -/
def intAmount (op : IntOp) (b32 : Nat) : Nat :=
  match op with
  | .shlImm n | .shrImm n | .sarImm n | .rotImm n | .addImm n => n
  | _ => b32

/-- An integer operation's result in one lane, wrapped or saturated, extended to 64 bits (R213, R123). -/
def State.intLane (s : State) (op : IntOp) (t : IntTy) (sat : Bool) (a b c : Operand) (l : Nat) : Nat :=
  let w := s.cur.warp
  let r := intEval op t sat (s.srcBits w l t a) (s.srcBits w l t b) (intAmount op (s.src32 w l b)) (s.srcBits w l t c)
  extendInt t (if sat then satInt t r else r)

/-- The shared effect of the integer operations: every executing lane's result goes to d (R213). -/
def intOp (i : Instr) (op : IntOp) (t : IntTy) (sat : Bool) (d a b c : Operand) (s : State) :
    Host.Outcome State Fault Refusal :=
  plainOp i s fun s => s.writeRes (intWords t) d (s.intLane op t sat a b c)

/-! ### One-word forms, T = .i32 -/

def execAdd (d a b : Operand) (s : State) := intOp (.add d a b) .add .i32 false d a b .z s
def execSub (d a b : Operand) (s : State) := intOp (.sub d a b) .sub .i32 false d a b .z s
def execMul (d a b : Operand) (s : State) := intOp (.mul d a b) .mul .i32 false d a b .z s
def execMulh (d a b : Operand) (s : State) := intOp (.mulh d a b) .mulh .i32 false d a b .z s
/-- The accumulator is d itself (R213). -/
def execMad (d a b : Operand) (s : State) := intOp (.mad d a b) .mad .i32 false d a b d s
def execDiv (d a b : Operand) (s : State) := intOp (.div d a b) .div .i32 false d a b .z s
def execRem (d a b : Operand) (s : State) := intOp (.rem d a b) .rem .i32 false d a b .z s
def execMin (d a b : Operand) (s : State) := intOp (.min d a b) .min .i32 false d a b .z s
def execMax (d a b : Operand) (s : State) := intOp (.max d a b) .max .i32 false d a b .z s
def execAnd (d a b : Operand) (s : State) := intOp (.and d a b) .and .i32 false d a b .z s
def execOr (d a b : Operand) (s : State) := intOp (.or d a b) .or .i32 false d a b .z s
def execXor (d a b : Operand) (s : State) := intOp (.xor d a b) .xor .i32 false d a b .z s
def execNot (d a : Operand) (s : State) := intOp (.not d a) .not .i32 false d a .z .z s
def execShl (d a b : Operand) (s : State) := intOp (.shl d a b) .shl .i32 false d a b .z s
def execShr (d a b : Operand) (s : State) := intOp (.shr d a b) .shr .i32 false d a b .z s
def execSar (d a b : Operand) (s : State) := intOp (.sar d a b) .sar .i32 false d a b .z s
def execRot (d a b : Operand) (s : State) := intOp (.rot d a b) .rot .i32 false d a b .z s
def execShlImm (d a : Operand) (n : Nat) (s : State) := intOp (.shlImm d a n) (.shlImm n) .i32 false d a .z .z s
def execShrImm (d a : Operand) (n : Nat) (s : State) := intOp (.shrImm d a n) (.shrImm n) .i32 false d a .z .z s
def execSarImm (d a : Operand) (n : Nat) (s : State) := intOp (.sarImm d a n) (.sarImm n) .i32 false d a .z .z s
def execRotImm (d a : Operand) (n : Nat) (s : State) := intOp (.rotImm d a n) (.rotImm n) .i32 false d a .z .z s
def execClz (d a : Operand) (s : State) := intOp (.clz d a) .clz .i32 false d a .z .z s
def execCtz (d a : Operand) (s : State) := intOp (.ctz d a) .ctz .i32 false d a .z .z s
def execPopc (d a : Operand) (s : State) := intOp (.popc d a) .popc .i32 false d a .z .z s
def execBfx (d a b : Operand) (s : State) := intOp (.bfx d a b) .bfx .i32 false d a b .z s
/-- The accumulator is d itself (R216). -/
def execBfi (d a b : Operand) (s : State) := intOp (.bfi d a b) .bfi .i32 false d a b d s
def execAddImm (d a : Operand) (n : Nat) (s : State) := intOp (.addImm d a n) (.addImm n) .i32 false d a .z .z s

/-- movi (R217): the signed 16-bit immediate, sign-extended. -/
def execMovi (d : Operand) (n : Nat) (s : State) : Host.Outcome State Fault Refusal :=
  plainOp (.movi d n) s fun s => s.writeRes 1 d fun _ => wrapNat 64 (signedOf 16 n)

/-! ### The typed form, comparison, selection, addresses -/

/-- The typed integer form (R218). -/
def execIntTyped (op : IntOp) (t : IntTy) (sat : Bool) (d a b c : Operand) (s : State) :=
  intOp (.intTyped op t sat d a b c) op t sat d a b c s

/-- A comparison condition (R219). -/
def condHolds (cc : Cond) (x y : Int) : Bool :=
  match cc with
  | .eq => x == y
  | .ne => x != y
  | .lt => x < y
  | .le => x ≤ y
  | .gt => x > y
  | .ge => x ≥ y

/-- cmp (R219): 1 or 0. -/
def execCmp (cc : Cond) (t : IntTy) (d a b : Operand) (s : State) : Host.Outcome State Fault Refusal :=
  plainOp (.cmp cc t d a b) s fun s => s.writeRes 1 d fun l =>
    if condHolds cc (s.intVal s.cur.warp l t a) (s.intVal s.cur.warp l t b) then 1 else 0

/-- The bits a selection of the type moves, extended for the destination (R220). -/
def State.selBits (s : State) (t : Option Ty) (o : Operand) (l : Nat) : Nat :=
  match t with
  | some (.int t) => extendInt t (intOf t (s.srcBits s.cur.warp l t o))
  | some (.flt t) => s.srcFlt s.cur.warp l t o
  | _ => s.src32 s.cur.warp l o

/-- Register words of a selection's type (R220). (DEDUCED: notes/assumptions/53.) -/
def selWords (t : Option Ty) : Nat :=
  match t with
  | some t => if t.wide then 2 else 1
  | none => 1

/-- sel (R220). (DEDUCED: notes/assumptions/53.) -/
def execSel (t : Option Ty) (d c a b : Operand) (s : State) : Host.Outcome State Fault Refusal :=
  plainOp (.sel t d c a b) s fun s => s.writeRes (selWords t) d fun l =>
    if s.src32 s.cur.warp l c ≠ 0 then s.selBits t a l else s.selBits t b l

/-- The address lea computes in one lane (R221). -/
def State.leaLane (s : State) (t : IntTy) (sh : Nat) (a b c : Operand) (l : Nat) : Nat :=
  let w := s.cur.warp
  wrapNat 64 ((s.src64 w l t.signed a : Int) + s.intVal w l t b * 2 ^ sh + s.intVal w l .i32 c)

/-- lea (R221). -/
def execLea (t : IntTy) (sh : Nat) (d a b c : Operand) (s : State) : Host.Outcome State Fault Refusal :=
  plainOp (.lea t sh d a b c) s fun s => s.writeRes 2 d (s.leaLane t sh a b c)

end Sys2Proof.Machine
end

