-- ==== Sys2Proof/Machine/Lanes.lean ====
section
/-! DEFINITION. Exchanges among lanes and lane masks, majors 0x40 to 0x42 and 0x45 to 0x49 (R222 to R227). -/

namespace Sys2Proof.Machine

open Sys2Proof

/-! ### Members (R222) -/

/-- The member mask of an operand: one value in every executing lane, each executing lane a member (R222). -/
def State.maskOk (s : State) (m : Operand) : Bool :=
  s.same32 m && (s.cur.lanes &&& ~~~(BitVec.ofNat 32 (s.lead32 m)) == 0)

/-- The members of vred and vscan: with z all lanes are (R222, R225). -/
def State.membersOk (s : State) (m : Operand) : Bool := m == .z || s.maskOk m

/-- The frame of a lane operation's member form: ILLEGAL_OPERAND for a bad member mask, else its effect (R222). -/
def maskedOp (i : Instr) (m : Operand) (s : State) (f : State → State) : Host.Outcome State Fault Refusal :=
  checkedOp i s fun s => if s.maskOk m then .ok (f s) else .error (s.mkTrap causeIllegalOperand)

/-- vshfl's value in a lane: a of the source lane, or of the lane itself where the source is no present member (R223). -/
def State.shuffle (s : State) (a : Operand) (src l : Nat) : Nat :=
  s.src32 s.cur.warp (if s.cur.lanes.getLsbD src then src else l) a

/-- The lanes that vote with p (R224). -/
def State.voters (s : State) (a : Operand) : List Nat := (lanesOf s.cur.lanes).filter fun l => s.src32 s.cur.warp l a != 0

/-- vvote's result (R224). -/
def State.vote (s : State) (kind : VoteKind) (a : Operand) : Nat :=
  let ls := lanesOf s.cur.lanes
  let vs := s.voters a
  match kind with
  | .all => if vs.length = ls.length then 1 else 0
  | .any => if vs.isEmpty then 0 else 1
  | .ballot => (laneSet vs).toNat
  | .eq => if s.same32 a then 1 else 0

def execVshfl (d a b : Operand) (s : State) : Host.Outcome State Fault Refusal :=
  checkedOp (.vshfl d a b) s fun s => .ok <| s.writeRes 1 d fun l => s.shuffle a (s.src32 s.cur.warp l b % 32) l
def execVbcast (d a : Operand) (n : Nat) (s : State) : Host.Outcome State Fault Refusal :=
  checkedOp (.vbcast d a n) s fun s => .ok <| s.writeRes 1 d fun l => s.shuffle a n l
def execVvote (kind : VoteKind) (d a : Operand) (s : State) : Host.Outcome State Fault Refusal :=
  checkedOp (.vvote kind d a) s fun s => .ok <| s.writeRes 1 d fun _ => s.vote kind a
def execVshflMasked (d a b m : Operand) (s : State) : Host.Outcome State Fault Refusal :=
  maskedOp (.vshflMasked d a b m) m s fun s => s.writeRes 1 d fun l => s.shuffle a (s.src32 s.cur.warp l b % 32) l
def execVbcastMasked (d a : Operand) (n : Nat) (m : Operand) (s : State) : Host.Outcome State Fault Refusal :=
  maskedOp (.vbcastMasked d a n m) m s fun s => s.writeRes 1 d fun l => s.shuffle a n l
def execVvoteMasked (kind : VoteKind) (d a m : Operand) (s : State) : Host.Outcome State Fault Refusal :=
  maskedOp (.vvoteMasked kind d a m) m s fun s => s.writeRes 1 d fun _ => s.vote kind a

/-! ### Masks (R226, R227) -/

/-- mjoin (R27, R226). -/
def execMjoin (k : Nat) (s : State) : Host.Outcome State Fault Refusal :=
  plainOp (.mjoin k) s fun s => s.upCur fun w => { w with masks := w.masks.set k (w.masks.get k ||| s.cur.lanes) }

/-- mleave (R27, R29): the instance it leaves complete is released. -/
def execMleave (k : Nat) (s : State) : Host.Outcome State Fault Refusal :=
  plainOp (.mleave k) s fun s => s.upCur fun w =>
    ({ w with masks := w.masks.set k (w.masks.get k &&& ~~~s.cur.lanes) }).settleMask s.cycle k

/-- The executing lanes arrive on mask k's instance (R28, R30). -/
def arrive (i : Instr) (k : Nat) (x : Wait) (s : State) : Host.Outcome State Fault Refusal :=
  runOp i s fun s =>
    if s.cur.lanes &&& ~~~(s.curWarp.masks.get k) ≠ 0 then .error (s.mkTrap causeIllegalOperand)
    else .ok ((s.block i.len x).upCur fun w => w.settleMask s.cycle k)

def execMwait (k : Nat) (s : State) : Host.Outcome State Fault Refusal := arrive (.mwait k) k (.mask k) s

/-- mwaitt (R227): each lane's deadline is the arrival cycle plus its t. -/
def execMwaitt (d a : Operand) (k : Nat) (s : State) : Host.Outcome State Fault Refusal :=
  arrive (.mwaitt d a k) k (.maskT k d ((lanesOf s.cur.lanes).map fun l => (l, s.cycle + s.src32 s.cur.warp l a))) s

/-- The mwaitt record a lane waits in. -/
def Warp.mwaittOf (w : Warp) (l : Nat) : Option WaitRec :=
  w.waits.find? fun r => r.lanes.getLsbD l && (match r.wait with | .maskT .. => true | _ => false)

/-- A lane's mwaitt deadline passes: it withdraws its arrival, takes 0 and goes on; nothing completes by that (R30). -/
def execMwaittDeadline (w l : Nat) (s : State) : Host.Outcome State Fault Refusal :=
  let x := s.warp w
  match x.mwaittOf l with
  | none => .next s
  | some r =>
    match r.wait with
    | .maskT _ d dl =>
      if s.cycle < dl.get l then .next s
      else .next (s.setWarp w ((x.writeMwaitt d dl.keys (laneBit l) 0).release s.cycle r (laneBit l)))
    | _ => .next s

end Sys2Proof.Machine
end

