-- ==== Sys2Proof/Machine/Reduce.lean ====
section
/-! DEFINITION. Reductions and scans across lanes, majors 0x43 and 0x44 (R225). -/

namespace Sys2Proof.Machine

open Sys2Proof

/-- One integer step of a reduction (R225): the sum wraps, or saturates. (DEDUCED: notes/assumptions/57.) -/
def redStep (op : RedOp) (t : IntTy) (sat : Bool) (x y : Int) : Int :=
  let logic := fun (f : Nat → Nat → Nat) => intOf t (f (wrapInt t x) (wrapInt t y))
  match op with
  | .add => if sat then satInt t (x + y) else intOf t (wrapInt t (x + y))
  | .min => if y < x then y else x
  | .max => if x < y then y else x
  | .and => logic Nat.land
  | .or => logic Nat.lor
  | .xor => logic Nat.xor

/-- The identity of an exclusive scan (R225). -/
def redIdentity (op : RedOp) (t : IntTy) : Int :=
  match op with
  | .add | .or | .xor => 0
  | .min => maxInt t
  | .max => minInt t
  | .and => intOf t (2 ^ t.bits - 1)

/-- The float operation of a step (R225). (DEDUCED: notes/assumptions/57.) -/
def redFloat : RedOp → FOp
  | .min => .fmin
  | .max => .fmax
  | _ => .fadd

/-- One lane of a running reduction: the lane, the value before its step, the value after, the flags of its step. -/
structure RedLane where
  lane : Nat
  before : Nat
  after : Nat
  fl : Nat
  deriving DecidableEq, Repr, Inhabited

/-- The running reduction of lanes in ascending order (R225): values as 64-bit register results. -/
def redInt (op : RedOp) (t : IntTy) (sat : Bool) : Int → Bool → List (Nat × Int) → List RedLane
  | _, _, [] => []
  | acc, first, (l, x) :: rest =>
    let y := if first then x else redStep op t sat acc x
    ⟨l, extendInt t (if first then redIdentity op t else acc), extendInt t y, 0⟩ :: redInt op t sat y false rest

/-- The running float reduction (R225): each step is the one operation, rounded once. -/
def redFlt (op : RedOp) (t : FTy) (rm : Rm) : Nat → Bool → List (Nat × Nat) → List RedLane
  | _, _, [] => []
  | acc, first, (l, x) :: rest =>
    let r : FRes := if first then ⟨x, 0⟩ else floatOp (redFloat op) t rm acc x 0 0
    ⟨l, acc, r.val, r.fl⟩ :: redFlt op t rm r.val false rest

/-- The running reduction of the executing lanes. -/
def State.reduction (s : State) (op : RedOp) (t : RedTy) (sat : Bool) (rm : RMod) (a : Operand) : List RedLane :=
  let ls := lanesOf s.cur.lanes
  match t with
  | .int t => redInt op t sat 0 true (ls.map fun l => (l, s.intVal s.cur.warp l t a))
  | .flt t => redFlt op t (rmOf rm s.curWarp.fpmode.toNat) 0 true (ls.map fun l => (l, s.srcFlt s.cur.warp l t a))

/-- Register words of a reduction's value. -/
def redWords : RedTy → Nat
  | .int t => intWords t
  | .flt _ => 1

/-- vred and vscan (R225): FP_TRAP names the lanes whose step raised an enabled flag; else results and flags commit. -/
def reduceOp (i : Instr) (op : RedOp) (t : RedTy) (sat : Bool) (rm : RMod) (d a m : Operand)
    (pick : List RedLane → Nat → Nat) (s : State) : Host.Outcome State Fault Refusal :=
  checkedOp i s fun s =>
    if s.membersOk m then
      let rs := s.reduction op t sat rm a
      let fl := (rs.map (·.fl)).foldl Nat.lor 0
      let enabled := s.curWarp.fpmode.toNat / 256 % 32
      let bad := (rs.filter fun r => Nat.land r.fl enabled != 0).map (·.lane)
      if bad.isEmpty then
        .ok ((s.writeRes (redWords t) d (pick rs)).upCur fun w => { w with fpflags := w.fpflags ||| BitVec.ofNat 64 fl })
      else .error { s.mkTrap causeFpTrap with lanes := laneSet bad, flags := Nat.land fl enabled }
    else .error (s.mkTrap causeIllegalOperand)

/-- The last value of the reduction, for every lane. -/
def redTotal (rs : List RedLane) (_l : Nat) : Nat := (rs.getLast?.getD default).after

/-- A lane's own value of the scan. -/
def redOwn (excl : Bool) (rs : List RedLane) (l : Nat) : Nat :=
  let r := (rs.find? fun r => r.lane == l).getD default
  if excl then r.before else r.after

def execVred (op : RedOp) (t : RedTy) (sat : Bool) (rm : RMod) (d a m : Operand) (s : State) :
    Host.Outcome State Fault Refusal :=
  reduceOp (.vred op t sat rm d a m) op t sat rm d a m redTotal s
def execVscan (op : RedOp) (t : RedTy) (excl sat : Bool) (rm : RMod) (d a m : Operand) (s : State) :
    Host.Outcome State Fault Refusal :=
  reduceOp (.vscan op t excl sat rm d a m) op t sat rm d a m (redOwn excl) s

end Sys2Proof.Machine
end

