-- ==== Sys2Proof/Machine/Dispatch.lean ====
section
/-! DEFINITION. The dispatch: one arm per constructor, each a direct call of its meaning. -/

namespace Sys2Proof.Machine

open Sys2Proof

def exec (i : Instr) (s : State) : Host.Outcome State Fault Refusal :=
  match i with
  | .add d a b => Sys2Proof.Machine.execAdd d a b s
  | .sub d a b => Sys2Proof.Machine.execSub d a b s
  | .mul d a b => Sys2Proof.Machine.execMul d a b s
  | .mulh d a b => Sys2Proof.Machine.execMulh d a b s
  | .mad d a b => Sys2Proof.Machine.execMad d a b s
  | .div d a b => Sys2Proof.Machine.execDiv d a b s
  | .rem d a b => Sys2Proof.Machine.execRem d a b s
  | .min d a b => Sys2Proof.Machine.execMin d a b s
  | .max d a b => Sys2Proof.Machine.execMax d a b s
  | .and d a b => Sys2Proof.Machine.execAnd d a b s
  | .or d a b => Sys2Proof.Machine.execOr d a b s
  | .xor d a b => Sys2Proof.Machine.execXor d a b s
  | .not d a => Sys2Proof.Machine.execNot d a s
  | .shl d a b => Sys2Proof.Machine.execShl d a b s
  | .shr d a b => Sys2Proof.Machine.execShr d a b s
  | .sar d a b => Sys2Proof.Machine.execSar d a b s
  | .rot d a b => Sys2Proof.Machine.execRot d a b s
  | .shlImm d a n => Sys2Proof.Machine.execShlImm d a n s
  | .shrImm d a n => Sys2Proof.Machine.execShrImm d a n s
  | .sarImm d a n => Sys2Proof.Machine.execSarImm d a n s
  | .rotImm d a n => Sys2Proof.Machine.execRotImm d a n s
  | .clz d a => Sys2Proof.Machine.execClz d a s
  | .ctz d a => Sys2Proof.Machine.execCtz d a s
  | .popc d a => Sys2Proof.Machine.execPopc d a s
  | .bfx d a b => Sys2Proof.Machine.execBfx d a b s
  | .bfi d a b => Sys2Proof.Machine.execBfi d a b s
  | .addImm d a n => Sys2Proof.Machine.execAddImm d a n s
  | .movi d n => Sys2Proof.Machine.execMovi d n s
  | .sel t d c a b => Sys2Proof.Machine.execSel t d c a b s
  | .cmp cc t d a b => Sys2Proof.Machine.execCmp cc t d a b s
  | .lea t sh d a b c => Sys2Proof.Machine.execLea t sh d a b c s
  | .intTyped op t sat d a b c => Sys2Proof.Machine.execIntTyped op t sat d a b c s
  | .faddF32 ch d a b => Sys2Proof.Machine.execFaddF32 ch d a b s
  | .faddF16 ch d a b => Sys2Proof.Machine.execFaddF16 ch d a b s
  | .faddBf16 ch d a b => Sys2Proof.Machine.execFaddBf16 ch d a b s
  | .fsubF32 ch d a b => Sys2Proof.Machine.execFsubF32 ch d a b s
  | .fsubF16 ch d a b => Sys2Proof.Machine.execFsubF16 ch d a b s
  | .fsubBf16 ch d a b => Sys2Proof.Machine.execFsubBf16 ch d a b s
  | .fmulF32 ch d a b => Sys2Proof.Machine.execFmulF32 ch d a b s
  | .fmulF16 ch d a b => Sys2Proof.Machine.execFmulF16 ch d a b s
  | .fmulBf16 ch d a b => Sys2Proof.Machine.execFmulBf16 ch d a b s
  | .ffmaF32 ch d a b => Sys2Proof.Machine.execFfmaF32 ch d a b s
  | .ffmaF16 ch d a b => Sys2Proof.Machine.execFfmaF16 ch d a b s
  | .ffmaBf16 ch d a b => Sys2Proof.Machine.execFfmaBf16 ch d a b s
  | .fmaxF32 ch d a b => Sys2Proof.Machine.execFmaxF32 ch d a b s
  | .fmaxF16 ch d a b => Sys2Proof.Machine.execFmaxF16 ch d a b s
  | .fmaxBf16 ch d a b => Sys2Proof.Machine.execFmaxBf16 ch d a b s
  | .fminF32 ch d a b => Sys2Proof.Machine.execFminF32 ch d a b s
  | .fminF16 ch d a b => Sys2Proof.Machine.execFminF16 ch d a b s
  | .fminBf16 ch d a b => Sys2Proof.Machine.execFminBf16 ch d a b s
  | .fgateF32 ch d a b => Sys2Proof.Machine.execFgateF32 ch d a b s
  | .fgateF16 ch d a b => Sys2Proof.Machine.execFgateF16 ch d a b s
  | .fgateBf16 ch d a b => Sys2Proof.Machine.execFgateBf16 ch d a b s
  | .fclampF32 ch d a b => Sys2Proof.Machine.execFclampF32 ch d a b s
  | .fclampF16 ch d a b => Sys2Proof.Machine.execFclampF16 ch d a b s
  | .fclampBf16 ch d a b => Sys2Proof.Machine.execFclampBf16 ch d a b s
  | .fdivF32 ch d a b => Sys2Proof.Machine.execFdivF32 ch d a b s
  | .fsqrt ch t d a => Sys2Proof.Machine.execFsqrt ch t d a s
  | .frsq ch t d a => Sys2Proof.Machine.execFrsq ch t d a s
  | .frcp ch t d a => Sys2Proof.Machine.execFrcp ch t d a s
  | .fexp2 ch t d a => Sys2Proof.Machine.execFexp2 ch t d a s
  | .flog2 ch t d a => Sys2Proof.Machine.execFlog2 ch t d a s
  | .fround ch t d a => Sys2Proof.Machine.execFround ch t d a s
  | .fcvt ch dt st d a => Sys2Proof.Machine.execFcvt ch dt st d a s
  | .fscaleF32 ch d a b => Sys2Proof.Machine.execFscaleF32 ch d a b s
  | .fcmp cc t d a b => Sys2Proof.Machine.execFcmp cc t d a b s
  | .fquant dt st d a => Sys2Proof.Machine.execFquant dt st d a s
  | .fdequant dt st m d a => Sys2Proof.Machine.execFdequant dt st m d a s
  | .floatTyped f m d a b c => Sys2Proof.Machine.execFloatTyped f m d a b c s
  | .flumeWriteback w port => Sys2Proof.Machine.execFlumeWriteback w port s
  | .vshfl d a b => Sys2Proof.Machine.execVshfl d a b s
  | .vbcast d a l => Sys2Proof.Machine.execVbcast d a l s
  | .vvote kind d a => Sys2Proof.Machine.execVvote kind d a s
  | .vshflMasked d a b m => Sys2Proof.Machine.execVshflMasked d a b m s
  | .vbcastMasked d a l m => Sys2Proof.Machine.execVbcastMasked d a l m s
  | .vvoteMasked kind d a m => Sys2Proof.Machine.execVvoteMasked kind d a m s
  | .vred op t sat rm d a m => Sys2Proof.Machine.execVred op t sat rm d a m s
  | .vscan op t excl sat rm d a m => Sys2Proof.Machine.execVscan op t excl sat rm d a m s
  | .mjoin k => Sys2Proof.Machine.execMjoin k s
  | .mleave k => Sys2Proof.Machine.execMleave k s
  | .mwait k => Sys2Proof.Machine.execMwait k s
  | .mwaitt d a k => Sys2Proof.Machine.execMwaitt d a k s
  | .mwaittDeadline w lane => Sys2Proof.Machine.execMwaittDeadline w lane s
  | .bra off => Sys2Proof.Machine.execBra off s
  | .brc c off => Sys2Proof.Machine.execBrc c off s
  | .brcZ c off => Sys2Proof.Machine.execBrcZ c off s
  | .call c off => Sys2Proof.Machine.execCall c off s
  | .ret a => Sys2Proof.Machine.execRet a s
  | .exit => Sys2Proof.Machine.execExit s
  | .reform a k => Sys2Proof.Machine.execReform a k s
  | .reformageExpiry core bin => Sys2Proof.Machine.execReformageExpiry core bin s
  | .binBuildOnFreeSlot core bin => Sys2Proof.Machine.execBinBuildOnFreeSlot core bin s
  | .stagenext d => Sys2Proof.Machine.execStagenext d s
  | .qput d a b => Sys2Proof.Machine.execQput d a b s
  | .qtake d b => Sys2Proof.Machine.execQtake d b s
  | .bar a id => Sys2Proof.Machine.execBar a id s
  | .barArrive a id => Sys2Proof.Machine.execBarArrive a id s
  | .barGang a id => Sys2Proof.Machine.execBarGang a id s
  | .barGangArrive a id => Sys2Proof.Machine.execBarGangArrive a id s
  | .yieldOp => Sys2Proof.Machine.execYield s
  | .sleep a => Sys2Proof.Machine.execSleep a s
  | .sleepExpiry w lane => Sys2Proof.Machine.execSleepExpiry w lane s
  | .nop => Sys2Proof.Machine.execNop s
  | .ldG w ord sc d a => Sys2Proof.Machine.execLdG w ord sc d a s
  | .ldX w ord sc d a => Sys2Proof.Machine.execLdX w ord sc d a s
  | .stG w ord sc d a => Sys2Proof.Machine.execStG w ord sc d a s
  | .stX w ord sc d a => Sys2Proof.Machine.execStX w ord sc d a s
  | .prf w a => Sys2Proof.Machine.execPrf w a s
  | .ldOffset x w ord sc d a b => Sys2Proof.Machine.execLdOffset x w ord sc d a b s
  | .stOffset x w ord sc d a b => Sys2Proof.Machine.execStOffset x w ord sc d a b s
  | .atomG op t ord sc d a b c => Sys2Proof.Machine.execAtomG op t ord sc d a b c s
  | .atomX op t ord sc d a b c => Sys2Proof.Machine.execAtomX op t ord sc d a b c s
  | .fence sc => Sys2Proof.Machine.execFence sc s
  | .ldt try_ w d a => Sys2Proof.Machine.execLdt try_ w d a s
  | .ldtBlock try_ d a b => Sys2Proof.Machine.execLdtBlock try_ d a b s
  | .redeem try_ d a c => Sys2Proof.Machine.execRedeem try_ d a c s
  | .redeemX try_ a b c => Sys2Proof.Machine.execRedeemX try_ a b c s
  | .tkdrop d a => Sys2Proof.Machine.execTkdrop d a s
  | .tkstat d a => Sys2Proof.Machine.execTkstat d a s
  | .ticketReady table entry => Sys2Proof.Machine.execTicketReady table entry s
  | .ticketDeadline table entry => Sys2Proof.Machine.execTicketDeadline table entry s
  | .lalloc d a b c => Sys2Proof.Machine.execLalloc d a b c s
  | .lfree d a => Sys2Proof.Machine.execLfree d a s
  | .lquota d a => Sys2Proof.Machine.execLquota d a s
  | .memoryResponse req => Sys2Proof.Machine.execMemoryResponse req s
  | .remoteStoreAck req => Sys2Proof.Machine.execRemoteStoreAck req s
  | .remoteStoreTimeout req performed => Sys2Proof.Machine.execRemoteStoreTimeout req performed s
  | .fabricTimeout req performed => Sys2Proof.Machine.execFabricTimeout req performed s
  | .cpyLd t q m arr d a b c => Sys2Proof.Machine.execCpyLd t q m arr d a b c s
  | .cpySt addF q m arr d a b c => Sys2Proof.Machine.execCpySt addF q m arr d a b c s
  | .copyPerform core q => Sys2Proof.Machine.execCopyPerform core q s
  | .bulk xs xd arr held d a => Sys2Proof.Machine.execBulk xs xd arr held d a s
  | .bulkPerform core => Sys2Proof.Machine.execBulkPerform core s
  | .bulkPieceArrival handle xd bytes count => Sys2Proof.Machine.execBulkPieceArrival handle xd bytes count s
  | .arminit d a b => Sys2Proof.Machine.execArminit d a b s
  | .arrive a b => Sys2Proof.Machine.execArrive a b s
  | .await d a => Sys2Proof.Machine.execAwait d a s
  | .qfence q => Sys2Proof.Machine.execQfence q s
  | .tagset d a b => Sys2Proof.Machine.execTagset d a b s
  | .mload f a b => Sys2Proof.Machine.execMload f a b s
  | .mswap => Sys2Proof.Machine.execMswap s
  | .mmul m zero t j a => Sys2Proof.Machine.execMmul m zero t j a s
  | .mdrain f j d a b => Sys2Proof.Machine.execMdrain f j d a b s
  | .mtask d a => Sys2Proof.Machine.execMtask d a s
  | .deckTaskStart core idx => Sys2Proof.Machine.execDeckTaskStart core idx s
  | .deckTaskComplete core idx => Sys2Proof.Machine.execDeckTaskComplete core idx s
  | .ctload x slot d a => Sys2Proof.Machine.execCtload x slot d a s
  | .ctsave x slot d a => Sys2Proof.Machine.execCtsave x slot d a s
  | .encoderTableOp core => Sys2Proof.Machine.execEncoderTableOp core s
  | .kvput t d a b c => Sys2Proof.Machine.execKvput t d a b c s
  | .blockUpdate core => Sys2Proof.Machine.execBlockUpdate core s
  | .bin x d a b c => Sys2Proof.Machine.execBin x d a b c s
  | .binPerform core => Sys2Proof.Machine.execBinPerform core s
  | .spawn held d a b => Sys2Proof.Machine.execSpawn held d a b s
  | .cancel d a => Sys2Proof.Machine.execCancel d a s
  | .trap code => Sys2Proof.Machine.execTrap code s
  | .trapret => Sys2Proof.Machine.execTrapret s
  | .trapsupply a => Sys2Proof.Machine.execTrapsupply a s
  | .csrr d r => Sys2Proof.Machine.execCsrr d r s
  | .csrw src r => Sys2Proof.Machine.execCsrw src r s
  | .csrContextCommit w => Sys2Proof.Machine.execCsrContextCommit w s
  | .flsave a port => Sys2Proof.Machine.execFlsave a port s
  | .flrestore a port => Sys2Proof.Machine.execFlrestore a port s
  | .brk code => Sys2Proof.Machine.execBrk code s
  | .halt => Sys2Proof.Machine.execHalt s
  | .contextSave crew => Sys2Proof.Machine.execContextSave crew s
  | .levelAging launch => Sys2Proof.Machine.execLevelAging launch s
  | .drainReservation launch => Sys2Proof.Machine.execDrainReservation launch s
  | .crewComplete crew => Sys2Proof.Machine.execCrewComplete crew s
  | .stallHint landing peer => Sys2Proof.Machine.execStallHint landing peer s
  | .stallHintWithdraw landing peer => Sys2Proof.Machine.execStallHintWithdraw landing peer s
  | .hintReturnTimeout crew => Sys2Proof.Machine.execHintReturnTimeout crew s
  | .pageWalk core idx => Sys2Proof.Machine.execPageWalk core idx s
  | .heldFaultTimeout number => Sys2Proof.Machine.execHeldFaultTimeout number s
  | .invalidationComplete id => Sys2Proof.Machine.execInvalidationComplete id s
  | .backgroundPullSlot channel => Sys2Proof.Machine.execBackgroundPullSlot channel s
  | .refreshSlot channel => Sys2Proof.Machine.execRefreshSlot channel s
  | .scrubSlot channel => Sys2Proof.Machine.execScrubSlot channel s
  | .remapReload channel => Sys2Proof.Machine.execRemapReload channel s
  | .remoteRequest sender pa req => Sys2Proof.Machine.execRemoteRequest sender pa req s
  | .requestDeadlineExpiry req => Sys2Proof.Machine.execRequestDeadlineExpiry req s
  | .linkUp port module_ => Sys2Proof.Machine.execLinkUp port module_ s
  | .linkDown port => Sys2Proof.Machine.execLinkDown port s
  | .landingLost port => Sys2Proof.Machine.execLandingLost port s
  | .landingFailureReport port => Sys2Proof.Machine.execLandingFailureReport port s
  | .extentAdd landing offset length => Sys2Proof.Machine.execExtentAdd landing offset length s
  | .extentRelease landing offset length => Sys2Proof.Machine.execExtentRelease landing offset length s
  | .extentForcedRelease landing offset length => Sys2Proof.Machine.execExtentForcedRelease landing offset length s
  | .rdmaWrite qp rkey addr bytes => Sys2Proof.Machine.execRdmaWrite qp rkey addr bytes s
  | .rdmaRead qp rkey addr n => Sys2Proof.Machine.execRdmaRead qp rkey addr n s
  | .unsupportedFrame roce qp => Sys2Proof.Machine.execUnsupportedFrame roce qp s
  | .eventDelivery qp => Sys2Proof.Machine.execEventDelivery qp s
  | .ctxCreate hdr root stack save savesize => Sys2Proof.Machine.execCtxCreate hdr root stack save savesize s
  | .ctxDestroy hdr => Sys2Proof.Machine.execCtxDestroy hdr s
  | .ctxQuota hdr landing bytes => Sys2Proof.Machine.execCtxQuota hdr landing bytes s
  | .jobSubmit hdr job => Sys2Proof.Machine.execJobSubmit hdr job s
  | .unitCancel hdr handle => Sys2Proof.Machine.execUnitCancel hdr handle s
  | .winReg hdr va length access => Sys2Proof.Machine.execWinReg hdr va length access s
  | .winDereg hdr rkey => Sys2Proof.Machine.execWinDereg hdr rkey s
  | .tlbInval hdr va length => Sys2Proof.Machine.execTlbInval hdr va length s
  | .faultResolve hdr number answer => Sys2Proof.Machine.execFaultResolve hdr number answer s
  | .migrateArm hdr size old new => Sys2Proof.Machine.execMigrateArm hdr size old new s
  | .migrateStart hdr slot => Sys2Proof.Machine.execMigrateStart hdr slot s
  | .migrateAbort hdr slot => Sys2Proof.Machine.execMigrateAbort hdr slot s
  | .migrateRelease hdr slot => Sys2Proof.Machine.execMigrateRelease hdr slot s
  | .indexAudit hdr handle => Sys2Proof.Machine.execIndexAudit hdr handle s
  | .poolAlloc hdr size attr => Sys2Proof.Machine.execPoolAlloc hdr size attr s
  | .poolGrant hdr va length target access tmod omod => Sys2Proof.Machine.execPoolGrant hdr va length target access tmod omod s
  | .poolRevoke hdr va length target tmod omod => Sys2Proof.Machine.execPoolRevoke hdr va length target tmod omod s
  | .debugRead hdr cls lane crew warp number => Sys2Proof.Machine.execDebugRead hdr cls lane crew warp number s
  | .debugWrite hdr cls lane crew warp number value => Sys2Proof.Machine.execDebugWrite hdr cls lane crew warp number value s
  | .debugResume hdr crew warp => Sys2Proof.Machine.execDebugResume hdr crew warp s
  | .linkDrain hdr port => Sys2Proof.Machine.execLinkDrain hdr port s
  | .linkRetrain hdr port => Sys2Proof.Machine.execLinkRetrain hdr port s
  | .linkRestore hdr port => Sys2Proof.Machine.execLinkRestore hdr port s
  | .idGet hdr => Sys2Proof.Machine.execIdGet hdr s
  | .sessionChallenge hdr => Sys2Proof.Machine.execSessionChallenge hdr s
  | .nonceExpiry qp => Sys2Proof.Machine.execNonceExpiry qp s
  | .sessionOpen hdr operator rights endorsement proof => Sys2Proof.Machine.execSessionOpen hdr operator rights endorsement proof s
  | .sessionClose hdr => Sys2Proof.Machine.execSessionClose hdr s
  | .quote hdr nonce => Sys2Proof.Machine.execQuote hdr nonce s
  | .ownerSet hdr key => Sys2Proof.Machine.execOwnerSet hdr key s
  | .configApply hdr blob => Sys2Proof.Machine.execConfigApply hdr blob s
  | .resetWarm hdr retain => Sys2Proof.Machine.execResetWarm hdr retain s
  | .resetCold hdr => Sys2Proof.Machine.execResetCold hdr s
  | .health hdr => Sys2Proof.Machine.execHealth hdr s
  | .counterSet hdr cls unit counter select count => Sys2Proof.Machine.execCounterSet hdr cls unit counter select count s
  | .counterRead hdr cls unit => Sys2Proof.Machine.execCounterRead hdr cls unit s
  | .coreOffline hdr core => Sys2Proof.Machine.execCoreOffline hdr core s
  | .coreOnline hdr core => Sys2Proof.Machine.execCoreOnline hdr core s
  | .coreReset hdr core => Sys2Proof.Machine.execCoreReset hdr core s
  | .pinSet hdr cls unit frames => Sys2Proof.Machine.execPinSet hdr cls unit frames s
  | .channelRetrain hdr stack channel passed => Sys2Proof.Machine.execChannelRetrain hdr stack channel passed s
  | .repair hdr stack channel bank row => Sys2Proof.Machine.execRepair hdr stack channel bank row s
  | .logRead hdr kind from_ => Sys2Proof.Machine.execLogRead hdr kind from_ s
  | .powerSample temps coolant power => Sys2Proof.Machine.execPowerSample temps coolant power s
  | .unknownOpcode hdr opcode badHeader => Sys2Proof.Machine.execUnknownOpcode hdr opcode badHeader s
  | .sendOnNonManagementQp qp => Sys2Proof.Machine.execSendOnNonManagementQp qp s
  | .landingPoolResponse req answer => Sys2Proof.Machine.execLandingPoolResponse req answer s
  | .retiredTagReuse port tag => Sys2Proof.Machine.execRetiredTagReuse port tag s
  | .priorityFlowControlFrame prio pause => Sys2Proof.Machine.execPriorityFlowControlFrame prio pause s
  | .congestionNotificationPacket qp => Sys2Proof.Machine.execCongestionNotificationPacket qp s
  | .placementPass => Sys2Proof.Machine.execPlacementPass s
  | .deadlockWalk => Sys2Proof.Machine.execDeadlockWalk s
  | .powerOn => Sys2Proof.Machine.execPowerOn s
  | .throttleStep => Sys2Proof.Machine.execThrottleStep s
  | .throttleExit => Sys2Proof.Machine.execThrottleExit s
  | .thermalShutdown => Sys2Proof.Machine.execThermalShutdown s
  | .illegalInstruction => Sys2Proof.Machine.execIllegalInstruction s
  | .powerRemoved => Sys2Proof.Machine.execPowerRemoved s

end Sys2Proof.Machine
end

