-- ==== Sys2Proof/Machine/Place.lean ====
section
/-! DEFINITION. A program of one instruction placed where the next step fetches: a context with its page table, a launch of one
crew, and a warp of 32 lanes at the instruction (R14 to R18, R183, R407). -/

namespace Sys2Proof.Machine

open Sys2Proof

/-- Where the instruction's page stands: virtual address, frame, and the frames of the four table levels. -/
def placeVa : Nat := 0x6000
def placePa : Nat := 0x20000
def placeRoot : Nat := 0x10000

/-- The leaf of the instruction's page: read, write and fetch, home 0. -/
def placeLeaf : Nat := placePa + 0xE5

/-- The tables that map the page, and the three words. -/
def placeMemory (m : Memory) (w : Nat) : Memory :=
  let put := fun (m : Memory) (a n x : Nat) => m.write a (natToBytes n x)
  let m := put m placeRoot 8 (0x12000 + 1)
  let m := put m 0x12000 8 (0x14000 + 1)
  let m := put m 0x14000 8 (0x16000 + 1)
  let m := put m (0x16000 + 8 * (placeVa / 8192)) 8 placeLeaf
  put m placePa 12 w

/-- A lane at the instruction. -/
def placeLane (l : Nat) : Lane := { live := true, pc := BitVec.ofNat 64 (placeVa / 4), tid := l, age := 0, readyAt := 0 }

/-- The state with context 1, launch 0, crew 0 on core 0, and warp 0 at the instruction, selected for this cycle's turn. (DESIGN CHOICE: notes/assumptions/95.) -/
def State.placeWord (s : State) (_nbits w : Nat) : State :=
  let ctx : Context := {
    live := true, root := placeRoot, stack := 0, save := 0, savesize := 0, trapbase := 0, ticketlife := 1000,
    fabrictimeout := 2000, reformage := 256, tables := [], qp := 1, dying := false }
  let rec_ : LaunchRec := { (default : LaunchRec) with counters := true, crews := 1, entry := placeVa, regs := 192, warps := 1, gang := 1, scratch := 0x10000 }
  let launch : Launch := { (default : Launch) with live := true, spec := rec_, ctx := 1, next := 1, uid := 1 }
  let crew : Crew := { (default : Crew) with live := true, resident := true, ctx := 1, size := 0x10000, slots := 1 }
  let warp : Warp := { (default : Warp) with
    live := true, quota := 192, lanes := (List.range 32).map fun l => (l, placeLane l) }
  let core : Core := { s.core 0 with tlb := [{ ctx := 1, vpn := placeVa / 8192, bits := 13, pte := placeLeaf }] }
  { s with
    power := 1, agenda := [], turns := [0], issues := [], cancels := [], raised := [], mem := placeMemory s.mem w, ctxs := s.ctxs.set 1 ctx
    launches := s.launches.set 0 launch, crews := s.crews.set 0 crew, warps := s.warps.set 0 warp, cores := s.cores.set 0 core }

end Sys2Proof.Machine
end

