-- ==== Sys2Proof/Machine/Messages.lean ====
section
/-! DEFINITION. The bytes of command messages, replies and events (R433, R434, R451, R459): a SEND read as a step of the host,
and a message as its bytes. -/

namespace Sys2Proof.Machine

open Sys2Proof

/-- How a SEND on a management QP is read: as a step, or as a command whose body has a bad length or field (R433). -/
inductive Parsed where
  | step (i : Instr)
  | badBody (op : Nat)
  deriving DecidableEq, Repr

/-- A field of a message's body. -/
def bodyField (b : List Byte) (off n : Nat) : Nat := blobField b off n

/-- The session right a command needs (R452); none for a command without one. -/
def rightOf (op : Nat) : Option Nat :=
  if [0x01, 0x02, 0x03, 0x10, 0x11, 0x20, 0x21, 0x50, 0x51, 0x52].contains op then some 0
  else if [0x30, 0x31, 0x32, 0x40].contains op then some 1
  else if op = 0x60 then some 2
  else if op = 0x70 ∨ (0x80 ≤ op ∧ op ≤ 0x89) then some 3
  else if 0xA5 ≤ op ∧ op ≤ 0xA7 then some 4
  else none

/-- Bytes of a command's body (R434, R451, R459); none for an opcode that no table assigns. -/
def bodyLength (op : Nat) : Option Nat :=
  match op with
  | 0x01 => some 32 | 0x02 => some 0 | 0x03 => some 16 | 0x10 => some 16 | 0x11 => some 8
  | 0x20 => some 17 | 0x21 => some 4
  | 0x30 => some 16 | 0x31 => some 5 | 0x32 => some 24
  | 0x40 => some 8 | 0x50 => some 16 | 0x51 => some 24 | 0x52 => some 24
  | 0x60 => some 24 | 0x70 => some 8
  | 0x80 => some 0 | 0x81 => some 16 | 0x82 => some 8 | 0x83 => some 8 | 0x84 => some 8 | 0x85 => some 8 | 0x86 => some 8
  | 0x87 => some 8 | 0x88 => some 8 | 0x89 => some 8
  | 0xA0 => some 0 | 0xA1 => some 0 | 0xA2 => some 168 | 0xA3 => some 0 | 0xA4 => some 32 | 0xA5 => some 32
  | 0xA6 => some 128 | 0xA7 => some 8
  | _ => none

/-- The reserved bytes of a command's body: offset and length (R434, R451, R459). -/
def bodyReserved (op : Nat) : List (Nat × Nat) :=
  match op with
  | 0x03 => [(1, 7)] | 0x10 => [(8, 8)] | 0x32 => [(3, 5)] | 0x50 => [(12, 4)] | 0x51 => [(21, 3)] | 0x52 => [(20, 4)]
  | 0x60 => [(3, 1), (11, 5)] | 0x70 => [(2, 6)] | 0x81 => [(3, 1)] | 0x82 => [(2, 6)] | 0x83 => [(2, 6)] | 0x84 => [(2, 6)]
  | 0x85 => [(2, 6)] | 0x86 => [(2, 2)] | 0x87 => [(2, 6)] | 0x88 => [(3, 1)] | 0x89 => [(1, 3)] | 0xA2 => [(36, 4)]
  | 0xA7 => [(2, 6)] | _ => []

/-- MIGRATE's four operations (R434). -/
def parseMigrate (h : Hdr) (b : List Byte) : Option Instr :=
  let slot := bodyField b 1 1
  match bodyField b 0 1 with
  | 0 => some (.migrateArm h (bodyField b 2 1) (bodyField b 8 8) (bodyField b 16 8))
  | 1 => some (.migrateStart h slot)
  | 2 => some (.migrateAbort h slot)
  | 3 => some (.migrateRelease h slot)
  | _ => none

/-- DEBUG's three operations (R434). -/
def parseDebug (h : Hdr) (b : List Byte) : Option Instr :=
  let cls := bodyField b 1 1
  let lane := bodyField b 2 1
  let crew := bodyField b 4 4
  let warp := bodyField b 8 1
  let number := bodyField b 9 2
  match bodyField b 0 1 with
  | 0 => some (.debugRead h cls lane crew warp number)
  | 1 => some (.debugWrite h cls lane crew warp number (BitVec.ofNat 64 (bodyField b 16 8)))
  | 2 => some (.debugResume h crew warp)
  | _ => none

/-- LINK's three operations (R434). -/
def parseLink (h : Hdr) (b : List Byte) : Option Instr :=
  let port := bodyField b 1 1
  match bodyField b 0 1 with
  | 0 => some (.linkDrain h port)
  | 1 => some (.linkRetrain h port)
  | 2 => some (.linkRestore h port)
  | _ => none

/-- RESET's two kinds (R451). -/
def parseReset (h : Hdr) (b : List Byte) : Option Instr :=
  match bodyField b 0 1, bodyField b 1 1 with
  | 1, 0 => some (.resetWarm h false)
  | 1, 1 => some (.resetWarm h true)
  | 2, 0 => some (.resetCold h)
  | _, _ => none

/-- The commands of R434 from their bodies. -/
def parseHost (h : Hdr) (op : Nat) (b : List Byte) : Option Instr :=
  let f := bodyField b
  match op with
  | 0x01 => some (.ctxCreate h (f 0 8) (f 8 8) (f 16 8) (f 24 8))
  | 0x02 => some (.ctxDestroy h)
  | 0x03 => some (.ctxQuota h (f 0 1) (f 8 8))
  | 0x10 => some (.jobSubmit h (f 0 8))
  | 0x11 => some (.unitCancel h (BitVec.ofNat 64 (f 0 8)))
  | 0x20 => some (.winReg h (f 0 8) (f 8 8) (f 16 1))
  | 0x21 => some (.winDereg h (f 0 4))
  | 0x30 => some (.tlbInval h (f 0 8) (f 8 8))
  | 0x31 => some (.faultResolve h (f 0 4) (f 4 1))
  | 0x32 => parseMigrate h b
  | 0x40 => some (.indexAudit h (f 0 8))
  | 0x50 => some (.poolAlloc h (f 0 8) (BitVec.ofNat 32 (f 8 4)))
  | 0x51 => some (.poolGrant h (f 0 8) (f 8 8) (f 16 2) (f 18 1) (f 19 1) (f 20 1))
  | 0x52 => some (.poolRevoke h (f 0 8) (f 8 8) (f 16 2) (f 18 1) (f 19 1))
  | 0x60 => parseDebug h b
  | 0x70 => parseLink h b
  | _ => none

/-- The fleet and identity commands from their bodies; `passed` is what a channel's training finds. (DEDUCED: notes/assumptions/78.) -/
def parseFleet (h : Hdr) (op : Nat) (b : List Byte) (passed : Bool) : Option Instr :=
  let f := bodyField b
  match op with
  | 0x80 => some (.health h)
  | 0x81 => some (.counterSet h (f 0 1) (f 1 1) (f 2 1) (BitVec.ofNat 32 (f 4 4)) (BitVec.ofNat 64 (f 8 8)))
  | 0x82 => some (.counterRead h (f 0 1) (f 1 1))
  | 0x83 => some (.coreOffline h (f 0 2))
  | 0x84 => some (.coreOnline h (f 0 2))
  | 0x85 => some (.coreReset h (f 0 2))
  | 0x86 => some (.pinSet h (f 0 1) (f 1 1) (f 4 4))
  | 0x87 => some (.channelRetrain h (f 0 1) (f 1 1) passed)
  | 0x88 => some (.repair h (f 0 1) (f 1 1) (f 2 1) (f 4 4))
  | 0x89 => some (.logRead h (f 0 1) (f 4 4))
  | 0xA0 => some (.idGet h)
  | 0xA1 => some (.sessionChallenge h)
  | 0xA2 => some (.sessionOpen h (f 0 32) (BitVec.ofNat 32 (f 32 4)) (f 40 64) (f 104 64))
  | 0xA3 => some (.sessionClose h)
  | 0xA4 => some (.quote h (f 0 32))
  | 0xA5 => some (.ownerSet h (f 0 32))
  | 0xA6 => some (.configApply h b)
  | 0xA7 => parseReset h b
  | _ => none

/-- The header keeps its rules (R433). -/
def headerOk (m : List Byte) : Bool :=
  32 ≤ m.length && m.length ≤ 4096 && blobField m 0 4 == 0x314D4C47 && blobField m 5 1 == 0 && blobField m 6 2 + 32 == m.length
    && blobField m 17 1 < 16 && blobField m 18 14 == 0

/-- A SEND read (R433 to R435). -/
def parseMessage (qp : Nat) (m : List Byte) (passed : Bool) : Hdr × Parsed :=
  let h : Hdr := { qp := qp, tag := BitVec.ofNat 64 (blobField m 8 8), ctx := blobField m 16 2 % 4096 }
  let op := blobField m 4 1
  let b := m.drop 32
  (h, if headerOk m = false then .step (.unknownOpcode h op true)
    else
      match bodyLength op with
      | none => .step (.unknownOpcode h op false)
      | some n =>
        if b.length ≠ n ∨ (bodyReserved op).any (fun r => bodyField b r.1 r.2 != 0) then .badBody op
        else
          match (if op < 0x80 then parseHost h op b else parseFleet h op b passed) with
          | some i => .step i
          | none => .badBody op)

/-- A command refused for its body (R433, R435), unless its session lacks the right. -/
def State.refuseBody (s : State) (h : Hdr) (op : Nat) : State :=
  match rightOf op with
  | some r =>
    if r ≠ 4 ∧ s.managed h.qp = false then s.nak h.qp 1
    else if s.rights h.qp / 2 ^ r % 2 = 0 then s.reply h op 5 []
    else s.reply h op 3 []
  | none => s.reply h op 3 []

/-- A SEND arrives: the step to perform, or the state when it is refused outright (R430, R433, R448). An identity command is
served on QP 1 to 15 without a session. (DEDUCED: notes/assumptions/78.) -/
def State.receive (s : State) (qp : Nat) (m : List Byte) (passed : Bool) : State × Option Instr :=
  let op := blobField m 4 1
  let ident := 1 ≤ qp && qp ≤ 15 && headerOk m && 0xA0 ≤ op && op ≤ 0xAF
  if s.managed qp = false ∧ ident = false then (s, some (.sendOnNonManagementQp qp))
  else
    match parseMessage qp m passed with
    | (_, .step i) => (s, some i)
    | (h, .badBody op) => (s.refuseBody h op, none)

/-- A message of the command set as bytes (R433). -/
def Message.encode (m : Message) : List Byte :=
  natToBytes 4 0x314D4C47 ++ natToBytes 1 m.opcode ++ natToBytes 1 m.flags ++ natToBytes 2 m.body.length
    ++ natToBytes 8 m.tag.toNat ++ natToBytes 2 m.ctx ++ natToBytes 1 m.status ++ natToBytes 13 0 ++ m.body

end Sys2Proof.Machine
end

