-- ==== Sys2Proof/Machine/Timers.lean ====
section
/-! DEFINITION. What the machine does by itself: inputs of the outside taken up, steps of the hardware that are due, and the end
of a cycle. -/

namespace Sys2Proof.Machine

open Sys2Proof

/-! ### Inputs -/

/-- An entry of a list out. -/
def dropAt {α : Type} (l : List α) (i : Nat) : List α := l.take i ++ l.drop (i + 1)

/-- A remap entry, or its mirror, struck by an error that cannot be corrected. The controller consults the table on every row
activation, so one in the table is found before anything is served past it (R426, R427). (DESIGN CHOICE: notes/assumptions/71.) -/
def State.strikeRemap (s : State) (ch entry : Nat) (mirror : Bool) : State :=
  let c := s.chans.get ch
  let c := if mirror then { c with badMirror := c.badMirror ++ [entry] } else { c with badTable := c.badTable ++ [entry] }
  let s := { s with chans := s.chans.set ch c }
  if mirror then s else { s with agenda := .event (.remapReload ch) :: s.agenda }

/-- Bytes that others write behind a landing or on another module. -/
def State.writeOutside (s : State) (pa : Nat) (bs : List Byte) : State :=
  if isRemote pa && isRemote (pa + bs.length - 1) && s.ownAddr pa == pa then s.store pa bs else s

/-- A granule's copy in a slice struck by an error that cannot be corrected: a clean copy is fetched again, a dirty one poisons its
granule (R423, R424). -/
def State.strikeCopy (s : State) (g : Nat) : State :=
  if (s.dirty.find g).isSome && !s.badGranule g then
    (({ s with poison := s.poison.set g true }).logError 2 4 0xFFFF (homeSlice (32 * g)) (32 * g) 0).countPoisoned (32 * g)
  else s

/-- Staged bytes of a ready ticket struck by an error that cannot be corrected: its redeem finds it in the error record (R108,
R423). (DEDUCED: notes/assumptions/59.) -/
def State.strikeStaging (s : State) (key lane : Nat) : State :=
  let e := s.tickets.get key
  if e.state = 2 ∧ (e.data.find lane).isSome then
    let o := (e.parts.find? fun o => o.lane == lane).getD default
    let f : AccessFault := ⟨causeMemoryUncorrectable, o.va, e.lanesOf [o], 0⟩
    ({ s with tickets := s.tickets.set key { e with err := joinErr e.err (some f), data := e.data.del lane } }).logError 1 5 e.ctx
      (key / 4096) (Config.stagingPa key lane) o.va
  else s

/-- A transfer that another module made for a counter of this one ended early: the bytes it delivered have arrived, and the error flag
is set, in the save area where the crew is swapped out (R117, R372). -/
def State.remoteFailure (s : State) (h : DWord) (count cause : Nat) : State :=
  match (if handleModule h.toNat = s.module_ then s.handleTarget h.toNat else none) with
  | some (tok, off) => s.changeCounter tok off fun c => (c.arrive count).fail cause
  | none => s

/-- An input taken up: the state, and a step to perform. Words of programs are no steps of the outside. (DEDUCED: notes/assumptions/79.) (DESIGN CHOICE: notes/assumptions/92.) -/
def State.takeInput (s : State) (x : Input) : State × Option Instr :=
  match x with
  | .event i | .kept i => (s, if i.isWord then none else some i)
  | .evictL1 core sector => (s.setCore core { s.core core with l1 := (s.core core).l1.del sector }, none)
  | .evictWalk idx => ({ s with walkCache := dropAt s.walkCache idx }, none)
  | .copyError g => (s.strikeCopy g, none)
  | .writeBack g => ({ s with dirty := s.dirty.del g }, none)
  | .sense x => ({ s with sensors := x }, none)
  | .stagingError table entry lane => (s.strikeStaging (entryKey table entry) lane, none)
  | .counterError h count cause => (s.remoteFailure h count cause, none)
  | .evictTlb core idx => (s.setCore core { s.core core with tlb := dropAt (s.core core).tlb idx }, none)
  | .regError w reg => (s.setWarp w { s.warp w with badRegs := (s.warp w).badRegs ++ [reg] }, none)
  | .wordError word => ({ s with badWords := s.badWords.set word true }, none)
  | .weakError g => ({ s with weak := s.weak.set g true }, none)
  | .memError g => (if s.badGranule g then s else { s with poison := s.poison.set g false }, none)
  | .corrected row place => (s.countCorrected row place, none)
  | .chanFail ch => (if (s.chans.get ch).failed then s else s.failChannel ch, none)
  | .message qp bytes passed => s.receive qp bytes passed
  | .remapError ch entry mirror => (s.strikeRemap ch entry mirror, none)
  | .outside pa bytes => (s.writeOutside pa bytes, none)
  | .silence port on => ({ s with silent := if on then s.silent.set port true else s.silent.del port }, none)
  | .attach port on n => ({ s with ports := s.ports.set port { s.ports.get port with attached := on, gives := n } }, none)
  | .peer m on => ({ s with peers := if on then s.peers.set m true else s.peers.del m }, none)
  | .ungrant l g => ({ s with landings := s.landings.set l { s.landings.get l with grants := (s.landings.get l).grants.filter (· != g) } }, none)
  | .grant l g => ({ s with landings := s.landings.set l { s.landings.get l with grants := (s.landings.get l).grants ++ [g] } }, none)

/-! ### Steps that are due -/

/-- The answer of a request that its performer can give now (R92, R115, R439). (DESIGN CHOICE: notes/assumptions/12.) (DESIGN CHOICE: notes/assumptions/105.) -/
def State.requestAnswer (s : State) (id : Nat) (r : Req) : Option Instr :=
  if s.answers id r then
    match r.kind with
    | .load | .atom _ _ true => some (.memoryResponse id)
    | .store | .atom _ _ false => some (.remoteStoreAck id)
    | .ticket key => some (.ticketReady (key / 4096) (key % 4096))
    | .alloc .. | .free _ | .quota => some (.landingPoolResponse id (s.poolAnswer r))
  else none

/-- A request's deadlines (R98, R115, R439): its timeout, unless its answer is there in the same cycle (R121); its performer's
deadline. (DESIGN CHOICE: notes/assumptions/12.) (DESIGN CHOICE: notes/assumptions/105.) -/
def State.requestDue (s : State) (id : Nat) (r : Req) : Option Instr :=
  if r.deadline ≤ s.cycle then
    match s.requestAnswer id r, r.kind with
    | some i, _ => some i
    | none, .store | none, .atom _ _ false => some (.remoteStoreTimeout id (Config.answerLost id))
    | none, _ => some (.fabricTimeout id (Config.answerLost id))
  else if r.tag.isSome && !r.discarded && !Config.answerLost id && r.deadline ≤ s.cycle + 10 * Config.cyclesPerUs then
    some (.requestDeadlineExpiry id)
  else if r.open_ s && s.silent.get r.port && Config.answerLost id then
    match r.kind with
    | .alloc .. | .free _ => some (.landingPoolResponse id .timeout)
    | _ => none
  else none

/-- A waiting lane's deadline that has passed. -/
def WaitRec.due (w cycle : Nat) (r : WaitRec) : Option Instr :=
  match r.wait with
  | .sleep t => ((lanesOf r.lanes).find? fun l => t.get l ≤ cycle).map (.sleepExpiry w)
  | .maskT _ _ t => ((lanesOf r.lanes).find? fun l => t.get l ≤ cycle).map (.mwaittDeadline w)
  | _ => none

/-- A warp's steps: the write-backs of its chains, deadlines of its waits. -/
def State.warpDue (s : State) (w : Nat) (x : Warp) : Option Instr :=
  if x.live && (s.crewOf w).live && (s.crewOf w).resident then
    if (x.dueChain s.cycle 0).isSome then some (.flumeWriteback w 0)
    else if (x.dueChain s.cycle 1).isSome then some (.flumeWriteback w 1)
    else x.waits.findSome? (WaitRec.due w s.cycle)
  else none

/-- A context register whose write commits at the end of the cycle: what faults in the cycle uses the value before (R330, R343). -/
def State.csrDue (s : State) (w : Nat) (x : Warp) : Option Instr :=
  if x.live && (s.crewOf w).live && (s.crewOf w).resident && x.waits.any (fun r => match r.wait with
      | .csr .. => true
      | _ => false) then some (.csrContextCommit w)
  else none

/-- A bin's step: it is built when it is full, of age or waited for, and a slot is free (R40). -/
def State.binStep (s : State) (core bin : Nat) (b : Bin) : Option Instr :=
  if s.binDue core bin && !(s.crew b.key.crew).saving && (s.freeSlot b.key).isSome then
    if b.threads.length < 32 ∧ b.since + ((s.ctx (s.crew b.key.crew).ctx).reformage).toNat ≤ s.cycle then
      some (.reformageExpiry core bin)
    else some (.binBuildOnFreeSlot core bin)
  else none

/-- A core's own steps: bins, an offlining that is done. -/
def State.coreDue (s : State) (core : Nat) (c : Core) : Option Instr :=
  match c.bins.findSome? fun p => s.binStep core p.1 p.2 with
  | some i => some i
  | none =>
    match c.leaving with
    | h :: _ => if s.coreClear core then some (.coreOffline h core) else none
    | [] => none

/-- The walkers take a pending miss: round robin over the cores that hold one, a core's oldest (R413). -/
def State.walkStep (s : State) : Option Instr :=
  let cs := (s.cores.filter fun p => !p.2.misses.isEmpty).map (·.1)
  ((cs.find? fun c => s.sched.walkers ≤ c) <|> cs.head?).map fun c => .pageWalk c 0

/-- The encoder's step of a core as a cycle begins: an update of blocks, or a transfer of a code table. -/
def State.encoderStep (s : State) (core : Nat) (tables : Bool) : List Instr :=
  match s.headReady core 5 with
  | some e =>
    (match e.op with
      | .kvput .. => if tables then [] else [.blockUpdate core]
      | _ => if tables then [.encoderTableOp core] else [])
  | none => []

/-- The steps of a core's other engines that can go on as a cycle begins: the queues' heads and the deck's tasks. -/
def State.engineSteps (s : State) (core : Nat) (g : Engines) : List Instr :=
    ((List.range 4).filter fun q => (s.headReady core q).isSome).map (.copyPerform core)
      ++ (if (s.headReady core 6).isSome then [.bulkPerform core] else [])
      ++ (if (s.headReady core 7).isSome then [.binPerform core] else [])
      ++ ((g.deck.zip (List.range g.deck.length)).filter fun p => s.taskStarts core p.2 || s.taskGoes p.1).map fun p => .deckTaskStart core p.2

/-- The end of a deck's task. -/
def deckEnd (core : Nat) (g : Engines) : Option Instr :=
  (g.deck.findIdx? fun t => t.ended.isSome).map (.deckTaskComplete core)

/-- A ticket's read of local memory can be done (R105). -/
def readDue (key : Nat) (e : TicketEntry) : Option Instr :=
  if e.state = 1 ∧ e.reqs = [] then some (.ticketReady (key / 4096) (key % 4096)) else none

/-- A ticket entry's deadline passes (R108). -/
def State.ticketDue (s : State) (key : Nat) (e : TicketEntry) : Option Instr :=
  if s.ticketExpired key e then some (.ticketDeadline (key / 4096) (key % 4096)) else none

/-- The steps that come before a cycle's issues: updates of blocks, whose locks are taken before any other read of their entries;
answers that are there, reads of tickets, and the engines' operations, each looked at as the cycle begins; transfers of code tables
last (R121, R164, R179, R292, R325). (DESIGN CHOICE: notes/assumptions/1.) (DESIGN CHOICE: notes/assumptions/105.) -/
def State.earlySteps (s : State) : List Input :=
  let is : List Instr := s.engines.flatMap (fun (p : Nat × Engines) => s.encoderStep p.1 false)
    ++ s.reqs.filterMap (fun (p : Nat × Req) => s.requestAnswer p.1 p.2)
    ++ s.tickets.filterMap (fun (p : Nat × TicketEntry) => readDue p.1 p.2)
    ++ s.engines.flatMap (fun (p : Nat × Engines) => s.engineSteps p.1 p.2)
    ++ s.engines.flatMap (fun (p : Nat × Engines) => s.encoderStep p.1 true)
  is.map .event

/-- A crew's steps: saved when drained, ended when nothing is left, back from a hint (R340, R402). -/
def State.crewDue (s : State) (tok : Nat) (c : Crew) : Option Instr :=
  if c.live && c.saving && !c.held s.cycle && ((s.gangOf tok).filter fun t => (s.crew t).saving).all s.crewDrained then some (.contextSave tok)
  else if s.crewOver tok then some (.crewComplete tok)
  else
    match c.returnAt with
    | some t => if t ≤ s.cycle then some (.hintReturnTimeout tok) else none
    | none => none

/-- A launch's steps (R394, R398). -/
def State.launchDue (s : State) (slot : Nat) (l : Launch) : Option Instr :=
  if l.live then
    if s.ageDue slot then some (.levelAging slot)
    else if s.drainDue slot && (s.reservable slot).isSome then some (.drainReservation slot)
    else none
  else none

/-- A port's steps: its landing is lost, a retired tag may be used again (R440, R445). -/
def State.portDue (s : State) (n : Nat) (p : Port) : Option Instr :=
  match p.since with
  | some c =>
    if p.lost = false ∧ c + 100 * Config.cyclesPerUs ≤ s.cycle then some (.landingLost n)
    else (p.retired.find? fun t => t.2 ≤ s.cycle).map fun t => .retiredTagReuse n t.1
  | none => (p.retired.find? fun t => t.2 ≤ s.cycle).map fun t => .retiredTagReuse n t.1

/-- A host's step that waits may go on (R113, R421, R436). (DEDUCED: notes/assumptions/79.) -/
def State.pendingDue (s : State) (p : Instr × List Nat) : Option Instr :=
  match p.1 with
  | .ctxDestroy h => if s.ctxDrained h.ctx then some p.1 else none
  | .indexAudit .. => if p.2.any fun n => s.opsInProgress.contains n then none else some p.1
  | .winDereg _ k => if s.keyBusy k then none else some p.1
  | .rdmaWrite _ rkey addr bytes =>
    (match s.rdmaPieces rkey addr bytes.length true with
      | .ok (_, ps) => if s.rdmaHeld ps then none else some p.1
      | .error _ => some p.1)
  | .rdmaRead _ rkey addr n =>
    (match s.rdmaPieces rkey addr n false with
      | .ok (_, ps) => if s.rdmaHeld ps then none else some p.1
      | .error _ => some p.1)
  | _ => none

/-- The management core's steps (R415, R418, R451, R456, R457, R465). -/
def State.managerDue (s : State) : Option Instr :=
  (s.invals.findSome? fun p => if s.invalDone p.2 then some (.invalidationComplete p.1) else none)
    <|> (s.held.findSome? fun p => if p.2.since + heldLimit ≤ s.cycle then some (.heldFaultTimeout p.1) else none)
    <|> s.mgr.pending.findSome? s.pendingDue
    <|> (s.mgr.qps.findSome? fun p => if p.2.nonce.isSome ∧ p.2.expires ≤ s.cycle then some (.nonceExpiry p.1) else none)
    <|> (if s.sampleDue then some (.powerSample s.sensors.temps s.sensors.coolant s.sensors.watts)
      else if s.mgr.temps.any (fun t => (115 : Int) ≤ t) then some .thermalShutdown
      else if s.stepDue then some .throttleStep
      else if s.exitDue then some .throttleExit
      else none)

/-- A walk of the wait-for table comes at the end of its cycle, when every release in it is made (R343, R404, R406). (DESIGN CHOICE: notes/assumptions/106.) -/
def State.walkDue (s : State) : Option Instr :=
  if s.cycle % 80000 = 0 ∧ s.sched.walkAt ≠ s.cycle then some .deadlockWalk else none

/-- What ends at once, before anything else of its cycle: tasks of the deck, with their arrivals, and crews of which nothing is
left (R325, R406). (DESIGN CHOICE: notes/assumptions/1.) -/
def State.promptEvent (s : State) : Option Instr :=
  (s.engines.findSome? fun p => deckEnd p.1 p.2)
    <|> (s.crews.findSome? fun p => if s.crewOver p.1 then some (.crewComplete p.1) else none)

/-- The first step that is due after a cycle's issues and may change a counter, in a fixed order (R121, R154, R263, R324, R428). (DESIGN CHOICE: notes/assumptions/1.) (DESIGN CHOICE: notes/assumptions/105.) -/
def State.dueEvent (s : State) : Option Instr :=
  (s.reqs.findSome? fun p => s.requestDue p.1 p.2)
    <|> (s.warps.findSome? fun p => s.warpDue p.1 p.2)
    <|> (s.tickets.findSome? fun p => s.ticketDue p.1 p.2)
    <|> (s.cores.findSome? fun p => s.coreDue p.1 p.2)
    <|> s.walkStep

/-- The first step that is due when the waits on counters are released, in a fixed order; writes of context registers commit last
(R343, R406, R445). (DESIGN CHOICE: notes/assumptions/1.) -/
def State.lateEvent (s : State) : Option Instr :=
  (s.crews.findSome? fun p => s.crewDue p.1 p.2)
    <|> (s.launches.findSome? fun p => s.launchDue p.1 p.2)
    <|> (s.ports.findSome? fun p => s.portDue p.1 p.2)
    <|> s.managerDue
    <|> s.walkDue
    <|> (s.warps.findSome? fun p => s.csrDue p.1 p.2)

/-- Something of this cycle is still to come. -/
def State.cycleOpen (s : State) : Bool :=
  !s.turns.isEmpty || !s.issues.isEmpty || !s.cancels.isEmpty || !s.agenda.isEmpty || s.promptEvent.isSome || s.dueEvent.isSome
    || s.awaitsDone || s.lateEvent.isSome

/-! ### Which input comes when -/

/-- The step that an input asks for: an event, or a message read as a command. -/
def Input.asks : Input → Option Instr
  | .event i | .kept i => some i
  | .message qp bytes passed =>
    (match (parseMessage qp bytes passed).2 with
      | .step i => some i
      | .badBody _ => none)
  | _ => none

/-- The queue pair of a message of the command set (R430). -/
def Input.commandQp : Input → Option Nat
  | .message qp .. => some qp
  | .event i => (commandHdr i).map fun h => h.qp
  | _ => none

/-- A message or request has to wait: a command behind an RDMA request of its connection and behind a command not yet answered, an
RDMA request behind one that waits (R118, R433). (DEDUCED: notes/assumptions/79.) -/
def State.waitsBehind (s : State) (x : Input) : Option Nat :=
  match x.commandQp, x.rdma with
  | some qp, _ => if s.connectionHeld qp || s.unanswered qp || (s.lastly ++ s.cancels).any (fun y => y.commandQp == some qp) then some qp else none
  | none, some i => (rdmaQp i).bind fun qp => if s.connectionHeld qp then some qp else none
  | none, none => none

/-- One that came before and is of the same kind and queue pair waits in the inbox. -/
def State.queued (s : State) (x : Input) : Option Nat :=
  match x.commandQp, x.rdma with
  | some qp, _ => if s.inbox.any fun p => p.2.commandQp == some qp then some qp else none
  | none, some i => (rdmaQp i).bind fun qp => if s.inbox.any fun p => p.2.commandQp == none && p.1 == qp then some qp else none
  | none, none => none

/-- An input of this cycle will ask for a step that a test meets, and nothing holds it back. -/
def State.comes (s : State) (p : Instr → Bool) : Bool :=
  s.agenda.any fun x => (x.asks.any p) && (s.waitsBehind x).isNone

/-- A hardware step that gives way to a command of its cycle: a placement pass to CORE_OFFLINE, a channel's slots to the retraining or
repair of the channel (R473); an update of a block from a fabric port to the cores' updates and to those of lower ports (R179). -/
def State.givesWay (s : State) : Input → Bool
  | .event .placementPass => s.comes fun i => match i with
    | .coreOffline .. => true
    | _ => false
  | .event (.scrubSlot ch) => s.comes fun i => match i with
    | .repair _ st c .. => st * 32 + c == ch
    | .channelRetrain _ st c _ => st * 32 + c == ch
    | _ => false
  | .event (.backgroundPullSlot ch) => s.comes fun i => match i with
    | .channelRetrain _ st c _ => st * 32 + c == ch
    | _ => false
  | .event (.remoteRequest _ _ ⟨_, .update port ..⟩) => s.agenda.any fun x => match x with
    | .event (.blockUpdate _) => true
    | .event (.remoteRequest _ _ ⟨_, .update p ..⟩) => p < port
    | _ => false
  | _ => false

/-- A command on counters comes after everything else in its cycle: a fleet write after a program's, a read after the events it is to
include (R461, R473). -/
def State.comesLast (s : State) (x : Input) : Bool :=
  (match x.asks with
    | some (.counterSet ..) | some (.counterRead ..) => true
    | _ => false) && s.cycleOpen

/-- A cancel by the host comes after the crews that end and the launches that start in its cycle (R406). -/
def Input.cancels (x : Input) : Bool :=
  match x.asks with
  | some (.unitCancel ..) => true
  | _ => false

/-- A WIN_DEREG of a key waits, or is performed in this cycle: a request that arrives now is refused (R441, R445). -/
def State.keyEnds (s : State) (k : Nat) : Bool :=
  s.closing k || s.comes fun i => match i with
    | .winDereg h r => r == k && s.managed h.qp && s.rights h.qp % 2 == 1
    | _ => false

/-- What names no queue pair of the module is dropped (R429, R472). A new RDMA request is refused at once: its window is ending, or it is a 17th outstanding READ (R429, R441, R445). (PRESUMED: notes/assumptions/7.) -/
def State.turnAway (s : State) : Input → Option State
  | .message qp .. => if queuePairs ≤ qp then some s.dropFrame else none
  | .event (.rdmaWrite qp k addr _) =>
    if queuePairs ≤ qp then some s.dropFrame else if s.keyEnds k then some (s.refuseRdma qp k ⟨2, none, addr, false⟩) else none
  | .event (.rdmaRead qp k addr _) =>
    if queuePairs ≤ qp then some s.dropFrame
    else if s.keyEnds k then some (s.refuseRdma qp k ⟨2, none, addr, false⟩) else if 16 ≤ s.readsWaiting qp then some (s.nak qp 1) else none
  | _ => none

/-- An RDMA request that has to wait is known by that when it is taken again (R441). -/
def Input.keep : Input → Input
  | .event i => if (rdmaQp i).isSome then .kept i else .event i
  | x => x

/-- The report of a landing's failure in the cycle of a POOL_GRANT on that landing comes before it (R445). -/
def State.failsFirst (s : State) (x : Input) : Option Nat :=
  match x.asks with
  | some (.poolGrant _ va ..) => (landingOfVa va).bind fun l => if s.agenda.contains (.event (.landingFailureReport l)) then some l else none
  | _ => none

/-- An input taken up, in the order that simultaneous events have (R118, R433, R445, R461, R473). (DEDUCED: notes/assumptions/79.) (DESIGN CHOICE: notes/assumptions/92.) -/
def State.input (s : State) (x : Input) : State × Option Instr :=
  match s.turnAway x with
  | some s => (s, none)
  | none =>
    match s.waitsBehind x <|> s.queued x with
    | some qp => ({ s with inbox := s.inbox ++ [(qp, x.keep)] }, none)
    | none =>
      if x.cancels then ({ s with cancels := s.cancels ++ [x] }, none)
      else if s.givesWay x then ({ s with agenda := s.agenda ++ [x] }, none)
      else if s.comesLast x then ({ s with lastly := s.lastly ++ [x] }, none)
      else
        match s.failsFirst x with
        | some l => ({ s with agenda := x :: s.agenda.filter (· != .event (.landingFailureReport l)) }, some (.landingFailureReport l))
        | none => s.takeInput x

/-! ### The end of a cycle -/

/-- A stage's queue as a cycle begins: items, a warp blocked in qput on it, a warp of it blocked in qtake (R400). -/
def State.stageSnap (s : State) (tok st : Nat) : Nat × Bool × Bool :=
  let ws := s.warpsOf tok
  let waits := fun (f : WaitRec → Bool) (own : Bool) =>
    ws.any fun w => (!own || (s.warp w).stage == st) && (s.warp w).waits.any f
  ((s.crew tok).items st,
    waits (fun r => match r.wait with
      | .qput k _ _ => k == st
      | _ => false) false,
    waits (fun r => match r.wait with
      | .qtake .. => true
      | _ => false) true)

/-- Every crew's queues noted; those of a swapped-out crew stand as they were saved. -/
def State.takeSnaps (s : State) : State :=
  { s with crews := s.crews.map fun (p : Nat × Crew) =>
    if p.2.live then
      (p.1, { p.2 with snap := (List.range (s.stageCount p.1)).map fun st => (st, s.stageSnap p.1 st) })
    else p }

/-- An operation that waits for the next cycle is looked at again. -/
def EngEntry.freed (e : EngEntry) : EngEntry := if e.hold = some 0 then { e with hold := none } else e

/-- A core's engines at the start of a cycle. -/
def Engines.freed (g : Engines) : Engines :=
  let go := fun (l : List EngEntry) => l.map EngEntry.freed
  { copy := g.copy.map fun (q, l) => (q, go l), bulk := go g.bulk, enc := go g.enc, bin := go g.bin
    deck := g.deck.map fun (t : DeckTask) => if t.hold = some 0 then { t with hold := none } else t }

/-- Every engine at the start of a cycle, with fences that may open (R309). -/
def State.freeEngines (s : State) : State :=
  let s := { s with engines := s.engines.map fun (p : Nat × Engines) => (p.1, p.2.freed) }
  s.engines.foldl (fun s p => s.settleFences p.1) s

/-- A cycle in which the cores do not advance does not count for chains and trap entry (R457). (DESIGN CHOICE: notes/assumptions/8.) -/
def Warp.stalled (w : Warp) (cycle : Nat) : Warp :=
  let later := fun (c : Option Chain) => c.map fun (c : Chain) => { c with start := c.start + 1 }
  { w with
    chainA := later w.chainA, chainB := later w.chainB
    lanes := w.lanes.map fun (p : Nat × Lane) => if cycle ≤ p.2.readyAt then (p.1, { p.2 with readyAt := p.2.readyAt + 1 }) else p }

/-- The warps in a cycle of a throttled module. (DESIGN CHOICE: notes/assumptions/8.) -/
def State.stallWarps (s : State) : State :=
  if s.advances then s else { s with warps := s.warps.map fun (p : Nat × Warp) => (p.1, p.2.stalled s.cycle) }

/-- The steps that a cycle's number brings: the channels' frames and the placement pass (R395, R462). (DESIGN CHOICE: notes/assumptions/106.) -/
def State.frameSteps (s : State) : List Input :=
  let all := fun (f : Nat → Instr) => (List.range 256).map fun c => Input.event (f c)
  let k := s.cycle % 3120
  (if k = 0 then all .refreshSlot else if k = 208 then all .scrubSlot else if k = 240 then all .backgroundPullSlot else [])
    ++ (if s.cycle % 64 = 0 then [Input.event .placementPass] else [])

/-- The warps whose live lanes all wait in stagenext for registers are looked at again, the crew placed first before others,
then the lower stage (R47). (DESIGN CHOICE: notes/assumptions/116.) -/
def State.settleStages (s : State) : State :=
  let ws := (s.warps.filter fun p => p.2.live && p.2.waits.any fun r => r.wait.isStage).map (·.1)
  (sortBy (fun w => (s.crewOf w).placedAt * 256 + (s.warp w).stage) ws).foldl State.settleStage s

/-- Every core's waiting threads are filed where bins are free (R39). -/
def State.fileWaiting (s : State) : State :=
  s.cores.foldl (fun s p => if p.2.yardWait.isEmpty then s else s.refileAll p.1 p.2.yardWait.length) s

/-- The events of a cycle whose number the spec leaves to the hardware: matrix engine busy cycles, bytes that slices read from HBM,
flits of the links (R460). (DESIGN CHOICE: notes/assumptions/10.) -/
def State.countUnstated (s : State) : State :=
  let s := s.engines.foldl (fun s p => if (s.core p.1).evsel.isEmpty then s else
    (p.2.deck.filter DeckTask.running).foldl (fun s t => s.countCore p.1 t.ctx 0x000B (Config.busyCycles t.num s.cycle % 5)) s) s
  let slices := dedup (s.sliceSel.map fun (p : Nat × DWord) => p.1 / 8)
  let s := slices.foldl (fun s n => s.countSlice n 0x0102 (Config.hbmReads n s.cycle)) s
  s.ports.foldl (fun s p => if p.2.evsel.isEmpty then s else
    (s.countLink p.1 0x0201 (Config.flits p.1 0 s.cycle)).countLink p.1 0x0202 (Config.flits p.1 1 s.cycle)) s

/-- The next cycle begins (R4, R21, R22, R439). (DESIGN CHOICE: notes/assumptions/106.) -/
def State.tick (s : State) : State :=
  let s := s.settleStages.settleHints.fileWaiting.settleLinks
  let s := ({ s with cycle := s.cycle + 1 }.sendWaiting).freeEngines
  let s := s.stallWarps.takeSnaps.revokeGrants.countUnstated
  let free := (s.inbox.filter fun p => (s.waitsBehind p.2).isNone).map (·.2)
  let s := { s with inbox := s.inbox.filter fun p => (s.waitsBehind p.2).isSome }
  { s with agenda := s.earlySteps ++ free ++ s.frameSteps }.selectTurns

end Sys2Proof.Machine
end

