-- ==== Sys2Proof/Machine/Step.lean ====
section
/-! DEFINITION. One step of the machine: what stands on the agenda, else the next issue of this cycle, else what is due, else
the next cycle. -/

namespace Sys2Proof.Machine

open Sys2Proof

/-- An issue at its port (R20, R183). -/
def issueStep (s : State) (i : Issue) : Host.Outcome State Fault Refusal :=
  match s.prepare i with
  | (s, some x) => s.noteScalar x (exec x s)
  | (s, none) => .next s

/-- The step that an input asks for. -/
def askedStep : State × Option Instr → Host.Outcome State Fault Refusal
  | (s, some i) => exec i s
  | (s, none) => .next s

/-- An input of the outside. -/
def inputStep (s : State) (x : Input) : Host.Outcome State Fault Refusal := askedStep (s.input x)

/-- A module without power (R446, R456): only POWER_ON does anything. (DESIGN CHOICE: notes/assumptions/91.) -/
def offStep (s : State) : Host.Outcome State Fault Refusal :=
  match s.agenda with
  | [] => .fault .poweredOff
  | .event .powerOn :: rest => exec .powerOn { s with agenda := rest }
  | _ :: rest => .next { s with agenda := rest }

/-- A group of the cycle performed at its place, if it is still there; of a warp that issues on both ports, the traps are taken
when both are made (R23, R200, R343). -/
def groupStep (s : State) (i : Issue) : Host.Outcome State Fault Refusal :=
  if s.stillEligible i then
    if s.paired i.warp then
      match issueStep s { i with pairs := true } with
      | .next t => .next (s.afterPair t i.warp)
      | o => o
    else issueStep s i
  else .next (s.takeRaised i.warp)

/-- What comes after a cycle's issues: what is due, the waits on counters, what is due then, the commands that come last, the next
cycle. -/
def lateStep (s : State) : Host.Outcome State Fault Refusal :=
  match s.dueEvent with
  | some i => exec i s
  | none =>
    if s.awaitsDone then .next s.settleAwaits
    else
      match s.lateEvent with
      | some i => exec i s
      | none =>
        match s.lastly with
        | x :: rest => askedStep ({ s with lastly := rest }.takeInput x)
        | [] => .next s.tick

/-- A cycle's issues: exits, spawns and cancels, then the host's cancels, then the rest (R343, R406). -/
def issuesStep (s : State) : Host.Outcome State Fault Refusal :=
  match s.issues, s.cancels with
  | (_, i) :: rest, [] => groupStep { s with issues := rest } i
  | (r, i) :: rest, x :: xs =>
    if r < 2 then groupStep { s with issues := rest } i else askedStep ({ s with cancels := xs }.takeInput x)
  | [], x :: xs => askedStep ({ s with cancels := xs }.takeInput x)
  | [], [] => lateStep s

/-- A step when nothing is on the agenda: what ends at once, a launch slot that a node waits for (R388), the cycle's issues. -/
def ownStep (s : State) : Host.Outcome State Fault Refusal :=
  match s.promptEvent with
  | some i => exec i s
  | none =>
    if s.slotWaits then .next (s.progress jobFuel)
    else issuesStep (if s.turns.isEmpty then s else s.takeTurns)

/-- One step. -/
def step (s : State) : Host.Outcome State Fault Refusal :=
  if s.power = 0 then offStep s
  else
    match s.agenda with
    | x :: rest => inputStep { s with agenda := rest } x
    | [] => ownStep s

/-- The state with an instruction's words stored where the next step fetches. (DESIGN CHOICE: notes/assumptions/95.) -/
def State.withFetchWord (s : State) (nbits w : Nat) : State := s.placeWord nbits w

end Sys2Proof.Machine
end

