-- ==== Sys2Proof/Safety.lean ====
section
/-! DEFINITION. What a good state and a safe step are, and the words that claims are made of: when an issue group passes the
checks of R199, and what a lane-wise result changes and leaves. -/

namespace Sys2Proof

open Sys2Proof.Machine

/-- The memory lists its bytes in the canonical form. -/
def Good (s : State) : Prop := Memory.wf s.mem = true

/-- A step answers a next state. -/
def Goes (s : State) : Prop := ∃ t, step s = .next t

/-! ### When an instruction executes (R199) -/

/-- The words of a group pass the checks made before those of their own descriptions: every vector register below the warp's
quota (R18), no deck fault held by a status they read (R316), no source register with an error (R423). -/
def clearGroup (is : List Instr) (s : State) : Bool :=
  ((groupWords is 0 0).all fun g => !g.2.2.any (overQuota s.curWarp.quota))
    && (s.curWarp.deckFault (is.flatMap Instr.positions)).isNone
    && (groupWords is 0 0).all fun g => s.curWarp.badSources s.cur.lanes g.2.2 == 0

/-- A single instruction passes them. -/
def clear (i : Instr) (s : State) : Bool := clearGroup [i] s

/-! ### What a step leaves -/

/-- Only the issuing warp differs: every other warp, every byte of memory and every other field of the state is kept. -/
structure WarpOnly (s t : State) : Prop where
  rest : t = { s with warps := t.warps }
  other : ∀ w, w ≠ s.cur.warp → t.warp w = s.warp w
  memory : ∀ a, t.mem.get a = s.mem.get a

/-- The executing lanes stand `n` words further; no other lane and nothing else of a lane changes. -/
def Advanced (s t : State) (n : Nat) : Prop :=
  ∀ l, t.curWarp.lane l =
    if s.cur.lanes.getLsbD l then { s.curWarp.lane l with pc := (s.curWarp.lane l).pc + BitVec.ofNat 64 n }
    else s.curWarp.lane l

/-- Register `m` of lane `l` is one that a lane-wise result of `nw` words for `d` writes (R190, R191). -/
def vecWritten (d : Operand) (lanes : LaneSet) (nw m l : Nat) : Bool :=
  match d with
  | .v n => lanes.getLsbD l && decide (n ≤ m) && decide (m < n + nw)
  | _ => false

/-- Scalar register `m` is the destination `d` of a lane-wise result (R190). -/
def scaWritten (d : Operand) (lanes : LaneSet) (m : Nat) : Bool :=
  match d with
  | .s n => n == m && lanes != 0
  | _ => false

/-- The first register of a vector destination. -/
def firstReg (d : Operand) : Nat :=
  match d with
  | .v n => n
  | _ => 0

/-- The registers after a lane-wise result `f` of `nw` words for `d` (R123, R189 to R191): each executing lane of a vector
destination holds its words, a scalar destination holds the lowest executing lane's value, z nothing; every other register
is kept; a written register holds no error any more (R423). -/
structure RegsWritten (s : State) (y : Warp) (nw : Nat) (d : Operand) (f : Nat → Nat) : Prop where
  vec : ∀ m l, l < 32 → y.v m l =
    if vecWritten d s.cur.lanes nw m l then BitVec.ofNat 32 (f l / 2 ^ (32 * (m - firstReg d))) else s.curWarp.v m l
  sca : ∀ m, y.s m = if scaWritten d s.cur.lanes m then BitVec.ofNat 64 (f (leader s.cur.lanes)) else s.curWarp.s m
  bad : ∀ r, r ∈ y.badRegs ↔ r ∈ s.curWarp.badRegs
    ∧ ¬ (∃ m l, vecWritten d s.cur.lanes nw m l = true ∧ r = vkey m l) ∧ ¬ (∃ m, scaWritten d s.cur.lanes m = true ∧ r = badS m)

/-- A lane-wise result: `d` takes `f`, the executing lanes move `n` words on, and everything else is kept: the other
registers, the warp's mode, flags, trap registers, masks and waits, every other warp, all of memory, every other field. -/
structure LaneResult (s t : State) (n nw : Nat) (d : Operand) (f : Nat → Nat) : Prop where
  only : WarpOnly s t
  regs : RegsWritten s t.curWarp nw d f
  lanes : Advanced s t n
  warp : t.curWarp = { s.curWarp with
    vregs := t.curWarp.vregs, sregs := t.curWarp.sregs, badRegs := t.curWarp.badRegs, lanes := t.curWarp.lanes }

/-- Where the checks of R199 pass, the instruction completes with a lane-wise result `f` of `nw` words in `d`. -/
def LaneCompletes (i : Instr) (s : State) (nw : Nat) (d : Operand) (f : Nat → Nat) : Prop :=
  clear i s = true → ∃ t, exec i s = .next t ∧ LaneResult s t i.len nw d f

end Sys2Proof
end

