-- ==== Sys2Proof/Certificates/Slice0/Obligations.lean ====
section
/-! DEFINITION. The statements about the machine that are to be proved, from the spec's numbered rules. -/

section

open Sys2Proof Sys2Proof.Machine

/-! ### Integer instructions -/

/-- R213, one-word forms: 0x01 to 0x0D write the wrapped exact value in every executing lane and change nothing else. `x` and
`y` are the operands read as .i32, `p` and `q` their 32-bit patterns. -/
def Obligations.IntegerArithmetic : Prop :=
  ∀ (s : State) (d a b : Operand),
    let x : Nat → Int := fun l => s.intVal s.cur.warp l .i32 a
    let y : Nat → Int := fun l => s.intVal s.cur.warp l .i32 b
    let p : Nat → Nat := fun l => s.src32 s.cur.warp l a % 2 ^ 32
    let q : Nat → Nat := fun l => s.src32 s.cur.warp l b % 2 ^ 32
    let ok := fun (i : Instr) (r : Nat → Int) => LaneCompletes i s 1 d fun l => extendInt .i32 (r l)
    ok (.add d a b) (fun l => x l + y l)
      ∧ ok (.sub d a b) (fun l => x l - y l)
      ∧ ok (.mul d a b) (fun l => x l * y l)
      ∧ ok (.mulh d a b) (fun l => x l * y l / 2 ^ 32)
      ∧ ok (.mad d a b) (fun l => s.intVal s.cur.warp l .i32 d + x l * y l)
      ∧ ok (.div d a b) (fun l => if y l = 0 then -1 else (x l).tdiv (y l))
      ∧ ok (.rem d a b) (fun l => if y l = 0 then x l else x l - y l * (x l).tdiv (y l))
      ∧ ok (.min d a b) (fun l => min (x l) (y l))
      ∧ ok (.max d a b) (fun l => max (x l) (y l))
      ∧ ok (.and d a b) (fun l => (p l &&& q l : Nat))
      ∧ ok (.or d a b) (fun l => (p l ||| q l : Nat))
      ∧ ok (.xor d a b) (fun l => (p l ^^^ q l : Nat))
      ∧ ok (.not d a) (fun l => -1 - x l)

/-- R214 to R217, one-word forms: shifts by a register or an immediate, rotation, bit counts, bit fields, addition of an
immediate, and movi. `k` is the amount or field control read as .n32. -/
def Obligations.IntegerShiftsAndFields : Prop :=
  ∀ (s : State) (d a b : Operand) (n : Nat),
    let x : Nat → Int := fun l => s.intVal s.cur.warp l .i32 a
    let p : Nat → Nat := fun l => s.src32 s.cur.warp l a % 2 ^ 32
    let k : Nat → Nat := fun l => s.src32 s.cur.warp l b
    let shl := fun l (k : Nat) => if 32 ≤ k then (0 : Int) else (p l * 2 ^ k : Nat)
    let shr := fun l (k : Nat) => if 32 ≤ k then (0 : Int) else (p l / 2 ^ k : Nat)
    let sar := fun l (k : Nat) => if 32 ≤ k then (if x l < 0 then -1 else 0) else x l / 2 ^ k
    let rot : Nat → Nat → Int := fun l (k : Nat) => ((p l * 2 ^ (k % 32) + p l / 2 ^ (32 - k % 32)) % 2 ^ 32 : Nat)
    let lo := fun l => k l % 128
    let w := fun l => k l / 256 % 128
    let ok := fun (i : Instr) (r : Nat → Int) => LaneCompletes i s 1 d fun l => extendInt .i32 (r l)
    ok (.shl d a b) (fun l => shl l (k l))
      ∧ ok (.shr d a b) (fun l => shr l (k l))
      ∧ ok (.sar d a b) (fun l => sar l (k l))
      ∧ ok (.rot d a b) (fun l => rot l (k l))
      ∧ ok (.shlImm d a n) (fun l => shl l n)
      ∧ ok (.shrImm d a n) (fun l => shr l n)
      ∧ ok (.sarImm d a n) (fun l => sar l n)
      ∧ ok (.rotImm d a n) (fun l => rot l n)
      ∧ ok (.clz d a) (fun l => ((List.range 32).reverse.findIdx (p l).testBit : Nat))
      ∧ ok (.ctz d a) (fun l => ((List.range 32).findIdx (p l).testBit : Nat))
      ∧ ok (.popc d a) (fun l => ((List.range 32).countP (p l).testBit : Nat))
      ∧ ok (.bfx d a b) (fun l => if w l = 0 then 0 else signedOf (w l) (x l / 2 ^ lo l % 2 ^ w l).toNat)
      ∧ ok (.bfi d a b) (fun l =>
          let acc := s.src32 s.cur.warp l d % 2 ^ 32
          (acc / 2 ^ (lo l + w l) * 2 ^ (lo l + w l) + (x l % 2 ^ w l).toNat * 2 ^ lo l + acc % 2 ^ lo l : Nat))
      ∧ ok (.addImm d a n) (fun l => x l + signedOf 8 n)
      ∧ LaneCompletes (.movi d n) s 1 d (fun _ => wrapNat 64 (signedOf 16 n))

/-- R213 to R218: the typed form 0x1B computes every operation of R213 to R217 in any integer type, wrapped, or clamped under .sat; c is the
accumulator of mad and bfi, and the immediate forms take their immediate.
Readings and choices of the model in it: notes/assumptions/128. -/
def Obligations.IntegerTyped : Prop :=
  ∀ (s : State) (t : IntTy) (sat : Bool) (d a b c : Operand) (n : Nat),
    let x : Nat → Int := fun l => s.intVal s.cur.warp l t a
    let y : Nat → Int := fun l => s.intVal s.cur.warp l t b
    let p : Nat → Nat := fun l => s.srcBits s.cur.warp l t a % 2 ^ t.bits
    let q : Nat → Nat := fun l => s.srcBits s.cur.warp l t b % 2 ^ t.bits
    let acc : Nat → Nat := fun l => s.srcBits s.cur.warp l t c % 2 ^ t.bits
    let k : Nat → Nat := fun l => s.src32 s.cur.warp l b
    let ones : Int := if t.signed then -1 else 2 ^ t.bits - 1
    let shl := fun l (k : Nat) => if k < t.bits then x l * 2 ^ k
      else if sat then (if x l = 0 then 0 else if x l < 0 then minInt t else maxInt t) else 0
    let shr := fun l (k : Nat) => if t.bits ≤ k then (0 : Int) else (p l / 2 ^ k : Nat)
    let sar := fun l (k : Nat) => let z := signedOf t.bits (p l)
      if t.bits ≤ k then (if z < 0 then -1 else 0) else z / 2 ^ k
    let rot : Nat → Nat → Int := fun l (k : Nat) =>
      ((p l * 2 ^ (k % t.bits) + p l / 2 ^ (t.bits - k % t.bits)) % 2 ^ t.bits : Nat)
    let lo := fun l => k l % 128
    let w := fun l => k l / 256 % 128
    let field := fun l => (x l / 2 ^ lo l % 2 ^ w l).toNat
    let ok := fun (op : IntOp) (r : Nat → Int) => LaneCompletes (.intTyped op t sat d a b c) s (if t.bits = 64 then 2 else 1) d
      fun l => extendInt t (if sat then max (minInt t) (min (r l) (maxInt t)) else r l)
    (ok .add (fun l => x l + y l)
      ∧ ok .sub (fun l => x l - y l)
      ∧ ok .mul (fun l => x l * y l)
      ∧ ok .mulh (fun l => x l * y l / 2 ^ t.bits)
      ∧ ok .mad (fun l => s.intVal s.cur.warp l t c + x l * y l)
      ∧ ok .div (fun l => if y l = 0 then ones else (x l).tdiv (y l))
      ∧ ok .rem (fun l => if y l = 0 then x l else x l - y l * (x l).tdiv (y l))
      ∧ ok .min (fun l => min (x l) (y l))
      ∧ ok .max (fun l => max (x l) (y l))
      ∧ ok .and (fun l => (p l &&& q l : Nat))
      ∧ ok .or (fun l => (p l ||| q l : Nat))
      ∧ ok .xor (fun l => (p l ^^^ q l : Nat))
      ∧ ok .not (fun l => (2 ^ t.bits - 1 - p l : Nat)))
    ∧ ok .shl (fun l => shl l (k l)) ∧ ok (.shlImm n) (fun l => shl l n)
    ∧ ok .shr (fun l => shr l (k l)) ∧ ok (.shrImm n) (fun l => shr l n)
    ∧ ok .sar (fun l => sar l (k l)) ∧ ok (.sarImm n) (fun l => sar l n)
    ∧ ok .rot (fun l => rot l (k l)) ∧ ok (.rotImm n) (fun l => rot l n)
    ∧ ok .clz (fun l => ((List.range t.bits).reverse.findIdx (p l).testBit : Nat))
    ∧ ok .ctz (fun l => ((List.range t.bits).findIdx (p l).testBit : Nat))
    ∧ ok .popc (fun l => ((List.range t.bits).countP (p l).testBit : Nat))
    ∧ ok .bfx (fun l => if w l = 0 then 0 else if t.signed then signedOf (w l) (field l) else field l)
    ∧ ok .bfi (fun l => ((acc l / 2 ^ (lo l + w l) * 2 ^ (lo l + w l) + (x l % 2 ^ w l).toNat * 2 ^ lo l + acc l % 2 ^ lo l) % 2 ^ t.bits : Nat))
    ∧ ok (.addImm n) (fun l => x l + signedOf 8 n)

/-- R219 to R221: comparison to 1 or 0, selection of unchanged bits, and address arithmetic modulo 2^64.
Readings and choices of the model in it: notes/assumptions/53. -/
def Obligations.IntegerCompareSelectAddress : Prop :=
  ∀ (s : State) (d a b c : Operand),
    (∀ (t : IntTy),
      let x : Nat → Int := fun l => s.intVal s.cur.warp l t a
      let y : Nat → Int := fun l => s.intVal s.cur.warp l t b
      let ok := fun (cc : Cond) (r : Nat → Prop) => ∀ bit : Nat → Nat, (∀ l, r l → bit l = 1) → (∀ l, ¬ r l → bit l = 0) →
        LaneCompletes (.cmp cc t d a b) s 1 d bit
      ok .eq (fun l => x l = y l) ∧ ok .ne (fun l => x l ≠ y l) ∧ ok .lt (fun l => x l < y l)
        ∧ ok .le (fun l => x l ≤ y l) ∧ ok .gt (fun l => x l > y l) ∧ ok .ge (fun l => x l ≥ y l))
    ∧ (∀ (t : Option Ty) (o : Nat → Operand),
        (∀ l, o l = if s.src32 s.cur.warp l c ≠ 0 then a else b) →
        LaneCompletes (.sel t d c a b) s (if (t.map Ty.wide).getD false then 2 else 1) d fun l =>
          match t with
          | some (.int t) => extendInt t (s.intVal s.cur.warp l t (o l))
          | some (.flt t) => s.srcFlt s.cur.warp l t (o l)
          | _ => s.src32 s.cur.warp l (o l))
    ∧ (∀ (t : IntTy) (sh : Nat), LaneCompletes (.lea t sh d a b c) s 2 d fun l =>
        wrapNat 64 (s.src64 s.cur.warp l t.signed a + s.intVal s.cur.warp l t b * 2 ^ sh + s.intVal s.cur.warp l .i32 c))

/-! ### Floating point -/

/-- R144, R150, R259: every float instruction, alone or as the first of a chain, issues by opening the chain of its group on its
port; its lanes go on past the group, and wait for the write-back when the latched fpmode enables a flag. No register, flag or byte of
memory changes yet. The members' count goes to the event counters only. -/
def Sys2Proof.Part.FlumeIssue : Prop :=
  ∀ (i : Instr) (s : State), (flumeOf i).isSome = true → (∀ j ∈ s.cur.tail, (flumeOf j).isSome = true) →
    clearGroup (i :: s.cur.tail) s = true →
    let group := i :: s.cur.tail
    let c := s.openChain (group.filterMap flumeOf)
    let n := (group.map Instr.len).sum
    ∃ t, exec i s = .next t
      ∧ t.curWarp.chain s.cur.port = some c
      ∧ (∀ p, (p = 0 ↔ s.cur.port ≠ 0) → t.curWarp.chain p = s.curWarp.chain p)
      ∧ Advanced s t n
      ∧ t.curWarp.waits = (if s.curWarp.fpmode.toNat / 2 ^ 8 % 2 ^ 5 = 0 then s.curWarp.waits
          else s.curWarp.waits ++ [⟨s.cur.lanes, s.cur.pc, n, s.cur.port, .chain s.cur.port⟩])
      ∧ t.curWarp = { s.curWarp with
          chainA := t.curWarp.chainA, chainB := t.curWarp.chainB, lanes := t.curWarp.lanes, waits := t.curWarp.waits }
      ∧ (∀ w, w ≠ s.cur.warp → t.warp w = s.warp w)
      ∧ (∀ a, t.mem.get a = s.mem.get a)
      ∧ t = { s with warps := t.warps, cores := t.cores }

/-- R144, R259: what the chain of a single member latches: fpmode, the executing lanes, the cycle, the first word, and in every
executing lane the member's result words and flags, computed from the operands as they stand at issue. -/
def Sys2Proof.Part.ChainLatch : Prop :=
  ∀ (s : State) (m : FInst), (∀ d t, m.kind ≠ .quant d t) →
    let c := s.openChain [m]
    let r := fun l => m.compute s.curWarp.fpmode.toNat (m.sources.map fun p => s.srcTy s.cur.warp l p.1 p.2 none)
    c.port = s.cur.port ∧ c.lanes = s.cur.lanes ∧ c.mode = s.curWarp.fpmode.toNat % 2 ^ 13 ∧ c.start = s.cycle ∧ c.pc = s.cur.pc
      ∧ c.members.map (·.dest) = [m.d]
      ∧ ∀ l, s.cur.lanes.getLsbD l = true →
          (c.results.get l).res = m.resultWords (r l).val ∧ (c.results.get l).flags = (r l).fl

/-- Both statements above together: FlumeIssue, ChainLatch.
Readings and choices of the model in it: notes/assumptions/115. -/
def Obligations.FlumeIssue : Prop := Part.FlumeIssue ∧ Part.ChainLatch

/-- R123, R144, R230: what the write-back of a chain leaves in a warp. Every member's words stand in its destination, of one register or
two: in the chain's live lanes of a vector register, and as the lowest lane's value, zero-extended or sign-extended as the member says,
in a scalar register. The chain's flags are ORed into fpflags, and the lanes that held for it go on. Nothing else of the warp changes
but the place that held the chain. -/
def Sys2Proof.Part.Committed (x y : Warp) (c : Chain) : Prop :=
  let value := fun (m : ChainMember) (skip l : Nat) =>
    let ws := (c.results.get l).res.drop skip
    if m.words = 2 then ws.headD 0 + 2 ^ 32 * ws.tail.headD 0
    else if m.signExt then wrapNat 64 (signedOf 32 (ws.headD 0)) else ws.headD 0
  (∀ pre m post n, c.members = pre ++ m :: post → m.dest = .v n →
      (∀ k ∈ post, ∀ j, k.dest = .v j → n + m.words ≤ j ∨ j + k.words ≤ n) →
      ∀ l, c.lanes.getLsbD l = true → (x.lane l).live = true → ∀ j, j < m.words →
        y.v (n + j) l = BitVec.ofNat 32 (value m (pre.map (·.words)).sum l / 2 ^ (32 * j)))
    ∧ (∀ pre m post n, c.members = pre ++ m :: post → m.dest = .s n → (∀ k ∈ post, k.dest ≠ .s n) →
        c.lanes ≠ 0 → (x.lane (leader c.lanes)).live = true →
        y.s n = BitVec.ofNat 64 (value m (pre.map (·.words)).sum (leader c.lanes)))
    ∧ (∀ n l, l < 32 → (∀ m ∈ c.members, ∀ j, m.dest = .v j → n < j ∨ j + m.words ≤ n) → y.v n l = x.v n l)
    ∧ (∀ n l, l < 32 → ¬ (c.lanes.getLsbD l = true ∧ (x.lane l).live = true) → y.v n l = x.v n l)
    ∧ (∀ n, (∀ m ∈ c.members, m.dest ≠ .s n) → y.s n = x.s n)
    ∧ y.fpflags = x.fpflags ||| BitVec.ofNat 64 c.flags
    ∧ y.waits = x.waits.filter (fun r => r.wait != .chain c.port || r.lanes &&& c.lanes == 0)
    ∧ y = { x with
        vregs := y.vregs, sregs := y.sregs, badRegs := y.badRegs, fpflags := y.fpflags, waits := y.waits
        chainA := y.chainA, chainB := y.chainB, recA := y.recA, recB := y.recB }

/-- R123, R134, R144, R147, R150, R153: a port's chain in its write-back cycle, in the pipe or counted out in the port's record slot. Before that
cycle, and without such a chain, nothing happens. A chain that raised no enabled flag in a member that is not cancelled is committed as
`Committed` says, and its place is free. One that raised an enabled flag writes nothing: its lanes take FP_TRAP at its first word. Only
this warp changes.
Readings and choices of the model in it: notes/assumptions/18, 58. -/
def Obligations.ChainWriteback : Prop :=
  ∀ (s : State) (w port : Nat), port < 2 → s.cur.pairs = false →
    let x := s.warp w
    let due := fun (c : Chain) => c.start + (c.total + 3) / 4 + 1 ≤ s.cycle
    let traps := fun (c : Chain) (l : Nat) => c.lanes.getLsbD l = true ∧ (c.results.get l).trapMember ≠ 0
    let i := Instr.flumeWriteback w port
    let only := fun (t : State) => (∀ v, v ≠ w → t.warp v = s.warp v) ∧ t = { s with warps := t.warps }
    ((∀ c, x.chain port = some c → ¬ due c) → (∀ k, x.parked port = some k → k.counting = false ∨ ¬ due k) → exec i s = .next s)
      ∧ (∀ c, x.chain port = some c → due c → (∀ l, ¬ traps c l) → x.pendingFaults = [] →
          ∃ t, exec i s = .next t ∧ Part.Committed x (t.warp w) c ∧ (t.warp w).chain port = none
            ∧ (t.warp w).chain (1 - port) = x.chain (1 - port) ∧ (∀ p, (t.warp w).parked p = x.parked p) ∧ only t)
      ∧ (∀ k, x.parked port = some k → k.counting = true → due k → (∀ c, x.chain port = some c → ¬ due c) →
          ∃ t, exec i s = .next t ∧ Part.Committed x (t.warp w) k ∧ (t.warp w).parked port = none
            ∧ (t.warp w).parked (1 - port) = x.parked (1 - port) ∧ (∀ p, (t.warp w).chain p = x.chain p) ∧ only t)
      ∧ (∀ c, x.chain port = some c → c.port = port → due c → (∃ l, traps c l) → x.handler = none → x.chain (1 - port) = none →
          (∀ p k, x.parked p = some k → k.counting = false) → (s.ctx (s.ctxOf w)).trapbase ≠ 0 →
          ∃ t, exec i s = .next t
            ∧ (t.warp w).trapcause.toNat % 256 = 0x10 ∧ (t.warp w).chain port = none
            ∧ (∀ l, l < 32 → ((t.warp w).traplanes.getLsbD l = true ↔ traps c l))
            ∧ (t.warp w).handler = some ⟨c.lanes, (lanesOf c.lanes).map (fun l => (l, c.pc)), none, false⟩
            ∧ (t.warp w).fpflags = x.fpflags ∧ (∀ n l, (t.warp w).v n l = x.v n l) ∧ (∀ n, (t.warp w).s n = x.s n)
            ∧ only t)

/-- R127: an arithmetic operation with a NaN operand gives the canonical quiet NaN of its format, whichever operand it is and
whatever its payload. -/
def Obligations.NaNCanonical : Prop :=
  ∀ (t : FTy) (rm : Rm) (a b c : Nat) (k : Int),
    let nan := fun x => ((fmtOf t).decode x).isNan = true
    let canonical := match t with | .f32 => 0x7FC00000 | .f16 => 0x7E00 | .bf16 => 0x7FC0
    (∀ op, op = .fadd ∨ op = .fsub ∨ op = .fmul ∨ op = .fdiv → nan a ∨ nan b → (floatOp op t rm a b c k).val = canonical)
      ∧ (∀ op, op = .fsqrt ∨ op = .frsq ∨ op = .frcp ∨ op = .fexp2 ∨ op = .flog2 ∨ op = .fround ∨ op = .fscale → nan a →
          (floatOp op t rm a b c k).val = canonical)
      ∧ (nan a ∨ nan b ∨ nan c → (floatOp .ffma t rm a b c k).val = canonical)

/-! ### Lanes and masks -/

/-- R222 to R224: shuffles, broadcasts and votes among the executing lanes, with all lanes as members or with a member mask that
is one value in all of them and names each of them. -/
def Sys2Proof.Part.LaneExchange : Prop :=
  ∀ (s : State) (d a b m : Operand) (n : Nat) (kind : VoteKind),
    let w := s.cur.warp
    let lanes := s.cur.lanes
    let x : Nat → Nat := fun l => s.src32 w l a
    let from_ : Nat → Nat → Nat := fun l k => x (if lanes.getLsbD k then k else l)
    let shuffled : Nat → Nat := fun l => from_ l (s.src32 w l b % 32)
    ∀ vote : Nat,
      (match kind with
        | .all => ((∀ l, lanes.getLsbD l = true → x l ≠ 0) → vote = 1) ∧ ((∃ l, lanes.getLsbD l = true ∧ x l = 0) → vote = 0)
        | .any => ((∃ l, lanes.getLsbD l = true ∧ x l ≠ 0) → vote = 1) ∧ ((∀ l, lanes.getLsbD l = true → x l = 0) → vote = 0)
        | .ballot => vote < 2 ^ 32 ∧ ∀ l, vote.testBit l = (lanes.getLsbD l && x l != 0)
        | .eq => ((∀ l k, lanes.getLsbD l = true → lanes.getLsbD k = true → x l = x k) → vote = 1)
            ∧ ((∃ l k, lanes.getLsbD l = true ∧ lanes.getLsbD k = true ∧ x l ≠ x k) → vote = 0)) →
      LaneCompletes (.vshfl d a b) s 1 d shuffled
        ∧ LaneCompletes (.vbcast d a n) s 1 d (fun l => from_ l n)
        ∧ LaneCompletes (.vvote kind d a) s 1 d (fun _ => vote)
        ∧ ((∃ mask, ∀ l, lanes.getLsbD l = true → s.src32 w l m = mask ∧ mask.testBit l = true) →
            LaneCompletes (.vshflMasked d a b m) s 1 d shuffled
              ∧ LaneCompletes (.vbcastMasked d a n m) s 1 d (fun l => from_ l n)
              ∧ LaneCompletes (.vvoteMasked kind d a m) s 1 d (fun _ => vote))

/-- R222, R225: a member mask that differs among the executing lanes, or does not name one of them, faults with ILLEGAL_OPERAND; z is the
mask 0 in the member forms, and no mask in vred and vscan. -/
def Sys2Proof.Part.MemberMaskFaults : Prop :=
  ∀ (s : State) (i : Instr) (m : Operand),
    (∃ d a b, i = .vshflMasked d a b m) ∨ (∃ d a n, i = .vbcastMasked d a n m) ∨ (∃ k d a, i = .vvoteMasked k d a m)
      ∨ m ≠ .z ∧ ((∃ op t sat rm d a, i = .vred op t sat rm d a m) ∨ (∃ op t ex sat rm d a, i = .vscan op t ex sat rm d a m)) →
    clear i s = true →
    (∃ l k, s.cur.lanes.getLsbD l = true ∧ s.cur.lanes.getLsbD k = true
      ∧ (s.src32 s.cur.warp l m ≠ s.src32 s.cur.warp k m ∨ (s.src32 s.cur.warp l m).testBit l = false)) →
    exec i s = .next (s.issueTrap { cause := 0x02, slot := slotOfPc s.cur.pc })

/-- Both statements above together: LaneExchange, MemberMaskFaults. -/
def Obligations.LaneExchange : Prop := Part.LaneExchange ∧ Part.MemberMaskFaults

/-- R222, R225 for integer types, with all lanes as members or with a member mask that is one value in every executing lane and names
each of them: a reduction folds the lanes' values in ascending lane order, each step wrapped or saturated, and every lane takes the last
value; a scan gives each lane its own running value, under .excl the one before its step, the identity for the first. No flag is
raised. -/
def Sys2Proof.Part.IntegerReduction : Prop :=
  ∀ (s : State) (op : RedOp) (t : IntTy) (sat : Bool) (rm : RMod) (d a m : Operand) (lead : Nat) (rest : List Nat),
    lanesOf s.cur.lanes = lead :: rest →
    (m = .z ∨ ∃ mask, ∀ l, s.cur.lanes.getLsbD l = true → s.src32 s.cur.warp l m = mask ∧ mask.testBit l = true) →
    let x : Nat → Int := fun l => s.intVal s.cur.warp l t a
    let p : Int → Nat := fun v => wrapNat t.bits v
    let add : Int → Int → Int := fun u v =>
      if sat then max (minInt t) (min (u + v) (maxInt t)) else intOf t (p (u + v))
    let f : Int → Int → Int := fun u v =>
      match op with
      | .add => add u v | .min => min u v | .max => max u v
      | .and => intOf t (p u &&& p v) | .or => intOf t (p u ||| p v) | .xor => intOf t (p u ^^^ p v)
    let fold : List Nat → Int := fun ls => ls.foldl (fun acc k => f acc (x k)) (x lead)
    let identity : Int :=
      match op with
      | .add | .or | .xor => 0
      | .min => maxInt t
      | .max => minInt t
      | .and => if t.signed then -1 else 2 ^ t.bits - 1
    let words := if t.bits = 64 then 2 else 1
    LaneCompletes (.vred op (.int t) sat rm d a m) s words d (fun _ => extendInt t (fold rest))
      ∧ (∀ res : Nat → Nat, (∀ l, s.cur.lanes.getLsbD l = true → res l = extendInt t (fold (rest.takeWhile (· ≤ l)))) →
          LaneCompletes (.vscan op (.int t) false sat rm d a m) s words d res)
      ∧ (∀ res : Nat → Nat, (∀ l, s.cur.lanes.getLsbD l = true →
            res l = extendInt t (if l = lead then identity else fold (rest.takeWhile (· < l)))) →
          LaneCompletes (.vscan op (.int t) true sat rm d a m) s words d res)

/-- R27, R226: mjoin adds the executing lanes to its mask; mleave removes them, and where no instance of the mask is open by
that completed, nothing else changes. -/
def Sys2Proof.Part.MaskMembership : Prop :=
  ∀ (s : State) (k : Nat),
    let plain := fun (t : State) (m : LaneSet) =>
      WarpOnly s t ∧ Advanced s t 1
        ∧ t.curWarp.masks.get k = m ∧ (∀ j, j ≠ k → t.curWarp.masks.get j = s.curWarp.masks.get j)
        ∧ t.curWarp = { s.curWarp with masks := t.curWarp.masks, lanes := t.curWarp.lanes }
    let arrived := s.curWarp.waiting (Wait.onMask k)
    let left := s.curWarp.masks.get k &&& ~~~s.cur.lanes
    (clear (.mjoin k) s = true → ∃ t, exec (.mjoin k) s = .next t ∧ plain t (s.curWarp.masks.get k ||| s.cur.lanes))
      ∧ (clear (.mleave k) s = true → arrived = 0 ∨ left &&& ~~~arrived ≠ 0 → ∃ t, exec (.mleave k) s = .next t ∧ plain t left)

/-- R28 to R30, R226, R227: lanes that arrive on a mask whose other members have not all arrived block there, mwaitt with the deadline
of each lane; a lane that is no member faults; and the arrival of the whole mask at once releases it in the next cycle. -/
def Sys2Proof.Part.MaskWait : Prop :=
  ∀ (s : State) (k : Nat) (d a : Operand),
    let lanes := s.cur.lanes
    let members := s.curWarp.masks.get k
    let arrived := s.curWarp.waiting (Wait.onMask k) ||| lanes
    let due := (lanesOf lanes).map fun l => (l, s.cycle + s.src32 s.cur.warp l a)
    let blocks := fun (i : Instr) (x : Wait) => ∃ t, exec i s = .next t ∧ WarpOnly s t
      ∧ t.curWarp = { s.curWarp with waits := s.curWarp.waits ++ [⟨lanes, s.cur.pc, i.len, s.cur.port, x⟩] }
    let released := fun (t : State) (n : Nat) => WarpOnly s t ∧ (∀ r ∈ t.curWarp.waits, r.lanes &&& lanes = 0)
      ∧ ∀ l, t.curWarp.lane l = if lanes.getLsbD l then
          { s.curWarp.lane l with pc := s.cur.pc + BitVec.ofNat 64 n, readyAt := s.cycle + 1 } else s.curWarp.lane l
    (lanes &&& ~~~members ≠ 0 →
        (clear (.mwait k) s = true → exec (.mwait k) s = .next (s.issueTrap { cause := 0x02, slot := slotOfPc s.cur.pc }))
        ∧ (clear (.mwaitt d a k) s = true →
            exec (.mwaitt d a k) s = .next (s.issueTrap { cause := 0x02, slot := slotOfPc s.cur.pc })))
      ∧ (lanes &&& ~~~members = 0 → members &&& ~~~arrived ≠ 0 →
        (clear (.mwait k) s = true → blocks (.mwait k) (.mask k))
        ∧ (clear (.mwaitt d a k) s = true → blocks (.mwaitt d a k) (.maskT k d due)))
      ∧ (lanes = members → lanes ≠ 0 → (∀ r ∈ s.curWarp.waits, Wait.onMask k r.wait = false) →
        (clear (.mwait k) s = true → ∃ t, exec (.mwait k) s = .next t ∧ released t (Instr.mwait k).len)
        ∧ (clear (.mwaitt d a k) s = true → ∃ t, exec (.mwaitt d a k) s = .next t ∧ released t (Instr.mwaitt d a k).len
            ∧ ∀ n, d = .v n → ∀ l, lanes.getLsbD l = true → t.curWarp.v n l = 1))

/-- R27 to R29, R226, R227: the arrival that completes an instance on which other lanes wait already, and the leave of the last member
that has not arrived. Every lane that waits on the mask, by mwait or mwaitt, goes past its own wait in the next cycle, and mwaitt gives
it 1; no wait on the mask is left, and the other waits stay. -/
def Sys2Proof.Part.MaskCompletion : Prop :=
  ∀ (s : State) (k : Nat) (d a : Operand),
    let lanes := s.cur.lanes
    let x := s.curWarp
    let members := x.masks.get k
    let earlier := x.waits.filter fun r => Wait.onMask k r.wait
    let arrived := x.waiting (Wait.onMask k)
    let freed := fun (t : State) => (∀ r ∈ earlier, ∀ l, r.lanes.getLsbD l = true →
        t.curWarp.lane l = { x.lane l with pc := r.pc + BitVec.ofNat 64 r.len, readyAt := s.cycle + 1 })
      ∧ (∀ r ∈ earlier, ∀ e due n, r.wait = .maskT k e due → e = .v n → ∀ l, r.lanes.getLsbD l = true → t.curWarp.v n l = 1)
      ∧ t.curWarp.waits = x.waits.filter (fun r => !Wait.onMask k r.wait)
      ∧ (∀ l, arrived.getLsbD l = false → lanes.getLsbD l = false → t.curWarp.lane l = x.lane l)
      ∧ WarpOnly s t
    let passes := fun (t : State) (n : Nat) => ∀ l, lanes.getLsbD l = true →
      t.curWarp.lane l = { x.lane l with pc := s.cur.pc + BitVec.ofNat 64 n, readyAt := s.cycle + 1 }
    (∀ r ∈ x.waits, r.lanes ≠ 0 ∧ r.lanes &&& lanes = 0) → x.waits.Pairwise (fun r q => r.lanes &&& q.lanes = 0) → earlier ≠ [] →
      (lanes ≠ 0 → lanes &&& ~~~members = 0 → members &&& ~~~(arrived ||| lanes) = 0 →
        (clear (.mwait k) s = true → ∃ t, exec (.mwait k) s = .next t ∧ freed t ∧ passes t (Instr.mwait k).len)
          ∧ (clear (.mwaitt d a k) s = true → ∃ t, exec (.mwaitt d a k) s = .next t ∧ freed t ∧ passes t (Instr.mwaitt d a k).len
              ∧ ∀ n, d = .v n → ∀ l, lanes.getLsbD l = true → t.curWarp.v n l = 1))
      ∧ (members &&& ~~~lanes &&& ~~~arrived = 0 → clear (.mleave k) s = true →
          ∃ t, exec (.mleave k) s = .next t ∧ freed t ∧ t.curWarp.masks.get k = members &&& ~~~lanes
            ∧ ∀ l, lanes.getLsbD l = true → t.curWarp.lane l = { x.lane l with pc := (x.lane l).pc + 1 })

/-- R30: a lane whose mwaitt deadline has passed withdraws its arrival, takes 0 and goes on in the next cycle; the other lanes of its wait
stay. -/
def Sys2Proof.Part.MaskDeadline : Prop :=
  ∀ (s : State) (w l : Nat) (r : WaitRec) (k : Nat) (d : Operand) (due : FMap Nat),
    (s.warp w).waits = [r] → r.lanes.getLsbD l = true → r.wait = .maskT k d due → due.get l ≤ s.cycle →
    ∃ t, exec (.mwaittDeadline w l) s = .next t
      ∧ (t.warp w).lane l = { (s.warp w).lane l with pc := r.pc + BitVec.ofNat 64 r.len, readyAt := s.cycle + 1 }
      ∧ (∀ j, j ≠ l → (t.warp w).lane j = (s.warp w).lane j)
      ∧ (t.warp w).waits = (if r.lanes = laneBit l then [] else [{ r with lanes := r.lanes &&& ~~~laneBit l }])
      ∧ (∀ n, d = .v n → (t.warp w).v n l = 0)
      ∧ (∀ n j, j < 32 → d ≠ .v n ∨ j ≠ l → (t.warp w).v n j = (s.warp w).v n j)
      ∧ (∀ v, v ≠ w → t.warp v = s.warp v)
      ∧ t = { s with warps := t.warps }

/-- The four statements above together: MaskMembership, MaskWait, MaskCompletion, MaskDeadline. -/
def Obligations.Masks : Prop := Part.MaskMembership ∧ Part.MaskWait ∧ Part.MaskCompletion ∧ Part.MaskDeadline

/-- R222, R225 for float types, with the same members: every step of a reduction or a scan is one rounded fadd, fmin or fmax in ascending
lane order; when no step raises an enabled flag, every lane takes the last value, of a scan its own running value, and the flags are ORed
into fpflags. -/
def Sys2Proof.Part.FloatReduction : Prop :=
  ∀ (s : State) (op : RedOp) (o : FOp) (t : FTy) (rm : RMod) (d a m : Operand) (lead : Nat) (rest : List Nat),
    (op = .add ∧ o = .fadd) ∨ (op = .min ∧ o = .fmin) ∨ (op = .max ∧ o = .fmax) →
    lanesOf s.cur.lanes = lead :: rest →
    (m = .z ∨ ∃ mask, ∀ l, s.cur.lanes.getLsbD l = true → s.src32 s.cur.warp l m = mask ∧ mask.testBit l = true) →
    let x : Nat → Nat := fun l => s.srcFlt s.cur.warp l t a
    let fold := fun (ls : List Nat) => ls.foldl (fun (acc : FRes) k =>
      let y := floatOp o t (rmOf rm s.curWarp.fpmode.toNat) acc.val (x k) 0 0
      ⟨y.val, acc.fl ||| y.fl⟩) ⟨x lead, 0⟩
    let completes := fun (i : Instr) (res : Nat → Nat) => clear i s = true → ∃ u, exec i s = .next u
      ∧ WarpOnly s u ∧ Advanced s u i.len
      ∧ RegsWritten s u.curWarp 1 d res
      ∧ u.curWarp.fpflags = s.curWarp.fpflags ||| BitVec.ofNat 64 (fold rest).fl
      ∧ u.curWarp = { s.curWarp with
          vregs := u.curWarp.vregs, sregs := u.curWarp.sregs, badRegs := u.curWarp.badRegs, lanes := u.curWarp.lanes, fpflags := u.curWarp.fpflags }
    (fold rest).fl &&& (s.curWarp.fpmode.toNat / 2 ^ 8 % 2 ^ 5) = 0 →
    completes (.vred op (.flt t) false rm d a m) (fun _ => (fold rest).val)
      ∧ ∀ res : Nat → Nat, (∀ l, s.cur.lanes.getLsbD l = true → res l = (fold (rest.takeWhile (· ≤ l))).val) →
          completes (.vscan op (.flt t) false false rm d a m) res

/-- Both statements above together: IntegerReduction, FloatReduction.
Readings and choices of the model in it: notes/assumptions/57. -/
def Obligations.Reductions : Prop := Part.IntegerReduction ∧ Part.FloatReduction

/-! ### Control -/

/-- R228, R229: each executing lane of a branch, call or return goes to its own word; nothing else changes, but for the link
register of call, which takes the address of the next word. -/
def Sys2Proof.Part.BranchesCallsReturns : Prop :=
  ∀ (s : State) (c : Operand) (off : Nat),
    let lanes := s.cur.lanes
    let target := s.cur.pc + BitVec.ofInt 64 (signedOf 16 off)
    let goes := fun (i : Instr) (dest : Nat → DWord) => clear i s = true → ∃ t, exec i s = .next t ∧ WarpOnly s t
      ∧ (∀ l, t.curWarp.lane l = if lanes.getLsbD l then { s.curWarp.lane l with pc := dest l } else s.curWarp.lane l)
      ∧ t.curWarp = { s.curWarp with lanes := t.curWarp.lanes }
    let next := fun (i : Instr) => s.cur.pc + BitVec.ofNat 64 i.len
    goes (.bra off) (fun _ => target)
      ∧ goes (.brc c off) (fun l => if s.src32 s.cur.warp l c ≠ 0 then target else next (.brc c off))
      ∧ goes (.brcZ c off) (fun l => if s.src32 s.cur.warp l c = 0 then target else next (.brcZ c off))
      ∧ ((∀ l, lanes.getLsbD l = true → s.src64 s.cur.warp l false c < 2 ^ 51) →
          goes (.ret c) (fun l => BitVec.ofNat 64 (s.src64 s.cur.warp l false c)))
      ∧ (clear (.call c off) s = true → ∃ t, exec (.call c off) s = .next t ∧ WarpOnly s t
          ∧ RegsWritten s t.curWarp 2 c (fun _ => (next (.call c off)).toNat)
          ∧ (∀ l, t.curWarp.lane l = if lanes.getLsbD l then { s.curWarp.lane l with pc := target } else s.curWarp.lane l)
          ∧ t.curWarp = { s.curWarp with
              vregs := t.curWarp.vregs, sregs := t.curWarp.sregs, badRegs := t.curWarp.badRegs, lanes := t.curWarp.lanes })

/-- R229: a return address with a bit of [63:51] set in some lane faults with PROTECTION for the lanes that hold one. -/
def Sys2Proof.Part.ReturnOutOfRange : Prop :=
  ∀ (s : State) (a : Operand) (bad : LaneSet), clear (.ret a) s = true → bad ≠ 0 →
    (∀ l, bad.getLsbD l = (s.cur.lanes.getLsbD l && decide (2 ^ 51 ≤ s.src64 s.cur.warp l false a))) →
    ∃ f : Trap, exec (.ret a) s = .next (s.issueTrap f) ∧ f.cause = 0x05 ∧ f.lanes = bad ∧ f.slot = s.cur.pc.toNat % 3

/-- Both statements above together: BranchesCallsReturns, ReturnOutOfRange. -/
def Obligations.BranchesCallsReturns : Prop := Part.BranchesCallsReturns ∧ Part.ReturnOutOfRange

/-- R14, R27, R230: in a warp without a wait or an open handler, exit ends the executing threads when others stay: they are live no more
and are members of no mask; the other lanes, the registers and all of memory are kept. -/
def Sys2Proof.Part.ExitLeaves : Prop :=
  ∀ (s : State), clear .exit s = true → s.curWarp.waits = [] → s.curWarp.handler = none →
    s.curWarp.liveLanes &&& ~~~s.cur.lanes ≠ 0 →
    ∃ t, exec .exit s = .next t ∧ WarpOnly s t
      ∧ (∀ l, (t.curWarp.lane l).live = ((s.curWarp.lane l).live && !s.cur.lanes.getLsbD l))
      ∧ (∀ l, s.cur.lanes.getLsbD l = false → t.curWarp.lane l = s.curWarp.lane l)
      ∧ (∀ k, t.curWarp.masks.get k = s.curWarp.masks.get k &&& ~~~s.cur.lanes)
      ∧ t.curWarp = { s.curWarp with lanes := t.curWarp.lanes, masks := t.curWarp.masks }

/-- R14, R132, R230: the exit of a warp's last lanes ends the warp; its fpflags go to its crew; what it had pending is discarded. -/
def Sys2Proof.Part.LastExitEndsWarp : Prop :=
  ∀ (s : State), clear .exit s = true → s.curWarp.liveLanes &&& ~~~s.cur.lanes = 0 → s.curWarp.remoteErr = none →
    s.curWarp.deckFaults = [] →
    ∃ t, exec .exit s = .next t
      ∧ t.curWarp.live = false ∧ t.curWarp.pending = [] ∧ t.curWarp.chainA = none ∧ t.curWarp.chainB = none
      ∧ (t.crewOf s.cur.warp).flags = (s.crewOf s.cur.warp).flags ||| (s.curWarp.fpflags.toNat % 32)
      ∧ (∀ w, w ≠ s.cur.warp → t.warp w = s.warp w)
      ∧ (∀ a, t.mem.get a = s.mem.get a)

/-- Both statements above together: ExitLeaves, LastExitEndsWarp. -/
def Obligations.Exits : Prop := Part.ExitLeaves ∧ Part.LastExitEndsWarp

/-- R236 to R238: nop moves its lanes on and changes nothing else; yield moves them on and keeps them from the next cycle; sleep blocks each
lane until its t cycles have passed. -/
def Sys2Proof.Part.NopYieldSleep : Prop :=
  ∀ (s : State) (a : Operand),
    let lanes := s.cur.lanes
    (clear .nop s = true → ∃ t, exec .nop s = .next t ∧ WarpOnly s t ∧ Advanced s t 1
        ∧ t.curWarp = { s.curWarp with lanes := t.curWarp.lanes })
      ∧ (clear .yieldOp s = true → ∃ t, exec .yieldOp s = .next t ∧ WarpOnly s t
          ∧ (∀ l, t.curWarp.lane l = if lanes.getLsbD l then
              { s.curWarp.lane l with pc := (s.curWarp.lane l).pc + 1, readyAt := s.cycle + 2 } else s.curWarp.lane l)
          ∧ t.curWarp = { s.curWarp with lanes := t.curWarp.lanes })
      ∧ (clear (.sleep a) s = true → ∃ t, exec (.sleep a) s = .next t ∧ WarpOnly s t
          ∧ t.curWarp = { s.curWarp with waits := s.curWarp.waits ++ [⟨lanes, s.cur.pc, (Instr.sleep a).len, s.cur.port,
              .sleep ((lanesOf lanes).map fun l => (l, s.cycle + s.src32 s.cur.warp l a))⟩] })

/-- R237: a sleeping lane whose t cycles have passed goes on in the next cycle; before that nothing happens. -/
def Sys2Proof.Part.SleepExpiry : Prop :=
  ∀ (s : State) (w l : Nat) (r : WaitRec) (due : FMap Nat),
    (s.warp w).waits = [r] → r.lanes.getLsbD l = true → r.wait = .sleep due →
    (s.cycle < due.get l → exec (.sleepExpiry w l) s = .next s)
      ∧ (due.get l ≤ s.cycle → ∃ t, exec (.sleepExpiry w l) s = .next t
          ∧ (t.warp w).lane l = { (s.warp w).lane l with pc := r.pc + BitVec.ofNat 64 r.len, readyAt := s.cycle + 1 }
          ∧ (∀ j, j ≠ l → (t.warp w).lane j = (s.warp w).lane j)
          ∧ (t.warp w).waits = (if r.lanes = laneBit l then [] else [{ r with lanes := r.lanes &&& ~~~laneBit l }])
          ∧ t.warp w = { s.warp w with lanes := (t.warp w).lanes, waits := (t.warp w).waits }
          ∧ (∀ v, v ≠ w → t.warp v = s.warp v)
          ∧ t = { s with warps := t.warps })

/-- Both statements above together: NopYieldSleep, SleepExpiry. -/
def Obligations.NopYieldSleep : Prop := Part.NopYieldSleep ∧ Part.SleepExpiry

/-- The four barrier instructions (R231): whether a form acts in the gang unit, whether it blocks, its greatest count. -/
def Sys2Proof.barForms (a : Operand) (id : Nat) : List (Instr × Bool × Bool × Nat) :=
  [(.bar a id, false, true, 2048), (.barArrive a id, false, false, 2048), (.barGang a id, true, true, 16384),
    (.barGangArrive a id, true, false, 16384)]

/-- R31, R32, R231: lanes that do not reach the instance's count arrive on it one by one, opening it if none is open; the blocking forms
wait, the others go on; no other barrier, warp or byte changes. -/
def Sys2Proof.Part.BarrierArrival : Prop :=
  ∀ (s : State) (a : Operand) (id count : Nat) (i : Instr) (gang block : Bool) (most : Nat),
    (i, gang, block, most) ∈ barForms a id → clear i s = true →
    let tok := crewTok s.cur.warp
    let old := s.barrier tok gang id
    let n := laneCount s.cur.lanes
    (∀ l, s.cur.lanes.getLsbD l = true → s.src32 s.cur.warp l a = count) → 0 < n → count ≤ most →
    (old.count = 0 ∨ old.count = count) → old.arrived + n < count →
    ∃ t, exec i s = .next t
      ∧ t.barrier tok gang id = ⟨count, old.arrived + n⟩
      ∧ (∀ j, j ≠ id → t.barrier tok gang j = s.barrier tok gang j)
      ∧ t.curWarp.waits = (if block then
          s.curWarp.waits ++ (lanesOf s.cur.lanes).map (fun l => ⟨laneBit l, s.cur.pc, i.len, s.cur.port, .bar gang id⟩)
          else s.curWarp.waits)
      ∧ (if block then t.curWarp.lanes = s.curWarp.lanes else Advanced s t i.len)
      ∧ (∀ w, w ≠ s.cur.warp → t.warp w = s.warp w)
      ∧ (∀ c, c ≠ tok → t.crew c = s.crew c)
      ∧ t = { s with warps := t.warps, crews := t.crews, gangs := t.gangs }

/-- R31, R32, R34, R101: arrivals that reach the count end the instance and release every thread blocked on it, of every warp that shares
the barrier, past its own wait in the next cycle. More lanes than the instance still needs are taken in ascending order: those that
complete an instance go on with it, the rest open the next one with the same count and, in the blocking forms, wait. The forms without
a wait move all their lanes on. Nothing else of these warps, no other warp, barrier or byte changes; a gang barrier's completion empties the
L1 of the gang's cores. -/
def Sys2Proof.Part.BarrierCompletion : Prop :=
  ∀ (s : State) (a : Operand) (id count : Nat) (i : Instr) (gang block : Bool) (most : Nat),
    (i, gang, block, most) ∈ barForms a id → clear i s = true →
    let tok := crewTok s.cur.warp
    let lanes := s.cur.lanes
    let old := s.barrier tok gang id
    let n := laneCount lanes
    let sharing := s.barrierWarps tok gang
    (∀ l, lanes.getLsbD l = true → s.src32 s.cur.warp l a = count) → 0 < n → count ≤ most →
    (old.count = 0 ∨ old.count = count) → old.arrived < count → count ≤ old.arrived + n →
    s.cur.warp ∈ sharing →
    (∀ w ∈ sharing, (∀ r ∈ (s.warp w).waits, r.lanes ≠ 0) ∧ (s.warp w).waits.Pairwise (fun r q => r.lanes &&& q.lanes = 0)) →
    (∀ r ∈ s.curWarp.waits, r.lanes &&& lanes = 0) →
    let rest := (old.arrived + n) % count
    let later := (lanesOf lanes).drop (n - rest)
    let mine : WaitRec → Bool := fun r => r.wait == .bar gang id
    ∃ t, exec i s = .next t
      ∧ t.barrier tok gang id = (if rest = 0 then ⟨0, 0⟩ else ⟨count, rest⟩)
      ∧ (∀ j, j ≠ id → t.barrier tok gang j = s.barrier tok gang j)
      ∧ (∀ w ∈ sharing, ∀ r ∈ (s.warp w).waits, mine r = true → ∀ l, r.lanes.getLsbD l = true →
          (t.warp w).lane l = { (s.warp w).lane l with pc := r.pc + BitVec.ofNat 64 r.len, readyAt := s.cycle + 1 })
      ∧ (∀ l, lanes.getLsbD l = true → t.curWarp.lane l =
          if block = false then { s.curWarp.lane l with pc := (s.curWarp.lane l).pc + BitVec.ofNat 64 i.len }
          else if l ∈ later then s.curWarp.lane l
          else { s.curWarp.lane l with pc := s.cur.pc + BitVec.ofNat 64 i.len, readyAt := s.cycle + 1 })
      ∧ (∀ w ∈ sharing, ∀ l, (∀ r ∈ (s.warp w).waits, mine r = true → r.lanes.getLsbD l = false) →
          (w = s.cur.warp → lanes.getLsbD l = false) → (t.warp w).lane l = (s.warp w).lane l)
      ∧ (∀ w ∈ sharing, (t.warp w).waits = (s.warp w).waits.filter (fun r => !mine r)
          ++ (if block = true ∧ w = s.cur.warp then later.map fun l => ⟨laneBit l, s.cur.pc, i.len, s.cur.port, .bar gang id⟩ else []))
      ∧ (∀ w ∈ sharing, t.warp w = { s.warp w with lanes := (t.warp w).lanes, waits := (t.warp w).waits })
      ∧ (∀ w, w ∉ sharing → t.warp w = s.warp w)
      ∧ (∀ c, t.core c = { s.core c with l1 := (t.core c).l1 })
      ∧ (if gang then ∀ c ∈ s.gangOf tok, (t.core (s.crew c).core).l1 = [] else t.cores = s.cores)
      ∧ t = { s with warps := t.warps, crews := t.crews, gangs := t.gangs, cores := t.cores }

/-- R32, R231: counts that differ among the lanes or lie outside the range are ILLEGAL_OPERAND; a count other than the open instance's is
BARRIER_MISMATCH, whose detail names the open count and the barrier. -/
def Sys2Proof.Part.BarrierFaults : Prop :=
  ∀ (s : State) (a : Operand) (id : Nat) (i : Instr) (gang block : Bool) (most : Nat),
    (i, gang, block, most) ∈ barForms a id → clear i s = true →
    let old := s.barrier (crewTok s.cur.warp) gang id
    let count := s.lead32 a
    (s.same32 a = false ∨ count = 0 ∨ most < count → exec i s = .next (s.issueTrap { cause := 0x02, slot := slotOfPc s.cur.pc }))
      ∧ (s.same32 a = true → 0 < count → count ≤ most → old.count ≠ 0 → old.count ≠ count →
          let detail := old.count % 2 ^ 16 + id * 2 ^ 16 + (if gang then 2 ^ 20 else 0)
          exec i s = .next (s.issueTrap { cause := 0x0D, slot := slotOfPc s.cur.pc, detail := detail }))

/-- The three statements above together: BarrierArrival, BarrierCompletion, BarrierFaults. -/
def Obligations.Barriers : Prop := Part.BarrierArrival ∧ Part.BarrierCompletion ∧ Part.BarrierFaults

/-- R45, R235: qput copies an item's bytes into its queue's tail slot and qtake the head slot's bytes out, wherever the queue has room or an
item and no warp of the crew waits on a queue; `d` takes the item's sequence number; every other byte of memory is kept.
Readings and choices of the model in it: notes/assumptions/101. -/
def Obligations.QueueTransfer : Prop :=
  ∀ (s : State) (d a b : Operand),
    let tok := crewTok s.cur.warp
    let c := s.crew tok
    let off := s.lead32 b
    s.same32 b = true → off % 8 = 0 →
    (∀ w ∈ s.warpsOf tok, ∀ r ∈ (s.warp w).waits, ∀ n m d, r.wait ≠ .qput n m d ∧ r.wait ≠ .qtake m d) →
    let moved := fun (t : State) (len stage seq : Nat) (src dst : Nat) =>
      let n := (s.stageDecl tok stage).item
      t.mem = s.mem.write dst (s.mem.read src n)
        ∧ (∀ x, x < dst ∨ dst + n ≤ x → t.mem.get x = s.mem.get x)
        ∧ RegsWritten s t.curWarp 1 d (fun _ => seq % 2 ^ 32) ∧ Advanced s t len
        ∧ (∀ w, w ≠ s.cur.warp → t.warp w = s.warp w)
    let slot := fun (stage k : Nat) =>
      c.phys ((s.stageDecl tok stage).queue + k % (s.stageDecl tok stage).depth * (s.stageDecl tok stage).item)
    (∀ stage, s.same32 a = true → s.lead32 a = stage → stage < s.stageCount tok →
        off + (s.stageDecl tok stage).item ≤ c.size → c.puts.get stage - c.takes.get stage < (s.stageDecl tok stage).depth →
        clear (.qput d a b) s = true → ∃ t, exec (.qput d a b) s = .next t
          ∧ moved t (Instr.qput d a b).len stage (c.puts.get stage) (c.phys off) (slot stage (c.puts.get stage))
          ∧ (t.crew tok).puts.get stage = c.puts.get stage + 1 ∧ (t.crew tok).takes = c.takes)
      ∧ (∀ stage, s.curWarp.stage = stage → 0 < s.stageCount tok → off + (s.stageDecl tok stage).item ≤ c.size →
        c.puts.get stage - c.takes.get stage ≠ 0 → clear (.qtake d b) s = true → ∃ t, exec (.qtake d b) s = .next t
          ∧ moved t (Instr.qtake d b).len stage (c.takes.get stage) (slot stage (c.takes.get stage)) (c.phys off)
          ∧ (t.crew tok).takes.get stage = c.takes.get stage + 1 ∧ (t.crew tok).puts = c.puts)

/-- R45, R49, R234, R235: qput on a full queue, qtake on an empty one and stagenext before every live lane has reached it block the executing
lanes and change nothing else. -/
def Sys2Proof.Part.StageBlocking : Prop :=
  ∀ (s : State) (d a b : Operand),
    let tok := crewTok s.cur.warp
    let c := s.crew tok
    let blocks := fun (i : Instr) (x : Wait) => clear i s = true → ∃ t, exec i s = .next t ∧ WarpOnly s t
      ∧ t.curWarp = { s.curWarp with waits := s.curWarp.waits ++ [⟨s.cur.lanes, s.cur.pc, i.len, s.cur.port, x⟩] }
    (∀ stage, s.same32 a = true → s.same32 b = true → s.lead32 a = stage → stage < s.stageCount tok → s.lead32 b % 8 = 0 →
        s.lead32 b + (s.stageDecl tok stage).item ≤ c.size → (s.stageDecl tok stage).depth ≤ c.puts.get stage - c.takes.get stage →
        blocks (.qput d a b) (.qput stage (s.lead32 b) d))
      ∧ (s.same32 b = true → 0 < s.stageCount tok → s.lead32 b % 8 = 0 →
        s.lead32 b + (s.stageDecl tok s.curWarp.stage).item ≤ c.size →
        c.puts.get s.curWarp.stage - c.takes.get s.curWarp.stage = 0 → blocks (.qtake d b) (.qtake (s.lead32 b) d))
      ∧ (0 < s.stageCount tok → s.curWarp.liveLanes &&& ~~~(s.curWarp.waiting Wait.isStage ||| s.cur.lanes) ≠ 0 →
        blocks (.stagenext d) (.stage d))

/-- R46: once every live lane of the warp stands in stagenext and the new quota fits, the warp starts over at its stage's entry: every vector
register zero, every mask empty, each live lane at the entry word in the next cycle. Which stage and quota come next is R400's. -/
def Sys2Proof.Part.StageRestart : Prop :=
  ∀ (s : State) (d : Operand), clear (.stagenext d) s = true → s.curWarp.live = true → s.curWarp.waits = [] →
    s.cur.lanes = s.curWarp.liveLanes → s.cur.lanes ≠ 0 →
    let tok := crewTok s.cur.warp
    (s.crew tok).resident = true → 0 < s.stageCount tok →
    ∀ st q, (match s.moveTo tok s.curWarp.stage with
        | some x => st = x ∧ q = (s.crew tok).quotas.get x
        | none => st = s.curWarp.stage ∧ q = s.stayQuota tok s.curWarp.stage) →
      s.quadRoom (s.crew tok).core (s.quadrantOf s.cur.warp) q [s.cur.warp] = true →
      ∃ t, exec (.stagenext d) s = .next t
        ∧ t.curWarp.stage = st ∧ t.curWarp.quota = q ∧ t.curWarp.waits = [] ∧ (∀ k, t.curWarp.masks.get k = 0)
        ∧ (∀ n l, t.curWarp.v n l = 0)
        ∧ (∀ l, s.cur.lanes.getLsbD l = true → (t.curWarp.lane l).pc = BitVec.ofNat 64 ((s.stageDecl tok st).entry.toNat / 4)
            ∧ (t.curWarp.lane l).readyAt = s.cycle + 1 ∧ (t.curWarp.lane l).live = (s.curWarp.lane l).live)
        ∧ (∀ n, d = .s n → t.curWarp.s n = BitVec.ofNat 64 (st % 256 + q % 256 * 256))
        ∧ (∀ w, w ≠ s.cur.warp → t.warp w = s.warp w)
        ∧ (∀ a, t.mem.get a = s.mem.get a)

/-- Both statements above together: StageBlocking, StageRestart. -/
def Obligations.Stages : Prop := Part.StageBlocking ∧ Part.StageRestart

/-- R38, R39, R232: threads that reform from a warp where others stay leave it and stand in a bin of the core's sort yard in ascending lane
order: here all with one key, fewer than a warp of them, the yard empty. -/
def Sys2Proof.Part.ReformFiles : Prop :=
  ∀ (s : State) (a : Operand) (k key : Nat), clear (.reform a k) s = true → k ≤ s.curWarp.quota →
    s.curWarp.waits = [] → s.curWarp.handler = none → s.curWarp.liveLanes &&& ~~~s.cur.lanes ≠ 0 →
    (s.crewOf s.cur.warp).failed = false → s.cur.lanes ≠ 0 →
    let core := s.coreOf s.cur.warp
    (s.core core).bins = [] → (s.core core).yardWait = [] → (s.core core).evsel = [] →
    (∀ l, s.cur.lanes.getLsbD l = true → s.src32 s.cur.warp l a = key) →
    ∃ t, exec (.reform a k) s = .next t
      ∧ (∀ l, (t.curWarp.lane l).live = ((s.curWarp.lane l).live && !s.cur.lanes.getLsbD l))
      ∧ (∃ b, (t.core core).bins = [(0, b)]
          ∧ b.key = ⟨crewTok s.cur.warp, s.curWarp.stage, s.cur.pc + BitVec.ofNat 64 (Instr.reform a k).len, BitVec.ofNat 32 key, k⟩
          ∧ b.since = s.cycle
          ∧ b.threads = (lanesOf s.cur.lanes).map fun l =>
              ⟨(s.curWarp.lane l).tid, (List.range k).map fun r => (r, s.curWarp.v r l), l, s.cur.warp % 64, s.cycle⟩)
      ∧ (∀ w, w ≠ s.cur.warp → t.warp w = s.warp w)
      ∧ (∀ a, t.mem.get a = s.mem.get a)

/-- R40: a bin of full age is built into a warp in the lowest free slot of its crew: thread j of the bin stands in lane j at the bin's word
with its carried registers, s0 holds the key and s1 the count. A bin that is full or of age is built the same when a slot falls free. -/
def Sys2Proof.Part.BinBuilt : Prop :=
  ∀ (s : State) (core bin slot : Nat) (b : Bin),
    (s.core core).bins.find bin = some b → (s.core core).yardWait = [] → (s.core core).evsel = [] → b.threads.length ≤ 32 →
    b.since + ((s.ctx (s.crew b.key.crew).ctx).reformage).toNat ≤ s.cycle →
    s.freeSlot b.key = some slot →
    ∀ i, i = Instr.reformageExpiry core bin ∨ i = Instr.binBuildOnFreeSlot core bin →
    ∃ t, exec i s = .next t
      ∧ (t.core core).bins.find bin = none
      ∧ (let w := t.warp (b.key.crew * 64 + slot)
         w.live = true ∧ w.stage = b.key.stage ∧ w.quota = s.builtQuota b.key
          ∧ w.s 0 = b.key.key.setWidth 64 ∧ w.s 1 = BitVec.ofNat 64 b.threads.length
          ∧ ∀ j x, b.threads[j]? = some x →
              w.lane j = { live := true, pc := b.key.pc, tid := x.tid, age := 0, readyAt := s.cycle + 1 }
              ∧ ∀ r, r < b.key.k → w.v r j = x.regs.get r)
      ∧ (∀ w, w ≠ b.key.crew * 64 + slot → t.warp w = s.warp w)
      ∧ (∀ a, t.mem.get a = s.mem.get a)

/-- Both statements above together: ReformFiles, BinBuilt. -/
def Obligations.Reform : Prop := Part.ReformFiles ∧ Part.BinBuilt

/-! ### Loads, stores, atomics -/

/-- A loaded value by its width code (R184, R268): .i8 and .i16 sign-extended, the others zero-extended. -/
def Sys2Proof.loaded (w : Width) (x : Nat) : Nat :=
  match w with
  | .i8 => wrapNat 64 (signedOf 8 x)
  | .i16 => wrapNat 64 (signedOf 16 x)
  | _ => x

/-- The loads and stores of a space, with their offset operand if they have one. -/
def Sys2Proof.loadForms (x : Bool) (w : Width) (ord : Order) (sc : Scope) (d a b : Operand) : List (Instr × Option Operand) :=
  [(if x then .ldX w ord sc d a else .ldG w ord sc d a, none), (.ldOffset x w ord sc d a b, some b)]
def Sys2Proof.storeForms (x : Bool) (w : Width) (ord : Order) (sc : Scope) (d a b : Operand) : List (Instr × Option Operand) :=
  [(if x then .stX w ord sc d a else .stG w ord sc d a, none), (.stOffset x w ord sc d a b, some b)]

/-- R57, R264, R268, R270: a scratchpad load whose lanes are aligned, inside the crew's scratchpad space and free of errors gives each
lane the bytes at its offset, lowest first; with an acquire beyond the crew the core's L1 is emptied; nothing else changes. -/
def Sys2Proof.Part.ScratchpadLoad : Prop :=
  ∀ (s : State) (w : Width) (ord : Order) (sc : Scope) (d a b : Operand) (i : Instr) (off : Option Operand) (pa : Nat → Nat),
    (i, off) ∈ loadForms true w ord sc d a b → clear i s = true →
    let n := w.bytes
    let core := s.coreOf s.cur.warp
    (∀ l, s.cur.lanes.getLsbD l = true → s.laneVa true a off l % n = 0
      ∧ s.scratchPhys (crewTok s.cur.warp) (s.laneVa true a off l) n = some (pa l) ∧ s.badWord (pa l) n = false) →
    ∃ t, exec i s = .next t
      ∧ RegsWritten s t.curWarp (if n = 16 then 4 else if n = 8 then 2 else 1) d (fun l => loaded w (s.mem.readNat (pa l) n))
      ∧ Advanced s t i.len
      ∧ t.curWarp = { s.curWarp with
          vregs := t.curWarp.vregs, sregs := t.curWarp.sregs, badRegs := t.curWarp.badRegs, lanes := t.curWarp.lanes }
      ∧ (if ord = .acq ∧ 3 ≤ sc.code then (t.core core).l1 = [] ∧ ∀ c, c ≠ core → t.core c = s.core c else t.cores = s.cores)
      ∧ (∀ v, v ≠ s.cur.warp → t.warp v = s.warp v) ∧ (∀ x, t.mem.get x = s.mem.get x)
      ∧ t = { s with warps := t.warps, cores := t.cores }

/-- R57, R88, R268, R270: a scratchpad store writes each lane's bytes at its offset, the highest lane last; no other byte and no register
changes. -/
def Sys2Proof.Part.ScratchpadStore : Prop :=
  ∀ (s : State) (w : Width) (ord : Order) (sc : Scope) (d a b : Operand) (i : Instr) (off : Option Operand) (pa : Nat → Nat),
    (i, off) ∈ storeForms true w ord sc d a b → clear i s = true → Good s →
    let n := w.bytes
    let data := fun l => if n = 16 then s.src128 s.cur.warp l d else if n = 8 then s.src64 s.cur.warp l false d else s.src32 s.cur.warp l d
    (∀ l, s.cur.lanes.getLsbD l = true → s.laneVa true a off l % n = 0
      ∧ s.scratchPhys (crewTok s.cur.warp) (s.laneVa true a off l) n = some (pa l)) →
    ord ≠ .rel ∨ sc.code < 5 ∨ s.outstanding s.cur.warp = 0 ∧ s.curWarp.remoteErr = none →
    ∃ t, exec i s = .next t
      ∧ (∀ x, (∀ l, s.cur.lanes.getLsbD l = true → x < pa l ∨ pa l + n ≤ x) → t.mem.get x = s.mem.get x)
      ∧ (∀ l, s.cur.lanes.getLsbD l = true →
          (∀ k, s.cur.lanes.getLsbD k = true → l < k → pa k + n ≤ pa l ∨ pa l + n ≤ pa k) → t.mem.read (pa l) n = natToBytes n (data l))
      ∧ Advanced s t i.len ∧ t.curWarp = { s.curWarp with lanes := t.curWarp.lanes }
      ∧ (∀ v, v ≠ s.cur.warp → t.warp v = s.warp v)
      ∧ t = { s with warps := t.warps, mem := t.mem, badWords := t.badWords }

/-- Both statements above together: ScratchpadLoad, ScratchpadStore.
Readings and choices of the model in it: notes/assumptions/4. -/
def Obligations.ScratchpadAccess : Prop := Part.ScratchpadLoad ∧ Part.ScratchpadStore

/-- A part of an access that its home here serves at once: it stays on the module, and the lines of a migrating page that it touches are there
(R81, R421). -/
def Sys2Proof.servedHere (s : State) (p : Part) : Prop :=
  isRemote p.x.pa = false ∧ (p.x.mig = true → ∀ k, s.migOf p.x.pa = some k → ∀ l ∈ (s.migs.get k).linesOf p.x.pa p.size,
    l ∈ (s.migs.get k).pulled ∧ (s.migs.get k).failed.find l = none)

/-- An access of these parts orders beyond its core as an acquire or a release (R89, R90, R93): its scope is wide enough, and a page of it is
strong, or the modifier stands and a page of it is not unordered. -/
def Sys2Proof.ordersFar (modifier : Prop) (sc : Scope) (least : Nat) (parts : List Part) : Prop :=
  least ≤ sc.code ∧ ∃ p ∈ parts, p.x.order = 1 ∨ modifier ∧ p.x.order ≠ 2

/-- R64, R66, R81, R89, R267, R268, R270: a global load whose requests all translate to pages of this module, whose slices answer at once, with no error, gives each lane the bytes
of memory at its physical address, or those that its core's L1 holds of a page with home 0; an acquire beyond the crew reads memory. Memory and all
but the warp, the L1 and the event counters are kept. -/
def Sys2Proof.Part.GlobalLoad : Prop :=
  ∀ (s : State) (w : Width) (ord : Order) (sc : Scope) (d a b : Operand) (i : Instr) (off : Option Operand) (parts : List Part),
    (i, off) ∈ loadForms false w ord sc d a b → clear i s = true →
    let n := w.bytes
    let ops := s.laneOps false a off (fun _ => 0) fun _ => 0
    (∀ o ∈ ops, o.va % n = 0 ∧ o.va < 2 ^ 53) → s.reach .read n ops = .ok parts → s.silent.get 16 = false →
    (∀ p ∈ parts, servedHere s p ∧ ∀ o ∈ p.ops, s.readBad o.pa n = false) →
    let l1 := (s.core (s.coreOf s.cur.warp)).l1
    let acquires := ordersFar (ord = .acq) sc 3 parts
    ∃ t val, exec i s = .next t
      ∧ (∀ p ∈ parts, ∀ o ∈ p.ops, val o.lane = loaded w (bytesToNat (s.readPhys o.pa n))
          ∨ ¬ acquires ∧ p.x.home = 0 ∧ ∃ bs, l1.find (o.pa / 16) = some bs ∧ val o.lane = loaded w (bytesToNat ((bs.drop (o.pa % 16)).take n)))
      ∧ RegsWritten s t.curWarp (if n = 16 then 4 else if n = 8 then 2 else 1) d val
      ∧ Advanced s t i.len
      ∧ (∀ v, v ≠ s.cur.warp → t.warp v = s.warp v) ∧ (∀ x, t.mem.get x = s.mem.get x)
      ∧ t = { s with warps := t.warps, cores := t.cores, sliceCount := t.sliceCount }

/-- R68, R81, R88, R97, R268, R270: a global store that is no release with remote stores to wait for, whose requests all translate to pages of this module with a working
channel, writes each lane's bytes at its physical address, the last of its accesses last; no other byte and no register changes. -/
def Sys2Proof.Part.GlobalStore : Prop :=
  ∀ (s : State) (w : Width) (ord : Order) (sc : Scope) (d a b : Operand) (i : Instr) (off : Option Operand) (parts : List Part),
    (i, off) ∈ storeForms false w ord sc d a b → clear i s = true → Good s →
    let n := w.bytes
    let data := fun l => if n = 16 then s.src128 s.cur.warp l d else if n = 8 then s.src64 s.cur.warp l false d else s.src32 s.cur.warp l d
    let ops := s.laneOps false a off data fun _ => 0
    (∀ o ∈ ops, o.va % n = 0 ∧ o.va < 2 ^ 53) → s.reach .write n ops = .ok parts →
    (∀ p ∈ parts, servedHere s p ∧ ∀ o ∈ p.ops, o.pa < 0x4_0000_0000_0000 ∧ s.chanFailed o.pa = false) →
    (ordersFar (ord = .rel) sc 5 parts → s.outstanding s.cur.warp = 0 ∧ s.curWarp.remoteErr = none) →
    let stored := parts.flatMap (·.ops)
    ∃ t, exec i s = .next t
      ∧ (∀ x, (∀ o ∈ stored, x < o.pa ∨ o.pa + n ≤ x) → t.mem.get x = s.mem.get x)
      ∧ (∀ pre o post, stored = pre ++ o :: post → (∀ q ∈ post, q.pa + n ≤ o.pa ∨ o.pa + n ≤ q.pa) →
          t.mem.read o.pa n = natToBytes n (data o.lane))
      ∧ Advanced s t i.len ∧ (∀ m l, t.curWarp.v m l = s.curWarp.v m l) ∧ (∀ m, t.curWarp.s m = s.curWarp.s m)
      ∧ (∀ v, v ≠ s.cur.warp → t.warp v = s.warp v)

/-- A request of a context bears the limit of its fabrictimeout, in microseconds of 800 cycles, and is discarded where it arrives if it leaves
with no more than the 10 of them that its way takes (R98, R439). -/
def Sys2Proof.limited (s : State) (ctx : Nat) (r : Req) : Prop :=
  let limit := (s.ctx ctx).fabrictimeout.toNat
  r.deadline = s.cycle + limit * 800 ∧ (r.discarded = true ↔ r.tag ≠ none ∧ limit ≤ 10)

/-- R72, R97, R270, R271, R439: a global access all of whose requests leave the module by ports that carry them: each becomes a request of its bytes, warp and
lanes. A load's lanes wait for the responses, and a store's go on at once, while the warp has room for them under its counter. A load of this
module's pages whose slices answer late waits in the same way, its requests numbered with port 16. No byte of memory changes yet. -/
def Sys2Proof.Part.RemoteAccess : Prop :=
  ∀ (s : State) (w : Width) (ord : Order) (sc : Scope) (d a b : Operand) (off : Option Operand) (parts : List Part),
    let n := w.bytes
    let data := fun l => if n = 16 then s.src128 s.cur.warp l d else if n = 8 then s.src64 s.cur.warp l false d else s.src32 s.cur.warp l d
    let leaves := fun (acc : Access) (ops : List LaneOp) => (∀ o ∈ ops, o.va % n = 0 ∧ o.va < 2 ^ 53) ∧ s.reach acc n ops = .ok parts
      ∧ parts ≠ [] ∧ ∀ p ∈ parts, isRemote p.x.pa = true ∧ p.x.mig = false ∧ s.carrier p.x.pa ≠ none
        ∨ acc = .read ∧ s.silent.get 16 = true ∧ servedHere s p
    let sent := fun (t : State) (kind : ReqKind) => t.nextReq = s.nextReq + parts.length
      ∧ (∀ k p, parts[k]? = some p → ∃ r, t.reqs.find (s.nextReq + k) = some r ∧ r.kind = kind ∧ r.warp = s.cur.warp
          ∧ r.ctx = s.ctxOf s.cur.warp ∧ r.pa = p.x.pa ∧ r.size = p.size ∧ r.bytes = n ∧ r.ops = p.ops
          ∧ if isRemote p.x.pa then limited s (s.ctxOf s.cur.warp) r else r.port = 16 ∧ r.tag = some 0 ∧ r.discarded = false)
      ∧ (∀ v, v ≠ s.cur.warp → t.warp v = s.warp v) ∧ ∀ x, t.mem.get x = s.mem.get x
    (∀ i, (i, off) ∈ loadForms false w ord sc d a b → clear i s = true → leaves .read (s.laneOps false a off (fun _ => 0) fun _ => 0) →
        (∀ p ∈ parts, p.x.home ≠ 0 ∨ ∃ o ∈ p.ops, (s.core (s.coreOf s.cur.warp)).l1.find (o.pa / 16) = none) →
        ∃ t m, exec i s = .next t ∧ sent t .load
          ∧ t.curWarp.waits = s.curWarp.waits ++ [⟨s.cur.lanes, s.cur.pc, i.len, s.cur.port, .mem m⟩]
          ∧ m.reqs = (List.range parts.length).map (s.nextReq + ·) ∧ m.d = d ∧ m.width = w ∧ m.bytes = n ∧ m.atomic = false ∧ m.ext = none
          ∧ m.got = [] ∧ m.faults = [] ∧ (∀ k l, t.curWarp.v k l = s.curWarp.v k l) ∧ ∀ k, t.curWarp.s k = s.curWarp.s k)
      ∧ (∀ i, (i, off) ∈ storeForms false w ord sc d a b → clear i s = true → leaves .write (s.laneOps false a off data fun _ => 0) →
        (ordersFar (ord = .rel) sc 5 parts → s.outstanding s.cur.warp = 0 ∧ s.curWarp.remoteErr = none) →
        s.outstanding s.cur.warp + parts.length ≤ 256 →
        ∃ t, exec i s = .next t ∧ sent t .store ∧ Advanced s t i.len ∧ (∀ k l, t.curWarp.v k l = s.curWarp.v k l)
          ∧ ∀ k, t.curWarp.s k = s.curWarp.s k)

/-- The three statements above together: GlobalLoad, GlobalStore, RemoteAccess.
Readings and choices of the model in it: notes/assumptions/4, 5, 115. -/
def Obligations.GlobalAccess : Prop := Part.GlobalLoad ∧ Part.GlobalStore ∧ Part.RemoteAccess

/-- R54, R57, R266, R267: the checks of a memory access come in this order: alignment, then the range of the space; a fault names every lane that
fails the check and their lowest address, and nothing is committed.
Readings and choices of the model in it: notes/assumptions/23. -/
def Obligations.AddressFaults : Prop :=
  ∀ (s : State) (x : Bool) (w : Width) (ord : Order) (sc : Scope) (d a b : Operand) (i : Instr) (off : Option Operand)
      (lanes : LaneSet) (low : Nat),
    (i, off) ∈ loadForms x w ord sc d a b ∨ (i, off) ∈ storeForms x w ord sc d a b → clear i s = true →
    let va := s.laneVa x a off
    let fails := fun (bad : Nat → Prop) =>
      (∀ l, lanes.getLsbD l = true ↔ s.cur.lanes.getLsbD l = true ∧ bad l) ∧ (∃ l, lanes.getLsbD l = true ∧ va l = low)
        ∧ ∀ l, lanes.getLsbD l = true → low ≤ va l
    let faults := fun (cause : Nat) => ∃ f : Trap, exec i s = .next (s.issueTrap f) ∧ f.cause = cause ∧ f.lanes = lanes
      ∧ f.addr = BitVec.ofNat 64 low ∧ f.slot = s.cur.pc.toNat % 3 ∧ f.deferred = false ∧ f.part = false
    (fails (fun l => va l % w.bytes ≠ 0) → faults 0x03)
      ∧ ((∀ l, s.cur.lanes.getLsbD l = true → va l % w.bytes = 0) →
          (x = false → fails (fun l => 2 ^ 53 ≤ va l) → faults 0x05)
          ∧ (x = true → fails (fun l => s.scratchPhys (crewTok s.cur.warp) (va l) w.bytes = none) → faults 0x07))

/-- R412, R413: an aligned, in-range global load of lanes in one 128-byte segment that the TLB does not hold, and for which no walk has found a
fault, waits for a walk: the miss is noted on the core, once for each page, and no register or byte changes. -/
def Sys2Proof.Part.TranslationMiss : Prop :=
  ∀ (s : State) (w : Width) (ord : Order) (sc : Scope) (d a b : Operand) (i : Instr) (off : Option Operand) (va : Nat),
    (i, off) ∈ loadForms false w ord sc d a b → clear i s = true →
    let core := s.coreOf s.cur.warp
    let ctx := s.ctxOf s.cur.warp
    s.cur.lanes ≠ 0 → (∀ l, s.cur.lanes.getLsbD l = true → s.laneVa false a off l = va) → va % w.bytes = 0 → va < 2 ^ 53 →
    (∀ u : Nat, u / 128 = va / 128 → ∀ e ∈ (s.core core).tlb, e.covers ctx u = false) → s.curWarp.walkFaults = [] →
    (s.core core).misses = [] →
    ∃ t, exec i s = .next t
      ∧ t.curWarp = { s.curWarp with waits := s.curWarp.waits ++ [⟨s.cur.lanes, s.cur.pc, i.len, s.cur.port, .tlb [va / 8192]⟩] }
      ∧ (t.core core).misses = [⟨ctx, va / 8192, 1, va⟩]
      ∧ (∀ v, v ≠ s.cur.warp → t.warp v = s.warp v) ∧ (∀ x, t.mem.get x = s.mem.get x)
      ∧ t = { s with warps := t.warps, cores := t.cores }

/-- R96, R97, R272, R276: prf changes no register and no byte and moves its lanes on; a fence at warp or crew scope does nothing more; a wider
one waits while remote stores are outstanding, and else empties the core's L1.
Readings and choices of the model in it: notes/assumptions/4, 5. -/
def Obligations.PrefetchAndFence : Prop :=
  ∀ (s : State) (w : Width) (a : Operand) (sc : Scope),
    (clear (.prf w a) s = true → ∃ t, exec (.prf w a) s = .next t ∧ Advanced s t (Instr.prf w a).len
        ∧ t.curWarp = { s.curWarp with lanes := t.curWarp.lanes }
        ∧ (∀ v, v ≠ s.cur.warp → t.warp v = s.warp v) ∧ (∀ x, t.mem.get x = s.mem.get x)
        ∧ t = { s with warps := t.warps, cores := t.cores })
      ∧ (clear (.fence sc) s = true → sc.code < 3 → ∃ t, exec (.fence sc) s = .next t ∧ WarpOnly s t ∧ Advanced s t 1
          ∧ t.curWarp = { s.curWarp with lanes := t.curWarp.lanes })
      ∧ (clear (.fence sc) s = true → 3 ≤ sc.code → s.outstanding s.cur.warp = 0 → s.curWarp.remoteErr = none →
          ∃ t, exec (.fence sc) s = .next t ∧ Advanced s t 1 ∧ (t.core (s.coreOf s.cur.warp)).l1 = []
            ∧ t.curWarp = { s.curWarp with lanes := t.curWarp.lanes }
            ∧ (∀ v, v ≠ s.cur.warp → t.warp v = s.warp v) ∧ t = { s with warps := t.warps, cores := t.cores })
      ∧ (clear (.fence sc) s = true → 3 ≤ sc.code → s.outstanding s.cur.warp ≠ 0 →
          ∃ t, exec (.fence sc) s = .next t ∧ WarpOnly s t
            ∧ t.curWarp = { s.curWarp with waits := s.curWarp.waits ++ [⟨s.cur.lanes, s.cur.pc, 1, s.cur.port, .fence⟩] })

/-- What an atomic leaves at its location (R273 to R275): integer types exactly, .f32, .f16 and .bf16 rounded to nearest even. -/
def Sys2Proof.atomResult (op : AtomOp) (ty : AtomTy) (old b c : Nat) : Nat :=
  match op, ty with
  | .exch, _ => b
  | .cas, _ => if old = c then b else old
  | .add, .int t => wrapNat t.bits (intOf t old + intOf t b)
  | .min, .int t => if intOf t b < intOf t old then b else old
  | .max, .int t => if intOf t old < intOf t b then b else old
  | .add, .flt t => (floatOp .fadd t .rne old b 0 0).val
  | .min, .flt t => (floatOp .fmin t .rne old b 0 0).val
  | .max, .flt t => (floatOp .fmax t .rne old b 0 0).val
  | .and, _ => old &&& b
  | .or, _ => old ||| b
  | .xor, _ => old ^^^ b
  | _, .w128 => b

/-- Atomics performed one after another on a memory: the memory after them and the old value each lane read (R100, R274). A cas that does
not match writes nothing. -/
def Sys2Proof.atomsInOrder (op : AtomOp) (ty : AtomTy) (m : Memory) (ops : List LaneOp) : Memory × FMap Nat :=
  ops.foldl (fun (acc : Memory × FMap Nat) o =>
    let old := acc.1.readNat o.pa ty.bytes
    (if op = .cas ∧ old ≠ o.c then acc.1 else acc.1.write o.pa (natToBytes ty.bytes (atomResult op ty old o.b o.c)), acc.2.set o.lane old))
    (m, [])

/-- An operand of an atomic in a lane, in the atomic's type (R188, R193, R273). -/
def Sys2Proof.atomDatum (s : State) (ty : AtomTy) (o : Operand) (l : Nat) : Nat :=
  (match ty with
    | .int t => s.srcBits s.cur.warp l t o
    | .flt t => s.srcFlt s.cur.warp l t o
    | .w128 => s.src128 s.cur.warp l o) % 2 ^ (8 * ty.bytes)

/-- The value a lane's destination takes from its old value: extended by an integer type (R123). -/
def Sys2Proof.atomValue (ty : AtomTy) (x : Nat) : Nat :=
  match ty with
  | .int t => extendInt t (intOf t x)
  | _ => x

/-- R92, R99, R100, R188, R193, R273, R274: an atomic on the crew's scratchpad, or on pages of this module without error, whose slices answer at once,
is performed lane by lane, in ascending order within each request: each lane takes the value its location held before its own operation, extended
by its type, and writes its result; every other byte is kept. -/
def Sys2Proof.Part.AtomicsInLaneOrder : Prop :=
  ∀ (s : State) (op : AtomOp) (ty : AtomTy) (ord : Order) (sc : Scope) (d a b c : Operand), op.tyOk ty = true →
    let n := ty.bytes
    let words := if n = 16 then 4 else if n = 8 then 2 else 1
    let datum := atomDatum s ty
    let done := fun (i : Instr) (ops : List LaneOp) => ∃ t, exec i s = .next t
      ∧ t.mem = (atomsInOrder op ty s.mem ops).1
      ∧ (d ≠ .z → RegsWritten s t.curWarp words d (fun l => atomValue ty ((atomsInOrder op ty s.mem ops).2.get l)))
      ∧ (d = .z → (∀ m l, t.curWarp.v m l = s.curWarp.v m l) ∧ ∀ m, t.curWarp.s m = s.curWarp.s m)
      ∧ Advanced s t i.len ∧ (∀ v, v ≠ s.cur.warp → t.warp v = s.warp v)
    (∀ pa : Nat → Nat, clear (.atomX op ty ord sc d a b c) s = true →
        (∀ l, s.cur.lanes.getLsbD l = true → s.laneVa true a none l % n = 0
          ∧ s.scratchPhys (crewTok s.cur.warp) (s.laneVa true a none l) n = some (pa l)
          ∧ s.badWord (pa l) n = false) →
        (ord = .none ∨ ord = .acq ∨ sc.code < 5 ∨ s.outstanding s.cur.warp = 0 ∧ s.curWarp.remoteErr = none) →
        done (.atomX op ty ord sc d a b c)
          ((lanesOf s.cur.lanes).map fun l => ⟨l, s.laneVa true a none l, pa l, datum b l, datum c l, false⟩))
      ∧ (∀ parts : List Part, clear (.atomG op ty ord sc d a b c) s = true → s.silent.get 16 = false →
        let ops := s.laneOps false a none (datum b) (datum c)
        (∀ o ∈ ops, o.va % n = 0 ∧ o.va < 2 ^ 53) → s.reach .both n ops = .ok parts →
        (∀ p ∈ parts, servedHere s p ∧ ∀ o ∈ p.ops, s.readBad o.pa n = false ∧ o.pa < 0x4_0000_0000_0000) →
        (ordersFar (ord = .rel ∨ ord = .acqrel) sc 5 parts → s.outstanding s.cur.warp = 0 ∧ s.curWarp.remoteErr = none) →
        done (.atomG op ty ord sc d a b c) (parts.flatMap (·.ops)))

/-- R93, R97, R271, R274, R439: an atomic all of whose requests leave the module by ports that carry them sends them. With a destination, or as an
acquire beyond the core, its lanes wait for the answers; without, they go on, the requests counted among the warp's outstanding stores. No
register and no byte of memory changes yet. -/
def Sys2Proof.Part.AtomicsSent : Prop :=
  ∀ (s : State) (op : AtomOp) (ty : AtomTy) (ord : Order) (sc : Scope) (d a b c : Operand) (parts : List Part), op.tyOk ty = true →
    let i := Instr.atomG op ty ord sc d a b c
    let n := ty.bytes
    let ops := s.laneOps false a none (atomDatum s ty b) (atomDatum s ty c)
    clear i s = true → (∀ o ∈ ops, o.va % n = 0 ∧ o.va < 2 ^ 53) → s.reach .both n ops = .ok parts → parts ≠ [] →
    (∀ p ∈ parts, isRemote p.x.pa = true ∧ p.x.mig = false ∧ s.carrier p.x.pa ≠ none) →
    (ordersFar (ord = .rel ∨ ord = .acqrel) sc 5 parts → s.outstanding s.cur.warp = 0 ∧ s.curWarp.remoteErr = none) →
    (d = .z → s.outstanding s.cur.warp + parts.length ≤ 256) →
    let acquires := ordersFar (ord = .acq ∨ ord = .acqrel) sc 3 parts
    let ids := (List.range parts.length).map (s.nextReq + ·)
    ∃ t, exec i s = .next t ∧ t.nextReq = s.nextReq + parts.length
      ∧ (∀ k p, parts[k]? = some p → ∃ r, t.reqs.find (s.nextReq + k) = some r ∧ r.kind = .atom op ty (d != .z) ∧ r.warp = s.cur.warp
          ∧ r.ctx = s.ctxOf s.cur.warp ∧ r.pa = p.x.pa ∧ r.size = p.size ∧ r.bytes = n ∧ r.ops = p.ops ∧ limited s (s.ctxOf s.cur.warp) r)
      ∧ (d = .z → ¬ acquires → Advanced s t i.len ∧ t.curWarp.waits = s.curWarp.waits)
      ∧ (d ≠ .z ∨ acquires → ∃ m, t.curWarp.waits = s.curWarp.waits ++ [⟨s.cur.lanes, s.cur.pc, i.len, s.cur.port, .mem m⟩]
          ∧ m.atomic = true ∧ m.d = d ∧ m.bytes = n ∧ m.reqs = ids ∧ m.got = [] ∧ m.faults = []
          ∧ m.ext = (match ty with | .int t => some t | _ => none))
      ∧ (∀ k l, t.curWarp.v k l = s.curWarp.v k l) ∧ (∀ k, t.curWarp.s k = s.curWarp.s k)
      ∧ (∀ v, v ≠ s.cur.warp → t.warp v = s.warp v) ∧ ∀ x, t.mem.get x = s.mem.get x

/-- Both statements above together: AtomicsInLaneOrder, AtomicsSent. What the answers do is in RequestAnswers.
Readings and choices of the model in it: notes/assumptions/4, 21. -/
def Obligations.AtomicsInLaneOrder : Prop := Part.AtomicsInLaneOrder ∧ Part.AtomicsSent

/-! ### Tickets, the pool, and answers from outside -/

/-- A ticket's 64 bits (R278): tag 1, module, kind, table, entry, reuse count, context, and the keyed check over the bits below it. -/
def Sys2Proof.ticketBits (key module_ ctx reuse entry table : Nat) (block : Bool) : Nat :=
  let low := 1 + module_ % 64 * 2 ^ 2 + (if block then 2 ^ 8 else 0) + table * 2 ^ 9 + entry * 2 ^ 16 + reuse * 2 ^ 28 + ctx * 2 ^ 36
  low + (Config.ticketCheck key low).toNat * 2 ^ 48

/-- R72, R79, R278 to R280: ldt whose requests need one ticket table, and whose ports carry what leaves the module, takes the lowest free entry, makes it
pending with the context's ticket life, sends the requests that leave, and gives the lanes the ticket; a table without room blocks ldt and gives
ldt.try the null ticket. No byte of memory changes.
Readings and choices of the model in it: notes/assumptions/25, 102. -/
def Obligations.TicketIssue : Prop :=
  ∀ (s : State) (try_ : Bool) (w : Width) (d a b : Operand) (i : Instr) (block : Bool) (pas : List Nat) (table n : Nat),
    clear i s = true →
    let ctx := s.ctxOf s.cur.warp
    let va := s.lead64 a
    (i = .ldt try_ w d a ∧ block = false ∧ n = laneCount s.cur.lanes * w.bytes
        ∧ (∀ o ∈ s.laneOps false a none (fun _ => 0) fun _ => 0, o.va % w.bytes = 0 ∧ o.va < 2 ^ 53)
        ∧ (∃ parts, s.reach .read w.bytes (s.laneOps false a none (fun _ => 0) fun _ => 0) = .ok parts ∧ parts ≠ []
            ∧ parts.map (·.x.pa) = pas ∧ ∀ p ∈ parts, s.tableOf p.x = table))
      ∨ (i = .ldtBlock try_ d a b ∧ block = true ∧ n = s.lead32 b ∧ s.same64 a = true ∧ s.same32 b = true ∧ 16 ≤ n ∧ n ≤ 4096
        ∧ n % 16 = 0 ∧ va % 16 = 0 ∧ va + n ≤ 2 ^ 53
        ∧ (let last := (va + n - 1) / 8192 * 8192
           last ≤ va ∨ ∃ y, s.xlateWarp s.cur.warp last .read = .ok y ∧ y.packed = false)
        ∧ ∃ x, s.xlateWarp s.cur.warp va .read = .ok x ∧ x.packed = false ∧ s.beforeSwing x = false ∧ va / 2 ^ x.bits = (va + n - 1) / 2 ^ x.bits ∧ pas = [x.pa] ∧ s.tableOf x = table
        ∧ (s.blockTables x n).length = 1) →
    (∀ pa ∈ pas, isRemote pa = true → s.carrier pa ≠ none) →
    let kept := fun (t : State) => (∀ v, v ≠ s.cur.warp → t.warp v = s.warp v) ∧ (∀ y, t.mem.get y = s.mem.get y)
    (∀ entry, s.freeEntry table n = some entry → ∃ t, exec i s = .next t ∧ kept t ∧ Advanced s t i.len
        ∧ RegsWritten s t.curWarp 2 d
            (fun _ => ticketBits s.key s.module_ ctx (s.tickets.get (table * 4096 + entry)).reuse entry table block)
        ∧ (let e := t.tickets.get (table * 4096 + entry)
           e.state = 1 ∧ e.ctx = ctx ∧ e.block = block ∧ e.bytes = n ∧ e.lanes = s.cur.lanes
            ∧ e.deadline = s.cycle + (s.ctx ctx).ticketlife.toNat * 800
            ∧ e.reuse = (s.tickets.get (table * 4096 + entry)).reuse
            ∧ e.reqs = (List.range (pas.countP isRemote)).map (s.nextReq + ·))
        ∧ (∀ k, k ≠ table * 4096 + entry → t.tickets.get k = s.tickets.get k)
        ∧ t.nextReq = s.nextReq + pas.countP isRemote)
      ∧ (s.freeEntry table n = none → ∃ t, exec i s = .next t ∧ kept t ∧ t.tickets = s.tickets
          ∧ (if try_ then RegsWritten s t.curWarp 2 d (fun _ => 0) ∧ Advanced s t i.len
             else ∃ g, t.curWarp.waits = s.curWarp.waits ++ [⟨s.cur.lanes, s.cur.pc, i.len, s.cur.port, .room (some g)⟩]
               ∧ g.table = table ∧ g.block = block ∧ g.bytes = n ∧ g.d = d ∧ g.parts.map (·.pa) = pas))

/-- R106, R281, R283, R284: redeem, redeem.x, tkdrop and tkstat of a ticket whose checks pass, while no lane of the machine waits. A ready entry is
delivered or dropped with status OK and freed as spent, its reuse count advanced; a pending one answers PENDING to a try and to tkstat and
blocks a plain redeem; one that is not live under the ticket answers SPENT or EXPIRED and stays. -/
def Sys2Proof.Part.TicketUse : Prop :=
  ∀ (s : State) (try_ : Bool) (d a b c : Operand) (t : Nat),
    let e := s.tickets.get (tkKey t)
    let past := if tkReuse t = (e.reuse + 255) % 256 ∧ e.spent = true then 2 else 3
    s.same64 a = true → s.lead64 a = t → (∀ p ∈ s.warps, p.2.waits = []) → e.reqs = [] → e.reuse < 256 →
    let freed := fun (u : State) => (u.tickets.get (tkKey t)).state = 0 ∧ (u.tickets.get (tkKey t)).spent = true
      ∧ (u.tickets.get (tkKey t)).reuse = (e.reuse + 1) % 256 ∧ ∀ k, k ≠ tkKey t → u.tickets.get k = s.tickets.get k
    let answers := fun (i : Instr) (st : Operand) (x : Nat) => clear i s = true → ∃ u, exec i s = .next u ∧ u.tickets = s.tickets
      ∧ LaneResult s u i.len 1 st (fun _ => x)
    let live := e.reuse = tkReuse t ∧ e.state ≠ 0
    (s.ticketCheck t none = 0 →
        (¬ live → answers (.tkdrop d a) d past ∧ (e.state = 0 ∨ s.cycle < e.deadline → answers (.tkstat d a) d past))
        ∧ (live → e.deadline ≤ s.cycle → answers (.tkstat d a) d 3)
        ∧ (live → s.cycle < e.deadline → e.state = 1 → answers (.tkstat d a) d 1)
        ∧ (live → s.cycle < e.deadline → e.state = 2 → answers (.tkstat d a) d (if e.err = none then 0 else 2 ^ 8))
        ∧ (live → clear (.tkdrop d a) s = true → ∃ u, exec (.tkdrop d a) s = .next u ∧ freed u
            ∧ RegsWritten s u.curWarp 1 d (fun _ => 0) ∧ Advanced s u (Instr.tkdrop d a).len ∧ ∀ x, u.mem.get x = s.mem.get x))
      ∧ (s.ticketCheck t (some false) = 0 → e.block = false →
        let words := if e.width = .w128 then 4 else if e.width = .w64 then 2 else 1
        let value := fun (l : Nat) => loaded e.width (bytesToNat (e.data.get l) % 2 ^ (8 * e.width.bytes))
        let fits := e.width = .w64 → (∃ n, d = .v n ∧ n % 2 = 0) ∨ ∃ n, d = .s n
        (¬ live → answers (.redeem try_ d a c) c past)
        ∧ (live → fits → e.state = 1 → answers (.redeem true d a c) c 1)
        ∧ (live → fits → e.state = 1 → clear (.redeem false d a c) s = true → ∃ u, exec (.redeem false d a c) s = .next u ∧ WarpOnly s u
            ∧ u.curWarp = { s.curWarp with waits := s.curWarp.waits
                ++ [⟨s.cur.lanes, s.cur.pc, (Instr.redeem false d a c).len, s.cur.port, .redeem (BitVec.ofNat 64 t) d none c⟩] })
        ∧ (live → fits → e.state = 2 → e.err = none → clear (.redeem try_ d a c) s = true → ∃ u, exec (.redeem try_ d a c) s = .next u ∧ freed u
            ∧ Advanced s u (Instr.redeem try_ d a c).len ∧ (∀ x, u.mem.get x = s.mem.get x)
            ∧ (∀ m, c = .v m → ∀ l, s.cur.lanes.getLsbD l = true → u.curWarp.v m l = 0)
            ∧ (∀ m, c = .s m → s.cur.lanes ≠ 0 → u.curWarp.s m = 0)
            ∧ (∀ n, d = .v n → (∀ m, c = .v m → m < n ∨ n + words ≤ m) → ∀ l, s.cur.lanes.getLsbD l = true → e.lanes.getLsbD l = true →
                ∀ j, j < words → u.curWarp.v (n + j) l = BitVec.ofNat 32 (value l / 2 ^ (32 * j)))
            ∧ (∀ n, d = .s n → c ≠ .s n → s.cur.lanes ≠ 0 → e.lanes.getLsbD (leader s.cur.lanes) = true →
                u.curWarp.s n = BitVec.ofNat 64 (value (leader s.cur.lanes)))
            ∧ (∀ k l, l < 32 → (∀ n, d = .v n → k < n ∨ n + words ≤ k) → c ≠ .v k → u.curWarp.v k l = s.curWarp.v k l)
            ∧ (∀ k, d ≠ .s k → c ≠ .s k → u.curWarp.s k = s.curWarp.s k)))
      ∧ (∀ off, s.ticketCheck t (some true) = 0 → s.lead32 b = off → off % 16 = 0 → e.block = true →
        off + e.bytes ≤ (s.crewOf s.cur.warp).size →
        (¬ live → answers (.redeemX try_ a b c) c past)
        ∧ (live → e.state = 1 → answers (.redeemX true a b c) c 1)
        ∧ (live → e.state = 2 → e.err = none → clear (.redeemX try_ a b c) s = true → ∃ u, exec (.redeemX try_ a b c) s = .next u ∧ freed u
            ∧ RegsWritten s u.curWarp 1 c (fun _ => 0) ∧ Advanced s u (Instr.redeemX try_ a b c).len
            ∧ u.mem = s.mem.write ((s.crewOf s.cur.warp).phys off) (e.data.get 0)))

/-- R105, R108: the owner's read makes a pending entry of this module's memory ready with the bytes its parts hold then; the answer of the last request
that left the module does it for that request's bytes; an entry whose deadline has come is reclaimed, so that its ticket expires. -/
def Sys2Proof.Part.TicketSteps : Prop :=
  ∀ (s : State) (table entry : Nat),
    let k := table * 4096 + entry
    let e := s.tickets.get k
    let others := fun (t : State) => (∀ j, j ≠ k → t.tickets.get j = s.tickets.get j) ∧ ∀ x, t.mem.get x = s.mem.get x
    let ready := fun (t : State) (ops : List LaneOp) => ∃ data, t.tickets.get k = { e with state := 2, data := data, reqs := [] }
      ∧ (∀ o ∈ ops, data.get o.lane = s.readPhys o.pa e.partBytes) ∧ others t
    let sound := fun (ops : List LaneOp) => (ops.map (·.lane)).Nodup ∧ ∀ o ∈ ops, o.mig = false ∧ s.readBad o.pa e.partBytes = false
    (∀ p ∈ s.warps, p.2.waits = []) →
    (e.state = 1 → e.reqs = [] → e.data = [] → sound e.parts →
        ∃ t, exec (.ticketReady table entry) s = .next t ∧ ready t e.parts ∧ ∀ v, t.warp v = s.warp v)
      ∧ (∀ id r, e.state = 1 → e.reqs = [id] → e.data = [] → s.reqs.find id = some r → s.answers id r = true →
        s.fabricFault r.ctx r.pa r.size false = none → sound r.ops →
        ∃ t, exec (.ticketReady table entry) s = .next t ∧ ready t r.ops ∧ t.reqs.find id = none ∧ ∀ v, t.warp v = s.warp v)
      ∧ (e.state ≠ 1 → exec (.ticketReady table entry) s = .next s)
      ∧ (e.state ≠ 0 → e.deadline ≤ s.cycle → ∃ t, exec (.ticketDeadline table entry) s = .next t
          ∧ (t.tickets.get k).state = 0 ∧ (t.tickets.get k).spent = false ∧ (t.tickets.get k).reuse = (e.reuse + 1) % 256
          ∧ others t ∧ ∀ v, t.warp v = s.warp v)
      ∧ (e.state ≠ 0 → s.cycle < e.deadline → exec (.ticketDeadline table entry) s = .next s)

/-- Both statements above together: TicketUse, TicketSteps.
Readings and choices of the model in it: notes/assumptions/59, 102. -/
def Obligations.TicketUse : Prop := Part.TicketUse ∧ Part.TicketSteps

/-- R286 to R289, R439: lalloc, lfree and lquota of a landing that is attached and not lost send one request to it and wait for its answer; lfree
does so once no remote store is outstanding. Its time limit is the context's fabrictimeout in microseconds of 800 cycles. -/
def Sys2Proof.Part.PoolRequests : Prop :=
  ∀ (s : State) (d a b c : Operand) (l : Nat), s.attached l = true → s.portLost l = false →
    let ctx := s.ctxOf s.cur.warp
    let x := s.lead64 a
    let sent := fun (i : Instr) (kind : ReqKind) (va : Nat) (res st : Operand) => clear i s = true → ∃ t r, exec i s = .next t
      ∧ t.curWarp = { s.curWarp with
          waits := s.curWarp.waits ++ [⟨s.cur.lanes, s.cur.pc, i.len, s.cur.port, .pool s.nextReq res st⟩] }
      ∧ t.nextReq = s.nextReq + 1 ∧ t.reqs.find s.nextReq = some r
      ∧ r.kind = kind ∧ r.warp = s.cur.warp ∧ r.ctx = ctx ∧ r.port = l ∧ r.va = va ∧ limited s ctx r
      ∧ (∀ k, k ≠ s.nextReq → t.reqs.find k = s.reqs.find k)
      ∧ (∀ v, v ≠ s.cur.warp → t.warp v = s.warp v)
      ∧ t = { s with warps := t.warps, reqs := t.reqs, nextReq := t.nextReq }
    (s.same64 a = true → s.same32 b = true → attrOk x (s.lead32 b) = true → s.lead32 b % 16 = l →
        sent (.lalloc d a b c) (.alloc x (s.lead32 b) none) 0 d c)
      ∧ (s.same64 a = true → 2 ^ 52 ≤ x → (x - 2 ^ 52) / 2 ^ 46 = l → s.outstanding s.cur.warp = 0 → s.curWarp.remoteErr = none →
        sent (.lfree d a) (.free x) x .z d)
      ∧ (s.lead32 a = l → sent (.lquota d a) .quota 0 d .z)

/-- R287 to R289, R442: what the landing's answers do for the lanes that wait: a refusal for want of room gives them 0 and NO_SPACE, a quota its
bytes; a grant is recorded, mapped, and completes with the invalidation of its range; a release ends the allocation. -/
def Sys2Proof.Part.PoolAnswers : Prop :=
  ∀ (s : State) (id : Nat) (r : Req) (y : WaitRec) (d st : Operand),
    s.reqs.find id = some r → r.open_ s = true → (s.warp r.warp).waits = [y] → y.wait = .pool id d st →
    let l := s.landings.get r.port
    let done := fun (t : State) (x status : Nat) =>
      t.reqs.find id = none ∧ (t.warp r.warp).waits = []
        ∧ (∀ j, (t.warp r.warp).lane j = if y.lanes.getLsbD j then
            { (s.warp r.warp).lane j with pc := y.pc + BitVec.ofNat 64 y.len, readyAt := s.cycle + 1 } else (s.warp r.warp).lane j)
        ∧ (∀ n, st = .v n → ∀ j, y.lanes.getLsbD j = true → (t.warp r.warp).v n j = BitVec.ofNat 32 status)
        ∧ (∀ n, d = .s n → st ≠ .s n → y.lanes ≠ 0 → (t.warp r.warp).s n = BitVec.ofNat 64 x)
        ∧ (∀ v, v ≠ r.warp → t.warp v = s.warp v) ∧ (∀ a, t.mem.get a = s.mem.get a)
    let invalidates := fun (t : State) (va len : Nat) =>
      (∃ v, t.invals.find s.nextInval = some v ∧ v.ctx = r.ctx ∧ v.va = va ∧ v.len = len ∧ v.all = false)
        ∧ (t.warp r.warp).waits = [{ y with wait := .pool (2 ^ 32 + s.nextInval) d st }] ∧ t.reqs.find id = none
        ∧ (∀ v, v ≠ r.warp → t.warp v = s.warp v)
    (∀ size attr, r.kind = .alloc size attr none →
        (∃ t, exec (.landingPoolResponse id .noRoom) s = .next t ∧ done t 0 6)
        ∧ (∀ off u, let n := roundedSize size attr
            l.canGrant n attr off = true → n ≤ l.remaining r.ctx →
            s.installBad r.ctx attr true (poolBase r.port + off) (n / 2 ^ pageBits (attrPage attr)) = none →
            s.installPages r.ctx attr true (poolBase r.port + off) (n / 2 ^ pageBits (attrPage attr)) = some u →
            ∃ t, exec (.landingPoolResponse id (.granted off)) s = .next t
              ∧ invalidates t (poolVa (poolBase r.port + off)) n
              ∧ ⟨r.ctx, off, n, attr, false, none⟩ ∈ (t.landings.get r.port).allocs ∧ t.mem = u.mem))
      ∧ (r.kind = .quota → ∀ n, ∃ t, exec (.landingPoolResponse id (.quotaLeft n)) s = .next t ∧ done t n 0)
      ∧ (∀ va a, r.kind = .free va → l.startsAt r.ctx (va - poolVa (poolBase r.port)) = some a → s.endBad r a = none →
        (∀ p ∈ s.tickets, p.2.state ≠ 1) → ∃ t, exec (.landingPoolResponse id .freed) s = .next t
          ∧ invalidates t (poolVa (poolBase r.port + (va - poolVa (poolBase r.port)))) a.size
          ∧ (t.landings.get r.port).allocs = l.allocs.filter (· != a))

/-- Both statements above together: PoolRequests, PoolAnswers.
Readings and choices of the model in it: notes/assumptions/122. -/
def Obligations.PoolInstructions : Prop := Part.PoolRequests ∧ Part.PoolAnswers

/-- R92, R97, R98, R115, R123, R271, R274, R290, R439, R445: the answers of the fabric. A load's last response gives each lane its value, of one register, two or four,
by its width; one that is not the last is noted; an atomic's response performs it and gives each lane its old value; the acknowledgement of a store, or of an atomic
without a destination, ends it, its bytes written; a request whose limit has passed times out: a load's or a pool request's lanes trap with FABRIC_TIMEOUT, or while the
crew is being saved the fault is kept for its resume; a store sets the
remote-error indicator, a ticketed read expires its ticket; a request whose carried deadline passed is never performed; a retired tag comes back.
Readings and choices of the model in it: notes/assumptions/12, 30, 105, 114. -/
def Obligations.RequestAnswers : Prop :=
  ∀ (s : State) (id : Nat) (r : Req), s.reqs.find id = some r →
    let w := r.warp
    let gone := fun (t : State) => t.reqs.find id = none
    let kept := fun (t : State) => ∀ a, t.mem.get a = s.mem.get a
    let trapped := fun (t : State) => gone t ∧ kept t ∧ (t.warp w).trapcause.toNat % 256 = 0x0C ∧ (t.warp w).handler.isSome = true
    let ready := (s.warp w).handler = none ∧ (s.ctx (s.ctxOf w)).trapbase ≠ 0 ∧ (s.warp w).chainA = none ∧ (s.warp w).chainB = none
      ∧ (s.crewOf w).saving = false ∧ s.cur.pairs = false
    let answered := r.open_ s = true ∧ s.behindWrite id r = false ∧ s.fabricFault r.ctx r.pa r.size r.writes = none
    let words := fun (n : Nat) => if n = 16 then 4 else if n = 8 then 2 else 1
    let free := ∀ y ∈ (s.warp w).waits, ∀ m, y.wait = .mem m → id ∉ m.reqs
    let sound := fun (y : WaitRec) (m : MemWait) => m.bytes = r.bytes ∧ (m.got.map (·.1) ++ r.ops.map (·.lane)).Nodup
      ∧ (∀ p ∈ m.got, p.1 < 32 ∧ y.lanes.getLsbD p.1 = true)
      ∧ ∀ o ∈ r.ops, o.lane < 32 ∧ y.lanes.getLsbD o.lane = true ∧ s.readBad o.pa r.bytes = false
    let completes := fun (t : State) (y : WaitRec) (m : MemWait) (value : Nat → Nat) (given : Nat → Nat) =>
      let all := m.got.map (·.1) ++ r.ops.map (·.lane)
      let val := fun l => value (match m.got.find l with | some x => x | none => given l)
      gone t ∧ (t.warp w).waits = []
        ∧ (∀ n, m.d = .v n → ∀ l ∈ all, ∀ j, j < words m.bytes → (t.warp w).v (n + j) l = BitVec.ofNat 32 (val l / 2 ^ (32 * j)))
        ∧ (∀ n, m.d = .s n → leader y.lanes ∈ all → (t.warp w).s n = BitVec.ofNat 64 (val (leader y.lanes)))
        ∧ (∀ n l, l < 32 → (∀ k, m.d = .v k → n < k ∨ k + words m.bytes ≤ n) → (t.warp w).v n l = (s.warp w).v n l)
        ∧ (∀ n, m.d ≠ .s n → (t.warp w).s n = (s.warp w).s n)
        ∧ (∀ j, y.lanes.getLsbD j = true → (t.warp w).lane j =
            { (s.warp w).lane j with pc := y.pc + BitVec.ofNat 64 y.len, readyAt := s.cycle + 1 })
        ∧ ∀ v, v ≠ w → t.warp v = s.warp v
    (∀ (y : WaitRec) (m : MemWait), (s.warp w).waits = [y] → y.wait = .mem m → r.kind = .load → m.reqs = [id] → m.faults = [] →
        m.atomic = false → m.ext = none →
        (answered → sound y m → m.width.bytes = r.bytes → (∀ p ∈ m.got, p.2 < 2 ^ (8 * r.bytes)) →
          let given := fun (l : Nat) => match r.ops.find? (fun o => o.lane == l) with
            | some o => bytesToNat (s.readPhys o.pa r.bytes)
            | none => 0
          ∃ t, exec (.memoryResponse id) s = .next t ∧ kept t ∧ completes t y m (loaded m.width) given)
        ∧ (m.got = [] → ready → r.deadline ≤ s.cycle → ∃ t, exec (.fabricTimeout id false) s = .next t ∧ trapped t
            ∧ (opLanes r.ops ≠ 0 → (t.warp w).traplanes = (opLanes r.ops).setWidth 64))
        ∧ (m.got = [] → (s.warp w).handler = none → (s.crewOf w).saving = true → (s.crewOf w).savingAt < s.cycle → r.deadline ≤ s.cycle →
          ∃ t x, exec (.fabricTimeout id false) s = .next t ∧ gone t ∧ kept t ∧ (t.warp w).handler = none
            ∧ (t.warp w).pendingFaults = (s.warp w).pendingFaults ++ [x]
            ∧ x.1.cause = 0x0C ∧ x.1.deferred = true ∧ x.1.group = y.lanes ∧ x.1.ret = some y.pc))
      ∧ (∀ (y : WaitRec) (m : MemWait), (s.warp w).waits = [y] → y.wait = .mem m → r.kind = .load → (∃ k ∈ m.reqs, k ≠ id) → id ∈ m.reqs →
        answered → y.lanes ≠ 0 → (r.ops.map (·.lane)).Nodup → (∀ o ∈ r.ops, s.readBad o.pa r.bytes = false) →
        ∃ t m' more, exec (.memoryResponse id) s = .next t ∧ gone t ∧ kept t ∧ (t.warp w).waits = [{ y with wait := .mem m' }]
          ∧ m'.reqs = m.reqs.filter (· != id) ∧ m'.d = m.d ∧ m'.faults = m.faults ∧ m'.got = m.got ++ more
          ∧ (∀ l x, (l, x) ∈ more ↔ ∃ o ∈ r.ops, o.lane = l ∧ x = bytesToNat (s.readPhys o.pa r.bytes))
          ∧ t.warp w = { s.warp w with waits := (t.warp w).waits } ∧ ∀ v, v ≠ w → t.warp v = s.warp v)
      ∧ (∀ op ty, let own := r.ops.map fun o => { o with pa := s.ownAddr o.pa }
        let all := atomsInOrder op ty s.mem own
        answered → r.bytes = ty.bytes → op.tyOk ty = true → (∀ o ∈ r.ops, s.chanFailed (s.ownAddr o.pa) = false) →
        (∀ (y : WaitRec) (m : MemWait), r.kind = .atom op ty true → (s.warp w).waits = [y] → y.wait = .mem m → m.reqs = [id] → m.faults = [] →
            m.atomic = true → m.ext = (match ty with | .int t => some t | _ => none) → sound y m →
            ∃ t, exec (.memoryResponse id) s = .next t ∧ t.mem = all.1 ∧ completes t y m (atomValue ty) fun l => all.2.get l)
          ∧ (r.kind = .atom op ty false → free → (∀ o ∈ r.ops, s.readBad o.pa r.bytes = false) →
            ∃ t, exec (.remoteStoreAck id) s = .next t ∧ gone t ∧ t.mem = all.1
              ∧ (∀ v n l, (t.warp v).v n l = (s.warp v).v n l) ∧ ∀ v n, (t.warp v).s n = (s.warp v).s n))
      ∧ (r.kind = .store → r.open_ s = true → s.behindWrite id r = false → s.fabricFault r.ctx r.pa r.size true = none → Good s → free →
        (∀ o ∈ r.ops, s.chanFailed (s.ownAddr o.pa) = false) →
        ∃ t, exec (.remoteStoreAck id) s = .next t ∧ gone t
          ∧ (∀ x, (∀ o ∈ r.ops, x < s.ownAddr o.pa ∨ s.ownAddr o.pa + r.bytes ≤ x) → t.mem.get x = s.mem.get x)
          ∧ (∀ o, r.ops = [o] → t.mem.read (s.ownAddr o.pa) r.bytes = natToBytes r.bytes o.b)
          ∧ (∀ v n l, (t.warp v).v n l = (s.warp v).v n l) ∧ ∀ v n, (t.warp v).s n = (s.warp v).s n)
      ∧ (r.kind = .store → r.deadline ≤ s.cycle → s.answers id r = false → (s.warp w).live = true → (s.warp w).remoteErr = none → free →
        ∃ t e, exec (.remoteStoreTimeout id false) s = .next t ∧ gone t ∧ kept t
          ∧ (t.warp w).remoteErr = some e ∧ e.cause = 0x0C ∧ e.addr = lowestVa r.ops)
      ∧ (∀ (y : WaitRec) (d st : Operand), r.kind = .quota → ready → (s.warp w).waits = [y] → y.wait = .pool id d st → r.deadline ≤ s.cycle →
        ∃ t, exec (.fabricTimeout id false) s = .next t ∧ trapped t)
      ∧ (∀ key, r.kind = .ticket key → id ∈ (s.tickets.get key).reqs → (∀ p ∈ s.warps, p.2.waits = []) → r.deadline ≤ s.cycle →
        ∃ t, exec (.fabricTimeout id false) s = .next t ∧ gone t ∧ kept t ∧ (t.tickets.get key).state = 0 ∧ (t.tickets.get key).spent = false)
      ∧ (r.deadline ≤ s.cycle + 8000 → ∃ t, exec (.requestDeadlineExpiry id) s = .next t
        ∧ t.reqs.find id = some { r with discarded := true } ∧ t = { s with reqs := t.reqs }
        ∧ exec (.memoryResponse id) t = .next t ∧ exec (.remoteStoreAck id) t = .next t)
      ∧ (∀ port tag since, (s.ports.get port).retired.find tag = some since →
        (s.cycle < since → exec (.retiredTagReuse port tag) s = .next s)
        ∧ (since ≤ s.cycle → ∃ t, exec (.retiredTagReuse port tag) s = .next t ∧ (t.ports.get port).retired.find tag = none
            ∧ t = { s with ports := t.ports, reqs := t.reqs }))

/-! ### Engines -/

/-- A record of `n` bytes that an engine instruction reads at issue as a plain load (R296): its page is translated, not packed, not migrating, of
this module, behind no write that is still open, and free of errors; what L1 holds of a page with home 0 is what memory holds. -/
def Sys2Proof.recordHeld (s : State) (va n : Nat) (bs : List Byte) : Prop :=
  va < 2 ^ 53 ∧ ∃ x, s.xlateWarp s.cur.warp va .read = .ok x ∧ x.packed = false ∧ x.mig = false ∧ isRemote x.pa = false
    ∧ s.openWrite x.pa n = false ∧ s.readBad x.pa n = false ∧ s.readPhys x.pa n = bs
    ∧ (x.home = 0 → x.pa % 16 = 0 ∧ ∀ k, k < n / 16 → ∀ b, (s.core (s.coreOf s.cur.warp)).l1.find (x.pa / 16 + k) = some b →
        b = s.readPhys (x.pa + 16 * k) 16)

/-- An engine operation put at the end of queue `q` (R293, R294): the status register stands pending, the lanes go on, and no register or byte
of memory changes. -/
structure Sys2Proof.Queued (s t : State) (i : Instr) (q : Nat) (st : Operand) (patch : Option Nat) (op : EngOp) : Prop where
  last : (t.engs (s.coreOf s.cur.warp)).list q = (s.engs (s.coreOf s.cur.warp)).list q
    ++ [{ num := s.nextOp, since := s.cycle, warp := s.cur.warp, ctx := s.ctxOf s.cur.warp, st := st, patch := patch, count := none, hold := none,
          begun := false, failed := [], op := op }]
  others : ∀ k, k ≠ q → (t.engs (s.coreOf s.cur.warp)).list k = (s.engs (s.coreOf s.cur.warp)).list k
  deck : (t.engs (s.coreOf s.cur.warp)).deck = (s.engs (s.coreOf s.cur.warp)).deck
  cores : ∀ c, c ≠ s.coreOf s.cur.warp → t.engs c = s.engs c
  number : t.nextOp = s.nextOp + 1
  pending : t.curWarp.pending = if st = .z then s.curWarp.pending else s.curWarp.pending ++ [⟨st, 1, s.nextOp⟩]
  lanes : Advanced s t i.len
  regs : (∀ n l, t.curWarp.v n l = s.curWarp.v n l) ∧ ∀ n, t.curWarp.s n = s.curWarp.s n
  warps : ∀ w, w ≠ s.cur.warp → t.warp w = s.warp w
  memory : ∀ a, t.mem.get a = s.mem.get a

/-- The patch word of a held command is allowed: bits 31 to 27 zero, a unit, for bulk a multiple of 16 (R321). -/
def Sys2Proof.patchAllowed (p : Nat) (bulk : Bool) : Prop := p / 2 ^ 27 % 32 = 0 ∧ p / 2 ^ 32 % 2 ^ 32 ≠ 0 ∧ (bulk = true → p / 2 ^ 32 % 2 ^ 32 % 16 = 0)

/-- R293, R294, R299: a cpy whose queue has room and whose record, coordinate, offsets and ranges pass the checks of R299 enters its copy queue
with the values its leader holds. -/
def Sys2Proof.Part.CopyIssue : Prop :=
  ∀ (s : State) (t : CpyTy) (add arr : Bool) (q : Nat) (m : CpyMod) (d a b c : Operand) (bytes : List Byte) (r : Layout) (size : Nat),
    let rec_ := s.lead64 a
    let coord := s.lead64 b
    let off := s.lead64 c % 2 ^ 32
    let ctr := s.lead64 c / 2 ^ 32
    let own := (s.crewOf s.cur.warp).size
    let patch := if m = .held then some (s.lead64 d) else none
    let expect := s.lead64 d % 2 ^ 32
    q < 4 → (m = .held → patchAllowed (s.lead64 d) false) → rec_ % 64 = 0 → recordHeld s rec_ 64 bytes → parseLayout bytes = some r →
    off % 16 = 0 → off + size ≤ own → (arr = true → ctr % 16 = 0 ∧ ctr + 16 ≤ own) →
    let ok := fun (i : Instr) (op : EngOp) => clear i s = true → s.engineRoom s.cur.warp i = true → ∃ u, exec i s = .next u ∧ Queued s u i q d patch op
    ((r.packed = false ∧ t = .raw ∧ coordOk (tileCounts r.shape r.tile) coord = true ∧ size = product r.tile * r.z)
        ∨ (r.packed = true ∧ r.base % 128 = 0 ∧ ∃ db dd, recordHeld s r.base 128 db ∧ parseDesc db = some dd
            ∧ coordOk (tileCounts dd.shape dd.tile) coord = true ∧ size = packedSize t dd) →
      ok (.cpyLd t q m arr d a b c)
        (.load t (m == .crc) arr bytes (BitVec.ofNat 64 coord) off size (if arr then ctr else 0) expect))
    ∧ (r.packed = false → (add = true → r.elem = 9) → coordOk (tileCounts r.shape r.tile) coord = true → size = product r.tile * r.z →
      ok (.cpySt add q m arr d a b c)
        (.store add (m == .crc) arr bytes (BitVec.ofNat 64 coord) off size (if arr then ctr else 0) expect))

/-- R293, R294, R307, R318 to R320: bulk, ctload, ctsave, kvput and bin with room in their queue, and with operands, records and ranges that pass
the checks of their rules, enter it. -/
def Sys2Proof.Part.QueueIssue : Prop :=
  ∀ (s : State) (x arr held : Bool) (d a b c : Operand) (n : Nat),
    let own := (s.crewOf s.cur.warp).size
    let ok := fun (i : Instr) (q : Nat) (patch : Option Nat) (op : EngOp) =>
      clear i s = true → s.engineRoom s.cur.warp i = true → ∃ u, exec i s = .next u ∧ Queued s u i q d patch op
    let table := if x then s.lead32 a else s.lead64 a
    let header := fun (off : Nat) (hd : List Byte) => off % 16 = 0 ∧ off + 16 ≤ own
      ∧ s.badWord ((s.crewOf s.cur.warp).phys off) 16 = false ∧ s.mem.read ((s.crewOf s.cur.warp).phys off) 16 = hd
    (∀ xd, a = .s n →
        let src := (s.curWarp.s n).toNat
        let dst := (s.curWarp.s (n + 1)).toNat
        let len := (s.curWarp.s (n + 2)).toNat
        src % 16 = 0 → dst % 16 = 0 →
        (if held then patchAllowed len true else 16 ≤ len ∧ len ≤ 0xFFFFF0 ∧ len % 16 = 0) →
        (if x then src + (if held then 0xFFFFF0 / (len / 2 ^ 32) * (len / 2 ^ 32) else len) ≤ own
          else src < 2 ^ 53 ∧ ∃ y, s.xlateWarp s.cur.warp src .read = .ok y ∧ y.packed = false) →
        ok (.bulk x xd arr held d a) 6 (if held then some len else none)
          (.bulk x xd arr (s.curWarp.s n) (s.curWarp.s (n + 1)) (s.curWarp.s (n + 2)) (s.curWarp.s (n + 3))))
      ∧ ((if x then table % 16 = 0 ∧ table + 128 ≤ own else table % 128 = 0) →
        ok (.ctload x n d a) 5 none (.ctload x n (BitVec.ofNat 64 table)) ∧ ok (.ctsave x n d a) 5 none (.ctsave x n (BitVec.ofNat 64 table)))
      ∧ (∀ (t : FTy) db dd hd first count,
        let off := s.lead32 c
        s.lead64 a % 128 = 0 → recordHeld s (s.lead64 a) 128 db → parseDesc db = some dd →
        coordOk (tileCounts dd.shape dd.tile) (s.lead64 b) = true → header off hd →
        bytesToNat (hd.take 4) = first → bytesToNat ((hd.drop 4).take 4) = count → bytesToNat (hd.drop 8) = 0 →
        1 ≤ count → first % 256 + count ≤ 256 → first + count ≤ dd.size → off + 16 + count * (if t = .f32 then 4 else 2) ≤ own →
        ok (.kvput t d a b c) 5 none (.kvput t (BitVec.ofNat 64 (s.lead64 a)) (BitVec.ofNat 64 (s.lead64 b)) off first count))
      ∧ (∀ hd dests (list : Bool),
        let count := s.lead32 b
        let tab := s.lead32 c
        1 ≤ count → count ≤ 2 ^ 24 → table % 4 = 0 → (x = true → table + 4 * count ≤ own) → header tab hd →
        bytesToNat (hd.take 4) = dests → ((bytesToNat ((hd.drop 4).take 4)) % 2 = 1 ↔ list = true) → 1 ≤ dests → dests ≤ 1024 →
        tab + 16 + 8 * dests + (if list then 4 * count else 0) ≤ own →
        ok (.bin x d a b c) 7 none (.bin x (BitVec.ofNat 64 table) count tab dests list))

/-- Both statements above together: CopyIssue, QueueIssue.
Readings and choices of the model in it: notes/assumptions/33, 34, 35. -/
def Obligations.QueueIssue : Prop := Part.CopyIssue ∧ Part.QueueIssue

/-- R312, R313, R315: the matrix instructions add a step to the warp's open buffer while it holds fewer than 16 and the step's type, offset and
range pass; mtask puts the buffer on the deck, its status and its drains' registers pending, and the buffer is empty.
Readings and choices of the model in it: notes/assumptions/61. -/
def Obligations.DeckIssue : Prop :=
  ∀ (s : State) (d a b : Operand) (j m : Nat) (zero add : Bool) (t : MTy) (ty : F8Ty),
    let off := s.lead32 a
    let own := (s.crewOf s.cur.warp).size
    let class8 := match t with | .f8 _ => true | _ => false
    let core := s.coreOf s.cur.warp
    let steps := s.curWarp.taskBuf
    let sameClass := fun (k : Nat) => ∀ x ∈ steps, ∀ c, stepClass x = some c → c = k
    let step := fun (i : Instr) (x : DeckOp) => clear i s = true → steps.length < 16 → ∃ u, exec i s = .next u
      ∧ u.curWarp.taskBuf = steps ++ [x] ∧ Advanced s u i.len
      ∧ (∀ n l, u.curWarp.v n l = s.curWarp.v n l) ∧ (∀ n, u.curWarp.s n = s.curWarp.s n)
      ∧ (∀ w, w ≠ s.cur.warp → u.warp w = s.warp w) ∧ (∀ y, u.mem.get y = s.mem.get y) ∧ u.engines = s.engines
    let fits := fun (n : Nat) => off % 16 = 0 ∧ off + n ≤ own
    let at_ := BitVec.ofNat 64 off
    (sameClass (mtyClass t) → fits (if class8 then 12672 else 12288) → step (.mload (.tile t) a b) (.load (.tile t) at_ 0))
      ∧ (sameClass 0 → fits 16 → step (.mload (.image ty) a b) (.load (.image ty) at_ 0))
      ∧ (fits 32768 → step (.mload (.acc j) a b) (.load (.acc j) at_ 0))
      ∧ (∀ db dd, sameClass 0 → s.lead64 a % 128 = 0 → recordHeld s (s.lead64 a) 128 db → parseDesc db = some dd → matDesc ty dd = true →
          coordOk (tileCounts dd.shape dd.tile) (s.lead64 b) = true →
          step (.mload (.packed ty) a b) (.load (.packed ty) (BitVec.ofNat 64 (s.lead64 a)) (BitVec.ofNat 64 (s.lead64 b))))
      ∧ step .mswap .swap
      ∧ ((∀ k, lastWeight steps = some k → k = mtyClass t) → fits ((if class8 then 198 else 192) * (16 * 2 ^ m)) →
          step (.mmul m zero t j a) (.mul m zero t j off))
      ∧ (fits (usedRows steps j * 256) → step (.mdrain .xf32 j d a b) (.drain .xf32 j d at_ 0 []))
      ∧ (fits (usedRows steps j * 128) → step (.mdrain .xbf16 j d a b) (.drain .xbf16 j d at_ 0 []))
      ∧ (off ≤ 3 → step (.mdrain .vreg j d a b) (.drain .vreg j d at_ 0 []))
      ∧ (∀ bytes r, s.lead64 a % 64 = 0 → recordHeld s (s.lead64 a) 64 bytes → parseLayout bytes = some r → drainRecord add r = true →
          coordOk (tileCounts r.shape r.tile) (s.lead64 b) = true →
          let f := if add then MDrain.globAdd else .glob
          step (.mdrain f j d a b) (.drain f j d (BitVec.ofNat 64 (s.lead64 a)) (BitVec.ofNat 64 (s.lead64 b)) bytes))
      ∧ (clear (.mtask d a) s = true → s.engineRoom s.cur.warp (.mtask d a) = true → steps ≠ [] →
          (∀ k, k < 64 → (s.lead64 a).testBit k = true → ((s.crewOf s.cur.warp).tags.get k).defined = true) →
          ∃ u task, exec (.mtask d a) s = .next u ∧ u.curWarp.taskBuf = [] ∧ Advanced s u (Instr.mtask d a).len
            ∧ (u.engs core).deck = (s.engs core).deck ++ [task] ∧ task.num = s.nextOp ∧ task.steps = steps ∧ task.mask = s.lead64 a
            ∧ task.st = d ∧ task.warp = s.cur.warp ∧ task.at_ = 0 ∧ task.running = false
            ∧ u.curWarp.pending = s.curWarp.pending ++ ⟨d, 1, s.nextOp⟩ :: (taskRegs steps).map (fun p => ⟨p.1, p.2, s.nextOp⟩)
            ∧ (∀ w, w ≠ s.cur.warp → u.warp w = s.warp w) ∧ (∀ y, u.mem.get y = s.mem.get y))

/-- R103, R304, R305, R309, R310: arrival counters are armed, added to, and awaited; a queue fence stands in every queue it names until it heads
all of them; tagset defines, fills, empties and reads a tile tag.
Readings and choices of the model in it: notes/assumptions/36, 44, 47. -/
def Obligations.CountersFencesTags : Prop :=
  ∀ (s : State) (d a b : Operand) (m : Nat),
    let tok := crewTok s.cur.warp
    let c := s.crew tok
    let core := s.coreOf s.cur.warp
    let off := s.lead32 a
    let others := fun (u : State) => ∀ w, w ≠ s.cur.warp → u.warp w = s.warp w
    Good s →
    (clear (.arminit d a b) s = true → c.resident = true → off % 16 = 0 → off + 16 ≤ c.size → s.lead32 b % 2 ^ 32 = s.lead32 b → s.lead32 b ≠ 0 →
        ∃ u, exec (.arminit d a b) s = .next u
          ∧ u.counter tok off = ⟨0, s.lead32 b, true, false, false, 0, (s.counter tok off).epoch⟩
          ∧ RegsWritten s u.curWarp 2 d (fun _ => s.handleOf tok off) ∧ Advanced s u (Instr.arminit d a b).len ∧ others u
          ∧ ∀ x, x < c.phys off ∨ c.phys off + 16 ≤ x → u.mem.get x = s.mem.get x)
      ∧ (∀ k o, off % 16 = 0 → s.counterPlace tok off = some (k, o) →
        let old := s.counter k o
        (clear (.arrive a b) s = true → (s.crew k).resident = true → (∀ p ∈ s.warps, p.2.waits = []) →
            ∃ u, exec (.arrive a b) s = .next u
              ∧ u.counter k o = Counter.arrive old (s.lead32 b)
              ∧ Advanced s u (Instr.arrive a b).len ∧ u.curWarp = { s.curWarp with lanes := u.curWarp.lanes } ∧ others u
              ∧ ∀ x, x < (s.crew k).phys o ∨ (s.crew k).phys o + 16 ≤ x → u.mem.get x = s.mem.get x)
          ∧ (clear (.await d a) s = true → old.armed = true →
            (old.complete = true ∨ old.error = true → ∃ u, exec (.await d a) s = .next u
              ∧ RegsWritten s u.curWarp 1 d (fun _ => (if old.error then 5 else 0) + old.cause % 16 * 2 ^ 8 + old.arrived * 2 ^ 32)
              ∧ (u.core core).l1 = [] ∧ Advanced s u (Instr.await d a).len ∧ others u ∧ ∀ x, u.mem.get x = s.mem.get x)
            ∧ (old.complete = false → old.error = false → ∃ u, exec (.await d a) s = .next u ∧ WarpOnly s u
              ∧ u.curWarp = { s.curWarp with
                  waits := s.curWarp.waits ++ [⟨s.cur.lanes, s.cur.pc, (Instr.await d a).len, s.cur.port, .await off d⟩] })))
      ∧ (let g := s.engs core
        let names := fun (k : Nat) => m.testBit k = true
        clear (.qfence m) s = true → s.engineRoom s.cur.warp (.qfence m) = true → (∀ k, g.fenceAt k = none) →
        (∀ k, ∀ e ∈ g.list k, e.num < s.nextOp) → (∀ t ∈ g.deck, t.num < s.nextOp) →
        let passed := fun (u : State) => Advanced s u (Instr.qfence m).len ∧ u.curWarp = { s.curWarp with lanes := u.curWarp.lanes } ∧ others u
          ∧ ∀ x, u.mem.get x = s.mem.get x
        ((∀ k, k < 7 → names k → g.count k = 0) → ∃ u, exec (.qfence m) s = .next u ∧ passed u
            ∧ (∀ k, (u.engs core).list k = g.list k) ∧ (u.engs core).deck = g.deck)
        ∧ ((∃ k, k < 7 ∧ names k ∧ g.count k ≠ 0) → ∃ u, exec (.qfence m) s = .next u ∧ passed u
            ∧ ∀ k, k < 7 → (u.engs core).count k = g.count k + (if names k then 1 else 0)))
      ∧ (let x := s.lead32 a
        let n := x % 64
        let lo := s.lead32 b
        let hi := lo + 16 * (x / 2 ^ 16 % 2 ^ 16)
        let old := c.tags.get n
        let set := fun (u : State) (tag : TileTag) => (u.crew tok).tags.get n = tag ∧ (∀ k, k ≠ n → (u.crew tok).tags.get k = c.tags.get k)
          ∧ RegsWritten s u.curWarp 1 d (fun _ => (if old.defined then 1 else 0) + (if old.full then 2 else 0))
          ∧ Advanced s u (Instr.tagset d a b).len ∧ others u ∧ ∀ y, u.mem.get y = s.mem.get y
        clear (.tagset d a b) s = true → s.same32 a = true → s.same32 b = true → x / 2 ^ 6 % 4 = 0 → x / 2 ^ 10 % 2 ^ 6 = 0 →
        (x / 2 ^ 8 % 4 = 3 → ∃ u, exec (.tagset d a b) s = .next u ∧ set u old)
          ∧ (x / 2 ^ 8 % 4 = 1 ∨ x / 2 ^ 8 % 4 = 2 → old.defined = true →
              ∃ u, exec (.tagset d a b) s = .next u ∧ set u { old with full := x / 2 ^ 8 % 4 == 1 })
          ∧ (x / 2 ^ 8 % 4 = 0 → lo < hi → lo % 16 = 0 → hi ≤ c.size →
              (∀ p ∈ c.tags, p.1 ≠ n → p.2.defined = true → hi ≤ p.2.lo ∨ p.2.hi ≤ lo) → old.defined = false →
              ∃ u, exec (.tagset d a b) s = .next u ∧ set u ⟨true, false, lo, hi⟩))

/-- What an engine operation's end leaves (R101, R102, R295): it has left its queue, its status word stands in a register that was pending, and no
write of it is pending any more. -/
structure Sys2Proof.OpEnded (s t : State) (core q : Nat) (e : EngEntry) (status : Nat) : Prop where
  queue : (t.engs core).list q <:+ ((s.engs core).list q).drop 1
  status : ∀ n, e.st = .s n → ⟨e.st, 1, e.num⟩ ∈ (s.warp e.warp).pending → (t.warp e.warp).s n = BitVec.ofNat 64 status
  pending : ∀ p ∈ (t.warp e.warp).pending, p.num ≠ e.num ∨ p.reg ≠ e.st

/-- What the elements or blocks of a copy gave, as the copy's end sees it: its status word, and the cause its counter is told (R295, R303). -/
def Sys2Proof.copyStatus (out : CopyOut) (crc : Bool) (expect : Nat) : Nat :=
  let sum := crc32c out.bytes
  match out.dec, out.stop with
  | some (f, b), _ => 5 + out.count % 2 ^ 24 * 2 ^ 8 + (2 ^ 28 + f.sub % 2 ^ 4 * 2 ^ 24 + f.off % 2 ^ 12 * 2 ^ 12 + b % 2 ^ 8 * 2 ^ 4) % 2 ^ 32 * 2 ^ 32
  | none, some (.cause k) => (if out.write = true ∧ k = 3 then 7 else 5) + out.count % 2 ^ 24 * 2 ^ 8 + k % 2 ^ 4 * 2 ^ 60
  | none, _ => (if crc = true ∧ expect ≠ sum then 4 else 0) + out.count % 2 ^ 24 * 2 ^ 8 + sum % 2 ^ 32 * 2 ^ 32

/-- R295, R298, R300 to R303, R314, R315: the head of a copy queue, of any record, patch and form, is performed as its elements or blocks are: it
leaves its queue with its status, OK, or CRC where the checksum asked for differs, or what its fault gives, and its counter takes the bytes
delivered; a task's drain moves its task on; a copy that must wait stays at the head. An element outside the tensor's shape is zero.
Readings and choices of the model in it: notes/assumptions/39, 43, 99. -/
def Sys2Proof.Part.CopiesPerformed : Prop :=
  ∀ (s : State) (core q : Nat) (e : EngEntry), Good s → q < 4 → s.headReady core q = some e →
    let tok := crewTok e.warp
    let c := s.crew tok
    let g := s.agentOf e core
    let patched := fun (recd : List Byte) => ((parseLayout recd).getD default).patched (e.count.map fun n => n * ((e.patch.getD 0) / 2 ^ 32 % 2 ^ 32))
    (∀ (t : CpyTy) (load add crc arr : Bool) recd coord off size ctr expect out u,
        let r := patched recd
        e.op = (if load then .load t crc arr recd coord off size ctr expect else .store add crc arr recd coord off size ctr expect) →
        (if load = false then storePlain g r coord.toNat add (fun te => engSpad g tok (off + r.z * te) r.z) (List.range (product r.tile)) s
          else if r.packed then loadPacked g t r.base coord.toNat tok off size s
          else loadElems g r coord.toNat tok off (List.range (product r.tile)) [] s) = (out, u) →
        ((∀ x, out.stop = some x → ∃ k, x = .cause k) →
          ∃ v, exec (.copyPerform core q) s = .next v ∧ OpEnded s v core q e (copyStatus out crc expect)
            ∧ (∀ x, arr = false ∨ x < c.phys ctr ∨ c.phys ctr + 16 ≤ x → v.mem.get x = u.mem.get x)
            ∧ (arr = true → out.dec = none → let added := Counter.arrive (u.counter tok ctr) out.count
                (out.stop = none → v.counter tok ctr = added)
                ∧ ∀ k, out.stop = some (.cause k) → 0 < k → k < 256 → v.counter tok ctr = Counter.fail added k))
        ∧ (∀ x, out.dec = none → out.stop = some x → (∀ k, x ≠ .cause k) → exec (.copyPerform core q) s = .next (s.holdOp core q e x)))
      ∧ (∀ (add : Bool) recd coord rows task out u, e.op = .drain add recd coord rows task →
        let r := (parseLayout recd).getD default
        let row := fun te => te / r.tile.headD 1
        storePlain g r coord.toNat add (fun te => pure (drainBytes r.elem ((rows.getD (row te) []).getD (te % r.tile.headD 1) 0)))
          ((List.range (product r.tile)).filter fun te => row te < rows.length) s = (out, u) →
        (∀ cause, out.stop = (if cause = 0 then none else some (.cause cause)) →
          ∃ v, exec (.copyPerform core q) s = .next v ∧ OpEnded s v core q e 0 ∧ v.mem = u.mem
            ∧ (v.engs core).deck <:+ (s.engs core).deck.map fun x =>
                if x.num = task ∧ x.copies = true then
                  if cause = 0 then { x with copies := false, at_ := x.at_ + 1 }
                  else { x with copies := false,
                                ended := some (5 + x.at_ % 2 ^ 24 * 2 ^ 8 + (cause % 2 ^ 4 * 2 ^ 28 + x.at_ % 2 ^ 4) % 2 ^ 32 * 2 ^ 32, none) }
                else x)
        ∧ (∀ x, out.stop = some x → (∀ k, x ≠ .cause k) → exec (.copyPerform core q) s = .next (s.holdOp core q e x)))
      ∧ (∀ (r : Layout) k off te, inShape r.shape (elemCoord r.tile k te) = false →
        runEng (loadElem g r k tok off te) s = (.ok (List.replicate r.z 0), s.setCrewBytes tok (off + r.z * te) (List.replicate r.z 0)))
      ∧ (∀ off n, s.badWord (c.phys off) n = false → runEng (engSpad g tok off n) s = (.ok (s.mem.read (c.phys off) n), s))

/-- R77, R78, R298: the address of element `te` of the tile at coordinate `d` of a plain record: none for one outside the shape. -/
def Sys2Proof.elementAt (r : Layout) (d te : Nat) : Option Nat :=
  let t := fun i => r.tile.getD i 1
  let xs := [d % 2 ^ 20 * t 0 + te % t 0,
    d / 2 ^ 20 % 2 ^ 16 * t 1 + te / t 0 % t 1,
    d / 2 ^ 36 % 2 ^ 12 * t 2 + te / (t 0 * t 1) % t 2,
    d / 2 ^ 48 % 2 ^ 8 * t 3 + te / (t 0 * t 1 * t 2) % t 3,
    d / 2 ^ 56 % 2 ^ 8 * t 4 + te / (t 0 * t 1 * t 2 * t 3) % t 4]
  let x := fun i => xs.getD i 0
  let stride := fun i => r.stride.getD (i - 1) 0
  let c := r.ilvdim
  if ∀ i, i < 5 → x i < r.shape.getD i 1 then
    some (r.base + r.z * (if r.ilv = 1 then x 0 + stride 1 * x 1 + stride 2 * x 2 + stride 3 * x 3 + stride 4 * x 4
      else x c % r.ilv + r.ilv * x 0 + (([1, 2, 3, 4].filter (· ≠ c)).map fun i => stride i * x i).sum + stride c * (x c / r.ilv)))
  else none

/-- R156, R298, R300: the bytes that a plain copy moves, element by element, where every element inside the shape lies in this module, on a page that
the core's TLB holds, with nothing against its access: a load puts each element's bytes, or zeros for one outside the shape, at its place in
the scratchpad; a store puts each element inside the shape, as its place holds it, at its address, and with .add the .f32 sum rounded to
nearest even; no other byte changes. `pa` are the elements' physical addresses. -/
def Sys2Proof.Part.ElementsMoved : Prop :=
  ∀ (s : State) (core q : Nat) (e : EngEntry) (recd : List Byte) (r : Layout) (coord : DWord) (off : Nat) (pa : Nat → Nat),
    Good s → q < 4 → s.headReady core q = some e → e.count = none → parseLayout recd = some r → r.packed = false →
    let c := s.crew (crewTok e.warp)
    let n := product r.tile
    let at_ := elementAt r coord.toNat
    let place := fun te => c.phys (off + r.z * te)
    let reached := fun (a : Access) => ∀ te va, te < n → at_ te = some va → va < 2 ^ 53 ∧ va / 8192 ∉ e.failed ∧ s.openWrite (pa te) r.z = false
      ∧ (pa te + r.z ≤ c.phys off ∨ c.phys off + r.z * n ≤ pa te)
      ∧ ∃ x, s.xlate core e.ctx va a = .ok x ∧ x.pa = pa te ∧ x.packed = false ∧ x.mig = false ∧ isRemote x.pa = false
    (∀ t crc size ctr expect, e.op = .load t crc false recd coord off size ctr expect →
        reached .read → (∀ te, te < n → (at_ te).isSome = true → s.readBad (pa te) r.z = false) →
        ∃ v, exec (.copyPerform core q) s = .next v
          ∧ (∀ te, te < n → v.mem.read (place te) r.z = if (at_ te).isSome then s.mem.read (pa te) r.z else List.replicate r.z 0)
          ∧ ∀ a, a < c.phys off ∨ c.phys off + r.z * n ≤ a → v.mem.get a = s.mem.get a)
      ∧ (∀ add crc size ctr expect, e.op = .store add crc false recd coord off size ctr expect → (add = false → r.ilv = 1) → (add = true → r.z = 4) →
        reached (if add then .both else .write) →
        (∀ te, te < n → (at_ te).isSome = true → s.chanFailed (pa te) = false ∧ s.badWord (place te) r.z = false
          ∧ (add = true → s.readBad (pa te) 4 = false)) →
        (∀ te u, te < n → u < n → te ≠ u → (at_ te).isSome = true → (at_ u).isSome = true → pa te + r.z ≤ pa u ∨ pa u + r.z ≤ pa te) →
        ∃ v, exec (.copyPerform core q) s = .next v
          ∧ (∀ te, te < n → (at_ te).isSome = true → v.mem.read (pa te) r.z =
              if add then natToBytes 4 (floatOp .fadd .f32 .rne (bytesToNat (s.mem.read (pa te) 4)) (bytesToNat (s.mem.read (place te) 4)) 0 0).val
              else s.mem.read (place te) r.z)
          ∧ ∀ a, (∀ te, te < n → (at_ te).isSome = true → a < pa te ∨ pa te + r.z ≤ a) → v.mem.get a = s.mem.get a)

/-- R117, R295, R306 to R308: the head of the bulk queue, of any form, patched or not, is performed as its pieces are, and its counter takes the
bytes moved; a length above 0xFFFFF0 and a refused destination end it with their causes; a piece from another module adds to its counter and
stores its bytes where the range lies inside the crew's allocation, and is dropped where it does not or its handle is refused.
Readings and choices of the model in it: notes/assumptions/39, 40, 41, 43. -/
def Sys2Proof.Part.BulksPerformed : Prop :=
  ∀ (s : State), Good s →
    (∀ (core : Nat) (e : EngEntry) (xs xd arr : Bool) src dst len h, s.headReady core 6 = some e → e.op = .bulk xs xd arr src dst len h →
        let tok := crewTok e.warp
        let n := match e.patch, e.count with
          | some p, some k => k * (p / 2 ^ 32)
          | _, _ => len.toNat
        let target := s.bulkEnd e.num xd arr dst.toNat n h.toNat
        let ends := fun (status : Nat) (m : Memory) => ∃ t, exec (.bulkPerform core) s = .next t ∧ OpEnded s t core 6 e status ∧ t.mem = m
        (0xFFFFF0 < n → ends (5 + 10 * 2 ^ 60) s.mem)
        ∧ (n = 0 → ends 0 s.mem)
        ∧ (0 < n → n ≤ 0xFFFFF0 → target = .refused → xd = true → ends (5 + 9 * 2 ^ 60) s.mem)
        ∧ (0 < n → n ≤ 0xFFFFF0 → ¬ (target = .refused ∧ xd = true) → ∀ out u,
            bulkPieces (s.agentOf e core) xs xd tok target (n / 16 + 1) src.toNat dst.toNat n 0 s = (out, u) →
            let moved := out.count % 2 ^ 24 * 2 ^ 8
            let done := fun (status : Nat) => ∃ t, exec (.bulkPerform core) s = .next t ∧ OpEnded s t core 6 e status
              ∧ (∀ k o, target = .here k o → (s.crew k).resident = true →
                  (out.stop = none → t.counter k o = Counter.arrive (u.counter k o) out.count)
                  ∧ ∀ x, x < (s.crew k).phys o ∨ (s.crew k).phys o + 16 ≤ x → t.mem.get x = u.mem.get x)
              ∧ ((∀ k o, target ≠ .here k o) → t.mem = u.mem)
            (out.stop = none → done (if target = .refused then 5 + moved + 9 * 2 ^ 60 else moved))
            ∧ (∀ k, out.stop = some (.cause k) → done ((if out.write = true ∧ k = 3 then 7 else 5) + moved + k % 2 ^ 4 * 2 ^ 60))
            ∧ (∀ x, out.stop = some x → (∀ k, x ≠ .cause k) → exec (.bulkPerform core) s = .next (s.holdOp core 6 e x))))
      ∧ (∀ (handle : DWord) (bytes : List Byte) dst count,
        let target := if handle.toNat % 64 = s.module_ then s.handleTarget handle.toNat else none
        (target = none → ∀ xd, exec (.bulkPieceArrival handle xd bytes count) s = .next s)
        ∧ (∀ k o, target = some (k, o) →
          ((s.crew k).size < dst + bytes.length → exec (.bulkPieceArrival handle (some dst) bytes count) s = .next s)
          ∧ ((s.crew k).resident = true →
            let apart := fun x => x < (s.crew k).phys o ∨ (s.crew k).phys o + 16 ≤ x
            (∃ t, exec (.bulkPieceArrival handle none bytes count) s = .next t ∧ t.counter k o = Counter.arrive (s.counter k o) count
              ∧ ∀ x, apart x → t.mem.get x = s.mem.get x)
            ∧ (dst + bytes.length ≤ (s.crew k).size →
              ∃ t, exec (.bulkPieceArrival handle (some dst) bytes count) s = .next t
                ∧ t.counter k o = Counter.arrive ((s.setCrewBytes k dst bytes).counter k o) count
                ∧ (dst + bytes.length ≤ o ∨ o + 16 ≤ dst → t.mem.read ((s.crew k).phys dst) bytes.length = bytes)
                ∧ ∀ x, apart x → x < (s.crew k).phys dst ∨ (s.crew k).phys dst + bytes.length ≤ x → t.mem.get x = s.mem.get x))
          ∧ ((s.crew k).resident = false → (s.crew k).image.length = (s.crew k).size →
            (∃ t, exec (.bulkPieceArrival handle none bytes count) s = .next t ∧ t.counter k o = Counter.arrive (s.counter k o) count ∧ t.mem = s.mem)
            ∧ (dst + bytes.length ≤ (s.crew k).size →
              ∃ t, exec (.bulkPieceArrival handle (some dst) bytes count) s = .next t
                ∧ t.counter k o = Counter.arrive ((s.setCrewBytes k dst bytes).counter k o) count ∧ t.mem = s.mem))))

/-- The three statements above together: CopiesPerformed, ElementsMoved, BulksPerformed.
Readings and choices of the model in it: notes/assumptions/39, 40, 41, 43, 99. -/
def Obligations.CopiesPerformed : Prop := Part.CopiesPerformed ∧ Part.ElementsMoved ∧ Part.BulksPerformed

/-- R312 to R317: the deck. A task that may start or go on holds an engine and performs its steps: the last one leaves what it computes in the
engine's planes and accumulators, in scratchpad, or gives its rows to copy queue 0, and ends the task with the number of its steps; an ended
task leaves the deck with its status, and a decode fault waits in the status register.
Readings and choices of the model in it: notes/assumptions/43, 60, 99. -/
def Sys2Proof.Part.DeckPerformed : Prop :=
  ∀ (s : State) (core idx : Nat) (task : DeckTask), ((s.engs core).deck)[idx]? = some task →
    let deck := (s.engs core).deck
    let runs := fun (P : State → DeckTask → Prop) => ∃ t u, exec (.deckTaskStart core idx) s = .next t ∧ ((t.engs core).deck)[idx]? = some u ∧ P t u
    (s.taskStarts core idx = true ∨ s.taskGoes task = true →
        let now := if s.taskStarts core idx then { task with running := true, begun := true, hold := none } else task
        let s0 := if s.taskStarts core idx then s.setTask core now else s
        let g : Agent := ⟨core, task.ctx, task.failed, some task.walked, s.lateSince task.ctx task.linkSince⟩
        let n := task.steps.length
        runs (fun _ u => u.num = task.num ∧ u.steps = task.steps ∧ u.running = true ∧ task.at_ ≤ u.at_)
        ∧ (s0.taskGoes now = true → task.fence = none → ∀ x, task.steps[task.at_]? = some x →
          (∀ m v, n = task.at_ + 1 → runEng (deckStep g now x) s0 = (.ok (.go m), v) →
            runs (fun t u => u.mat = m ∧ u.ended = some (n % 2 ^ 24 * 2 ^ 8, none) ∧ t.mem = v.mem))
          ∧ (∀ k v, runEng (deckStep g now x) s0 = (.error (.cause k), v) →
            runs (fun t u => u.at_ = task.at_
              ∧ u.ended = some (5 + task.at_ % 2 ^ 24 * 2 ^ 8 + (k % 2 ^ 4 * 2 ^ 28 + task.at_ % 2 ^ 4) % 2 ^ 32 * 2 ^ 32, none) ∧ t.mem = v.mem))
          ∧ (∀ add recd coord rows v, runEng (deckStep g now x) s0 = (.ok (.copy add recd coord rows), v) →
            (s.engs core).count 0 < 16 → ([0, 1, 2, 3, 6].map (s.engs core).count).sum < 128 →
            runs (fun t u => u.copies = true ∧ u.at_ = task.at_ ∧ u.ended = none ∧ t.mem = v.mem
              ∧ ∃ y, (t.engs core).list 0 = (s.engs core).list 0 ++ [y] ∧ y.warp = task.warp ∧ y.op = .drain add recd coord rows task.num)))
        ∧ (task.steps = [.swap] → task.at_ = 0 → task.copies = false → task.fence = none → s.taskStarts core idx = true →
          runs (fun t u => u.mat = { task.mat with active := task.mat.shadow, shadow := task.mat.active }
            ∧ u.ended = some (1 * 2 ^ 8, none) ∧ t.mem = s.mem)))
      ∧ (∀ status, task.ended = some (status, none) →
        ∃ t, exec (.deckTaskComplete core idx) s = .next t ∧ (t.engs core).deck <:+ deck.eraseIdx idx
          ∧ (∀ n, task.st = .s n → ⟨task.st, 1, task.num⟩ ∈ (s.warp task.warp).pending → (t.warp task.warp).s n = BitVec.ofNat 64 status)
          ∧ (∀ p ∈ (t.warp task.warp).pending, p.num ≠ task.num) ∧ t.mem = s.mem)
      ∧ (∀ status f n, task.ended = some (status, some f) → task.st = .s n → ⟨task.st, 1, task.num⟩ ∈ (s.warp task.warp).pending →
        ∃ t, exec (.deckTaskComplete core idx) s = .next t ∧ (t.engs core).deck <:+ deck.eraseIdx idx
          ∧ (t.warp task.warp).s n = BitVec.ofNat 64 status ∧ (t.warp task.warp).deckFaults.find n = some f
          ∧ (∀ p ∈ (t.warp task.warp).pending, p.num ≠ task.num) ∧ t.mem = s.mem)
      ∧ (∀ status f n, task.ended = some (status, some f) → task.st = .s n → (s.warp task.warp).pending = [] →
        (s.crew (crewTok task.warp)).gang = 0 →
        ∃ t, exec (.deckTaskComplete core idx) s = .next t ∧ (t.crew (crewTok task.warp)).failed = true
          ∧ (∀ k, k < 64 → (t.warp (crewTok task.warp * 64 + k)).live = false) ∧ t.mem = s.mem)

/-- R110, R312, R318 to R321: the encoder queue and the binning engine. A code table is taken from, or given to, 128 bytes of either space; a
block update ends as it says; bin counts each destination's keys, drops those beyond the last, writes its table and gives the commands held for
it their counts; each fault of theirs ends its operation with its cause, and one that must wait stays at the head of its queue.
Readings and choices of the model in it: notes/assumptions/43, 45, 46. -/
def Sys2Proof.Part.EncoderAndBinPerformed : Prop :=
  ∀ (s : State) (core : Nat) (e : EngEntry),
    let tok := crewTok e.warp
    let c := s.crew tok
    let g := s.agentOf e core
    let ends := fun (i : Instr) (q status : Nat) (m : Memory) => ∃ t, exec i s = .next t ∧ OpEnded s t core q e status ∧ t.mem = m
    let lens := fun k => ((s.ctx e.ctx).tables.find k).getD (List.replicate 256 0)
    let judged := fun (l : List Nat) => let sum := (l.map fun n => if n = 0 then 0 else 2 ^ (15 - n)).sum
      (if 0 < sum ∧ sum ≤ 2 ^ 15 then 2 ^ 8 else 0) + (if sum = 2 ^ 15 then 2 ^ 9 else 0)
    let fetched := fun (x : Bool) (a : DWord) (n : Nat) => if x then engSpad g tok a.toNat n else engRead g a.toNat n false
    let given := fun (x : Bool) (a : DWord) (bs : List Byte) => if x then engSpadWrite tok a.toNat bs else engWrite g a.toNat bs false
    let failed := fun k => 5 + k % 2 ^ 4 * 2 ^ 60
    let holds := fun {α : Type} (i : Instr) (q : Nat) (act : EngM α) =>
      ∀ x u, runEng act s = (.error x, u) → (∀ f, x ≠ .cause f) → exec i s = .next (s.holdOp core q e x)
    (s.headReady core 5 = some e →
        (∀ x k a, e.op = .ctload x k a →
          (∀ bs u, runEng (fetched x a 128) s = (.ok bs, u) →
            ∃ t, exec (.encoderTableOp core) s = .next t ∧ OpEnded s t core 5 e (judged (tableLengths bs))
              ∧ (t.ctx e.ctx).tables.find k = some (tableLengths bs) ∧ t.mem = u.mem)
          ∧ (∀ f u, runEng (fetched x a 128) s = (.error (.cause f), u) → ends (.encoderTableOp core) 5 (failed f) u.mem)
          ∧ holds (.encoderTableOp core) 5 (fetched x a 128))
        ∧ (∀ x k a, e.op = .ctsave x k a →
          (∀ u, runEng (given x a (tableBytes (lens k))) s = (.ok (), u) → ends (.encoderTableOp core) 5 (judged (lens k)) u.mem)
          ∧ (∀ f u, runEng (given x a (tableBytes (lens k))) s = (.error (.cause f), u) → ends (.encoderTableOp core) 5 (failed f) u.mem)
          ∧ holds (.encoderTableOp core) 5 (given x a (tableBytes (lens k))))
        ∧ (∀ k a, e.op = .ctsave true k a → ends (.encoderTableOp core) 5 (judged (lens k)) (s.mem.write (c.phys a.toNat) (tableBytes (lens k))))
        ∧ (∀ t h coord off first n, e.op = .kvput t h coord off first n →
          let act := updateBlock g t h.toNat coord.toNat tok off first n
          (∀ x ok u, runEng act s = (.ok (.status x ok), u) → ends (.blockUpdate core) 5 x u.mem)
          ∧ (∀ f u, runEng act s = (.error (.cause f), u) → ends (.blockUpdate core) 5 (failed f) u.mem)
          ∧ holds (.blockUpdate core) 5 act))
      ∧ (s.headReady core 7 = some e → ∀ x keys n tab dests list, e.op = .bin x keys n tab dests list →
        let frees := fun (w patch since : Nat) => decide (crewTok w = tok ∧ patch % 2 ^ 17 * 16 = tab ∧ since < s.cycle)
        let hits := s.sched.spawns.filter fun h => frees h.warp h.patch h.since
        let patches := fun (counts : List Nat) (v : State) => ∀ q, q < 4 ∨ q = 6 → ∃ l, l <:+ (s.engs core).list q
          ∧ (v.engs core).list q = l.map fun y =>
            if y.count.isNone && (y.patch.any fun p => frees y.warp p y.since) then
              { y with count := some (counts.getD ((y.patch.getD 0) / 2 ^ 17 % 2 ^ 10) 0) } else y
        let freed := fun (counts : List Nat) (v t : State) => t = hits.foldl (fun s h => s.releaseSpawn counts h) v ∧ patches counts v
        (∀ bs u, runEng (fetched x keys (4 * n)) s = (.ok bs, u) →
          let ks := fieldsOf bs 0 4 n
          ∃ (b : BinTable) (v t : State), exec (.binPerform core) s = .next t ∧ freed (b.items.map List.length) v t
            ∧ OpEnded s v core 7 e (b.total % 2 ^ 24 * 2 ^ 8) ∧ v.mem = u.mem.write (c.phys (tab + 8)) (b.bytes list)
            ∧ b.items.length = dests ∧ b.dropped = ks.countP (fun k => dests ≤ k)
            ∧ ∀ k, k < dests → b.items.getD k [] = (List.range n).filter fun j => ks.getD j 0 = k)
        ∧ (∀ f u, runEng (fetched x keys (4 * n)) s = (.error (.cause f), u) →
          ∃ v t, exec (.binPerform core) s = .next t ∧ freed [] v t ∧ OpEnded s v core 7 e (failed f) ∧ v.mem = u.mem)
        ∧ holds (.binPerform core) 7 (fetched x keys (4 * n)))

/-- Both statements above together: DeckPerformed, EncoderAndBinPerformed.
Readings and choices of the model in it: notes/assumptions/43, 45, 46, 60, 99. -/
def Obligations.DeckEncoderBinPerformed : Prop := Part.DeckPerformed ∧ Part.EncoderAndBinPerformed

/-- R36, R37, R321 to R323, R393: spawn of a valid record that a cluster could take occupies the lowest free launch slot and answers its handle, the
held form held until its bin; with every slot taken it answers NO_SPACE, and its completion record, if it names one, takes outcome 3 and that
status as the scheduler writes a record; cancel, after the crews that have ended, of a handle of another context
answers EXPIRED and changes nothing, of a phase yet to come marks that phase.
Readings and choices of the model in it: notes/assumptions/107. -/
def Obligations.SpawnAndCancel : Prop :=
  ∀ (s : State) (d a b : Operand) (bs : List Byte) (r : LaunchRec),
    let va := s.lead64 a
    let l := s.launchOf s.cur.warp
    let patch := s.lead64 b
    let kept := fun (t : State) => (∀ w, w ≠ s.cur.warp → t.warp w = s.warp w) ∧ ∀ x, t.mem.get x = s.mem.get x
    let full := fun (i : Instr) => s.freeLaunch = none →
      (r.done = 0 → ∃ t, exec i s = .next t ∧ kept t ∧ Advanced s t i.len ∧ RegsWritten s t.curWarp 2 d (fun _ => 6)
        ∧ ∀ k, t.launch k = s.launch k)
      ∧ ∃ t u : State, exec i s = .next t ∧ u = { s with warps := u.warps, cores := u.cores, sliceCount := u.sliceCount }
        ∧ t.mem = (u.launchDone (s.ctxOf s.cur.warp) r.done ⟨3, 6, 0, 0, 0, 0, none⟩).mem
    (va % 256 = 0 → recordHeld s va 256 bs →
        (clear (.spawn false d a b) s = true → parseLaunch false bs = some r → s.placeable r = true →
          (∀ slot, s.freeLaunch = some slot → ∃ t, exec (.spawn false d a b) s = .next t ∧ kept t ∧ Advanced s t (Instr.spawn false d a b).len
            ∧ RegsWritten s t.curWarp 2 d (fun _ => (l.ctx * 2 ^ 34 + l.job % 2 ^ 22 * 2 ^ 12 + slot) * 2 ^ 16)
            ∧ (t.launch slot).live = true ∧ (t.launch slot).spec = r ∧ (t.launch slot).job = l.job ∧ (t.launch slot).parent = l.uid
            ∧ (t.launch slot).next = 0 ∧ (t.launch slot).held = false ∧ ∀ k, k ≠ slot → t.launch k = s.launch k)
          ∧ full (.spawn false d a b))
        ∧ (clear (.spawn true d a b) s = true → parseLaunch true bs = some r → patchAllowed patch false →
          full (.spawn true d a b) ∧ ∀ slot, s.freeLaunch = some slot → ∃ t, exec (.spawn true d a b) s = .next t ∧ kept t ∧ Advanced s t (Instr.spawn true d a b).len
            ∧ (t.launch slot).live = true ∧ (t.launch slot).held = true ∧ (t.launch slot).spec = r
            ∧ t.sched.spawns = s.sched.spawns ++ [⟨slot, s.nextOp, s.cycle, s.cur.warp, d, patch⟩]
            ∧ (d ≠ .z → t.curWarp.pending = s.curWarp.pending ++ [⟨d, 1, s.nextOp⟩])))
      ∧ (let over_ := (s.crews.map (·.1)).foldl State.completeCrew s
        clear (.cancel d a) s = true → over_.curWarp.live = true → va < 2 ^ 48 →
        let level := va / 2 ^ 46
        let n := va / 2 ^ 12 % 2 ^ 22
        let low := va % 2 ^ 12
        let j := over_.jobs.get n
        (va / 2 ^ 34 % 2 ^ 12 ≠ s.ctxOf s.cur.warp →
          ∃ t, exec (.cancel d a) s = .next t ∧ LaneResult over_ t (Instr.cancel d a).len 1 d fun _ => 3)
        ∧ (va / 2 ^ 34 % 2 ^ 12 = s.ctxOf s.cur.warp → level = 2 → j.live = true → j.ctx = s.ctxOf s.cur.warp → j.phase < low →
          low < j.table.length → ∃ t, exec (.cancel d a) s = .next t
            ∧ (∀ w, w ≠ over_.cur.warp → t.warp w = over_.warp w) ∧ (∀ x, t.mem.get x = over_.mem.get x)
            ∧ Advanced over_ t (Instr.cancel d a).len ∧ RegsWritten over_ t.curWarp 1 d (fun _ => 0)
            ∧ t.jobs.get n = { j with markPhases := j.markPhases ++ [low] } ∧ ∀ k, k ≠ n → t.jobs.get k = over_.jobs.get k))

/-! ### Traps, control registers, records -/

/-- R331: the four trap registers of a trap of the executing lanes: trapcause, traplanes, trapaddr, trapinfo. -/
def Sys2Proof.trapRegs (s : State) (f : Trap) : List DWord :=
  [BitVec.ofNat 64 (f.cause + f.sub * 2 ^ 8 + (if f.deferred then 2 ^ 16 else 0) + f.bitoff * 2 ^ 32 + f.block * 2 ^ 44 + f.step * 2 ^ 52),
    (if f.lanes = 0 then s.cur.lanes else f.lanes).setWidth 64,
    f.addr,
    BitVec.ofNat 64 (f.slot + f.member * 2 ^ 3 + s.cur.port * 2 ^ 5 + (if f.part then 2 ^ 6 else 0)
      + (if f.software then 2 ^ 7 else 0) + f.flags * 2 ^ 8 + f.landing * 2 ^ 16 + f.code * 2 ^ 24 + f.detail * 2 ^ 32)]

/-- R198, R326 to R328, R331, R332, R337: a trap of the executing lanes in a warp without an open handler or chain writes the four trap registers, keeps
the return points, and sets those lanes at trapbase / 4, eligible six cycles on; trap, brk and an illegal word are such traps. Where the warp
issues on its other port in this cycle too, the trap is only noted: it is taken when both issues are made (R23, R200). -/
def Sys2Proof.Part.TrapEntry : Prop :=
  ∀ (s : State),
    let x := s.curWarp
    let lanes := s.cur.lanes
    let pc := s.cur.pc
    let tb := (s.ctx (s.ctxOf s.cur.warp)).trapbase
    (∀ code, clear (.trap code) s = true → exec (.trap code) s = .next (s.issueTrap
        { cause := 0x11, addr := pc * 4, software := true, code := code, slot := pc.toNat % 3,
          ret := some (pc + BitVec.ofNat 64 (Instr.trap code).len) }))
      ∧ (∀ code, clear (.brk code) s = true → exec (.brk code) s = .next (s.issueTrap
        { cause := 0x11, addr := pc * 4, software := false, code := code, slot := pc.toNat % 3,
          ret := some (pc + BitVec.ofNat 64 (Instr.brk code).len) }))
      ∧ (let at_ := pc + BitVec.ofNat 64 s.cur.bad
        exec .illegalInstruction s = .next (s.issueTrap { cause := 0x01, addr := at_ * 4, slot := at_.toNat % 3, member := s.cur.bad }))
      ∧ (∀ (f : Trap) (sup : Option Supply), s.cur.pairs = true →
        ∃ g, s.issueTrap f sup = { s with raised := s.raised ++ [(s.cur.warp, g, sup)] }
          ∧ g = { f with group := lanes, ret := some (f.ret.getD pc), port := s.cur.port })
      ∧ ∀ (f : Trap) (sup : Option Supply), s.cur.pairs = false → x.handler = none → x.chainA = none → x.chainB = none →
        (∀ p k, x.parked p = some k → k.counting = false) → tb ≠ 0 → f.coord = none →
        (∀ r ∈ x.waits, r.lanes &&& lanes = 0 ∧ r.lanes ≠ 0) →
        let t := s.issueTrap f sup
        let y := t.curWarp
        [y.trapcause, y.traplanes, y.trapaddr, y.trapinfo] = trapRegs s f
          ∧ y.handler = some ⟨lanes, (lanesOf lanes).map (fun l => (l, f.ret.getD pc)), sup, false⟩
          ∧ (∀ l, y.lane l = if lanes.getLsbD l then
              { x.lane l with pc := BitVec.ofNat 64 (tb.toNat / 4), age := 0, readyAt := s.cycle + 6 } else x.lane l)
          ∧ y = { x with
              trapcause := y.trapcause, traplanes := y.traplanes, trapaddr := y.trapaddr, trapinfo := y.trapinfo, handler := y.handler,
              lanes := y.lanes, walkFaults := y.walkFaults }
          ∧ WarpOnly s t

/-- R333, R334, R337, R389, R390: a crew without a handler ends at its first trap, but for brk, which stops the warp past the word; a trap inside the
handler ends the crew, and so does halt. Every warp of the crew is gone, no other warp and no byte changes. The failure recorded names the
crew and the warp slot, the trap registers (those of the trap that ended the crew; at a double fault and at halt in handler mode those of
the trap the handler handles; at halt outside it none), and in its extra field the report of DEADLOCK, the second fault's cause and
subcode, or the byte address of the halting word. That its cause at halt in handler mode is the handled trap's is the model's choice
between readings of R337 and R389: notes/assumptions/54. -/
def Sys2Proof.Part.CrewFailure : Prop :=
  ∀ (s : State),
    let x := s.curWarp
    let lanes := s.cur.lanes
    let tok := crewTok s.cur.warp
    let c := s.crew tok
    let tb := (s.ctx (s.ctxOf s.cur.warp)).trapbase
    let failed := fun (t : State) (cause : Nat) (regs : List DWord) (extra : Nat) =>
      (t.crew tok).failed = true ∧ (∀ k, k < 64 → (t.warp (tok * 64 + k)).live = false)
        ∧ (∀ w, crewTok w ≠ tok → t.warp w = s.warp w) ∧ (∀ a, t.mem.get a = s.mem.get a)
        ∧ ((s.launch c.launch).failure = none → ∃ r, (t.launch c.launch).failure = some r ∧ r.cause = cause ∧ r.crew = c.index
          ∧ r.warp = s.cur.warp % 64 ∧ [r.trapcause, r.traplanes, r.trapaddr, r.trapinfo] = regs ∧ r.extra = BitVec.ofNat 64 extra
          ∧ r.cycle = s.cycle)
    let handled := [x.trapcause, x.traplanes, x.trapaddr, x.trapinfo]
    c.gang = 0 → s.cur.pairs = false →
    (∀ (f : Trap) sup, x.handler = none → x.chainA = none → x.chainB = none → tb = 0 → f.coord = none → f.cause ≠ 0x11 ∨ f.software = true →
        failed (s.issueTrap f sup) f.cause (trapRegs s f) (if f.cause = 0x0E then f.detail else 0))
      ∧ (∀ (f : Trap) sup h, x.handler = some h → lanes &&& h.lanes ≠ 0 →
        failed (s.issueTrap f sup) (x.trapcause.toNat % 256) handled (f.cause + f.sub * 2 ^ 8))
      ∧ (clear .halt s = true → ∃ t, exec .halt s = .next t
        ∧ failed t (if x.handler.isSome then x.trapcause.toNat % 256 else 0) (if x.handler.isSome then handled else [0, 0, 0, 0])
            (s.cur.pc.toNat * 4))
      ∧ (∀ code, clear (.brk code) s = true → x.handler = none → x.chainA = none → x.chainB = none → tb = 0 →
        ∃ t, exec (.brk code) s = .next t ∧ t.curWarp.stopped = true
          ∧ (∀ l, (t.curWarp.lane l) = if lanes.getLsbD l then
              { x.lane l with pc := s.cur.pc + BitVec.ofNat 64 (Instr.brk code).len } else x.lane l)
          ∧ (∀ n l, t.curWarp.v n l = x.v n l) ∧ (∀ n, t.curWarp.s n = x.s n)
          ∧ (∀ w, w ≠ s.cur.warp → t.warp w = s.warp w) ∧ (∀ a, t.mem.get a = s.mem.get a))

/-- Both statements above together: TrapEntry, CrewFailure.
Readings and choices of the model in it: notes/assumptions/54, 56. -/
def Obligations.TrapsTaken : Prop := Part.TrapEntry ∧ Part.CrewFailure

/-- R335, R336: trapret by the last handler lanes ends handler mode, and each lane stands at its return point in the next cycle; by some of them it
waits; outside a handler it faults. trapsupply completes a faulted .n32 load once with the value supplied, and moves the return points past it.
Readings and choices of the model in it: notes/assumptions/100. -/
def Obligations.HandlerEnds : Prop :=
  ∀ (s : State) (a : Operand),
    let x := s.curWarp
    let lanes := s.cur.lanes
    let faults := fun (i : Instr) => clear i s = true → exec i s = .next (s.issueTrap { cause := 0x02, slot := s.cur.pc.toNat % 3 })
    (x.handler = none → faults .trapret ∧ faults (.trapsupply a))
      ∧ ∀ h, x.handler = some h → x.live = true →
        (clear .trapret s = true → x.recA = none → x.recB = none → x.pendingFaults = [] → h.lanes &&& x.liveLanes = lanes →
            (∀ r ∈ x.waits, r.lanes &&& lanes = 0 ∧ r.lanes ≠ 0) →
            ∃ t, exec .trapret s = .next t ∧ WarpOnly s t ∧ t.curWarp.handler = none
              ∧ (∀ l, t.curWarp.lane l = if lanes.getLsbD l then { x.lane l with pc := h.returns.get l, readyAt := s.cycle + 1 } else x.lane l)
              ∧ t.curWarp = { x with handler := none, lanes := t.curWarp.lanes })
          ∧ (clear .trapret s = true → h.lanes &&& x.liveLanes &&& ~~~(x.waiting (· == .trapret) ||| lanes) ≠ 0 →
            ∃ t, exec .trapret s = .next t ∧ WarpOnly s t
              ∧ t.curWarp = { x with waits := x.waits ++ [⟨lanes, s.cur.pc, Instr.trapret.len, s.cur.port, .trapret⟩] })
          ∧ (∀ p n, h.supply = some p → clear (.trapsupply a) s = true →
            (h.used = true → exec (.trapsupply a) s = .next (s.issueTrap { cause := 0x02, slot := s.cur.pc.toNat % 3 }))
            ∧ (h.used = false → x.trapcause.toNat / 2 ^ 16 % 2 = 0 →
              (x.trapcause.toNat % 256 = 0x04 ∨ x.trapcause.toNat % 256 = 0x0A ∨ x.trapcause.toNat % 256 = 0x0B
                ∨ x.trapcause.toNat % 256 = 0x0C) →
              (∀ l, l < 32 → x.traplanes.getLsbD l = true → (x.lane l).live = true → lanes.getLsbD l = true) →
              supplyFits p.width x.quota a = true → p.width = .w32 → p.d = .v n → p.st = none →
              ∃ t, exec (.trapsupply a) s = .next t ∧ WarpOnly s t ∧ Advanced s t (Instr.trapsupply a).len
                ∧ t.curWarp.handler = some { h with used := true, returns := h.returns.map fun r => (r.1, r.2 + BitVec.ofNat 64 p.len) }
                ∧ ∀ l, l < 32 → p.group.getLsbD l = true → (x.lane l).live = true → x.traplanes.getLsbD l = true →
                  t.curWarp.v n l = BitVec.ofNat 32 (s.src32 s.cur.warp l a)))

/-- R132, R329 to R331: csrr gives the value of each register in the issue cycle; csrw writes its writable bits to a register of the warp or the core at once,
and waits with one of the context until its commit, which sets it and lets the lanes go on; a value out of a field's range is ILLEGAL_OPERAND,
a counter without counter permission PROTECTION. -/
def Obligations.ControlRegisters : Prop :=
  ∀ (s : State) (d a : Operand),
    let x := s.curWarp
    let c := s.ctx (s.ctxOf s.cur.warp)
    let core := s.core (s.coreOf s.cur.warp)
    let counters := (s.launchOf s.cur.warp).spec.counters
    let v := s.csrSource a
    let traps := fun (i : Instr) (cause : Nat) => clear i s = true → exec i s = .next (s.issueTrap { cause := cause, slot := s.cur.pc.toNat % 3 })
    (∀ p ∈ [(0x01, x.fpmode), (0x02, x.fpflags), (0x10, c.trapbase), (0x11, x.trapcause), (0x12, x.traplanes), (0x13, x.trapaddr),
          (0x14, x.trapinfo), (0x20, BitVec.ofNat 64 (s.ctxOf s.cur.warp)), (0x21, c.ticketlife), (0x22, c.reformage),
          (0x23, c.fabrictimeout), (0x30, BitVec.ofNat 64 s.cycle)],
        LaneCompletes (.csrr d p.1) s 1 d fun _ => p.2.toNat)
      ∧ (∀ k, k < 8 →
        (counters = true → LaneCompletes (.csrr d (0x40 + k)) s 1 d (fun _ => (core.evsel.get k).toNat)
          ∧ LaneCompletes (.csrr d (0x50 + k)) s 1 d (fun _ => (core.evcount.get k).toNat))
        ∧ (counters = false → traps (.csrr d (0x40 + k)) 0x05 ∧ traps (.csrr d (0x50 + k)) 0x05 ∧ traps (.csrw a (0x40 + k)) 0x05
          ∧ traps (.csrw a (0x50 + k)) 0x05)
        ∧ (counters = true → clear (.csrw a (0x50 + k)) s = true → v < 2 ^ 64 → ∃ t, exec (.csrw a (0x50 + k)) s = .next t
            ∧ (t.core (s.coreOf s.cur.warp)).evcount.get k = BitVec.ofNat 64 v
            ∧ (∀ j, j ≠ k → (t.core (s.coreOf s.cur.warp)).evcount.get j = core.evcount.get j) ∧ Advanced s t (Instr.csrw a (0x50 + k)).len
            ∧ t = { s with warps := t.warps, cores := t.cores })
        ∧ (counters = true → clear (.csrw a (0x40 + k)) s = true → v % 2 ^ 16 ≤ 0x000E → ∃ t, exec (.csrw a (0x40 + k)) s = .next t
            ∧ (t.core (s.coreOf s.cur.warp)).evsel.get k = BitVec.ofNat 64 (v &&& 0xC000FFFF)
            ∧ (t.core (s.coreOf s.cur.warp)).evcount = core.evcount ∧ Advanced s t (Instr.csrw a (0x40 + k)).len
            ∧ t = { s with warps := t.warps, cores := t.cores }))
      ∧ (clear (.csrw a 0x01) s = true → ∃ t, exec (.csrw a 0x01) s = .next t ∧ WarpOnly s t ∧ Advanced s t (Instr.csrw a 0x01).len
          ∧ t.curWarp = { x with fpmode := BitVec.ofNat 64 (v &&& 0x1F03), lanes := t.curWarp.lanes })
      ∧ (clear (.csrw a 0x02) s = true → ∃ t, exec (.csrw a 0x02) s = .next t ∧ WarpOnly s t ∧ Advanced s t (Instr.csrw a 0x02).len
          ∧ t.curWarp = { x with fpflags := BitVec.ofNat 64 (v &&& 0x1F), lanes := t.curWarp.lanes })
      ∧ (∀ r ok y, (r, ok, y) ∈ [(0x10, (v &&& (2 ^ 53 - 1)) % 12 = 0, v &&& (2 ^ 53 - 1)),
            (0x21, 1 ≤ v &&& (2 ^ 20 - 1) ∧ v &&& (2 ^ 20 - 1) ≤ 1000000, v &&& (2 ^ 20 - 1)), (0x22, True, v &&& (2 ^ 16 - 1)),
            (0x23, 100 ≤ v &&& (2 ^ 17 - 1) ∧ v &&& (2 ^ 17 - 1) ≤ 100000, v &&& (2 ^ 17 - 1))] →
          (¬ ok → traps (.csrw a r) 0x02)
          ∧ (ok → clear (.csrw a r) s = true → ∃ t, exec (.csrw a r) s = .next t ∧ WarpOnly s t
              ∧ t.curWarp = { x with waits := x.waits ++ [⟨s.cur.lanes, s.cur.pc, (Instr.csrw a r).len, s.cur.port, .csr r (BitVec.ofNat 64 y)⟩] }))
      ∧ (∀ w rec_ r y, (s.warp w).waits = [rec_] → rec_.wait = .csr r y → r = 0x10 ∨ r = 0x21 ∨ r = 0x22 ∨ r = 0x23 →
          ∃ t, exec (.csrContextCommit w) s = .next t
            ∧ t.ctx (s.ctxOf w) = (let c := s.ctx (s.ctxOf w)
                if r = 0x10 then { c with trapbase := y } else if r = 0x21 then { c with ticketlife := y }
                else if r = 0x22 then { c with reformage := y } else { c with fabrictimeout := y })
            ∧ (∀ k, k ≠ s.ctxOf w → t.ctx k = s.ctx k) ∧ (t.warp w).waits = []
            ∧ (∀ l, (t.warp w).lane l = if rec_.lanes.getLsbD l then
                { (s.warp w).lane l with pc := rec_.pc + BitVec.ofNat 64 rec_.len, readyAt := s.cycle + 1 } else (s.warp w).lane l)
            ∧ (∀ u, u ≠ w → t.warp u = s.warp u) ∧ t = { s with warps := t.warps, ctxs := t.ctxs })

/-- R338, R339, R343: flsave writes a port's parked chain as a record of 512 bytes with its keyed check, or zeros, and empties the slot; flrestore takes
up a valid record of this context, slot and crew, and leaves the slot for one that is not valid; a record it rejects is ILLEGAL_OPERAND,
and so is a slot that holds a chain or takes one in the cycle of a swap-out (R343).
Readings and choices of the model in it: notes/assumptions/55, 102. -/
def Obligations.FlumeRecords : Prop :=
  ∀ (s : State) (a : Operand) (port : Nat),
    let x := s.curWarp
    let c := s.crewOf s.cur.warp
    let off := s.lead32 a
    let p := c.phys off
    let slot := s.cur.warp % 64
    let ctx := s.ctxOf s.cur.warp
    let bytes := s.mem.read p 512
    let traps := fun (i : Instr) => exec i s = .next (s.issueTrap { cause := 0x02, slot := s.cur.pc.toNat % 3 })
    let parks := c.saving = true ∧ c.savingAt = s.cycle
      ∧ ∃ k, x.chain port = some k ∧ s.cycle < k.start + (k.total + 3) / 4 + 1 ∧ (k.members.map (·.words)).sum ≤ 3
    x.handler.isSome = true → off % 64 = 0 → off + 512 ≤ c.size → port < 2 →
    (clear (.flsave a port) s = true → ∃ t, exec (.flsave a port) s = .next t
        ∧ t.mem = s.mem.write p (match x.parked port with
            | none => List.replicate 512 0
            | some k => recordBytes s.key k ctx slot c.index)
        ∧ t.curWarp.parked port = none ∧ (∀ q, q < 2 → q ≠ port → t.curWarp.parked q = x.parked q)
        ∧ t.curWarp = { x with recA := t.curWarp.recA, recB := t.curWarp.recB, lanes := t.curWarp.lanes }
        ∧ Advanced s t (Instr.flsave a port).len ∧ (∀ w, w ≠ s.cur.warp → t.warp w = s.warp w)
        ∧ t = { s with warps := t.warps, mem := t.mem, badWords := t.badWords })
      ∧ (clear (.flrestore a port) s = true →
        (x.parked port ≠ none ∨ parks → traps (.flrestore a port))
        ∧ (x.parked port = none → ¬ parks →
          (recField bytes 2 1 % 2 = 1 → recordOk s.key bytes ctx slot c.index = false → traps (.flrestore a port))
          ∧ (∀ k, (k = none ∧ recField bytes 2 1 % 2 = 0)
                ∨ (k = some (recChain bytes) ∧ recField bytes 2 1 % 2 = 1 ∧ recordOk s.key bytes ctx slot c.index = true) →
              ∃ t, exec (.flrestore a port) s = .next t ∧ WarpOnly s t ∧ Advanced s t (Instr.flrestore a port).len
                ∧ t.curWarp.parked port = k ∧ (∀ q, q < 2 → q ≠ port → t.curWarp.parked q = x.parked q)
                ∧ t.curWarp = { x with recA := t.curWarp.recA, recB := t.curWarp.recB, lanes := t.curWarp.lanes })))

/-! ### The scheduler -/

/-- R394 to R399: the pass places the next crew of the one launch with crews left to place where R396 finds room, as a resident crew of the lowest free token with its warps at
their entry; a launch that finds no room counts as blocked from then on, and asks the crews to leave that are
chosen for it, unless those that leave for it already suffice; a launch that could not place for 500 µs
rises a level, and after 100 µs blocked it may reserve a cluster.
Readings and choices of the model in it: notes/assumptions/65, 107. -/
def Obligations.Placement : Prop :=
  ∀ (s : State) (slot : Nat),
    let l := s.launch slot
    ((slot, l) ∈ s.launches → (∀ p ∈ s.launches, p.1 ≠ slot → s.nextOf p.1 = none) → l.live = true → l.held = false → l.cancelled = false → s.nextBack slot = none → l.spec.gang = 1 → l.spec.warps ≤ 64 →
        (∀ p, l.next + 1 = l.spec.crews → s.placeFor slot (.new l.next) [] [] = some [p] →
          ∃ t, exec .placementPass s = .next t
            ∧ (let c := t.crew s.freshToken
               c.live = true ∧ c.resident = true ∧ c.launch = slot ∧ c.index = l.next ∧ c.ctx = l.ctx ∧ c.core = p.1 ∧ c.base = p.2.1
                ∧ c.q0 = p.2.2 ∧ c.size = l.spec.scratch ∧ c.gang = 0)
            ∧ (l.spec.stages = 0 → ∀ k, k < l.spec.warps →
                (let w := t.warp (s.freshToken * 64 + k)
                 w.live = true ∧ w.quota = l.spec.regs ∧ w.fpmode = BitVec.ofNat 64 (l.spec.fpmode &&& 0x1F03) ∧ (∀ n j, w.v n j = 0)
                  ∧ ∀ j, j < 32 → w.lane j = ⟨true, BitVec.ofNat 64 (l.spec.entry / 4), 32 * k + j, 0, s.cycle + 1⟩))
            ∧ (t.launch slot).next = l.next + 1 ∧ (t.launch slot).ptr = (p.1 + 1) % 256 ∧ (t.launch slot).eff = l.level
            ∧ (∀ k, k ≠ slot → t.launch k = s.launch k)
            ∧ (∀ w, crewTok w ≠ s.freshToken → t.warp w = s.warp w) ∧ ∀ a, t.mem.get a = s.mem.get a)
        ∧ (l.next < l.spec.crews → s.placeFor slot (.new l.next) [] [] = none → l.blockedSince = none →
          let victims := s.chooseVictims slot (.new l.next) [] (s.leavingFor l.uid)
          let enough := s.leavingFor l.uid ≠ [] ∧ (s.placeFor slot (.new l.next) [] (s.leavingFor l.uid)).isSome = true
          (victims = none ∨ enough → ∃ t, exec .placementPass s = .next t ∧ t.launch slot = { l with blockedSince := some s.cycle }
            ∧ (∀ k, k ≠ slot → t.launch k = s.launch k) ∧ t = { s with launches := t.launches })
          ∧ (∀ vs, victims = some vs → ¬ enough → ∃ t, exec .placementPass s = .next t
            ∧ t.launch slot = { l with blockedSince := some s.cycle } ∧ (∀ k, k ≠ slot → t.launch k = s.launch k)
            ∧ t = { s with launches := t.launches, crews := t.crews }
            ∧ ∀ v ∈ vs, ∀ k ∈ v.toks, (s.crew k).live = true → (s.crew k).resident = true → (s.crew k).gang = 0 → k < 2 ^ 16 →
              (t.crew k).saving = true ∧ (t.crew k).leaveFor = some l.uid)))
      ∧ (let due := (s.nextOf slot).isSome = true ∧ l.level < 31 ∧ l.eff < max l.level (min (l.level + 4) 30)
            ∧ l.levelSince + 400000 ≤ s.cycle
        (due → ∃ t, exec (.levelAging slot) s = .next t ∧ t.launch slot = { l with eff := l.eff + 1, levelSince := l.levelSince + 400000 }
            ∧ (∀ k, k ≠ slot → t.launch k = s.launch k) ∧ t = { s with launches := t.launches })
        ∧ (¬ due → exec (.levelAging slot) s = .next s))
      ∧ (∀ c since, (s.nextOf slot).isSome = true → l.reserved = none → l.blockedSince = some since → since + 80000 ≤ s.cycle →
        s.reservable slot = some c → ∃ t, exec (.drainReservation slot) s = .next t ∧ t.launch slot = { l with reserved := some c }
            ∧ (∀ k, k ≠ slot → t.launch k = s.launch k) ∧ t = { s with launches := t.launches })

/-- R14, R36, R340, R401, R402: a crew asked to leave is saved once it is drained, and not before a stall hint's
cycle is over: it holds no place, its scratchpad is kept, and each warp's two flume records stand in its save area; a crew with nothing left
completes, counted by its launch; a stall hint asks every crew stalled on the peer to leave, its withdrawal or 1 ms after the save lets
them return.
Readings and choices of the model in it: notes/assumptions/17, 18. -/
def Obligations.CrewsLeaveAndEnd : Prop :=
  ∀ (s : State) (tok : Nat) (c : Crew) (landing peer : Nat), s.crews.find tok = some c →
    let l := s.launch c.launch
    (c.live = true → c.saving = true → c.gang = 0 →
        let now := s.crewDrained tok = true ∧ (c.hinted = false ∨ c.savingAt < s.cycle)
        (now → ∃ t, exec (.contextSave tok) s = .next t
          ∧ (t.crew tok).resident = false ∧ (t.crew tok).saving = false ∧ (t.crew tok).live = true
          ∧ (t.crew tok).image = s.mem.read (c.phys 0) c.size
          ∧ (t.crew tok).returnAt = (if c.hint.isSome then some (s.cycle + 800000) else none)
          ∧ (t.crew tok).records = (s.warpsOf tok).flatMap (fun w => [0, 1].map fun p => match (t.warp w).parked p with
              | none => List.replicate 512 0
              | some k => recordBytes s.key k c.ctx (w % 64) c.index)
          ∧ (∀ w, crewTok w ≠ tok → t.warp w = s.warp w) ∧ (∀ a, t.mem.get a = s.mem.get a)
          ∧ ∀ w, (∀ p k, (s.warp w).parked p = some k → k.counting = false) →
            (∀ n l, (t.warp w).v n l = (s.warp w).v n l) ∧ ∀ n, (t.warp w).s n = (s.warp w).s n)
        ∧ (¬ now → exec (.contextSave tok) s = .next s))
      ∧ (s.crewOver tok = true → c.gang = 0 → l.next < l.spec.crews →
        ∃ t, exec (.crewComplete tok) s = .next t ∧ t.crews.find tok = none
          ∧ t.launch c.launch = { l with
              flags := l.flags ||| c.flags, completed := if c.cancelled then l.completed else l.completed + 1,
              cancelledCount := if c.cancelled then l.cancelledCount + 1 else l.cancelledCount }
          ∧ t = { s with launches := t.launches, crews := t.crews })
      ∧ (∃ t, exec (.stallHint landing peer) s = .next t
          ∧ (landing, peer, s.cycle) ∈ t.sched.hints
          ∧ (c.live = true → c.resident = true → c.hint = none → c.gang = 0 → tok < 2 ^ 16 → s.stalledOn peer tok = true →
              (t.crew tok).saving = true ∧ (t.crew tok).hint = some (landing, peer))
          ∧ (∀ w, t.warp w = s.warp w) ∧ ∀ a, t.mem.get a = s.mem.get a)
      ∧ (∃ t, exec (.stallHintWithdraw landing peer) s = .next t
          ∧ (∀ h ∈ t.sched.hints, h ∈ s.sched.hints ∧ ¬ (h.1 = landing ∧ h.2.1 = peer))
          ∧ t.crew tok = (if c.hint = some (landing, peer) then { c with hint := none, returnAt := none } else c)
          ∧ t = { s with sched := t.sched, crews := t.crews })
      ∧ (∀ at_, c.returnAt = some at_ →
        (s.cycle < at_ → exec (.hintReturnTimeout tok) s = .next s)
        ∧ (at_ ≤ s.cycle → ∃ t, exec (.hintReturnTimeout tok) s = .next t ∧ t.crew tok = { c with hint := none, returnAt := none }
            ∧ (∀ k, k ≠ tok → t.crew k = s.crew k) ∧ t = { s with crews := t.crews }))

/-- R326, R327, R403 to R405: a first walk only notes which entries are dead, and reports nothing; an entry found dead again with nothing changed, on a
cycle by itself, is reported: its lanes take DEADLOCK with the report's number.
Readings and choices of the model in it: notes/assumptions/19, 20. -/
def Obligations.DeadlockReports : Prop :=
  ∀ (s : State) (e : WaitEntry),
    (s.sched.dead = [] → ∃ t, exec .deadlockWalk s = .next t ∧ t.sched = { s.sched with dead := t.sched.dead, walkAt := s.cycle }
        ∧ t = { s with sched := t.sched })
      ∧ (s.waitTable = [e] → s.sigsOf [e] e = [.live] → ∃ t, exec .deadlockWalk s = .next t ∧ t.sched.dead = []
          ∧ t = { s with sched := t.sched })
      ∧ (s.waitTable = [e] → s.sigsOf [e] e = [.entry 0] → s.sched.dead = [e.kept] → e.who < 2 ^ 40 → e.kind = 2 ∨ e.kind = 6 →
        (s.job (s.launch (s.crew e.tok).launch).job).reports = 0 → (s.warp e.who).live = true → (s.warp e.who).handler = none →
        (s.warp e.who).chainA = none → (s.warp e.who).chainB = none → (s.ctx (s.ctxOf e.who)).trapbase ≠ 0 → s.cur.pairs = false →
        ∃ t, exec .deadlockWalk s = .next t
          ∧ (t.warp e.who).trapcause.toNat % 256 = 0x0E ∧ (t.warp e.who).trapinfo.toNat / 2 ^ 32 = s.sched.report % 2 ^ 32
          ∧ (t.warp e.who).handler.isSome = true
          ∧ t.sched.report = s.sched.report + 1 ∧ (∀ w, w ≠ e.who → t.warp w = s.warp w) ∧ ∀ a, t.mem.get a = s.mem.get a)

/-! ### Commands of the host -/

/-- The reply of a command on the way (R433): a message with the response flag, the command's opcode, tag and context, and a body only with
status 0. -/
def Sys2Proof.replied (t : State) (h : Hdr) (op status : Nat) (body : List Byte) : State :=
  { t with mgr := { t.mgr with
      outbox := t.mgr.outbox ++ [⟨0, h.qp, op, 1, h.tag, h.ctx, status, if status = 0 then body else []⟩] } }

/-- A negative acknowledgement on the way (R429 to R431). -/
def Sys2Proof.nacked (t : State) (qp syndrome : Nat) : State :=
  { t with mgr := { t.mgr with outbox := t.mgr.outbox ++ [⟨2, qp, 0, 0, 0, 0, syndrome, []⟩] } }

/-- A command may be performed (R430, R452): its QP is 1 to 15 and bound to a session that holds the right. -/
def Sys2Proof.mayCommand (s : State) (h : Hdr) (right : Nat) : Prop :=
  1 ≤ h.qp ∧ h.qp ≤ 15 ∧ ∃ r, (s.mgr.qps.get h.qp).session = some r ∧ r / 2 ^ right % 2 = 1

/-- The warps in which no ldt waits for room are kept: an invalidation lets only ldts translate anew (R415). -/
def Sys2Proof.warpsKept (s t : State) : Prop :=
  ∀ w, (∀ r ∈ (s.warp w).waits, r.lanes ≠ 0 ∧ ∀ g, r.wait ≠ .room (some g)) → t.warp w = s.warp w

/-- The header, opcode and session right of a command of R434 or R459. -/
def Sys2Proof.commandOf : Instr → Option (Hdr × Nat × Nat)
  | .ctxCreate h .. => some (h, 0x01, 0) | .ctxDestroy h => some (h, 0x02, 0) | .ctxQuota h .. => some (h, 0x03, 0)
  | .jobSubmit h _ => some (h, 0x10, 0) | .unitCancel h _ => some (h, 0x11, 0)
  | .winReg h .. => some (h, 0x20, 0) | .winDereg h _ => some (h, 0x21, 0)
  | .tlbInval h .. => some (h, 0x30, 1) | .faultResolve h .. => some (h, 0x31, 1)
  | .migrateArm h .. => some (h, 0x32, 1) | .migrateStart h _ => some (h, 0x32, 1)
  | .migrateAbort h _ => some (h, 0x32, 1) | .migrateRelease h _ => some (h, 0x32, 1)
  | .indexAudit h _ => some (h, 0x40, 1)
  | .poolAlloc h .. => some (h, 0x50, 0) | .poolGrant h .. => some (h, 0x51, 0) | .poolRevoke h .. => some (h, 0x52, 0)
  | .debugRead h .. => some (h, 0x60, 2) | .debugWrite h .. => some (h, 0x60, 2) | .debugResume h .. => some (h, 0x60, 2)
  | .linkDrain h _ => some (h, 0x70, 3) | .linkRetrain h _ => some (h, 0x70, 3) | .linkRestore h _ => some (h, 0x70, 3)
  | .health h => some (h, 0x80, 3) | .counterSet h .. => some (h, 0x81, 3) | .counterRead h .. => some (h, 0x82, 3)
  | .coreOffline h _ => some (h, 0x83, 3) | .coreOnline h _ => some (h, 0x84, 3) | .coreReset h _ => some (h, 0x85, 3)
  | .pinSet h .. => some (h, 0x86, 3) | .channelRetrain h .. => some (h, 0x87, 3) | .repair h .. => some (h, 0x88, 3)
  | .logRead h .. => some (h, 0x89, 3)
  | _ => none

/-- R430, R435, R452: a command on a QP that is not bound to a session is answered with a NAK; one whose session lacks the right is refused with
status 5; neither does anything else. -/
def Sys2Proof.Part.CommandRights : Prop :=
  ∀ (s : State) (i : Instr) (h : Hdr) (op right : Nat),
    commandOf i = some (h, op, right) → s.mgr.pending = [] → (∀ c, h ∉ (s.core c).leaving) →
    (h.qp = 0 ∨ 15 < h.qp ∨ (s.mgr.qps.get h.qp).session = none → exec i s = .next (nacked s h.qp 1))
      ∧ (∀ r, 1 ≤ h.qp → h.qp ≤ 15 → (s.mgr.qps.get h.qp).session = some r → r / 2 ^ right % 2 = 0 →
        exec i s = .next (replied s h op 5 []))

/-- R329, R393, R434, R436, R442: CTX_CREATE makes a context that does not exist, with the control registers' reset values; CTX_DESTROY first marks it and
cancels its jobs, and when its crews have drained frees its tickets, ends its windows, returns its allocations, ends its grants and invalidates
its translations; CTX_QUOTA sets a
landing's quota and answers what is left; JOB_SUBMIT answers the job's handle; UNIT_CANCEL, after the crews that
have ended, answers 3 for a unit that is gone and marks a phase that has not started.
Readings and choices of the model in it: notes/assumptions/75, 86. -/
def Obligations.ContextCommands : Prop :=
  ∀ (s : State) (h : Hdr), mayCommand s h 0 →
    let c := h.ctx
    let only := fun (t : State) => t = { s with ctxs := t.ctxs, mgr := t.mgr }
    (∀ root stack save size,
      ((s.ctx c).live = true → exec (.ctxCreate h root stack save size) s = .next (replied s h 0x01 8 []))
      ∧ ((s.ctx c).live = false → root % 8192 = 0 → root < 0x60_0000_0000 → stack % 8 = 0 → stack < 0x60_0000_0000 → save % 8 = 0 →
        ∃ t, exec (.ctxCreate h root stack save size) s = .next t ∧ t.mgr = (replied s h 0x01 0 []).mgr ∧ only t
          ∧ (∀ k, k ≠ c → t.ctx k = s.ctx k)
          ∧ t.ctx c = {
              live := true, root := root, stack := stack, save := save, savesize := size, trapbase := 0, ticketlife := 1000,
              fabrictimeout := 2000, reformage := 256, tables := [], qp := h.qp, dying := false }))
      ∧ ((s.ctx c).live = true → (s.ctx c).dying = false →
        (s.mgr.pending = [] → (∀ p ∈ s.jobs, p.2.ctx ≠ c) → ∃ t, exec (.ctxDestroy h) s = .next t
            ∧ t.ctx c = { s.ctx c with dying := true } ∧ (∀ k, k ≠ c → t.ctx k = s.ctx k)
            ∧ t.mgr = { s.mgr with pending := [(.ctxDestroy h, [])] } ∧ only t)
        ∧ (∀ landing bytes, landing < 16 → (s.ports.get landing).attached = true → (s.ports.get landing).state = 2 →
            (s.ports.get landing).lost = false → (s.ports.get landing).up = true →
            ∃ t, exec (.ctxQuota h landing bytes) s = .next t
              ∧ (t.landings.get landing).quota.get c = bytes ∧ (∀ k, k ≠ c → (t.landings.get landing).quota.get k = (s.landings.get landing).quota.get k)
              ∧ (∀ l, l ≠ landing → t.landings.get l = s.landings.get l)
              ∧ t.mgr = (replied s h 0x03 0 (natToBytes 8 (bytes - (s.landings.get landing).used c))).mgr
              ∧ t = { s with landings := t.landings, mgr := t.mgr })
        ∧ (∀ job, job % 64 ≠ 0 → exec (.jobSubmit h job) s = .next (replied s h 0x10 3 []))
        ∧ (∀ job bs tb u v r table, job % 64 = 0 → s.sysRead c job 64 = (.ok bs, u) → parseJob bs = some r →
            u.sysRead c r.2.2.1 (32 * r.2.1) = (.ok tb, v) → parsePhases tb r.2.1 = some table →
            ∃ t, exec (.jobSubmit h job) s = .next t
              ∧ t.mgr.outbox.getLast? = some ⟨0, h.qp, 0x10, 1, h.tag, c, 0,
                  natToBytes 8 (3 * 2 ^ 46 + c * 2 ^ 34 + v.sched.serial % 2 ^ 22 * 2 ^ 12)⟩)
        ∧ (∀ handle : DWord, handle.toNat < 2 ^ 48 →
            let x := handle.toNat
            let n := x / 2 ^ 12 % 2 ^ 22
            let over_ := (s.crews.map (·.1)).foldl State.completeCrew s
            let j := over_.job n
            let low := x % 2 ^ 12
            (x / 2 ^ 34 % 2 ^ 12 ≠ c → exec (.unitCancel h handle) s = .next (replied over_ h 0x11 0 [3]))
            ∧ (x / 2 ^ 34 % 2 ^ 12 = c → x / 2 ^ 46 = 2 → j.live = true → j.ctx = c → j.phase < low → low < j.table.length →
              ∃ t, exec (.unitCancel h handle) s = .next t ∧ t.job n = { j with markPhases := j.markPhases ++ [low] }
                ∧ (∀ k, k ≠ n → t.job k = over_.job k) ∧ t.mgr = (replied over_ h 0x11 0 [0]).mgr
                ∧ t = { over_ with jobs := t.jobs, mgr := t.mgr })))
      ∧ (s.mgr.pending = [(.ctxDestroy h, [])] → s.ctxDrained c = true → (∀ p ∈ s.warps, s.ctxOf p.1 = c → p.2.waits = []) →
          ∃ t, exec (.ctxDestroy h) s = .next t ∧ t.mgr.pending = []
          ∧ (∀ k, (t.tickets.get k).state = 0 ∨ (t.tickets.get k).ctx ≠ c)
          ∧ (∀ p ∈ t.mgr.windows, p.2.access / 8 % 2 = 1 ∨ p.2.ctx ≠ c)
          ∧ (∃ v, t.invals.find s.nextInval = some v ∧ v.ctx = c ∧ v.all = false ∧ v.len = 0 ∧ v.after = .destroy h)
          ∧ (∀ p ∈ t.landings, (∀ a ∈ p.2.allocs, a.ctx ≠ c) ∧ ∀ g ∈ p.2.grants, g.tmod ≠ s.module_ ∨ g.tctx ≠ c)
          ∧ ((∀ p ∈ s.landings, ∀ a ∈ p.2.allocs, a.ctx ≠ c) → ∀ a, t.mem.get a = s.mem.get a))

/-- R429 to R431, R441: WIN_REG makes a window of the lowest free index under a new key that no window has, and WIN_DEREG ends it, after the requests
that came before it and wait. RDMA WRITE and READ
through a physical window, or within a line of a virtual one, move the bytes at system scope and are answered; a request of an unknown
key, or outside its window, is answered with a remote access error, and one to a page that is not present with a remote operational error, and performs no byte;
one on a queue pair that the module does not have is dropped and counted.
Readings and choices of the model in it: notes/assumptions/7, 80, 82, 107. -/
def Obligations.WindowsAndRdma : Prop :=
  ∀ (s : State) (h : Hdr) (qp rkey addr : Nat) (bytes : List Byte) (n : Nat),
    (mayCommand s h 0 → ∀ i va len access, access < 16 → len ≠ 0 → len % 8192 = 0 → va % 8192 = 0 →
        (access / 8 % 2 = 1 ∧ mayCommand s h 1 ∧ va + len ≤ 0x60_0000_0000
          ∨ access / 8 % 2 = 0 ∧ (s.ctx h.ctx).live = true ∧ (s.ctx h.ctx).dying = false
            ∧ ∀ k, k < len / 8192 → s.winPage h.ctx (va + k * 8192) access = .absent ∨ ∃ x e, s.winPage h.ctx (va + k * 8192) access = .ok x e) →
        i < 256 → s.mgr.windows.find i = none → (∀ k, k < i → (s.mgr.windows.find k).isSome = true) → s.mgr.windows.length < 256 →
        ∃ t key, exec (.winReg h va len access) s = .next t ∧ key ≠ 0 ∧ (∀ p ∈ s.mgr.windows, p.2.rkey ≠ key)
          ∧ t.mgr.windows = s.mgr.windows.set i ⟨key, h.ctx, va, len, access⟩
          ∧ t.mgr.outbox = (replied s h 0x20 0 (natToBytes 4 key ++ natToBytes 2 i)).mgr.outbox ∧ t = { s with mgr := t.mgr })
      ∧ (mayCommand s h 0 → s.closing rkey = false →
        ((∀ p ∈ s.mgr.windows, p.2.rkey ≠ rkey) → exec (.winDereg h rkey) s = .next (replied s h 0x21 6 []))
        ∧ (∀ i w, (i, w) ∈ s.mgr.windows → w.rkey = rkey →
            (∀ p ∈ s.mgr.windows, p.2.rkey = rkey → p = (i, w)) →
            (s.keyBusy rkey = false → ∃ t, exec (.winDereg h rkey) s = .next t ∧ t.mgr.windows = s.mgr.windows.del i
              ∧ t.mgr.outbox = (replied s h 0x21 0 []).mgr.outbox ∧ t = { s with mgr := t.mgr })
            ∧ (s.keyBusy rkey = true → exec (.winDereg h rkey) s
              = .next { s with mgr := { s.mgr with pending := s.mgr.pending ++ [(.winDereg h rkey, [])] } })))
      ∧ (1024 ≤ qp → ∀ i, i = .rdmaWrite qp rkey addr bytes ∨ i = .rdmaRead qp rkey addr n →
        exec i s = .next { s with mgr := { s.mgr with frames := s.mgr.frames + 1 } })
      ∧ (qp < 1024 → s.mgr.pending = [] → (∀ p ∈ s.mgr.windows, p.2.rkey ≠ rkey) →
        exec (.rdmaWrite qp rkey addr bytes) s = .next (nacked s qp 2) ∧ exec (.rdmaRead qp rkey addr n) s = .next (nacked s qp 2))
      ∧ (∀ i w, qp < 1024 → s.mgr.pending = [] → (i, w) ∈ s.mgr.windows → w.rkey = rkey → (∀ p ∈ s.mgr.windows, p.2.rkey = rkey → p = (i, w)) →
        let done := fun (body : List Byte) => { s.mgr with outbox := s.mgr.outbox ++ [⟨1, qp, 0, 0, 0, 0, 0, body⟩] }
        (addr < w.va ∨ w.va + w.len < addr + bytes.length → exec (.rdmaWrite qp rkey addr bytes) s = .next (nacked s qp 2))
        ∧ (addr < w.va ∨ w.va + w.len < addr + n → exec (.rdmaRead qp rkey addr n) s = .next (nacked s qp 2))
        ∧ (w.access / 8 % 2 = 1 → w.va ≤ addr →
          (w.access / 2 % 2 = 1 → addr + bytes.length ≤ w.va + w.len → addr + bytes.length ≤ 0x60_0000_0000 → Good s →
            (∀ a, addr ≤ a → a < addr + bytes.length → s.chanFailed a = false) →
            ∃ t, exec (.rdmaWrite qp rkey addr bytes) s = .next t ∧ t.mem.read addr bytes.length = bytes
              ∧ (∀ a, a < addr ∨ addr + bytes.length ≤ a → t.mem.get a = s.mem.get a) ∧ t.mgr = done [] ∧ t.warps = s.warps)
          ∧ (w.access % 2 = 1 → addr + n ≤ w.va + w.len → addr + n ≤ 0x60_0000_0000 →
            (∀ a k, 0 < k → addr ≤ a → a + k ≤ addr + n → s.readBad a k = false) →
            ∃ t, exec (.rdmaRead qp rkey addr n) s = .next t ∧ t = { s with mgr := done (s.mem.read addr n), sliceCount := t.sliceCount }))
        ∧ (w.access / 8 % 2 = 0 → w.va ≤ addr →
          (w.access / 2 % 2 = 1 → addr + bytes.length ≤ w.va + w.len → bytes ≠ [] →
            (s.winPage w.ctx addr w.access = .absent → exec (.rdmaWrite qp rkey addr bytes) s = .next (nacked s qp 3))
            ∧ (∀ x e, s.winPage w.ctx addr w.access = .ok x e → addr % 256 + bytes.length ≤ 256 → Good s →
              (e / 64 % 2 = 0 → exec (.rdmaWrite qp rkey addr bytes) s = .next (nacked s qp 2))
              ∧ (e / 64 % 2 = 1 → x.mig = false → s.chanFailed x.pa = false →
                ∃ t, exec (.rdmaWrite qp rkey addr bytes) s = .next t ∧ t.mem.read x.pa bytes.length = bytes
                  ∧ (∀ a, a < x.pa ∨ x.pa + bytes.length ≤ a → t.mem.get a = s.mem.get a) ∧ t.mgr = done [] ∧ t.warps = s.warps)))
          ∧ (w.access % 2 = 1 → addr + n ≤ w.va + w.len → 0 < n →
            (s.winPage w.ctx addr w.access = .absent → exec (.rdmaRead qp rkey addr n) s = .next (nacked s qp 3))
            ∧ (∀ x e, s.winPage w.ctx addr w.access = .ok x e → addr % 256 + n ≤ 256 →
              (e / 32 % 2 = 0 → exec (.rdmaRead qp rkey addr n) s = .next (nacked s qp 2))
              ∧ (e / 32 % 2 = 1 → x.mig = false → s.readBad x.pa n = false →
                ∃ t, exec (.rdmaRead qp rkey addr n) s = .next t
                  ∧ t = { s with mgr := done (s.mem.read x.pa n), sliceCount := t.sliceCount })))))

/-- R429, R430, R433 to R435, R437: frames and messages outside the command set: a RoCEv2 request with an unsupported option, a SEND on no management QP and a
message on one without a session are answered with a NAK; an unsupported frame, RoCEv2 or other, and one for a queue pair that the module does
not have, is dropped and counted; a bad header is refused with status 1 and an unknown opcode with 2, an identity opcode without a session
too; a pause frame of a configured priority pauses or resumes it; a congestion notification is heeded; the oldest event of
a QP is delivered, and one that waited takes its room. -/
def Sys2Proof.Part.EthernetFrames : Prop :=
  ∀ (s : State) (h : Hdr) (qp op prio : Nat) (m : Message) (before after : List Message),
    let dropped := { s with mgr := { s.mgr with frames := s.mgr.frames + 1 } }
    exec (.unsupportedFrame true qp) s = .next (nacked dropped qp 1)
      ∧ exec (.unsupportedFrame false qp) s = .next dropped
      ∧ exec (.sendOnNonManagementQp qp) s = .next (if qp < 1024 then nacked s qp 1 else dropped)
      ∧ (∀ b, let identity := b = false ∧ 0xA0 ≤ op ∧ op ≤ 0xAF ∧ 1 ≤ h.qp ∧ h.qp ≤ 15
          (h.qp = 0 ∨ 15 < h.qp ∨ (s.mgr.qps.get h.qp).session = none → ¬ identity → exec (.unknownOpcode h op b) s = .next (nacked s h.qp 1))
          ∧ (identity ∨ 1 ≤ h.qp ∧ h.qp ≤ 15 ∧ (s.mgr.qps.get h.qp).session ≠ none →
            exec (.unknownOpcode h op b) s = .next (replied s h op (if b then 1 else 2) [])))
      ∧ exec (.congestionNotificationPacket qp) s = .next { s with mgr := { s.mgr with cnps := s.mgr.cnps + 1 } }
      ∧ (∀ pause, if prio = s.mgr.pfc % 8 ∨ prio = s.mgr.pfc / 8 % 8 then
            ∃ t, exec (.priorityFlowControlFrame prio pause) s = .next t ∧ (prio ∈ t.mgr.paused ↔ pause = true)
              ∧ (∀ k, k ≠ prio → (k ∈ t.mgr.paused ↔ k ∈ s.mgr.paused)) ∧ t = { s with mgr := { s.mgr with paused := t.mgr.paused } }
          else exec (.priorityFlowControlFrame prio pause) s = .next { s with mgr := { s.mgr with frames := s.mgr.frames + 1 } })
      ∧ (s.mgr.events = before ++ m :: after → m.qp = qp → (∀ x ∈ before, x.qp ≠ qp) →
        exec (.eventDelivery qp) s = .next { s with mgr := { s.mgr with
          events := before ++ after ++ s.mgr.waiting.take 1, waiting := s.mgr.waiting.drop 1, outbox := s.mgr.outbox ++ [m] } })
      ∧ ((∀ x ∈ s.mgr.events, x.qp ≠ qp) → exec (.eventDelivery qp) s = .next s)

/-- Both statements above together: CommandRights, EthernetFrames.
Readings and choices of the model in it: notes/assumptions/7, 48, 78. -/
def Obligations.RefusedCommandsAndFrames : Prop := Part.CommandRights ∧ Part.EthernetFrames

/-- R407, R409, R413, R415, R416, R418: a core's pending walk ends with a translation for its TLB, with a fault for the lanes that wait for the page, or with the
page held for the driver, and those lanes with it until that fault ends; FAULT_RESOLVE lets the held lanes go on or fails them, and 100 ms fail them; TLB_INVAL discards what it covers and completes,
with its reply, once no access made through a discarded translation is outstanding. -/
def Sys2Proof.Part.Translations : Prop :=
  ∀ (s : State) (core : Nat) (m : Miss) (cache : List WalkEntry),
    let wakesOn := fun (t : State) (mine : Nat → Prop) (x : Wait) (vpn : Nat) (fault : Option Nat) =>
      (∀ w, ¬ mine w → t.warp w = s.warp w)
        ∧ ∀ w y, mine w → (s.warp w).waits = [y] → y.wait = x → y.lanes ≠ 0 →
          t.warp w = { s.warp w with
              waits := [], lanes := (t.warp w).lanes
              walkFaults := (s.warp w).walkFaults ++ (match fault with | some c => [⟨vpn, c, y.lanes⟩] | none => []) }
            ∧ ∀ l, (t.warp w).lane l =
                if y.lanes.getLsbD l then { (s.warp w).lane l with readyAt := s.cycle + 1 } else (s.warp w).lane l
    let wakes := fun (t : State) (mine : Nat → Prop) (vpn : Nat) (fault : Option Nat) => wakesOn t mine (.tlb [vpn]) vpn fault
    let within := fun (i : Inval) (ctx vpn bits : Nat) =>
      (i.all = true ∨ ctx = i.ctx) ∧ (i.len = 0 ∨ vpn * 2 ^ bits < i.va + i.len ∧ i.va < (vpn + 1) * 2 ^ bits)
    let covered := fun (i : Inval) (e : TlbEntry) => within i e.ctx e.vpn e.bits
    let hits := fun (i : Inval) (ctx va : Nat) => within i ctx (va / 2 ^ 13) 13
    let discards := fun (t : State) (i : Inval) => ∀ c e, e ∈ (t.core c).tlb ↔ e ∈ (s.core c).tlb ∧ ¬ covered i e
    ((s.core core).misses = [m] →
        let here := fun w => s.coreOf w = core ∧ s.ctxOf w = m.ctx
        let waited := s.warps.any fun p => decide (here p.1) && p.2.waiting (Wait.onPage m.vpn) != 0
        let ended := fun (t : State) => (t.core core).misses = [] ∧ ∀ a, t.mem.get a = s.mem.get a
        let holds := fun (t : State) (n : Nat) => (∀ w, ¬ here w → t.warp w = s.warp w)
          ∧ ∀ w y, here w → (s.warp w).waits = [y] → y.wait = .tlb [m.vpn] → t.warp w = { s.warp w with waits := [{ y with wait := .held n }] }
        (∀ e size, s.walk m.ctx m.va = (.leaf e size, cache) → ∃ t, exec (.pageWalk core 0) s = .next t ∧ ended t
            ∧ ⟨m.ctx, m.va / 2 ^ size, size, e⟩ ∈ (t.core core).tlb ∧ wakes t here m.vpn none)
        ∧ (s.walk m.ctx m.va = (.notPresent false, cache) → ∃ t, exec (.pageWalk core 0) s = .next t ∧ ended t
            ∧ wakes t here m.vpn (some 0x04))
        ∧ (s.walk m.ctx m.va = (.bad, cache) → ∃ t, exec (.pageWalk core 0) s = .next t ∧ ended t ∧ wakes t here m.vpn (some 0x05))
        ∧ (∀ pa, s.walk m.ctx m.va = (.poisoned pa, cache) → ∃ t, exec (.pageWalk core 0) s = .next t ∧ ended t
            ∧ wakes t here m.vpn (some 0x0A))
        ∧ (s.walk m.ctx m.va = (.notPresent true, cache) → (∀ p ∈ s.held, p.2.ctx ≠ m.ctx ∨ p.2.vpn ≠ m.va / 8192) →
            (waited = true → s.held.length < 64 → ∃ t, exec (.pageWalk core 0) s = .next t ∧ ended t
              ∧ t.held = s.held.set s.nextHeld ⟨m.ctx, m.va / 8192, m.kind, false, m.va, core, s.cycle⟩ ∧ t.nextHeld = s.nextHeld + 1
              ∧ holds t s.nextHeld)
            ∧ (waited = false ∨ 64 ≤ s.held.length → ∃ t, exec (.pageWalk core 0) s = .next t ∧ ended t ∧ t.held = s.held
              ∧ wakes t here m.vpn (some 0x04))))
      ∧ (∀ number f, s.held.find number = some f →
        let fails := fun (t : State) (c : Option Nat) => t.held.find number = none
          ∧ wakesOn t (fun w => ∃ r ∈ (s.warp w).waits, r.wait = .held number) (.held number) f.vpn c
          ∧ ∀ a, t.mem.get a = s.mem.get a
        (∀ h : Hdr, mayCommand s h 1 → h.ctx = f.ctx → (s.ctx f.ctx).live = true →
            (∃ t, exec (.faultResolve h number 0) s = .next t ∧ fails t none ∧ t.mgr = (replied s h 0x31 0 []).mgr)
            ∧ (∃ t, exec (.faultResolve h number 1) s = .next t ∧ fails t (some 0x04) ∧ t.mgr = (replied s h 0x31 0 []).mgr))
        ∧ (s.cycle < f.since + 80000000 → exec (.heldFaultTimeout number) s = .next s)
        ∧ (f.since + 80000000 ≤ s.cycle → ∃ t, exec (.heldFaultTimeout number) s = .next t ∧ fails t (some 0x04)))
      ∧ (∀ (h : Hdr) (va len : Nat), mayCommand s h 1 → (s.ctx h.ctx).live = true → (s.ctx h.ctx).dying = false → va + len ≤ 2 ^ 53 →
        let i : Inval := ⟨h.ctx, false, va, len, .reply h 0x30 []⟩
        ∃ t, exec (.tlbInval h va len) s = .next t ∧ t.invals.find s.nextInval = some i ∧ discards t i ∧ t.mgr = s.mgr
          ∧ warpsKept s t
          ∧ (∀ w y g, (s.warp w).waits = [y] → y.lanes ≠ 0 → y.wait = .room (some g) → (∃ p ∈ g.parts, ∃ o ∈ p.ops, hits i (s.ctxOf w) o.va) →
              (t.warp w).waits = [] ∧ ∀ l, (t.warp w).lane l =
                if y.lanes.getLsbD l then { (s.warp w).lane l with readyAt := s.cycle + 1 } else (s.warp w).lane l)
          ∧ t = { s with warps := t.warps, cores := t.cores, walkCache := t.walkCache, invals := t.invals, nextInval := s.nextInval + 1 })
      ∧ (∀ id i, s.invals.find id = some i →
        let free := (∀ r ∈ s.reqs, ¬ hits i r.2.ctx r.2.va ∧ ∀ o ∈ r.2.ops, ¬ hits i r.2.ctx o.va)
          ∧ ∀ p ∈ s.tickets, p.2.state = 1 → p.2.reqs = [] → (∃ h slot, i.after = .swing h slot) ∨ ∀ o ∈ p.2.parts, ¬ hits i p.2.ctx o.va
        (¬ free → exec (.invalidationComplete id) s = .next s)
        ∧ (free → (∀ h op body, i.after = .reply h op body → ∃ t, exec (.invalidationComplete id) s = .next t
              ∧ t.invals.find id = none ∧ discards t i ∧ t.mgr = (replied s h op 0 body).mgr
              ∧ t = { s with cores := t.cores, walkCache := t.walkCache, invals := t.invals, mgr := t.mgr })
          ∧ (∀ h, i.after = .destroy h → ∃ t, exec (.invalidationComplete id) s = .next t ∧ t.invals.find id = none ∧ discards t i
              ∧ t.ctxs.find h.ctx = none ∧ t.mgr = (replied s h 0x02 0 []).mgr ∧ ∀ a, t.mem.get a = s.mem.get a)))

/-- Both statements above together: TranslationMiss, Translations.
Readings and choices of the model in it: notes/assumptions/6, 59, 68. -/
def Obligations.Translations : Prop := Part.TranslationMiss ∧ Part.Translations

/-- R80, R81, R420 to R422: MIGRATE arms the lowest free slot, starts it with an invalidation of its context whose completion makes it live and moves
the reads of tickets that are still to come to the new frame, aborts and releases it; a
channel's pull slot moves the next line of a live slot, bytes unchanged, and a line whose old bytes cannot be read fails.
Readings and choices of the model in it: notes/assumptions/72, 77, 107. -/
def Obligations.Migration : Prop :=
  ∀ (s : State) (h : Hdr) (slot : Nat),
    let m := s.migs.get slot
    let others := fun (t : State) => ∀ k, k ≠ slot → t.migs.get k = s.migs.get k
    (mayCommand s h 1 → (s.ctx h.ctx).live = true → (s.ctx h.ctx).dying = false →
        (∀ size old new, size < 2 → old < 0x60_0000_0000 → new < 0x60_0000_0000 →
          let bytes := if size = 0 then 2 ^ 13 else 2 ^ 23
          (old % bytes ≠ 0 ∨ new % bytes ≠ 0 → exec (.migrateArm h size old new) s = .next (replied s h 0x32 3 []))
          ∧ (old % bytes = 0 → new % bytes = 0 → slot < 64 → m.state = 0 → (∀ k, k < slot → (s.migs.get k).state ≠ 0) →
            ∃ t, exec (.migrateArm h size old new) s = .next t ∧ t.migs.get slot = ⟨1, h.ctx, old, new, bytes, [], [], 0, 0, false⟩ ∧ others t
              ∧ t.mgr = (replied s h 0x32 0 (natToBytes 1 slot)).mgr ∧ t = { s with migs := t.migs, mgr := t.mgr }))
        ∧ (slot < 64 → m.state ≠ 0 → m.ctx = h.ctx →
          (m.state = 1 → m.started = false → ∃ t, exec (.migrateStart h slot) s = .next t ∧ t.migs.get slot = { m with started := true }
              ∧ others t ∧ (∃ i, t.invals.find s.nextInval = some i ∧ i.ctx = h.ctx ∧ i.all = false ∧ i.len = 0 ∧ i.after = .swing h slot)
              ∧ warpsKept s t ∧ ∀ a, t.mem.get a = s.mem.get a)
          ∧ (m.state = 1 ∨ m.state = 2 → ∃ t, exec (.migrateAbort h slot) s = .next t ∧ t.migs.get slot = { m with state := 4 } ∧ others t
              ∧ t.mgr = (replied s h 0x32 0 (natToBytes 1 slot)).mgr ∧ ∀ a, t.mem.get a = s.mem.get a)
          ∧ (m.state = 3 ∨ m.state = 4 → ∃ t, exec (.migrateRelease h slot) s = .next t ∧ t.migs.find slot = none ∧ others t
              ∧ t.mgr = (replied s h 0x32 0 (natToBytes 1 slot)).mgr ∧ t = { s with migs := t.migs, mgr := t.mgr })
          ∧ (m.state = 1 ∨ m.state = 2 → exec (.migrateRelease h slot) s = .next (replied s h 0x32 8 []))))
      ∧ (∀ id i, s.invals.find id = some i → i.after = .swing h slot → s.reqs = [] → m.state = 1 →
        ∃ t, exec (.invalidationComplete id) s = .next t ∧ t.invals.find id = none ∧ t.migs.get slot = { m with state := 2 } ∧ others t
          ∧ (∀ k e, s.tickets.find k = some e → t.tickets.find k = some (if e.state = 1 ∧ e.ctx = m.ctx then
              { e with parts := e.parts.map fun o =>
                  if m.old ≤ o.pa ∧ o.pa < m.old + m.size then { o with pa := m.new + (o.pa - m.old), mig := true } else o } else e))
          ∧ t.mgr = (replied s h 0x32 0 (natToBytes 1 slot)).mgr ∧ ∀ a, t.mem.get a = s.mem.get a)
      ∧ (∀ ch line, s.migs = [(slot, m)] → m.state = 2 → (s.chans.get ch).failed = false → m.wants ch line = true →
        (∀ k, k < line → m.wants ch k = false) → 256 * line + 256 ≤ m.size → m.old + m.size ≤ 0x60_0000_0000 → m.new + m.size ≤ 0x60_0000_0000 →
        Good s → s.chanFailed (m.new + 256 * line) = false →
        (s.readBad (m.old + 256 * line) 256 = false → ∃ t, exec (.backgroundPullSlot ch) s = .next t
            ∧ (t.migs.get slot).pulled = m.pulled ++ [line] ∧ (t.migs.get slot).background = m.background + 1
            ∧ t.mem.read (m.new + 256 * line) 256 = s.mem.read (m.old + 256 * line) 256
            ∧ (∀ a, a < m.new + 256 * line ∨ m.new + 256 * line + 256 ≤ a → t.mem.get a = s.mem.get a) ∧ t.warps = s.warps)
        ∧ (s.readBad (m.old + 256 * line) 256 = true → ∃ t, exec (.backgroundPullSlot ch) s = .next t
            ∧ (t.migs.get slot).pulled = m.pulled ∧ (t.migs.get slot).failed.find line = some 0x0A
            ∧ (∀ a, t.mem.get a = s.mem.get a) ∧ t.warps = s.warps))
      ∧ (∀ ch, (s.chans.get ch).failed = true ∨ s.migs = [] → exec (.backgroundPullSlot ch) s = .next s)

/-- R287, R411, R434, R443: POOL_ALLOC sends the allocation to its landing and refuses with status 7 when it has no room; with a grant, and with POOL_REVOKE, both
roles on this module: the grant is recorded at the landing or ended there, the target's tables changed, its translations invalidated, and the reply
follows the invalidation.
Readings and choices of the model in it: notes/assumptions/75, 94, 122. -/
def Obligations.PoolCommands : Prop :=
  ∀ (s : State) (h : Hdr), mayCommand s h 0 → (s.ctx h.ctx).live = true → (s.ctx h.ctx).dying = false →
    (∀ size (attr : Word), let l := attr.toNat % 16
      attrOk size attr.toNat = true → s.attached l = true → s.portLost l = false →
        ∃ t r, exec (.poolAlloc h size attr) s = .next t ∧ t.reqs.find s.nextReq = some r ∧ r.kind = .alloc size attr.toNat (some h)
          ∧ r.port = l ∧ r.ctx = h.ctx ∧ r.discarded = false
          ∧ r.deadline = s.cycle + (s.ctx h.ctx).fabrictimeout.toNat * 800 ∧ (∀ k, k ≠ s.nextReq → t.reqs.find k = s.reqs.find k)
          ∧ t = { s with reqs := t.reqs, nextReq := s.nextReq + 1 })
      ∧ (∀ size attr, attrOk size attr = false → ∀ a : Word, a.toNat = attr →
        exec (.poolAlloc h size a) s = .next (replied s h 0x50 3 []))
      ∧ (∀ id r size attr, s.reqs.find id = some r → r.open_ s = true → r.kind = .alloc size attr (some h) → (s.ports.get r.port).state = 2 →
        ∃ t, exec (.landingPoolResponse id .noRoom) s = .next t ∧ t.reqs.find id = none ∧ t.mgr = (replied s h 0x50 7 []).mgr
          ∧ ∀ a, t.mem.get a = s.mem.get a)
      ∧ (∀ l off len target access (a : PoolAlloc),
        let va := 2 ^ 52 + l * 2 ^ 46 + off
        let x := s.landings.get l
        let g : PoolGrant := ⟨s.module_, h.ctx, s.module_, target, off, len, access, a.attr⟩
        let page := 2 ^ pageBits (attrPage a.attr)
        let invalidates := fun (t : State) (op : Nat) => ∃ v, t.invals.find s.nextInval = some v ∧ v.ctx = target ∧ v.all = false ∧ v.va = va
          ∧ v.len = len ∧ v.after = .reply h op []
        l < 16 → len ≠ 0 → off % 8192 = 0 → len % 8192 = 0 → off + len ≤ 2 ^ 46 → target < 4096 → access < 4 → s.module_ < 64 →
        (s.ctx target).live = true → (s.ctx target).dying = false →
        (s.ports.get l).attached = true → (s.ports.get l).lost = false → (s.ports.get l).up = true → (s.ports.get l).state = 2 →
        (s.ports.get l).since = none →
        (x.owns h.ctx off len = some a → off % page = 0 → len % page = 0 →
          (s.grantBad target a.attr off len l access = true →
            exec (.poolGrant h va len target access 0xFF 0xFF) s = .next (replied s h 0x51 7 []))
          ∧ (s.grantBad target a.attr off len l access = false →
            (s.installGrant target a.attr off len l access = none →
              exec (.poolGrant h va len target access 0xFF 0xFF) s = .next (replied s h 0x51 4 []))
            ∧ ∀ u, s.installGrant target a.attr off len l access = some u →
              ∃ t, exec (.poolGrant h va len target access 0xFF 0xFF) s = .next t ∧ (t.landings.get l).grants = x.grants ++ [g]
                ∧ (∀ k, k ≠ l → t.landings.get k = s.landings.get k) ∧ t.mem = u.mem ∧ invalidates t 0x51 ∧ warpsKept s t))
        ∧ (x.owns h.ctx off len = none → exec (.poolGrant h va len target access 0xFF 0xFF) s = .next (replied s h 0x51 7 []))
        ∧ (g ∈ x.grants →
          (∀ y ∈ x.grants, s.removeBad target (attrPage y.attr) (2 ^ 51 + l * 2 ^ 46 + off) (len / 2 ^ pageBits (attrPage y.attr)) = none) →
          ∃ t, exec (.poolRevoke h va len target 0xFF 0xFF) s = .next t
            ∧ (∀ y, y ∈ (t.landings.get l).grants ↔ y ∈ x.grants
                ∧ ¬ (y.omod = s.module_ ∧ y.octx = h.ctx ∧ y.tmod = s.module_ ∧ y.tctx = target ∧ y.off = off ∧ y.len = len))
            ∧ invalidates t 0x52 ∧ warpsKept s t))

/-- R437, R438, R440, R471: LINK drains a link that is up and answers when no request is outstanding, and retrains or restores one that is down or drained; a link that
finishes training is up and gives the module its number once; one that fails is down, and its landing is lost after 100 µs or when it reports so: its
allocations are revoked. No byte of memory changes, and a LINK command left unanswered is answered.
Readings and choices of the model in it: notes/assumptions/73, 74. -/
def Obligations.Links : Prop :=
  ∀ (s : State) (port : Nat), s.reqs = [] →
    let p := s.ports.get port
    let l := s.landings.get port
    let only := fun (t : State) => t = { s with ports := t.ports, mgr := t.mgr }
    let kept := fun (t : State) => (∀ k, k ≠ port → t.ports.get k = s.ports.get k ∧ t.landings.get k = s.landings.get k)
      ∧ (∀ w, t.warp w = s.warp w) ∧ ∀ a, t.mem.get a = s.mem.get a
    let answer := fun (t : State) (status : Nat) => match p.drain with
      | some h => t.mgr.outbox = (replied s h 0x70 status []).mgr.outbox
      | none => t.mgr.outbox = s.mgr.outbox
    let allRevoked := fun (x : Landing) =>
      (∀ a ∈ x.allocs, a.off < 2 ^ 46 → 0 < a.off + a.size → a.revoked = true) ∧ x.allocs.length = l.allocs.length
    (∀ h : Hdr, mayCommand s h 3 → port < 16 → p.attached = true → p.drain = none →
        (p.lost = false → p.state = 2 → p.up = true → ∃ t, exec (.linkDrain h port) s = .next t
            ∧ t.ports.get port = { p with state := 4, drain := none } ∧ t.mgr.outbox = (replied s h 0x70 0 []).mgr.outbox ∧ kept t ∧ only t)
        ∧ (p.state = 0 ∨ p.state = 4 → (∃ t, exec (.linkRetrain h port) s = .next t ∧ t.ports.get port = { p with state := 1, drain := some h }
              ∧ t.mgr.outbox = s.mgr.outbox ∧ kept t ∧ only t)
          ∧ (∃ t, exec (.linkRestore h port) s = .next t ∧ t.ports.get port = { p with state := 1, drain := some h }
              ∧ (let x := t.landings.get port
                 allRevoked x ∧ x.extents = [] ∧ x.quota = [] ∧ x.grants = [] ∧ x.gone = []) ∧ t.mgr.outbox = s.mgr.outbox ∧ kept t))
        ∧ (p.state ≠ 0 → p.state ≠ 4 → exec (.linkRetrain h port) s = .next (replied s h 0x70 8 [])
          ∧ exec (.linkRestore h port) s = .next (replied s h 0x70 8 [])))
      ∧ (∀ module_, p.attached = true → p.state = 0 ∨ p.state = 1 → s.late = [] →
        ((∃ q ∈ s.ports, q.2.up = true) → module_ ≠ s.module_ → ∃ t, exec (.linkUp port module_) s = .next t
            ∧ t.ports.get port = { p with state := 1 } ∧ t.module_ = s.module_ ∧ kept t)
        ∧ ((∀ q ∈ s.ports, q.2.up = false) ∨ module_ = s.module_ → ∃ t, exec (.linkUp port module_) s = .next t
            ∧ t.module_ = module_ ∧ (t.ports.get port).state = 2 ∧ (t.ports.get port).up = true ∧ (t.ports.get port).lost = false
            ∧ (t.ports.get port).since = none ∧ (t.ports.get port).drain = none ∧ answer t 0 ∧ kept t))
      ∧ (p.state = 1 ∨ p.state = 2 ∨ p.state = 3 → ∃ t, exec (.linkDown port) s = .next t
          ∧ t.ports.get port = { p with state := 0, drain := none, since := if p.state = 1 then p.since else some s.cycle }
          ∧ answer t 7 ∧ kept t ∧ only t)
      ∧ (let loses := fun (i : Instr) => ∃ t, exec i s = .next t
            ∧ t.ports.get port = { p with state := 0, lost := true, since := none, drain := none } ∧ allRevoked (t.landings.get port)
            ∧ (t.landings.get port).grants = l.grants.filter (fun g => !(g.off < 2 ^ 46 && 0 < g.off + g.len))
            ∧ t.mgr.lost = s.mgr.lost + 1 ∧ answer t 7 ∧ kept t
        (p.attached = true → p.lost = false → loses (.landingFailureReport port))
        ∧ (p.attached = false ∨ p.lost = true → exec (.landingFailureReport port) s = .next s)
        ∧ (∀ c, p.since = some c → p.lost = false → (c + 80000 ≤ s.cycle → loses (.landingLost port))
          ∧ (s.cycle < c + 80000 → exec (.landingLost port) s = .next s)))

/-- R71, R437, R444: a landing adds an extent, releases one that holds no allocation, or releases one by force, which revokes its allocations and ends its grants; each is
reported by an EXTENT event; R69, R92, R99, R439: a request of another module that has time left is performed on this module's HBM and answered with
its data, with the cause of an error, or with PAGE_FAULT outside it; one that arrives with none left is discarded. R110, R111, R179: a block update of
another module writes its stream and then its entry where the entry it merged with still stands, and is answered with the entry that stands where it does not.
Readings and choices of the model in it: notes/assumptions/12. -/
def Obligations.ExtentsAndRemoteRequests : Prop :=
  ∀ (s : State) (landing off len : Nat),
    let l := s.landings.get landing
    let reports := fun (t : State) (kind : Nat) => s.mgr.events.length < 1024 → s.mgr.waiting = [] → t.mgr.events = s.mgr.events
      ++ [⟨0, 1, 0xC6, 2, 0, 0, 0, natToBytes 1 landing ++ natToBytes 1 kind ++ natToBytes 6 0 ++ natToBytes 8 off ++ natToBytes 8 len⟩]
    let kept := fun (t : State) => (∀ k, k ≠ landing → t.landings.get k = s.landings.get k) ∧ (∀ w, t.warp w = s.warp w)
      ∧ ∀ a, t.mem.get a = s.mem.get a
    (∃ t, exec (.extentAdd landing off len) s = .next t ∧ (t.landings.get landing).extents = l.extents ++ [(off, len)]
        ∧ (t.landings.get landing).allocs = l.allocs ∧ reports t 1 ∧ kept t)
      ∧ ((∀ a ∈ l.allocs, a.revoked = true ∨ a.off + a.size ≤ off ∨ off + len ≤ a.off) → ∃ t, exec (.extentRelease landing off len) s = .next t
          ∧ (t.landings.get landing).extents = l.extents.filter (· != (off, len)) ∧ (t.landings.get landing).allocs = l.allocs ∧ reports t 2 ∧ kept t)
      ∧ ((∃ a ∈ l.allocs, a.revoked = false ∧ off < a.off + a.size ∧ a.off < off + len) → exec (.extentRelease landing off len) s = .next s)
      ∧ (s.reqs = [] → ∃ t, exec (.extentForcedRelease landing off len) s = .next t
          ∧ (t.landings.get landing).extents = l.extents.filter (· != (off, len))
          ∧ (t.landings.get landing).gone = l.gone ++ [(off, len)]
          ∧ (t.landings.get landing).allocs
              = l.allocs.map (fun a => if a.off < off + len ∧ off < a.off + a.size then { a with revoked := true } else a)
          ∧ (∀ g, g ∈ (t.landings.get landing).grants ↔ g ∈ l.grants ∧ ¬ (g.off < off + len ∧ off < g.off + g.len))
          ∧ reports t 3 ∧ (∀ k, k ≠ landing → t.landings.get k = s.landings.get k) ∧ warpsKept s t ∧ ∀ a, t.mem.get a = s.mem.get a)
      ∧ (∀ (sender pa : Nat) (op : RemoteOp), exec (.remoteRequest sender pa ⟨0, op⟩) s = .next s)
      ∧ (∀ (sender left pa : Nat) (bs : List Byte) (n : Nat) (op : AtomOp) (ty : AtomTy) (b c : Nat), left ≠ 0 →
        let responds := fun (t : State) (status : Nat) (body : List Byte) =>
          t.mgr.outbox = s.mgr.outbox ++ [⟨3, sender, 0, 0, 0, 0, status, body⟩] ∧ t.warps = s.warps
        (0x60_0000_0000 < pa + n → exec (.remoteRequest sender pa ⟨left, .read n⟩) s
            = .next { s with mgr := { s.mgr with outbox := s.mgr.outbox ++ [⟨3, sender, 0, 0, 0, 0, 0x04, []⟩] } })
        ∧ (pa + n ≤ 0x60_0000_0000 → s.readBad pa n = false → ∃ t, exec (.remoteRequest sender pa ⟨left, .read n⟩) s = .next t
            ∧ responds t 0 (s.mem.read pa n) ∧ ∀ a, t.mem.get a = s.mem.get a)
        ∧ (pa + n ≤ 0x60_0000_0000 → 0 < n → s.readBad pa n = true → ∃ t, exec (.remoteRequest sender pa ⟨left, .read n⟩) s = .next t
            ∧ responds t 0x0A [] ∧ ∀ a, t.mem.get a = s.mem.get a)
        ∧ (pa + bs.length ≤ 0x60_0000_0000 → bs ≠ [] → s.chanFailed pa = false → Good s → ∃ t, exec (.remoteRequest sender pa ⟨left, .write bs⟩) s = .next t
            ∧ responds t 0 [] ∧ t.mem.read pa bs.length = bs ∧ ∀ a, a < pa ∨ pa + bs.length ≤ a → t.mem.get a = s.mem.get a)
        ∧ (op.tyOk ty = true → pa + ty.bytes ≤ 0x60_0000_0000 → s.readBad pa ty.bytes = false →
          ∃ t, exec (.remoteRequest sender pa ⟨left, .atom op ty b c⟩) s = .next t ∧ responds t 0 (natToBytes ty.bytes (s.mem.readNat pa ty.bytes))
            ∧ t.mem = (atomsInOrder op ty s.mem [⟨0, 0, pa, b, c, false⟩]).1)
        ∧ (∀ port old slot new, let i : Instr := .remoteRequest sender pa ⟨left, .update port old slot new⟩
          pa + 16 ≤ 0x60_0000_0000 → (∀ p ∈ slot, p.1 + p.2.length ≤ 0x60_0000_0000) → s.readBad pa 16 = false →
          (s.mem.read pa 16 ≠ old → ∃ t, exec i s = .next t ∧ responds t 0 (s.mem.read pa 16) ∧ ∀ a, t.mem.get a = s.mem.get a)
          ∧ (s.mem.read pa 16 = old → new.length = 16 → Good s → s.chanFailed pa = false → (∀ p ∈ slot, s.chanFailed p.1 = false) →
            (∀ p ∈ slot, p.1 + p.2.length ≤ pa ∨ pa + 16 ≤ p.1) →
            slot.Pairwise (fun p q => p.1 + p.2.length ≤ q.1 ∨ q.1 + q.2.length ≤ p.1) →
            ∃ t, exec i s = .next t ∧ responds t 0 [] ∧ t.mem.read pa 16 = new ∧ (∀ p ∈ slot, t.mem.read p.1 p.2.length = p.2)
              ∧ ∀ a, (a < pa ∨ pa + 16 ≤ a) → (∀ p ∈ slot, a < p.1 ∨ p.1 + p.2.length ≤ a) → t.mem.get a = s.mem.get a)))

/-- R171, R333, R434: DEBUG reads and writes a register or a lane's program counter of a warp stopped by brk, where a
read-only control register keeps its value, and resumes it; INDEX_AUDIT waits for the engine
operations in progress at its start, then audits the tensor's pool and answers its counts, or is refused and returns no slot.
Readings and choices of the model in it: notes/assumptions/83, 84. -/
def Obligations.DebugAndAudit : Prop :=
  ∀ (s : State) (h : Hdr), (s.ctx h.ctx).live = true → (s.ctx h.ctx).dying = false →
    (mayCommand s h 2 → ∀ cls lane crew slot number (v : DWord),
      (s.stoppedWarp h crew slot = none → exec (.debugRead h cls lane crew slot number) s = .next (replied s h 0x60 6 [])
        ∧ exec (.debugWrite h cls lane crew slot number v) s = .next (replied s h 0x60 6 [])
        ∧ exec (.debugResume h crew slot) s = .next (replied s h 0x60 6 []))
      ∧ (∀ w, s.stoppedWarp h crew slot = some w →
        let x := s.warp w
        let value := fun (t : State) (y : Nat) => t.mgr = (replied s h 0x60 0 (natToBytes 8 y)).mgr
        let reads := fun (y : Nat) => exec (.debugRead h cls lane crew slot number) s = .next (replied s h 0x60 0 (natToBytes 8 y))
        let writes := fun (y : Nat) (p : Warp → Prop) => ∃ t, exec (.debugWrite h cls lane crew slot number v) s = .next t ∧ value t y
          ∧ p (t.warp w) ∧ (∀ u, u ≠ w → t.warp u = s.warp u) ∧ t = { s with warps := t.warps, mgr := t.mgr }
        (cls = 0 → lane < 32 → number < x.quota → reads (x.v number lane).toNat ∧ writes (v.toNat % 2 ^ 32) (fun y =>
            y.v number lane = v.setWidth 32 ∧ (∀ m l, l < 32 → m ≠ number ∨ l ≠ lane → y.v m l = x.v m l) ∧ y = { x with vregs := y.vregs, badRegs := y.badRegs }))
        ∧ (cls = 1 → number < 64 → reads (x.s number).toNat ∧ writes v.toNat (fun y =>
            y.s number = v ∧ (∀ m, m ≠ number → y.s m = x.s m) ∧ y = { x with sregs := y.sregs, badRegs := y.badRegs }))
        ∧ (cls = 2 → ∀ held, (number, held) ∈ [(0x11, x.trapcause), (0x12, x.traplanes), (0x13, x.trapaddr), (0x14, x.trapinfo),
              (0x20, BitVec.ofNat 64 (s.ctxOf w)), (0x30, BitVec.ofNat 64 s.cycle)] →
            reads held.toNat ∧ exec (.debugWrite h cls lane crew slot number v) s = .next (replied s h 0x60 0 (natToBytes 8 held.toNat)))
        ∧ (cls = 2 → number = 0x01 → reads x.fpmode.toNat ∧ writes (v.toNat &&& 0x1F03) (fun y =>
            y = { x with fpmode := BitVec.ofNat 64 (v.toNat &&& 0x1F03) }))
        ∧ (cls = 2 → number = 0x02 → reads x.fpflags.toNat ∧ writes (v.toNat &&& 0x1F) (fun y =>
            y = { x with fpflags := BitVec.ofNat 64 (v.toNat &&& 0x1F) }))
        ∧ (cls = 3 → lane < 32 → reads (x.lane lane).pc.toNat ∧ writes v.toNat (fun y =>
            y.lane lane = { x.lane lane with pc := v } ∧ (∀ l, l ≠ lane → y.lane l = x.lane l) ∧ y = { x with lanes := y.lanes }))
        ∧ (3 < cls → exec (.debugRead h cls lane crew slot number) s = .next (replied s h 0x60 3 []))
        ∧ (∃ t, exec (.debugResume h crew slot) s = .next t ∧ (t.warp w).stopped = false
            ∧ (∀ l, (t.warp w).lane l = if x.liveLanes.getLsbD l then { x.lane l with readyAt := max (x.lane l).readyAt (s.cycle + 1) } else x.lane l)
            ∧ t.warp w = { x with stopped := false, lanes := (t.warp w).lanes } ∧ (∀ u, u ≠ w → t.warp u = s.warp u)
            ∧ value t 0 ∧ t = { s with warps := t.warps, mgr := t.mgr })))
      ∧ (∀ handle, let i : Instr := .indexAudit h handle
        (mayCommand s h 1 → s.mgr.pending = [] →
          (handle % 128 ≠ 0 → exec i s = .next (replied s h 0x40 3 []))
          ∧ (handle % 128 = 0 → exec i s = .next { s with mgr := { s.mgr with pending := [(i, s.opsInProgress)] } }))
        ∧ (∀ ops, s.mgr.pending = [(i, ops)] →
          ((∃ n ∈ ops, n ∈ s.opsInProgress) → exec i s = .next s)
          ∧ (∀ ns u, (∀ n ∈ ops, n ∉ s.opsInProgress) →
            { s with mgr := { s.mgr with pending := [] } }.unitRun h.ctx (auditPool handle) = (.ok ns, u) →
            exec i s = .next (replied u h 0x40 0 (ns.flatMap (natToBytes 4))))
          ∧ (∀ e u, (∀ n ∈ ops, n ∉ s.opsInProgress) →
            { s with mgr := { s.mgr with pending := [] } }.unitRun h.ctx (auditPool handle) = (.error e, u) →
            exec i s = .next (replied { s with errlog := u.errlog, mgr := u.mgr } h 0x40 3 []))))

/-! ### Identity, resets and power -/

/-- R448, R450 to R455: the identity commands on queue pairs 1 to 15: ID_GET and QUOTE answer the module's identity; SESSION_CHALLENGE draws a nonce, which lapses after
1 s; SESSION_OPEN spends it and binds the QP to its operator key when both signatures verify, and SESSION_CLOSE unbinds it; OWNER_SET fuses the owner key once; CONFIG_APPLY
takes a blob whose fields keep their rules and whose signature verifies, and judges anew since when the limits have been kept by 3%.
Readings and choices of the model in it: notes/assumptions/78, 82, 102. -/
def Obligations.IdentityCommands : Prop :=
  ∀ (s : State) (h : Hdr), 1 ≤ h.qp → h.qp ≤ 15 →
    let q := s.mgr.qps.get h.qp
    let sessions := fun (t : State) (x : Qp) => t.mgr.qps.get h.qp = x ∧ (∀ k, k ≠ h.qp → t.mgr.qps.get k = s.mgr.qps.get k)
      ∧ t = { s with mgr := t.mgr }
    let answers := fun (t : State) (op status : Nat) (body : List Byte) => t.mgr.outbox = (replied s h op status body).mgr.outbox
    exec (.idGet h) s = .next (replied s h 0xA0 0 (natToBytes 8 Config.serialNo ++ natToBytes 1 s.mgr.lastreset ++ natToBytes 5 0
        ++ natToBytes 32 identityKey ++ natToBytes 2 Config.certChain.length ++ Config.certChain))
      ∧ (∃ t n, exec (.sessionChallenge h) s = .next t ∧ n.length = 32 ∧ sessions t { q with nonce := some n, expires := s.cycle + 800000000 }
          ∧ answers t 0xA1 0 n)
      ∧ (∀ n, q.nonce = some n →
        (s.cycle < q.expires → exec (.nonceExpiry h.qp) s = .next s)
        ∧ (q.expires ≤ s.cycle → ∃ t, exec (.nonceExpiry h.qp) s = .next t ∧ sessions t { q with nonce := none } ∧ t.mgr.outbox = s.mgr.outbox))
      ∧ (∀ operator (rights : Word) endorsement proof,
        let i : Instr := .sessionOpen h operator rights endorsement proof
        (32 ≤ rights.toNat → exec i s = .next (replied s h 0xA2 3 []))
        ∧ (rights.toNat < 32 →
          let proves := ∃ n, q.nonce = some n ∧ edVerify operator (n ++ natToBytes 4 h.qp ++ natToBytes 8 Config.serialNo) proof = true
            ∧ ∀ k, s.mgr.owner = some k →
              edVerify k (natToBytes 32 operator ++ natToBytes 4 rights.toNat ++ natToBytes 8 Config.serialNo) endorsement = true
          (proves → ∃ t, exec i s = .next t ∧ answers t 0xA2 0 [] ∧ sessions t { q with
              nonce := none, session := some (if s.mgr.owner.isSome then rights.toNat else rights.toNat / 16 % 2 * 16), operator := operator })
          ∧ (¬ proves → ∃ t, exec i s = .next t ∧ answers t 0xA2 5 [] ∧ sessions t { q with nonce := none })))
      ∧ (∃ t, exec (.sessionClose h) s = .next t ∧ sessions t { q with session := none, operator := 0 } ∧ answers t 0xA3 0 []
          ∧ t.mgr.events = s.mgr.events.map fun m => if m.qp = h.qp then { m with qp := 1 } else m)
      ∧ (∀ nonce, ∃ body, exec (.quote h nonce) s = .next (replied s h 0xA4 0 (body ++ natToBytes 64 (identitySign body)))
          ∧ body = natToBytes 4 0x3154515A ++ natToBytes 2 1 ++ natToBytes 2 s.mgr.lastreset ++ natToBytes 8 Config.serialNo
            ++ natToBytes 4 s.mgr.colds ++ natToBytes 4 s.mgr.warms ++ natToBytes 8 s.cycle ++ natToBytes 64 Config.romHash
            ++ (match s.mgr.config with | some b => sha512 b | none => natToBytes 64 0)
            ++ natToBytes 32 (match s.mgr.owner with | some k => k | none => 0) ++ natToBytes 32 nonce)
      ∧ (∀ key blob retain, q.session = none ∨ (∃ r, q.session = some r ∧ r / 16 % 2 = 0) →
        exec (.ownerSet h key) s = .next (replied s h 0xA5 5 []) ∧ exec (.configApply h blob) s = .next (replied s h 0xA6 5 [])
          ∧ exec (.resetWarm h retain) s = .next (replied s h 0xA7 5 []) ∧ exec (.resetCold h) s = .next (replied s h 0xA7 5 []))
      ∧ (∀ r, q.session = some r → r / 16 % 2 = 1 →
        (∀ key, (s.mgr.owner = none → ∃ t, exec (.ownerSet h key) s = .next t ∧ t = { s with mgr := t.mgr }
              ∧ t.mgr = { s.mgr with owner := some key, outbox := t.mgr.outbox } ∧ answers t 0xA5 0 [])
            ∧ (s.mgr.owner ≠ none → exec (.ownerSet h key) s = .next (replied s h 0xA5 8 [])))
        ∧ (∀ blob : List Byte,
          let f := fun (off n : Nat) => bytesToNat ((blob.drop off).take n)
          let keeps := blob.length = 128 ∧ f 0 4 = 0x3146435A ∧ f 4 2 = 1 ∧ f 6 2 = 0 ∧ s.mgr.sequence ≤ f 8 8
            ∧ (f 0x10 8 = 0 ∨ f 0x10 8 = Config.serialNo) ∧ 600 ≤ f 0x18 2 ∧ f 0x18 2 ≤ 1800 ∧ f 0x1A 1 < 64 ∧ f 0x1B 37 = 0
          let signed := ∃ k, s.mgr.owner = some k ∧ edVerify k (blob.take 64) (f 0x40 64) = true
          (¬ keeps → exec (.configApply h blob) s = .next (replied s h 0xA6 3 []))
          ∧ (keeps → ¬ signed → exec (.configApply h blob) s = .next (replied s h 0xA6 5 []))
          ∧ (keeps → signed → ∃ t, exec (.configApply h blob) s = .next t ∧ t = { s with mgr := t.mgr }
              ∧ t.mgr = { s.mgr with
                  config := some blob, sequence := f 8 8, powercap := f 0x18 2, pfc := f 0x1A 1, paused := [], outbox := t.mgr.outbox
                  coolSince := if s.mgr.watts * 100 ≤ f 0x18 2 * 97 ∧ (∀ x ∈ s.mgr.temps, x ≤ (102 : Int))
                    then some (s.mgr.coolSince.getD s.cycle) else none }
              ∧ answers t 0xA6 0 [])))

/-- R438, R446 to R449, R456, R458: a warm reset by an owner's command, a cold one, and power-on leave the module as reset does, HBM kept only with retain
and then as the array held it, without the writes still in the slices; the fused owner key, the fused repair maps and the counts since
manufacture kept, a new session key, and the links trained; removing power stops everything. -/
def Sys2Proof.Part.Resets : Prop :=
  ∀ s : State,
    let fresh := fun (t : State) (last : Nat) (retain : Bool) =>
      t.power = 1 ∧ t.cycle = 0 ∧ t.warps = [] ∧ t.crews = [] ∧ t.cores = [] ∧ t.ctxs = [] ∧ t.launches = [] ∧ t.jobs = [] ∧ t.tickets = []
        ∧ t.reqs = [] ∧ t.engines = [] ∧ t.held = [] ∧ t.invals = [] ∧ t.migs = [] ∧ t.slicePins = [] ∧ t.sliceCount = [] ∧ t.errlog = []
        ∧ t.sched = Sched.reset ∧ t.key = s.key + 1 ∧ t.mgr.lastreset = last ∧ t.mgr.owner = s.mgr.owner
        ∧ (∀ q, (t.mgr.qps.get q).session = none) ∧ t.mgr.windows = [] ∧ t.mgr.issue = 8
        ∧ (let covers := fun (p : Nat × List Byte) (a : Nat) => retain = true ∧ 32 * p.1 ≤ a ∧ a < 32 * p.1 + p.2.length
           (∀ a, (∀ p ∈ s.dirty, ¬ covers p a) →
              t.mem.get a = if 0x4_0000_0000_0000 ≤ a ∨ (retain = true ∧ a < 0x60_0000_0000) then s.mem.get a else 0)
            ∧ ∀ a, ∀ p ∈ s.dirty, covers p a → (∀ q ∈ s.dirty, covers q a → q = p) → t.mem.get a = p.2.getD (a - 32 * p.1) 0)
        ∧ ∀ p, p < 16 → (t.ports.get p).attached = (s.ports.get p).attached
          ∧ ((s.ports.get p).attached = false ∨ (s.ports.get p).gives = none → (t.ports.get p).state = 0)
          ∧ ∀ n, (s.ports.get p).attached = true → (s.ports.get p).gives = some n →
            (∀ q, (s.ports.get q).attached = true → (s.ports.get q).gives = none ∨ (s.ports.get q).gives = some n) →
            (t.ports.get p).state = 2 ∧ (t.ports.get p).up = true ∧ t.module_ = n
    let cold := fun (t : State) (last : Nat) => fresh t last false ∧ t.mgr.colds = s.mgr.colds + 1 ∧ t.mgr.warms = s.mgr.warms
      ∧ t.mgr.config = none ∧ t.mgr.powercap = 1800 ∧ t.mgr.sequence = 0
      ∧ ∀ k, t.chans.get k = { (default : Chan) with
          table := (s.chans.get k).fused, mirror := (s.chans.get k).fused, fused := (s.chans.get k).fused }
    (∀ (h : Hdr) (r : Nat), 1 ≤ h.qp → h.qp ≤ 15 → (s.mgr.qps.get h.qp).session = some r → r / 16 % 2 = 1 →
        (∀ retain, (∀ p ∈ s.chans, p.2.badMirror = []) → (retain = true → Good s) → ∃ t, exec (.resetWarm h retain) s = .next t ∧ fresh t 1 retain
            ∧ t.mgr.colds = s.mgr.colds ∧ t.mgr.warms = s.mgr.warms + 1 ∧ t.mgr.config = s.mgr.config ∧ t.mgr.powercap = s.mgr.powercap
            ∧ t.mgr.sequence = s.mgr.sequence ∧ t.mgr.outbox = (replied s h 0xA7 0 []).mgr.outbox)
        ∧ ∃ t, exec (.resetCold h) s = .next t ∧ cold t 2 ∧ t.mgr.outbox = (replied s h 0xA7 0 []).mgr.outbox)
      ∧ (∃ t, exec .powerOn s = .next t ∧ cold t s.mgr.nextreset ∧ t.mgr.outbox = s.mgr.outbox)
      ∧ exec .powerRemoved s = .next { s with power := 0, mgr := { s.mgr with nextreset := 0 } }
      ∧ exec .thermalShutdown s = .next { s with power := 0, mgr := { s.mgr with nextreset := 3 } }
      ∧ (s.power = 0 → (s.agenda = [] → step s = .fault .poweredOff)
        ∧ (∀ x rest, s.agenda = x :: rest → x ≠ .event .powerOn → step s = .next { s with agenda := rest })
        ∧ (∀ rest, s.agenda = .event .powerOn :: rest → ∃ t, step s = .next t ∧ t.power = 1 ∧ t.cycle = 0 ∧ t.agenda = rest))

/-- R456, R457, R465: a sample records temperatures, coolant, power and its cycle, and since when both are cool; above a limit the cores are throttled a step at a
time, 100 µs apart, down to 4 of 8 cycles; cool for 1 ms, and cool under the cap in force, they run in every cycle again. -/
def Sys2Proof.Part.PowerSteps : Prop :=
  ∀ (s : State) (temps : List Int) (coolant : Int) (power : Nat),
    let g := s.mgr
    let hot := g.powercap < g.watts ∨ ∃ t ∈ g.temps, (105 : Int) < t
    let issues := fun (n since : Nat) => { s with mgr := { g with issue := n, stepped := since } }
    let cool := power * 100 ≤ g.powercap * 97 ∧ ∀ t ∈ temps, t ≤ (102 : Int)
    (∃ t, exec (.powerSample temps coolant power) s = .next t ∧ t = { s with mgr := { g with
          temps := temps, coolant := coolant, watts := power, sampled := s.cycle, coolSince := t.mgr.coolSince } }
        ∧ (¬ cool → t.mgr.coolSince = none) ∧ (cool → g.coolSince = none → t.mgr.coolSince = some s.cycle)
        ∧ (cool → ∀ c, g.coolSince = some c → t.mgr.coolSince = some c))
      ∧ (hot → g.issue = 8 → exec .throttleStep s = .next (issues 7 s.cycle))
      ∧ (hot → 4 < g.issue → g.issue < 8 → g.stepped + 80000 ≤ s.cycle → exec .throttleStep s = .next (issues (g.issue - 1) s.cycle))
      ∧ (¬ hot ∨ g.issue ≤ 4 ∨ (g.issue ≠ 8 ∧ s.cycle < g.stepped + 80000) → exec .throttleStep s = .next s)
      ∧ (let now := g.watts * 100 ≤ g.powercap * 97 ∧ ∀ x ∈ g.temps, x ≤ (102 : Int)
        (g.issue ≠ 8 → ∀ c, g.coolSince = some c →
          (now → c + 800000 ≤ s.cycle → exec .throttleExit s = .next { s with mgr := { g with issue := 8 } })
          ∧ (s.cycle < c + 800000 → exec .throttleExit s = .next s))
        ∧ (g.issue = 8 ∨ g.coolSince = none ∨ ¬ now → exec .throttleExit s = .next s))

/-- Both statements above together: Resets, PowerSteps.
Readings and choices of the model in it: notes/assumptions/88, 89, 111. -/
def Obligations.ResetsAndPower : Prop := Part.Resets ∧ Part.PowerSteps

/-! ### Running a fleet -/

/-- R459 to R461, R465 to R467: HEALTH answers the report of 224 bytes, COUNTER_SET arms one counter of a core, slice or port, COUNTER_READ answers the eight of a
unit, and LOG_READ the records from a sequence number on that fit.
Readings and choices of the model in it: notes/assumptions/85, 87, 109. -/
def Obligations.HealthCountersLogs : Prop :=
  ∀ (s : State) (h : Hdr), mayCommand s h 3 →
    (∃ body, exec (.health h) s = .next (replied s h 0x80 0 body) ∧ body.length = 224
        ∧ (let f := fun (off n : Nat) => (body.drop off).take n
           f 0x00 8 = natToBytes 8 Config.serialNo ∧ f 0x08 8 = natToBytes 8 s.cycle ∧ f 0x10 1 = [if s.mgr.issue = 8 then 0 else 1]
            ∧ f 0x11 1 = natToBytes 1 s.mgr.issue ∧ f 0x12 2 = natToBytes 2 s.mgr.watts
            ∧ (∀ p, p < 16 → f (0x60 + p) 1 = natToBytes 1 (s.ports.get p).state)
            ∧ f 0xC0 4 = natToBytes 4 (min s.mgr.poisoned (2 ^ 32 - 1)) ∧ f 0xC8 4 = natToBytes 4 (min s.mgr.dropped (2 ^ 32 - 1))
            ∧ f 0xD0 2 = natToBytes 2 (min s.mgr.lost (2 ^ 16 - 1)) ∧ f 0xD2 2 = natToBytes 2 (min s.held.length (2 ^ 16 - 1))))
      ∧ (∀ cls unit counter (select : Word) (count : DWord),
        let i : Instr := .counterSet h cls unit counter select count
        let x := BitVec.ofNat 64 (select.toNat &&& 0xC000FFFF)
        let source := select.toNat % 2 ^ 16
        (2 < cls ∨ 7 < counter ∨ cls = 0 ∧ (255 < unit ∨ 0x000E < source) ∨ cls = 1 ∧ (63 < unit ∨ source ≠ 0 ∧ (source < 0x0101 ∨ 0x0108 < source))
            ∨ cls = 2 ∧ (15 < unit ∨ source ≠ 0 ∧ (source < 0x0201 ∨ 0x0206 < source)) → exec i s = .next (replied s h 0x81 3 []))
        ∧ (counter < 8 → cls = 0 → unit < 256 → source ≤ 0x000E → ∃ t, exec i s = .next t ∧ t.mgr = (replied s h 0x81 0 []).mgr
            ∧ t.core unit = { s.core unit with
                evsel := (s.core unit).evsel.set counter x, evcount := (s.core unit).evcount.set counter count,
                evctx := (s.core unit).evctx.set counter h.ctx }
            ∧ (∀ c, c ≠ unit → t.core c = s.core c) ∧ t = { s with cores := t.cores, mgr := t.mgr })
        ∧ (counter < 8 → cls = 1 → unit < 64 → source = 0 ∨ (0x0101 ≤ source ∧ source ≤ 0x0108) → select.toNat / 2 ^ 30 % 2 = 0 →
            exec i s = .next (replied { s with
              sliceSel := s.sliceSel.set (unit * 8 + counter) x, sliceCount := s.sliceCount.set (unit * 8 + counter) count } h 0x81 0 []))
        ∧ (counter < 8 → cls = 2 → unit < 16 → source = 0 ∨ (0x0201 ≤ source ∧ source ≤ 0x0206) → select.toNat / 2 ^ 30 % 2 = 0 →
            exec i s = .next (replied { s with
              ports := s.ports.set unit { s.ports.get unit with
                evsel := (s.ports.get unit).evsel.set counter x, evcount := (s.ports.get unit).evcount.set counter count } } h 0x81 0 [])))
      ∧ (∀ cls unit,
        let eight := fun (f g : Nat → Nat) => (List.range 8).flatMap (fun i => natToBytes 4 (f i)) ++ (List.range 8).flatMap fun i => natToBytes 8 (g i)
        let i : Instr := .counterRead h cls unit
        (cls = 0 → unit < 256 → exec i s = .next (replied s h 0x82 0
            (eight (fun k => ((s.core unit).evsel.get k).toNat) fun k => ((s.core unit).evcount.get k).toNat)))
        ∧ (cls = 1 → unit < 64 → exec i s = .next (replied s h 0x82 0
            (eight (fun k => (s.sliceSel.get (unit * 8 + k)).toNat) fun k => (s.sliceCount.get (unit * 8 + k)).toNat)))
        ∧ (cls = 2 → unit < 16 → exec i s = .next (replied s h 0x82 0
            (eight (fun k => ((s.ports.get unit).evsel.get k).toNat) fun k => ((s.ports.get unit).evcount.get k).toNat))))
      ∧ (∀ kind from_,
        let records := fun (all : List (Nat × List Byte)) (room : Nat) =>
          let some_ := (all.filter fun p => from_ ≤ p.1).take room
          natToBytes 2 some_.length ++ natToBytes 2 0 ++ some_.flatMap (·.2)
        (kind = 0 → exec (.logRead h kind from_) s = .next (replied s h 0x89 0 (records s.numberedLog 112)))
        ∧ (kind = 1 → exec (.logRead h kind from_) s = .next (replied s h 0x89 0 (records s.sched.deadlog 63)))
        ∧ (1 < kind → exec (.logRead h kind from_) s = .next (replied s h 0x89 3 [])))

/-- R415, R446, R447, R468, R469: CORE_OFFLINE takes a core out of placement and answers when it is clear, also where another CORE_OFFLINE still waits for that; CORE_ONLINE
puts a core back that none waits for, CORE_RESET clears an offline one; PIN_SET
adds pinned frames at once and gives frames back, zeroed, when the invalidation of every translation completes. -/
def Obligations.CoresAndPins : Prop :=
  ∀ (s : State) (h : Hdr) (core : Nat), core < 256 →
    let c := s.core core
    let others := fun (t : State) => ∀ k, k ≠ core → t.core k = s.core k
    let base := 0x100_1000_0000 + core * 0x20_0000
    (h ∈ c.leaving → (s.coreClear core = false → exec (.coreOffline h core) s = .next s)
        ∧ (s.coreClear core = true → ∃ t, exec (.coreOffline h core) s = .next t
            ∧ t.core core = { c with offline := true, leaving := c.leaving.filter (· != h) }
            ∧ others t ∧ t.mgr = (replied s h 0x83 0 []).mgr ∧ t = { s with cores := t.cores, mgr := t.mgr }))
      ∧ (mayCommand s h 3 →
        (h ∉ c.leaving → c.pins = 0 → s.spareable core = true → ∃ t, exec (.coreOffline h core) s = .next t
            ∧ t.core core = { c with offline := true, leaving := c.leaving ++ [h] } ∧ others t
            ∧ (∀ p ∈ s.crews, (s.crew p.1).live = true → (s.crew p.1).resident = true → (s.crew p.1).core = core → p.2 = s.crew p.1 →
                p.2.gang = 0 → p.1 < 2 ^ 16 → (t.crew p.1).saving = true)
            ∧ (∀ w, t.warp w = s.warp w) ∧ ∀ a, t.mem.get a = s.mem.get a)
        ∧ (h ∉ c.leaving → c.pins ≠ 0 ∨ s.spareable core = false → exec (.coreOffline h core) s = .next (replied s h 0x83 8 []))
        ∧ (c.leaving ≠ [] → exec (.coreOnline h core) s = .next (replied s h 0x84 8 []))
        ∧ (c.leaving = [] → ∃ t, exec (.coreOnline h core) s = .next t ∧ t.core core = { c with offline := false } ∧ others t
            ∧ t.mgr = (replied s h 0x84 0 []).mgr ∧ t = { s with cores := t.cores, mgr := t.mgr })
        ∧ (c.offline = false ∨ c.leaving ≠ [] → exec (.coreReset h core) s = .next (replied s h 0x85 8 []))
        ∧ (c.offline = true → c.leaving = [] → ∃ t, exec (.coreReset h core) s = .next t
            ∧ t.core core = { (default : Core) with offline := true } ∧ others t ∧ t.engines.find core = none
            ∧ (∀ a, t.mem.get a = if base ≤ a ∧ a < base + 0x18_0000 then 0 else s.mem.get a)
            ∧ t.mgr = (replied s h 0x85 0 []).mgr ∧ ∀ w, t.warp w = s.warp w)
        ∧ (∀ frames, frames ≤ 192 →
          (c.pins < frames → s.overlapsPins core frames = false → ∃ t, exec (.pinSet h 0 core frames) s = .next t
              ∧ t.core core = { c with pins := frames } ∧ others t ∧ t.mgr = (replied s h 0x86 0 []).mgr
              ∧ t = { s with cores := t.cores, mgr := t.mgr })
          ∧ (c.pins < frames → s.overlapsPins core frames = true → exec (.pinSet h 0 core frames) s = .next (replied s h 0x86 8 []))
          ∧ (frames = c.pins → exec (.pinSet h 0 core frames) s = .next (replied s h 0x86 0 []))
          ∧ (frames < c.pins → ∃ t v, exec (.pinSet h 0 core frames) s = .next t ∧ t.invals.find s.nextInval = some v
              ∧ v.all = true ∧ v.len = 0 ∧ v.after = .pin h false core frames ∧ ∀ a, t.mem.get a = s.mem.get a)
          ∧ (∀ slice, slice < 64 → s.slicePins.get slice < frames → exec (.pinSet h 1 slice frames) s
              = .next (replied { s with slicePins := s.slicePins.set slice frames } h 0x86 0 []))))
      ∧ (∀ id v frames, s.invals.find id = some v → v.after = .pin h false core frames → s.reqs = [] →
        (∀ p ∈ s.tickets, p.2.state ≠ 1 ∨ p.2.reqs ≠ []) → frames ≤ c.pins → c.pins ≤ 192 →
        ∃ t, exec (.invalidationComplete id) s = .next t ∧ t.invals.find id = none ∧ (t.core core).pins = frames
          ∧ t.mgr = (replied s h 0x86 0 []).mgr
          ∧ ∀ a, t.mem.get a = if base + 0x18_0000 - 8192 * c.pins ≤ a ∧ a < base + 0x18_0000 - 8192 * frames then 0 else s.mem.get a)

/-- R426, R427, R449, R462, R463, R470, R471: the channels: a frame's refresh slot changes nothing that a program sees; its scrub slot reads on and checks the next remap entry; an
error of an entry reloads the table from its mirror, and an error of the mirror fails the channel; CHANNEL_RETRAIN brings a channel back or
finds it failed; REPAIR fills the lowest free entry, sound from then on. None moves a byte of memory.
Readings and choices of the model in it: notes/assumptions/70, 71, 93. -/
def Obligations.Channels : Prop :=
  ∀ (s : State) (h : Hdr) (stack channel : Nat), stack < 8 → channel < 32 →
    let ch := stack * 32 + channel
    let c := s.chans.get ch
    let kept := fun (t : State) => (∀ k, k ≠ ch → t.chans.get k = s.chans.get k) ∧ t.warps = s.warps ∧ ∀ a, t.mem.get a = s.mem.get a
    exec (.refreshSlot ch) s = .next s
      ∧ (c.failed = true → exec (.scrubSlot ch) s = .next s)
      ∧ (c.failed = false → ∃ t, exec (.scrubSlot ch) s = .next t ∧ kept t
          ∧ t.chans.get ch = { c with scrub := (c.scrub + 8) % (12288 * 4096), check := (c.check + 1) % 512 }
          ∧ t.agenda = (if c.check ∈ c.badTable ∨ c.table.get c.check ≠ c.mirror.get c.check
              then [.event (.remapReload ch)] else []) ++ s.agenda)
      ∧ (c.failed = true ∨ (c.badTable = [] ∧ c.table = c.mirror) → exec (.remapReload ch) s = .next s)
      ∧ (c.failed = false → c.badTable ≠ [] ∨ c.table ≠ c.mirror → ∃ t, exec (.remapReload ch) s = .next t ∧ kept t
          ∧ t.chans.get ch = { c with table := c.mirror, badTable := c.badMirror, failed := !c.badMirror.isEmpty })
      ∧ (mayCommand s h 3 →
        (∀ passed, passed = false ∨ c.badMirror ≠ [] → ∃ t, exec (.channelRetrain h stack channel passed) s = .next t ∧ kept t
            ∧ t.chans.get ch = { c with failed := true } ∧ t.mgr.outbox = (replied s h 0x87 0 [1]).mgr.outbox)
        ∧ (c.badMirror = [] → ∃ t, exec (.channelRetrain h stack channel true) s = .next t ∧ kept t
            ∧ t.chans.get ch = { c with
                table := c.mirror, badTable := [], failed := false, stale := c.stale || c.failed, written := if c.failed then [] else c.written }
            ∧ t.mgr.outbox = (replied s h 0x87 0 [0]).mgr.outbox)
        ∧ (∀ bank row, bank < 48 → row < 2 ^ 18 →
          ((∃ e ∈ c.mirror, e.2.toNat / 2 ^ 63 = 1 ∧ e.2.toNat / 2 ^ 42 % 2 ^ 6 = bank ∧ e.2.toNat / 2 ^ 24 % 2 ^ 18 = row) →
            exec (.repair h stack channel bank row) s = .next (replied s h 0x88 8 []))
          ∧ (∀ k, (∀ e ∈ c.mirror, ¬ (e.2.toNat / 2 ^ 63 = 1 ∧ e.2.toNat / 2 ^ 42 % 2 ^ 6 = bank ∧ e.2.toNat / 2 ^ 24 % 2 ^ 18 = row)) →
            k < 512 → c.mirror.find k = none → (∀ j, j < k → c.mirror.find j ≠ none) →
            let spare := (Config.spareRow ch k).toNat
            let e := BitVec.ofNat 64 (2 ^ 63 + bank * 2 ^ 42 + row * 2 ^ 24 + spare)
            ∃ t, exec (.repair h stack channel bank row) s = .next t ∧ kept t
              ∧ t.chans.get ch = { c with
                  table := c.table.set k e, mirror := c.mirror.set k e, badTable := c.badTable.filter (· != k)
                  badMirror := c.badMirror.filter (· != k) }
              ∧ t.mgr.outbox = (replied s h 0x88 0 (natToBytes 2 spare)).mgr.outbox)))

/-! ### Fetching, decoding, and the whole machine -/

/-- R18: an instruction that names a vector register at or above the warp's quota faults with ILLEGAL_OPERAND for every executing lane: precise, the trap taken
in the state as it was, so that nothing is committed; in a chain the first member that names one faults, at its own slot and number. An instruction whose
registers all lie below the quota names them: an add of vector registers completes. -/
def Obligations.QuotaFault : Prop :=
  (∀ (s : State) (i : Instr) (p : Pos) (n k : Nat), i.isWord = true → s.cur.tail = [] →
      (p, Operand.v n) ∈ i.positions → k < p.vregs → s.curWarp.quota ≤ n + k →
      exec i s = .next (s.issueTrap { cause := 0x02, slot := s.cur.pc.toNat % 3 }))
    ∧ (∀ (s : State) (i j : Instr) (pre post : List Instr),
      let beyond := fun (k : Instr) => ∃ p n r, (p, Operand.v n) ∈ k.positions ∧ r < p.vregs ∧ s.curWarp.quota ≤ n + r
      (flumeOf i).isSome = true → i :: s.cur.tail = pre ++ j :: post → (∀ k ∈ pre, ¬ beyond k) → beyond j →
      exec i s = .next (s.issueTrap { cause := 0x02, slot := (s.cur.pc.toNat % 3 + (pre.map Instr.len).sum) % 3, member := pre.length }))
    ∧ ∀ (s : State) (n a b : Nat), n < s.curWarp.quota → a < s.curWarp.quota → b < s.curWarp.quota → s.curWarp.badRegs = [] →
      ∃ t, exec (.add (.v n) (.v a) (.v b)) s = .next t ∧ WarpOnly s t ∧ Advanced s t 1

/-- R238: nop is the single word 0x5D000000; any other body of its major is ILLEGAL_INSTRUCTION: a group that begins with it is one whose first
word fails, and takes that trap; nop issues on the control pipe, and changes nothing but its lanes' places. -/
def Obligations.NopWord : Prop :=
  (∀ (w : Nat) (rest : List Nat), w < 2 ^ 32 → w / 2 ^ 24 % 2 ^ 7 = 0x5D →
      (w = 0x5D000000 → decode (w :: rest) = .ok .nop) ∧ (w ≠ 0x5D000000 → ∃ e, decode (w :: rest) = .error e))
    ∧ (∀ (s : State) (n : Nat) (pc : DWord) (w : Nat), s.fetchWord n pc = .word w → w < 2 ^ 32 → w / 2 ^ 24 % 2 ^ 7 = 0x5D → w ≠ 0x5D000000 →
        s.fetchGroup n pc = .bad 0)
    ∧ (∀ s : State, s.cur.bad = 0 → exec .illegalInstruction s = .next (s.issueTrap { cause := 0x01, addr := s.cur.pc * 4, slot := s.cur.pc.toNat % 3 }))
    ∧ pipeOf 0x5D = 3
    ∧ ∀ s : State, clear .nop s = true → ∃ t, exec .nop s = .next t ∧ WarpOnly s t ∧ Advanced s t 1
        ∧ t.curWarp = { s.curWarp with lanes := t.curWarp.lanes }

/-- R23, R183, R195, R198, R199, R460: a step of a running machine with nothing on the agenda and nothing that ends at once performs the next of the cycle's groups, if its lanes
are still there: where its words are fetched and decode to an instruction `i`, the step is `exec i`, in the state in which the lines of a migrating
page are pulled, the issue is counted, and `cur` names the group; where a word of it is no instruction, it is ILLEGAL_INSTRUCTION's. Where the warp
issues on both ports in the cycle, what follows is the taking of the traps that the two leave.
Readings and choices of the model in it: notes/assumptions/1, 27. -/
def Obligations.StepRunsDecoded : Prop :=
  (∀ (s u : State) (r : Nat) (x : Issue) (rest : List (Nat × Issue)), s.power ≠ 0 → s.agenda = [] → s.promptEvent = none → s.slotWaits = false →
      (let b := if s.turns = [] then s else s.takeTurns
       b.issues = (r, x) :: rest ∧ (b.cancels = [] ∨ r < 2) ∧ u = { b with issues := rest }) →
      let both := u.paired x.warp
      let runs := fun (i : Instr) (n : Nat) (y : Issue) =>
        let v := ({ ((u.fetchTouch x.warp x.pc n).countCore (u.coreOf x.warp) (u.ctxOf x.warp) (2 + x.port) 1) with cur := y }).clearAges y
        (∀ t, exec i v = .next t → step s = .next (if both then u.afterPair (t.countScalar v i) x.warp else t.countScalar v i))
          ∧ (∀ f, exec i v = .fault f → step s = .fault f) ∧ ∀ r, exec i v = .refused r → step s = .refused r
      (u.stillEligible x = false → step s = .next (u.takeRaised x.warp))
      ∧ (u.stillEligible x = true →
        (∀ i tail, u.fetchGroup x.warp x.pc = .run i tail →
          runs i (i.len + (tail.map Instr.len).sum) { x with tail := tail, pairs := x.pairs || both })
        ∧ ∀ n, u.fetchGroup x.warp x.pc = .bad n → runs .illegalInstruction (n + 1) { x with bad := n, pairs := x.pairs || both }))
    ∧ (∀ (s : State) (w : Nat) (pc : DWord) (ws known : List Nat) (i j : Instr),
      let room := 3 - pc.toNat % 3
      let zeros := fun (n : Nat) => List.replicate (room - n) 0
      ws.length = i.len → i.len ≤ room → (∀ k x, ws[k]? = some x → s.fetchWord w (pc + BitVec.ofNat 64 k) = .word x) →
      let two := isFXMajor (wMajor (ws.headD 0)) && 2 ≤ room
      known = ws.take (if two then 2 else 1) → (two = true → 2 ≤ ws.length) →
      decode (known ++ zeros known.length) = .ok j → j.len = i.len → decode (ws ++ zeros ws.length) = .ok i → i.chain = false →
      wChain (ws.headD 0) = false ∨ isFlumeMajor (wMajor (ws.headD 0)) = false →
      s.fetchGroup w pc = .run i [])

/-- R180 to R198: words written out from the spec's encodings decode to the instructions they stand for, and those are encoded by them. -/
def Obligations.DecodeWords : Prop :=
  ∀ p ∈ [([0x010A0BFE, 0x3E8], Instr.add (.v 10) (.v 11) (.lit32 1000)), ([0x12070783], .sarImm (.v 7) (.v 7) 3),
      ([0x1B0A0CC3, 0xFC044200], .intTyped .add .i64 true (.v 10) (.v 12) (.s 3) .z),
      ([0x1901F8FE, 0xFC083000, 0xC], .cmp .lt .i32 (.v 1) .lane (.lit32 12)), ([0x17C9FFFE], .movi (.s 9) 0xFFFE),
      ([0xA6FC0203], .fmulF32 true .z (.v 2) (.v 3)), ([0x3206FC07], .fgateF32 false (.v 6) .z (.v 7)),
      ([0x55FCFCFC], .exit), ([0x600CC584], .ldG .w32 .none .device (.v 12) (.s 5)), ([0x6DC3CAFC], .lfree (.s 3) (.s 10)),
      ([0x7BEC0011], .csrr (.s 44) 0x11), ([0x7CC30021], .csrw (.s 3) 0x21)],
    decode p.1 = .ok p.2 ∧ encode p.2 = p.1

/-- R180 to R197: every instruction that has an encoding is decoded back from its words, with every operand, register number, sub-field and literal, and they
are as many as its length. -/
def Obligations.DecodeEncode : Prop :=
  ∀ i : Instr, i.wf = true → decode (encode i) = .ok i ∧ (encode i).length = i.len

/-- Every step keeps the memory's canonical form: addresses strictly rising, and no listed byte equal to what an unlisted address reads as.
Readings and choices of the model in it: notes/assumptions/2. -/
def Obligations.MemoryCanonical : Prop :=
  ∀ s t : State, Good s → step s = .next t → Good t

/-- R447, R448, R455: what reset leaves: the module runs at cycle 0, every core online and empty, no context, launch, ticket, request or held fault, no
session, window or event, the report and fault counters at 1, the power cap 1800 W, the memory in canonical form.
Readings and choices of the model in it: notes/assumptions/2, 29, 109, 110, 111, 112. -/
def Obligations.ResetState : Prop :=
  let s := State.reset
  Good s ∧ s.power = 1 ∧ s.cycle = 0 ∧ (∀ w, (s.warp w).live = false) ∧ (∀ c, (s.crew c).live = false) ∧ (∀ c, (s.ctx c).live = false)
    ∧ (∀ l, (s.launch l).live = false) ∧ (∀ j, (s.job j).live = false) ∧ (∀ k, (s.tickets.get k).state = 0) ∧ s.reqs = [] ∧ s.held = []
    ∧ (∀ k, (s.migs.get k).state = 0) ∧ (∀ c, (s.core c).offline = false ∧ (s.core c).tlb = [] ∧ (s.core c).l1 = [] ∧ (s.core c).pins = 0)
    ∧ (∀ c k, (s.core c).evcount.get k = 0) ∧ s.sched.report = 1 ∧ s.nextHeld = 1 ∧ s.mgr.logNext = 1 ∧ s.mgr.powercap = 1800
    ∧ s.mgr.issue = 8 ∧ s.mgr.events = [] ∧ s.mgr.windows = [] ∧ s.mgr.config = none ∧ ∀ q, (s.mgr.qps.get q).session = none

end
end

