-- ==== Sys2Proof/Laws/Exec.lean ====
section
/-! SUPPORT. `exec` of each instruction is its meaning: one equation per constructor. -/

namespace Sys2Proof.Machine

open Sys2Proof

@[simp] theorem exec_add (s : State) {d} {a} {b} : exec (.add d a b) s = execAdd d a b s := rfl
@[simp] theorem exec_sub (s : State) {d} {a} {b} : exec (.sub d a b) s = execSub d a b s := rfl
@[simp] theorem exec_mul (s : State) {d} {a} {b} : exec (.mul d a b) s = execMul d a b s := rfl
@[simp] theorem exec_mulh (s : State) {d} {a} {b} : exec (.mulh d a b) s = execMulh d a b s := rfl
@[simp] theorem exec_mad (s : State) {d} {a} {b} : exec (.mad d a b) s = execMad d a b s := rfl
@[simp] theorem exec_div (s : State) {d} {a} {b} : exec (.div d a b) s = execDiv d a b s := rfl
@[simp] theorem exec_rem (s : State) {d} {a} {b} : exec (.rem d a b) s = execRem d a b s := rfl
@[simp] theorem exec_min (s : State) {d} {a} {b} : exec (.min d a b) s = execMin d a b s := rfl
@[simp] theorem exec_max (s : State) {d} {a} {b} : exec (.max d a b) s = execMax d a b s := rfl
@[simp] theorem exec_and (s : State) {d} {a} {b} : exec (.and d a b) s = execAnd d a b s := rfl
@[simp] theorem exec_or (s : State) {d} {a} {b} : exec (.or d a b) s = execOr d a b s := rfl
@[simp] theorem exec_xor (s : State) {d} {a} {b} : exec (.xor d a b) s = execXor d a b s := rfl
@[simp] theorem exec_not (s : State) {d} {a} : exec (.not d a) s = execNot d a s := rfl
@[simp] theorem exec_shl (s : State) {d} {a} {b} : exec (.shl d a b) s = execShl d a b s := rfl
@[simp] theorem exec_shr (s : State) {d} {a} {b} : exec (.shr d a b) s = execShr d a b s := rfl
@[simp] theorem exec_sar (s : State) {d} {a} {b} : exec (.sar d a b) s = execSar d a b s := rfl
@[simp] theorem exec_rot (s : State) {d} {a} {b} : exec (.rot d a b) s = execRot d a b s := rfl
@[simp] theorem exec_shlImm (s : State) {d} {a} {n} : exec (.shlImm d a n) s = execShlImm d a n s := rfl
@[simp] theorem exec_shrImm (s : State) {d} {a} {n} : exec (.shrImm d a n) s = execShrImm d a n s := rfl
@[simp] theorem exec_sarImm (s : State) {d} {a} {n} : exec (.sarImm d a n) s = execSarImm d a n s := rfl
@[simp] theorem exec_rotImm (s : State) {d} {a} {n} : exec (.rotImm d a n) s = execRotImm d a n s := rfl
@[simp] theorem exec_clz (s : State) {d} {a} : exec (.clz d a) s = execClz d a s := rfl
@[simp] theorem exec_ctz (s : State) {d} {a} : exec (.ctz d a) s = execCtz d a s := rfl
@[simp] theorem exec_popc (s : State) {d} {a} : exec (.popc d a) s = execPopc d a s := rfl
@[simp] theorem exec_bfx (s : State) {d} {a} {b} : exec (.bfx d a b) s = execBfx d a b s := rfl
@[simp] theorem exec_bfi (s : State) {d} {a} {b} : exec (.bfi d a b) s = execBfi d a b s := rfl
@[simp] theorem exec_addImm (s : State) {d} {a} {n} : exec (.addImm d a n) s = execAddImm d a n s := rfl
@[simp] theorem exec_movi (s : State) {d} {n} : exec (.movi d n) s = execMovi d n s := rfl
@[simp] theorem exec_sel (s : State) {t} {d} {c} {a} {b} : exec (.sel t d c a b) s = execSel t d c a b s := rfl
@[simp] theorem exec_cmp (s : State) {cc} {t} {d} {a} {b} : exec (.cmp cc t d a b) s = execCmp cc t d a b s := rfl
@[simp] theorem exec_lea (s : State) {t} {sh} {d} {a} {b} {c} : exec (.lea t sh d a b c) s = execLea t sh d a b c s := rfl
@[simp] theorem exec_intTyped (s : State) {op} {t} {sat} {d} {a} {b} {c} : exec (.intTyped op t sat d a b c) s = execIntTyped op t sat d a b c s := rfl
@[simp] theorem exec_faddF32 (s : State) {ch} {d} {a} {b} : exec (.faddF32 ch d a b) s = execFaddF32 ch d a b s := rfl
@[simp] theorem exec_faddF16 (s : State) {ch} {d} {a} {b} : exec (.faddF16 ch d a b) s = execFaddF16 ch d a b s := rfl
@[simp] theorem exec_faddBf16 (s : State) {ch} {d} {a} {b} : exec (.faddBf16 ch d a b) s = execFaddBf16 ch d a b s := rfl
@[simp] theorem exec_fsubF32 (s : State) {ch} {d} {a} {b} : exec (.fsubF32 ch d a b) s = execFsubF32 ch d a b s := rfl
@[simp] theorem exec_fsubF16 (s : State) {ch} {d} {a} {b} : exec (.fsubF16 ch d a b) s = execFsubF16 ch d a b s := rfl
@[simp] theorem exec_fsubBf16 (s : State) {ch} {d} {a} {b} : exec (.fsubBf16 ch d a b) s = execFsubBf16 ch d a b s := rfl
@[simp] theorem exec_fmulF32 (s : State) {ch} {d} {a} {b} : exec (.fmulF32 ch d a b) s = execFmulF32 ch d a b s := rfl
@[simp] theorem exec_fmulF16 (s : State) {ch} {d} {a} {b} : exec (.fmulF16 ch d a b) s = execFmulF16 ch d a b s := rfl
@[simp] theorem exec_fmulBf16 (s : State) {ch} {d} {a} {b} : exec (.fmulBf16 ch d a b) s = execFmulBf16 ch d a b s := rfl
@[simp] theorem exec_ffmaF32 (s : State) {ch} {d} {a} {b} : exec (.ffmaF32 ch d a b) s = execFfmaF32 ch d a b s := rfl
@[simp] theorem exec_ffmaF16 (s : State) {ch} {d} {a} {b} : exec (.ffmaF16 ch d a b) s = execFfmaF16 ch d a b s := rfl
@[simp] theorem exec_ffmaBf16 (s : State) {ch} {d} {a} {b} : exec (.ffmaBf16 ch d a b) s = execFfmaBf16 ch d a b s := rfl
@[simp] theorem exec_fmaxF32 (s : State) {ch} {d} {a} {b} : exec (.fmaxF32 ch d a b) s = execFmaxF32 ch d a b s := rfl
@[simp] theorem exec_fmaxF16 (s : State) {ch} {d} {a} {b} : exec (.fmaxF16 ch d a b) s = execFmaxF16 ch d a b s := rfl
@[simp] theorem exec_fmaxBf16 (s : State) {ch} {d} {a} {b} : exec (.fmaxBf16 ch d a b) s = execFmaxBf16 ch d a b s := rfl
@[simp] theorem exec_fminF32 (s : State) {ch} {d} {a} {b} : exec (.fminF32 ch d a b) s = execFminF32 ch d a b s := rfl
@[simp] theorem exec_fminF16 (s : State) {ch} {d} {a} {b} : exec (.fminF16 ch d a b) s = execFminF16 ch d a b s := rfl
@[simp] theorem exec_fminBf16 (s : State) {ch} {d} {a} {b} : exec (.fminBf16 ch d a b) s = execFminBf16 ch d a b s := rfl
@[simp] theorem exec_fgateF32 (s : State) {ch} {d} {a} {b} : exec (.fgateF32 ch d a b) s = execFgateF32 ch d a b s := rfl
@[simp] theorem exec_fgateF16 (s : State) {ch} {d} {a} {b} : exec (.fgateF16 ch d a b) s = execFgateF16 ch d a b s := rfl
@[simp] theorem exec_fgateBf16 (s : State) {ch} {d} {a} {b} : exec (.fgateBf16 ch d a b) s = execFgateBf16 ch d a b s := rfl
@[simp] theorem exec_fclampF32 (s : State) {ch} {d} {a} {b} : exec (.fclampF32 ch d a b) s = execFclampF32 ch d a b s := rfl
@[simp] theorem exec_fclampF16 (s : State) {ch} {d} {a} {b} : exec (.fclampF16 ch d a b) s = execFclampF16 ch d a b s := rfl
@[simp] theorem exec_fclampBf16 (s : State) {ch} {d} {a} {b} : exec (.fclampBf16 ch d a b) s = execFclampBf16 ch d a b s := rfl
@[simp] theorem exec_fdivF32 (s : State) {ch} {d} {a} {b} : exec (.fdivF32 ch d a b) s = execFdivF32 ch d a b s := rfl
@[simp] theorem exec_fsqrt (s : State) {ch} {t} {d} {a} : exec (.fsqrt ch t d a) s = execFsqrt ch t d a s := rfl
@[simp] theorem exec_frsq (s : State) {ch} {t} {d} {a} : exec (.frsq ch t d a) s = execFrsq ch t d a s := rfl
@[simp] theorem exec_frcp (s : State) {ch} {t} {d} {a} : exec (.frcp ch t d a) s = execFrcp ch t d a s := rfl
@[simp] theorem exec_fexp2 (s : State) {ch} {t} {d} {a} : exec (.fexp2 ch t d a) s = execFexp2 ch t d a s := rfl
@[simp] theorem exec_flog2 (s : State) {ch} {t} {d} {a} : exec (.flog2 ch t d a) s = execFlog2 ch t d a s := rfl
@[simp] theorem exec_fround (s : State) {ch} {t} {d} {a} : exec (.fround ch t d a) s = execFround ch t d a s := rfl
@[simp] theorem exec_fcvt (s : State) {ch} {dt} {st} {d} {a} : exec (.fcvt ch dt st d a) s = execFcvt ch dt st d a s := rfl
@[simp] theorem exec_fscaleF32 (s : State) {ch} {d} {a} {b} : exec (.fscaleF32 ch d a b) s = execFscaleF32 ch d a b s := rfl
@[simp] theorem exec_fcmp (s : State) {cc} {t} {d} {a} {b} : exec (.fcmp cc t d a b) s = execFcmp cc t d a b s := rfl
@[simp] theorem exec_fquant (s : State) {dt} {st} {d} {a} : exec (.fquant dt st d a) s = execFquant dt st d a s := rfl
@[simp] theorem exec_fdequant (s : State) {dt} {st} {m} {d} {a} : exec (.fdequant dt st m d a) s = execFdequant dt st m d a s := rfl
@[simp] theorem exec_floatTyped (s : State) {f} {m} {d} {a} {b} {c} : exec (.floatTyped f m d a b c) s = execFloatTyped f m d a b c s := rfl
@[simp] theorem exec_flumeWriteback (s : State) {w} {port} : exec (.flumeWriteback w port) s = execFlumeWriteback w port s := rfl
@[simp] theorem exec_vshfl (s : State) {d} {a} {b} : exec (.vshfl d a b) s = execVshfl d a b s := rfl
@[simp] theorem exec_vbcast (s : State) {d} {a} {l} : exec (.vbcast d a l) s = execVbcast d a l s := rfl
@[simp] theorem exec_vvote (s : State) {kind} {d} {a} : exec (.vvote kind d a) s = execVvote kind d a s := rfl
@[simp] theorem exec_vshflMasked (s : State) {d} {a} {b} {m} : exec (.vshflMasked d a b m) s = execVshflMasked d a b m s := rfl
@[simp] theorem exec_vbcastMasked (s : State) {d} {a} {l} {m} : exec (.vbcastMasked d a l m) s = execVbcastMasked d a l m s := rfl
@[simp] theorem exec_vvoteMasked (s : State) {kind} {d} {a} {m} : exec (.vvoteMasked kind d a m) s = execVvoteMasked kind d a m s := rfl
@[simp] theorem exec_vred (s : State) {op} {t} {sat} {rm} {d} {a} {m} : exec (.vred op t sat rm d a m) s = execVred op t sat rm d a m s := rfl
@[simp] theorem exec_vscan (s : State) {op} {t} {excl} {sat} {rm} {d} {a} {m} : exec (.vscan op t excl sat rm d a m) s = execVscan op t excl sat rm d a m s := rfl
@[simp] theorem exec_mjoin (s : State) {k} : exec (.mjoin k) s = execMjoin k s := rfl
@[simp] theorem exec_mleave (s : State) {k} : exec (.mleave k) s = execMleave k s := rfl
@[simp] theorem exec_mwait (s : State) {k} : exec (.mwait k) s = execMwait k s := rfl
@[simp] theorem exec_mwaitt (s : State) {d} {a} {k} : exec (.mwaitt d a k) s = execMwaitt d a k s := rfl
@[simp] theorem exec_mwaittDeadline (s : State) {w} {lane} : exec (.mwaittDeadline w lane) s = execMwaittDeadline w lane s := rfl
@[simp] theorem exec_bra (s : State) {off} : exec (.bra off) s = execBra off s := rfl
@[simp] theorem exec_brc (s : State) {c} {off} : exec (.brc c off) s = execBrc c off s := rfl
@[simp] theorem exec_brcZ (s : State) {c} {off} : exec (.brcZ c off) s = execBrcZ c off s := rfl
@[simp] theorem exec_call (s : State) {c} {off} : exec (.call c off) s = execCall c off s := rfl
@[simp] theorem exec_ret (s : State) {a} : exec (.ret a) s = execRet a s := rfl
@[simp] theorem exec_exit (s : State) : exec .exit s = execExit s := rfl
@[simp] theorem exec_reform (s : State) {a} {k} : exec (.reform a k) s = execReform a k s := rfl
@[simp] theorem exec_reformageExpiry (s : State) {core} {bin} : exec (.reformageExpiry core bin) s = execReformageExpiry core bin s := rfl
@[simp] theorem exec_binBuildOnFreeSlot (s : State) {core} {bin} : exec (.binBuildOnFreeSlot core bin) s = execBinBuildOnFreeSlot core bin s := rfl
@[simp] theorem exec_stagenext (s : State) {d} : exec (.stagenext d) s = execStagenext d s := rfl
@[simp] theorem exec_qput (s : State) {d} {a} {b} : exec (.qput d a b) s = execQput d a b s := rfl
@[simp] theorem exec_qtake (s : State) {d} {b} : exec (.qtake d b) s = execQtake d b s := rfl
@[simp] theorem exec_bar (s : State) {a} {id} : exec (.bar a id) s = execBar a id s := rfl
@[simp] theorem exec_barArrive (s : State) {a} {id} : exec (.barArrive a id) s = execBarArrive a id s := rfl
@[simp] theorem exec_barGang (s : State) {a} {id} : exec (.barGang a id) s = execBarGang a id s := rfl
@[simp] theorem exec_barGangArrive (s : State) {a} {id} : exec (.barGangArrive a id) s = execBarGangArrive a id s := rfl
@[simp] theorem exec_yieldOp (s : State) : exec .yieldOp s = execYield s := rfl
@[simp] theorem exec_sleep (s : State) {a} : exec (.sleep a) s = execSleep a s := rfl
@[simp] theorem exec_sleepExpiry (s : State) {w} {lane} : exec (.sleepExpiry w lane) s = execSleepExpiry w lane s := rfl
@[simp] theorem exec_nop (s : State) : exec .nop s = execNop s := rfl
@[simp] theorem exec_ldG (s : State) {w} {ord} {sc} {d} {a} : exec (.ldG w ord sc d a) s = execLdG w ord sc d a s := rfl
@[simp] theorem exec_ldX (s : State) {w} {ord} {sc} {d} {a} : exec (.ldX w ord sc d a) s = execLdX w ord sc d a s := rfl
@[simp] theorem exec_stG (s : State) {w} {ord} {sc} {d} {a} : exec (.stG w ord sc d a) s = execStG w ord sc d a s := rfl
@[simp] theorem exec_stX (s : State) {w} {ord} {sc} {d} {a} : exec (.stX w ord sc d a) s = execStX w ord sc d a s := rfl
@[simp] theorem exec_prf (s : State) {w} {a} : exec (.prf w a) s = execPrf w a s := rfl
@[simp] theorem exec_ldOffset (s : State) {x} {w} {ord} {sc} {d} {a} {b} : exec (.ldOffset x w ord sc d a b) s = execLdOffset x w ord sc d a b s := rfl
@[simp] theorem exec_stOffset (s : State) {x} {w} {ord} {sc} {d} {a} {b} : exec (.stOffset x w ord sc d a b) s = execStOffset x w ord sc d a b s := rfl
@[simp] theorem exec_atomG (s : State) {op} {t} {ord} {sc} {d} {a} {b} {c} : exec (.atomG op t ord sc d a b c) s = execAtomG op t ord sc d a b c s := rfl
@[simp] theorem exec_atomX (s : State) {op} {t} {ord} {sc} {d} {a} {b} {c} : exec (.atomX op t ord sc d a b c) s = execAtomX op t ord sc d a b c s := rfl
@[simp] theorem exec_fence (s : State) {sc} : exec (.fence sc) s = execFence sc s := rfl
@[simp] theorem exec_ldt (s : State) {try_} {w} {d} {a} : exec (.ldt try_ w d a) s = execLdt try_ w d a s := rfl
@[simp] theorem exec_ldtBlock (s : State) {try_} {d} {a} {b} : exec (.ldtBlock try_ d a b) s = execLdtBlock try_ d a b s := rfl
@[simp] theorem exec_redeem (s : State) {try_} {d} {a} {c} : exec (.redeem try_ d a c) s = execRedeem try_ d a c s := rfl
@[simp] theorem exec_redeemX (s : State) {try_} {a} {b} {c} : exec (.redeemX try_ a b c) s = execRedeemX try_ a b c s := rfl
@[simp] theorem exec_tkdrop (s : State) {d} {a} : exec (.tkdrop d a) s = execTkdrop d a s := rfl
@[simp] theorem exec_tkstat (s : State) {d} {a} : exec (.tkstat d a) s = execTkstat d a s := rfl
@[simp] theorem exec_ticketReady (s : State) {table} {entry} : exec (.ticketReady table entry) s = execTicketReady table entry s := rfl
@[simp] theorem exec_ticketDeadline (s : State) {table} {entry} : exec (.ticketDeadline table entry) s = execTicketDeadline table entry s := rfl
@[simp] theorem exec_lalloc (s : State) {d} {a} {b} {c} : exec (.lalloc d a b c) s = execLalloc d a b c s := rfl
@[simp] theorem exec_lfree (s : State) {d} {a} : exec (.lfree d a) s = execLfree d a s := rfl
@[simp] theorem exec_lquota (s : State) {d} {a} : exec (.lquota d a) s = execLquota d a s := rfl
@[simp] theorem exec_memoryResponse (s : State) {req} : exec (.memoryResponse req) s = execMemoryResponse req s := rfl
@[simp] theorem exec_remoteStoreAck (s : State) {req} : exec (.remoteStoreAck req) s = execRemoteStoreAck req s := rfl
@[simp] theorem exec_remoteStoreTimeout (s : State) {req} {performed} : exec (.remoteStoreTimeout req performed) s = execRemoteStoreTimeout req performed s := rfl
@[simp] theorem exec_fabricTimeout (s : State) {req} {performed} : exec (.fabricTimeout req performed) s = execFabricTimeout req performed s := rfl
@[simp] theorem exec_cpyLd (s : State) {t} {q} {m} {arr} {d} {a} {b} {c} : exec (.cpyLd t q m arr d a b c) s = execCpyLd t q m arr d a b c s := rfl
@[simp] theorem exec_cpySt (s : State) {addF} {q} {m} {arr} {d} {a} {b} {c} : exec (.cpySt addF q m arr d a b c) s = execCpySt addF q m arr d a b c s := rfl
@[simp] theorem exec_copyPerform (s : State) {core} {q} : exec (.copyPerform core q) s = execCopyPerform core q s := rfl
@[simp] theorem exec_bulk (s : State) {xs} {xd} {arr} {held} {d} {a} : exec (.bulk xs xd arr held d a) s = execBulk xs xd arr held d a s := rfl
@[simp] theorem exec_bulkPerform (s : State) {core} : exec (.bulkPerform core) s = execBulkPerform core s := rfl
@[simp] theorem exec_bulkPieceArrival (s : State) {handle} {xd} {bytes} {count} : exec (.bulkPieceArrival handle xd bytes count) s = execBulkPieceArrival handle xd bytes count s := rfl
@[simp] theorem exec_arminit (s : State) {d} {a} {b} : exec (.arminit d a b) s = execArminit d a b s := rfl
@[simp] theorem exec_arrive (s : State) {a} {b} : exec (.arrive a b) s = execArrive a b s := rfl
@[simp] theorem exec_await (s : State) {d} {a} : exec (.await d a) s = execAwait d a s := rfl
@[simp] theorem exec_qfence (s : State) {q} : exec (.qfence q) s = execQfence q s := rfl
@[simp] theorem exec_tagset (s : State) {d} {a} {b} : exec (.tagset d a b) s = execTagset d a b s := rfl
@[simp] theorem exec_mload (s : State) {f} {a} {b} : exec (.mload f a b) s = execMload f a b s := rfl
@[simp] theorem exec_mswap (s : State) : exec .mswap s = execMswap s := rfl
@[simp] theorem exec_mmul (s : State) {m} {zero} {t} {j} {a} : exec (.mmul m zero t j a) s = execMmul m zero t j a s := rfl
@[simp] theorem exec_mdrain (s : State) {f} {j} {d} {a} {b} : exec (.mdrain f j d a b) s = execMdrain f j d a b s := rfl
@[simp] theorem exec_mtask (s : State) {d} {a} : exec (.mtask d a) s = execMtask d a s := rfl
@[simp] theorem exec_deckTaskStart (s : State) {core} {idx} : exec (.deckTaskStart core idx) s = execDeckTaskStart core idx s := rfl
@[simp] theorem exec_deckTaskComplete (s : State) {core} {idx} : exec (.deckTaskComplete core idx) s = execDeckTaskComplete core idx s := rfl
@[simp] theorem exec_ctload (s : State) {x} {slot} {d} {a} : exec (.ctload x slot d a) s = execCtload x slot d a s := rfl
@[simp] theorem exec_ctsave (s : State) {x} {slot} {d} {a} : exec (.ctsave x slot d a) s = execCtsave x slot d a s := rfl
@[simp] theorem exec_encoderTableOp (s : State) {core} : exec (.encoderTableOp core) s = execEncoderTableOp core s := rfl
@[simp] theorem exec_kvput (s : State) {t} {d} {a} {b} {c} : exec (.kvput t d a b c) s = execKvput t d a b c s := rfl
@[simp] theorem exec_blockUpdate (s : State) {core} : exec (.blockUpdate core) s = execBlockUpdate core s := rfl
@[simp] theorem exec_bin (s : State) {x} {d} {a} {b} {c} : exec (.bin x d a b c) s = execBin x d a b c s := rfl
@[simp] theorem exec_binPerform (s : State) {core} : exec (.binPerform core) s = execBinPerform core s := rfl
@[simp] theorem exec_spawn (s : State) {held} {d} {a} {b} : exec (.spawn held d a b) s = execSpawn held d a b s := rfl
@[simp] theorem exec_cancel (s : State) {d} {a} : exec (.cancel d a) s = execCancel d a s := rfl
@[simp] theorem exec_trap (s : State) {code} : exec (.trap code) s = execTrap code s := rfl
@[simp] theorem exec_trapret (s : State) : exec .trapret s = execTrapret s := rfl
@[simp] theorem exec_trapsupply (s : State) {a} : exec (.trapsupply a) s = execTrapsupply a s := rfl
@[simp] theorem exec_csrr (s : State) {d} {r} : exec (.csrr d r) s = execCsrr d r s := rfl
@[simp] theorem exec_csrw (s : State) {src} {r} : exec (.csrw src r) s = execCsrw src r s := rfl
@[simp] theorem exec_csrContextCommit (s : State) {w} : exec (.csrContextCommit w) s = execCsrContextCommit w s := rfl
@[simp] theorem exec_flsave (s : State) {a} {port} : exec (.flsave a port) s = execFlsave a port s := rfl
@[simp] theorem exec_flrestore (s : State) {a} {port} : exec (.flrestore a port) s = execFlrestore a port s := rfl
@[simp] theorem exec_brk (s : State) {code} : exec (.brk code) s = execBrk code s := rfl
@[simp] theorem exec_halt (s : State) : exec .halt s = execHalt s := rfl
@[simp] theorem exec_contextSave (s : State) {crew} : exec (.contextSave crew) s = execContextSave crew s := rfl
@[simp] theorem exec_levelAging (s : State) {launch} : exec (.levelAging launch) s = execLevelAging launch s := rfl
@[simp] theorem exec_drainReservation (s : State) {launch} : exec (.drainReservation launch) s = execDrainReservation launch s := rfl
@[simp] theorem exec_crewComplete (s : State) {crew} : exec (.crewComplete crew) s = execCrewComplete crew s := rfl
@[simp] theorem exec_stallHint (s : State) {landing} {peer} : exec (.stallHint landing peer) s = execStallHint landing peer s := rfl
@[simp] theorem exec_stallHintWithdraw (s : State) {landing} {peer} : exec (.stallHintWithdraw landing peer) s = execStallHintWithdraw landing peer s := rfl
@[simp] theorem exec_hintReturnTimeout (s : State) {crew} : exec (.hintReturnTimeout crew) s = execHintReturnTimeout crew s := rfl
@[simp] theorem exec_pageWalk (s : State) {core} {idx} : exec (.pageWalk core idx) s = execPageWalk core idx s := rfl
@[simp] theorem exec_heldFaultTimeout (s : State) {number} : exec (.heldFaultTimeout number) s = execHeldFaultTimeout number s := rfl
@[simp] theorem exec_invalidationComplete (s : State) {id} : exec (.invalidationComplete id) s = execInvalidationComplete id s := rfl
@[simp] theorem exec_backgroundPullSlot (s : State) {channel} : exec (.backgroundPullSlot channel) s = execBackgroundPullSlot channel s := rfl
@[simp] theorem exec_refreshSlot (s : State) {channel} : exec (.refreshSlot channel) s = execRefreshSlot channel s := rfl
@[simp] theorem exec_scrubSlot (s : State) {channel} : exec (.scrubSlot channel) s = execScrubSlot channel s := rfl
@[simp] theorem exec_remapReload (s : State) {channel} : exec (.remapReload channel) s = execRemapReload channel s := rfl
@[simp] theorem exec_remoteRequest (s : State) {sender} {pa} {req} : exec (.remoteRequest sender pa req) s = execRemoteRequest sender pa req s := rfl
@[simp] theorem exec_requestDeadlineExpiry (s : State) {req} : exec (.requestDeadlineExpiry req) s = execRequestDeadlineExpiry req s := rfl
@[simp] theorem exec_linkUp (s : State) {port} {module_} : exec (.linkUp port module_) s = execLinkUp port module_ s := rfl
@[simp] theorem exec_linkDown (s : State) {port} : exec (.linkDown port) s = execLinkDown port s := rfl
@[simp] theorem exec_landingLost (s : State) {port} : exec (.landingLost port) s = execLandingLost port s := rfl
@[simp] theorem exec_landingFailureReport (s : State) {port} : exec (.landingFailureReport port) s = execLandingFailureReport port s := rfl
@[simp] theorem exec_extentAdd (s : State) {landing} {offset} {length} : exec (.extentAdd landing offset length) s = execExtentAdd landing offset length s := rfl
@[simp] theorem exec_extentRelease (s : State) {landing} {offset} {length} : exec (.extentRelease landing offset length) s = execExtentRelease landing offset length s := rfl
@[simp] theorem exec_extentForcedRelease (s : State) {landing} {offset} {length} : exec (.extentForcedRelease landing offset length) s = execExtentForcedRelease landing offset length s := rfl
@[simp] theorem exec_rdmaWrite (s : State) {qp} {rkey} {addr} {bytes} : exec (.rdmaWrite qp rkey addr bytes) s = execRdmaWrite qp rkey addr bytes s := rfl
@[simp] theorem exec_rdmaRead (s : State) {qp} {rkey} {addr} {n} : exec (.rdmaRead qp rkey addr n) s = execRdmaRead qp rkey addr n s := rfl
@[simp] theorem exec_unsupportedFrame (s : State) {roce} {qp} : exec (.unsupportedFrame roce qp) s = execUnsupportedFrame roce qp s := rfl
@[simp] theorem exec_eventDelivery (s : State) {qp} : exec (.eventDelivery qp) s = execEventDelivery qp s := rfl
@[simp] theorem exec_ctxCreate (s : State) {hdr} {root} {stack} {save} {savesize} : exec (.ctxCreate hdr root stack save savesize) s = execCtxCreate hdr root stack save savesize s := rfl
@[simp] theorem exec_ctxDestroy (s : State) {hdr} : exec (.ctxDestroy hdr) s = execCtxDestroy hdr s := rfl
@[simp] theorem exec_ctxQuota (s : State) {hdr} {landing} {bytes} : exec (.ctxQuota hdr landing bytes) s = execCtxQuota hdr landing bytes s := rfl
@[simp] theorem exec_jobSubmit (s : State) {hdr} {job} : exec (.jobSubmit hdr job) s = execJobSubmit hdr job s := rfl
@[simp] theorem exec_unitCancel (s : State) {hdr} {handle} : exec (.unitCancel hdr handle) s = execUnitCancel hdr handle s := rfl
@[simp] theorem exec_winReg (s : State) {hdr} {va} {length} {access} : exec (.winReg hdr va length access) s = execWinReg hdr va length access s := rfl
@[simp] theorem exec_winDereg (s : State) {hdr} {rkey} : exec (.winDereg hdr rkey) s = execWinDereg hdr rkey s := rfl
@[simp] theorem exec_tlbInval (s : State) {hdr} {va} {length} : exec (.tlbInval hdr va length) s = execTlbInval hdr va length s := rfl
@[simp] theorem exec_faultResolve (s : State) {hdr} {number} {answer} : exec (.faultResolve hdr number answer) s = execFaultResolve hdr number answer s := rfl
@[simp] theorem exec_migrateArm (s : State) {hdr} {size} {old} {new} : exec (.migrateArm hdr size old new) s = execMigrateArm hdr size old new s := rfl
@[simp] theorem exec_migrateStart (s : State) {hdr} {slot} : exec (.migrateStart hdr slot) s = execMigrateStart hdr slot s := rfl
@[simp] theorem exec_migrateAbort (s : State) {hdr} {slot} : exec (.migrateAbort hdr slot) s = execMigrateAbort hdr slot s := rfl
@[simp] theorem exec_migrateRelease (s : State) {hdr} {slot} : exec (.migrateRelease hdr slot) s = execMigrateRelease hdr slot s := rfl
@[simp] theorem exec_indexAudit (s : State) {hdr} {handle} : exec (.indexAudit hdr handle) s = execIndexAudit hdr handle s := rfl
@[simp] theorem exec_poolAlloc (s : State) {hdr} {size} {attr} : exec (.poolAlloc hdr size attr) s = execPoolAlloc hdr size attr s := rfl
@[simp] theorem exec_poolGrant (s : State) {hdr} {va} {length} {target} {access} {tmod} {omod} : exec (.poolGrant hdr va length target access tmod omod) s = execPoolGrant hdr va length target access tmod omod s := rfl
@[simp] theorem exec_poolRevoke (s : State) {hdr} {va} {length} {target} {tmod} {omod} : exec (.poolRevoke hdr va length target tmod omod) s = execPoolRevoke hdr va length target tmod omod s := rfl
@[simp] theorem exec_debugRead (s : State) {hdr} {cls} {lane} {crew} {warp} {number} : exec (.debugRead hdr cls lane crew warp number) s = execDebugRead hdr cls lane crew warp number s := rfl
@[simp] theorem exec_debugWrite (s : State) {hdr} {cls} {lane} {crew} {warp} {number} {value} : exec (.debugWrite hdr cls lane crew warp number value) s = execDebugWrite hdr cls lane crew warp number value s := rfl
@[simp] theorem exec_debugResume (s : State) {hdr} {crew} {warp} : exec (.debugResume hdr crew warp) s = execDebugResume hdr crew warp s := rfl
@[simp] theorem exec_linkDrain (s : State) {hdr} {port} : exec (.linkDrain hdr port) s = execLinkDrain hdr port s := rfl
@[simp] theorem exec_linkRetrain (s : State) {hdr} {port} : exec (.linkRetrain hdr port) s = execLinkRetrain hdr port s := rfl
@[simp] theorem exec_linkRestore (s : State) {hdr} {port} : exec (.linkRestore hdr port) s = execLinkRestore hdr port s := rfl
@[simp] theorem exec_idGet (s : State) {hdr} : exec (.idGet hdr) s = execIdGet hdr s := rfl
@[simp] theorem exec_sessionChallenge (s : State) {hdr} : exec (.sessionChallenge hdr) s = execSessionChallenge hdr s := rfl
@[simp] theorem exec_nonceExpiry (s : State) {qp} : exec (.nonceExpiry qp) s = execNonceExpiry qp s := rfl
@[simp] theorem exec_sessionOpen (s : State) {hdr} {operator} {rights} {endorsement} {proof} : exec (.sessionOpen hdr operator rights endorsement proof) s = execSessionOpen hdr operator rights endorsement proof s := rfl
@[simp] theorem exec_sessionClose (s : State) {hdr} : exec (.sessionClose hdr) s = execSessionClose hdr s := rfl
@[simp] theorem exec_quote (s : State) {hdr} {nonce} : exec (.quote hdr nonce) s = execQuote hdr nonce s := rfl
@[simp] theorem exec_ownerSet (s : State) {hdr} {key} : exec (.ownerSet hdr key) s = execOwnerSet hdr key s := rfl
@[simp] theorem exec_configApply (s : State) {hdr} {blob} : exec (.configApply hdr blob) s = execConfigApply hdr blob s := rfl
@[simp] theorem exec_resetWarm (s : State) {hdr} {retain} : exec (.resetWarm hdr retain) s = execResetWarm hdr retain s := rfl
@[simp] theorem exec_resetCold (s : State) {hdr} : exec (.resetCold hdr) s = execResetCold hdr s := rfl
@[simp] theorem exec_health (s : State) {hdr} : exec (.health hdr) s = execHealth hdr s := rfl
@[simp] theorem exec_counterSet (s : State) {hdr} {cls} {unit} {counter} {select} {count} : exec (.counterSet hdr cls unit counter select count) s = execCounterSet hdr cls unit counter select count s := rfl
@[simp] theorem exec_counterRead (s : State) {hdr} {cls} {unit} : exec (.counterRead hdr cls unit) s = execCounterRead hdr cls unit s := rfl
@[simp] theorem exec_coreOffline (s : State) {hdr} {core} : exec (.coreOffline hdr core) s = execCoreOffline hdr core s := rfl
@[simp] theorem exec_coreOnline (s : State) {hdr} {core} : exec (.coreOnline hdr core) s = execCoreOnline hdr core s := rfl
@[simp] theorem exec_coreReset (s : State) {hdr} {core} : exec (.coreReset hdr core) s = execCoreReset hdr core s := rfl
@[simp] theorem exec_pinSet (s : State) {hdr} {cls} {unit} {frames} : exec (.pinSet hdr cls unit frames) s = execPinSet hdr cls unit frames s := rfl
@[simp] theorem exec_channelRetrain (s : State) {hdr} {stack} {channel} {passed} : exec (.channelRetrain hdr stack channel passed) s = execChannelRetrain hdr stack channel passed s := rfl
@[simp] theorem exec_repair (s : State) {hdr} {stack} {channel} {bank} {row} : exec (.repair hdr stack channel bank row) s = execRepair hdr stack channel bank row s := rfl
@[simp] theorem exec_logRead (s : State) {hdr} {kind} {from_} : exec (.logRead hdr kind from_) s = execLogRead hdr kind from_ s := rfl
@[simp] theorem exec_powerSample (s : State) {temps} {coolant} {power} : exec (.powerSample temps coolant power) s = execPowerSample temps coolant power s := rfl
@[simp] theorem exec_unknownOpcode (s : State) {hdr} {opcode} {badHeader} : exec (.unknownOpcode hdr opcode badHeader) s = execUnknownOpcode hdr opcode badHeader s := rfl
@[simp] theorem exec_sendOnNonManagementQp (s : State) {qp} : exec (.sendOnNonManagementQp qp) s = execSendOnNonManagementQp qp s := rfl
@[simp] theorem exec_landingPoolResponse (s : State) {req} {answer} : exec (.landingPoolResponse req answer) s = execLandingPoolResponse req answer s := rfl
@[simp] theorem exec_retiredTagReuse (s : State) {port} {tag} : exec (.retiredTagReuse port tag) s = execRetiredTagReuse port tag s := rfl
@[simp] theorem exec_priorityFlowControlFrame (s : State) {prio} {pause} : exec (.priorityFlowControlFrame prio pause) s = execPriorityFlowControlFrame prio pause s := rfl
@[simp] theorem exec_congestionNotificationPacket (s : State) {qp} : exec (.congestionNotificationPacket qp) s = execCongestionNotificationPacket qp s := rfl
@[simp] theorem exec_placementPass (s : State) : exec .placementPass s = execPlacementPass s := rfl
@[simp] theorem exec_deadlockWalk (s : State) : exec .deadlockWalk s = execDeadlockWalk s := rfl
@[simp] theorem exec_powerOn (s : State) : exec .powerOn s = execPowerOn s := rfl
@[simp] theorem exec_throttleStep (s : State) : exec .throttleStep s = execThrottleStep s := rfl
@[simp] theorem exec_throttleExit (s : State) : exec .throttleExit s = execThrottleExit s := rfl
@[simp] theorem exec_thermalShutdown (s : State) : exec .thermalShutdown s = execThermalShutdown s := rfl
@[simp] theorem exec_illegalInstruction (s : State) : exec .illegalInstruction s = execIllegalInstruction s := rfl
@[simp] theorem exec_powerRemoved (s : State) : exec .powerRemoved s = execPowerRemoved s := rfl

end Sys2Proof.Machine
end

