-- ==== Sys2Proof/Laws/Map.lean ====
section
/-! SUPPORT. Laws of the tables, lane sets and byte strings. -/

namespace Sys2Proof.Machine

/-! ### Tables -/

@[simp] theorem FMap.find_nil {α : Type} (k : Nat) : FMap.find ([] : FMap α) k = none := rfl

theorem FMap.find_cons {α : Type} (j : Nat) (a : α) (t : FMap α) (k : Nat) :
    FMap.find ((j, a) :: t) k = if j = k then some a else FMap.find t k := rfl

@[simp] theorem FMap.find_set_self {α : Type} (m : FMap α) (k : Nat) (a : α) : (m.set k a).find k = some a := by
  induction m with
  | nil => simp [FMap.set, FMap.find_cons]
  | cons p t ih =>
    obtain ⟨j, b⟩ := p
    simp only [FMap.set]
    split
    · simp [FMap.find_cons]
    · split
      · simp [FMap.find_cons]
      · rw [FMap.find_cons, if_neg (by omega), ih]

theorem FMap.find_set_ne {α : Type} (m : FMap α) {k j : Nat} (a : α) (h : j ≠ k) : (m.set k a).find j = m.find j := by
  induction m with
  | nil => simp [FMap.set, FMap.find_cons, Ne.symm h]
  | cons p t ih =>
    obtain ⟨i, b⟩ := p
    simp only [FMap.set]
    split
    · rw [FMap.find_cons, if_neg (Ne.symm h)]
    · split
      · subst_vars; simp [FMap.find_cons, Ne.symm h]
      · rw [FMap.find_cons, FMap.find_cons, ih]

theorem FMap.find_set {α : Type} (m : FMap α) (k j : Nat) (a : α) :
    (m.set k a).find j = if j = k then some a else m.find j := by
  split
  · subst_vars; simp
  · exact FMap.find_set_ne m a ‹_›

@[simp] theorem FMap.get_set_self {α : Type} [Inhabited α] (m : FMap α) (k : Nat) (a : α) : (m.set k a).get k = a := by
  simp [FMap.get]

theorem FMap.get_set_ne {α : Type} [Inhabited α] (m : FMap α) {k j : Nat} (a : α) (h : j ≠ k) :
    (m.set k a).get j = m.get j := by
  simp [FMap.get, FMap.find_set_ne m a h]

theorem FMap.get_set {α : Type} [Inhabited α] (m : FMap α) (k j : Nat) (a : α) :
    (m.set k a).get j = if j = k then a else m.get j := by
  split
  · subst_vars; simp
  · exact FMap.get_set_ne m a ‹_›

theorem FMap.find_del {α : Type} (m : FMap α) (k j : Nat) : (m.del k).find j = if j = k then none else m.find j := by
  induction m with
  | nil => simp [FMap.del]
  | cons p t ih =>
    obtain ⟨i, b⟩ := p
    simp only [FMap.del, List.filter_cons] at ih ⊢
    by_cases h : i = k
    · subst h; simp only [bne_self_eq_false, Bool.false_eq_true, if_false, FMap.find_cons]
      rw [ih]; by_cases hj : j = i
      · simp [hj]
      · simp [hj, Ne.symm hj]
    · have : (i != k) = true := by simp [h]
      simp only [this, if_true, FMap.find_cons]
      rw [ih]; by_cases hj : i = j
      · subst hj; simp [h]
      · simp [hj]

/-! ### Lanes -/

theorem mem_lanesOf {m : LaneSet} {l : Nat} : l ∈ lanesOf m ↔ m.getLsbD l = true := by
  simp only [lanesOf, List.mem_filter, List.mem_range]
  exact ⟨fun h => h.2, fun h => ⟨BitVec.lt_of_getLsbD h, h⟩⟩

theorem lanesOf_lt {m : LaneSet} {l : Nat} (h : l ∈ lanesOf m) : l < 32 := BitVec.lt_of_getLsbD (mem_lanesOf.1 h)

theorem lanesOf_nodup (m : LaneSet) : (lanesOf m).Nodup := List.nodup_range.filter _

theorem lanesOf_eq_nil {m : LaneSet} : lanesOf m = [] ↔ m = 0 := by
  constructor
  · intro h
    apply BitVec.eq_of_getLsbD_eq
    intro i hi
    have : i ∉ lanesOf m := by simp [h]
    rw [mem_lanesOf] at this
    simpa using this
  · rintro rfl; simp [lanesOf]

theorem leader_mem {m : LaneSet} (h : m ≠ 0) : m.getLsbD (leader m) = true := by
  have : lanesOf m ≠ [] := fun e => h (lanesOf_eq_nil.1 e)
  obtain ⟨a, t, e⟩ := List.exists_cons_of_ne_nil this
  have : leader m ∈ lanesOf m := by simp [leader, e]
  exact mem_lanesOf.1 this

theorem laneBit_getLsbD (l i : Nat) : (laneBit l).getLsbD i = (decide (i < 32) && decide (i = l)) := by
  simp only [laneBit, BitVec.getLsbD_ofNat, Nat.testBit_two_pow]
  by_cases h : i < 32 <;> by_cases e : l = i <;> simp [h, e, eq_comm]

theorem laneSet_fold (ls : List Nat) (m : LaneSet) (i : Nat) :
    (ls.foldl (fun m l => m ||| laneBit l) m).getLsbD i = (m.getLsbD i || (decide (i < 32) && decide (i ∈ ls))) := by
  induction ls generalizing m with
  | nil => simp
  | cons a t ih =>
    rw [List.foldl_cons, ih, BitVec.getLsbD_or, laneBit_getLsbD]
    by_cases h : i < 32 <;> by_cases e : i = a <;> by_cases ht : i ∈ t <;> simp [h, e, ht]
    all_goals subst_vars; simp_all

theorem laneSet_getLsbD (ls : List Nat) (i : Nat) : (laneSet ls).getLsbD i = (decide (i < 32) && decide (i ∈ ls)) := by
  simp [laneSet, laneSet_fold]

@[simp] theorem laneSet_lanesOf (m : LaneSet) : laneSet (lanesOf m) = m := by
  apply BitVec.eq_of_getLsbD_eq
  intro i hi
  rw [laneSet_getLsbD, decide_eq_true hi, Bool.true_and]
  by_cases h : m.getLsbD i = true
  · simp [mem_lanesOf, h]
  · simp [mem_lanesOf, h]

/-! ### Byte strings -/

@[simp] theorem natToBytes_length (n x : Nat) : (natToBytes n x).length = n := by
  induction n generalizing x with
  | zero => rfl
  | succ k ih => simp [natToBytes, ih]

theorem bytesToNat_natToBytes (n x : Nat) : bytesToNat (natToBytes n x) = x % 256 ^ n := by
  induction n generalizing x with
  | zero => simp [natToBytes, bytesToNat, Nat.mod_one]
  | succ k ih =>
    have e : (BitVec.ofNat 8 x).toNat = x % 256 := BitVec.toNat_ofNat ..
    rw [natToBytes, bytesToNat, ih, e, Nat.pow_succ', Nat.mod_mul]

end Sys2Proof.Machine
end

