-- ==== Sys2Proof/Laws/State.lean ====
section
/-! SUPPORT. What each named update of the state does to each field, so that no later proof unfolds a record update. -/

namespace Sys2Proof.Machine

open Sys2Proof

@[simp] theorem State.setWarp_power (s : State) (k : Nat) (x : Warp) : (s.setWarp k x).power = s.power := rfl
@[simp] theorem State.setWarp_agenda (s : State) (k : Nat) (x : Warp) : (s.setWarp k x).agenda = s.agenda := rfl
@[simp] theorem State.setWarp_inbox (s : State) (k : Nat) (x : Warp) : (s.setWarp k x).inbox = s.inbox := rfl
@[simp] theorem State.setWarp_lastly (s : State) (k : Nat) (x : Warp) : (s.setWarp k x).lastly = s.lastly := rfl
@[simp] theorem State.setWarp_cycle (s : State) (k : Nat) (x : Warp) : (s.setWarp k x).cycle = s.cycle := rfl
@[simp] theorem State.setWarp_turns (s : State) (k : Nat) (x : Warp) : (s.setWarp k x).turns = s.turns := rfl
@[simp] theorem State.setWarp_issues (s : State) (k : Nat) (x : Warp) : (s.setWarp k x).issues = s.issues := rfl
@[simp] theorem State.setWarp_cancels (s : State) (k : Nat) (x : Warp) : (s.setWarp k x).cancels = s.cancels := rfl
@[simp] theorem State.setWarp_raised (s : State) (k : Nat) (x : Warp) : (s.setWarp k x).raised = s.raised := rfl
@[simp] theorem State.setWarp_cur (s : State) (k : Nat) (x : Warp) : (s.setWarp k x).cur = s.cur := rfl
@[simp] theorem State.setWarp_mem (s : State) (k : Nat) (x : Warp) : (s.setWarp k x).mem = s.mem := rfl
@[simp] theorem State.setWarp_poison (s : State) (k : Nat) (x : Warp) : (s.setWarp k x).poison = s.poison := rfl
@[simp] theorem State.setWarp_badWords (s : State) (k : Nat) (x : Warp) : (s.setWarp k x).badWords = s.badWords := rfl
@[simp] theorem State.setWarp_weak (s : State) (k : Nat) (x : Warp) : (s.setWarp k x).weak = s.weak := rfl
@[simp] theorem State.setWarp_dirty (s : State) (k : Nat) (x : Warp) : (s.setWarp k x).dirty = s.dirty := rfl
@[simp] theorem State.setWarp_warps (s : State) (k : Nat) (x : Warp) : (s.setWarp k x).warps = s.warps.set k x := rfl
@[simp] theorem State.setWarp_crews (s : State) (k : Nat) (x : Warp) : (s.setWarp k x).crews = s.crews := rfl
@[simp] theorem State.setWarp_gangs (s : State) (k : Nat) (x : Warp) : (s.setWarp k x).gangs = s.gangs := rfl
@[simp] theorem State.setWarp_cores (s : State) (k : Nat) (x : Warp) : (s.setWarp k x).cores = s.cores := rfl
@[simp] theorem State.setWarp_ctxs (s : State) (k : Nat) (x : Warp) : (s.setWarp k x).ctxs = s.ctxs := rfl
@[simp] theorem State.setWarp_launches (s : State) (k : Nat) (x : Warp) : (s.setWarp k x).launches = s.launches := rfl
@[simp] theorem State.setWarp_jobs (s : State) (k : Nat) (x : Warp) : (s.setWarp k x).jobs = s.jobs := rfl
@[simp] theorem State.setWarp_errlog (s : State) (k : Nat) (x : Warp) : (s.setWarp k x).errlog = s.errlog := rfl
@[simp] theorem State.setWarp_walkCache (s : State) (k : Nat) (x : Warp) : (s.setWarp k x).walkCache = s.walkCache := rfl
@[simp] theorem State.setWarp_slicePins (s : State) (k : Nat) (x : Warp) : (s.setWarp k x).slicePins = s.slicePins := rfl
@[simp] theorem State.setWarp_migs (s : State) (k : Nat) (x : Warp) : (s.setWarp k x).migs = s.migs := rfl
@[simp] theorem State.setWarp_key (s : State) (k : Nat) (x : Warp) : (s.setWarp k x).key = s.key := rfl
@[simp] theorem State.setWarp_tickets (s : State) (k : Nat) (x : Warp) : (s.setWarp k x).tickets = s.tickets := rfl
@[simp] theorem State.setWarp_reqs (s : State) (k : Nat) (x : Warp) : (s.setWarp k x).reqs = s.reqs := rfl
@[simp] theorem State.setWarp_nextReq (s : State) (k : Nat) (x : Warp) : (s.setWarp k x).nextReq = s.nextReq := rfl
@[simp] theorem State.setWarp_late (s : State) (k : Nat) (x : Warp) : (s.setWarp k x).late = s.late := rfl
@[simp] theorem State.setWarp_engines (s : State) (k : Nat) (x : Warp) : (s.setWarp k x).engines = s.engines := rfl
@[simp] theorem State.setWarp_savedOps (s : State) (k : Nat) (x : Warp) : (s.setWarp k x).savedOps = s.savedOps := rfl
@[simp] theorem State.setWarp_savedYard (s : State) (k : Nat) (x : Warp) : (s.setWarp k x).savedYard = s.savedYard := rfl
@[simp] theorem State.setWarp_nextOp (s : State) (k : Nat) (x : Warp) : (s.setWarp k x).nextOp = s.nextOp := rfl
@[simp] theorem State.setWarp_held (s : State) (k : Nat) (x : Warp) : (s.setWarp k x).held = s.held := rfl
@[simp] theorem State.setWarp_nextHeld (s : State) (k : Nat) (x : Warp) : (s.setWarp k x).nextHeld = s.nextHeld := rfl
@[simp] theorem State.setWarp_invals (s : State) (k : Nat) (x : Warp) : (s.setWarp k x).invals = s.invals := rfl
@[simp] theorem State.setWarp_nextInval (s : State) (k : Nat) (x : Warp) : (s.setWarp k x).nextInval = s.nextInval := rfl
@[simp] theorem State.setWarp_ports (s : State) (k : Nat) (x : Warp) : (s.setWarp k x).ports = s.ports := rfl
@[simp] theorem State.setWarp_landings (s : State) (k : Nat) (x : Warp) : (s.setWarp k x).landings = s.landings := rfl
@[simp] theorem State.setWarp_silent (s : State) (k : Nat) (x : Warp) : (s.setWarp k x).silent = s.silent := rfl
@[simp] theorem State.setWarp_peers (s : State) (k : Nat) (x : Warp) : (s.setWarp k x).peers = s.peers := rfl
@[simp] theorem State.setWarp_module_ (s : State) (k : Nat) (x : Warp) : (s.setWarp k x).module_ = s.module_ := rfl
@[simp] theorem State.setWarp_chans (s : State) (k : Nat) (x : Warp) : (s.setWarp k x).chans = s.chans := rfl
@[simp] theorem State.setWarp_sliceSel (s : State) (k : Nat) (x : Warp) : (s.setWarp k x).sliceSel = s.sliceSel := rfl
@[simp] theorem State.setWarp_sliceCount (s : State) (k : Nat) (x : Warp) : (s.setWarp k x).sliceCount = s.sliceCount := rfl
@[simp] theorem State.setWarp_sensors (s : State) (k : Nat) (x : Warp) : (s.setWarp k x).sensors = s.sensors := rfl
@[simp] theorem State.setWarp_mgr (s : State) (k : Nat) (x : Warp) : (s.setWarp k x).mgr = s.mgr := rfl
@[simp] theorem State.setWarp_sched (s : State) (k : Nat) (x : Warp) : (s.setWarp k x).sched = s.sched := rfl

@[simp] theorem State.setCrew_power (s : State) (k : Nat) (x : Crew) : (s.setCrew k x).power = s.power := rfl
@[simp] theorem State.setCrew_agenda (s : State) (k : Nat) (x : Crew) : (s.setCrew k x).agenda = s.agenda := rfl
@[simp] theorem State.setCrew_inbox (s : State) (k : Nat) (x : Crew) : (s.setCrew k x).inbox = s.inbox := rfl
@[simp] theorem State.setCrew_lastly (s : State) (k : Nat) (x : Crew) : (s.setCrew k x).lastly = s.lastly := rfl
@[simp] theorem State.setCrew_cycle (s : State) (k : Nat) (x : Crew) : (s.setCrew k x).cycle = s.cycle := rfl
@[simp] theorem State.setCrew_turns (s : State) (k : Nat) (x : Crew) : (s.setCrew k x).turns = s.turns := rfl
@[simp] theorem State.setCrew_issues (s : State) (k : Nat) (x : Crew) : (s.setCrew k x).issues = s.issues := rfl
@[simp] theorem State.setCrew_cancels (s : State) (k : Nat) (x : Crew) : (s.setCrew k x).cancels = s.cancels := rfl
@[simp] theorem State.setCrew_raised (s : State) (k : Nat) (x : Crew) : (s.setCrew k x).raised = s.raised := rfl
@[simp] theorem State.setCrew_cur (s : State) (k : Nat) (x : Crew) : (s.setCrew k x).cur = s.cur := rfl
@[simp] theorem State.setCrew_mem (s : State) (k : Nat) (x : Crew) : (s.setCrew k x).mem = s.mem := rfl
@[simp] theorem State.setCrew_poison (s : State) (k : Nat) (x : Crew) : (s.setCrew k x).poison = s.poison := rfl
@[simp] theorem State.setCrew_badWords (s : State) (k : Nat) (x : Crew) : (s.setCrew k x).badWords = s.badWords := rfl
@[simp] theorem State.setCrew_weak (s : State) (k : Nat) (x : Crew) : (s.setCrew k x).weak = s.weak := rfl
@[simp] theorem State.setCrew_dirty (s : State) (k : Nat) (x : Crew) : (s.setCrew k x).dirty = s.dirty := rfl
@[simp] theorem State.setCrew_warps (s : State) (k : Nat) (x : Crew) : (s.setCrew k x).warps = s.warps := rfl
@[simp] theorem State.setCrew_crews (s : State) (k : Nat) (x : Crew) : (s.setCrew k x).crews = s.crews.set k x := rfl
@[simp] theorem State.setCrew_gangs (s : State) (k : Nat) (x : Crew) : (s.setCrew k x).gangs = s.gangs := rfl
@[simp] theorem State.setCrew_cores (s : State) (k : Nat) (x : Crew) : (s.setCrew k x).cores = s.cores := rfl
@[simp] theorem State.setCrew_ctxs (s : State) (k : Nat) (x : Crew) : (s.setCrew k x).ctxs = s.ctxs := rfl
@[simp] theorem State.setCrew_launches (s : State) (k : Nat) (x : Crew) : (s.setCrew k x).launches = s.launches := rfl
@[simp] theorem State.setCrew_jobs (s : State) (k : Nat) (x : Crew) : (s.setCrew k x).jobs = s.jobs := rfl
@[simp] theorem State.setCrew_errlog (s : State) (k : Nat) (x : Crew) : (s.setCrew k x).errlog = s.errlog := rfl
@[simp] theorem State.setCrew_walkCache (s : State) (k : Nat) (x : Crew) : (s.setCrew k x).walkCache = s.walkCache := rfl
@[simp] theorem State.setCrew_slicePins (s : State) (k : Nat) (x : Crew) : (s.setCrew k x).slicePins = s.slicePins := rfl
@[simp] theorem State.setCrew_migs (s : State) (k : Nat) (x : Crew) : (s.setCrew k x).migs = s.migs := rfl
@[simp] theorem State.setCrew_key (s : State) (k : Nat) (x : Crew) : (s.setCrew k x).key = s.key := rfl
@[simp] theorem State.setCrew_tickets (s : State) (k : Nat) (x : Crew) : (s.setCrew k x).tickets = s.tickets := rfl
@[simp] theorem State.setCrew_reqs (s : State) (k : Nat) (x : Crew) : (s.setCrew k x).reqs = s.reqs := rfl
@[simp] theorem State.setCrew_nextReq (s : State) (k : Nat) (x : Crew) : (s.setCrew k x).nextReq = s.nextReq := rfl
@[simp] theorem State.setCrew_late (s : State) (k : Nat) (x : Crew) : (s.setCrew k x).late = s.late := rfl
@[simp] theorem State.setCrew_engines (s : State) (k : Nat) (x : Crew) : (s.setCrew k x).engines = s.engines := rfl
@[simp] theorem State.setCrew_savedOps (s : State) (k : Nat) (x : Crew) : (s.setCrew k x).savedOps = s.savedOps := rfl
@[simp] theorem State.setCrew_savedYard (s : State) (k : Nat) (x : Crew) : (s.setCrew k x).savedYard = s.savedYard := rfl
@[simp] theorem State.setCrew_nextOp (s : State) (k : Nat) (x : Crew) : (s.setCrew k x).nextOp = s.nextOp := rfl
@[simp] theorem State.setCrew_held (s : State) (k : Nat) (x : Crew) : (s.setCrew k x).held = s.held := rfl
@[simp] theorem State.setCrew_nextHeld (s : State) (k : Nat) (x : Crew) : (s.setCrew k x).nextHeld = s.nextHeld := rfl
@[simp] theorem State.setCrew_invals (s : State) (k : Nat) (x : Crew) : (s.setCrew k x).invals = s.invals := rfl
@[simp] theorem State.setCrew_nextInval (s : State) (k : Nat) (x : Crew) : (s.setCrew k x).nextInval = s.nextInval := rfl
@[simp] theorem State.setCrew_ports (s : State) (k : Nat) (x : Crew) : (s.setCrew k x).ports = s.ports := rfl
@[simp] theorem State.setCrew_landings (s : State) (k : Nat) (x : Crew) : (s.setCrew k x).landings = s.landings := rfl
@[simp] theorem State.setCrew_silent (s : State) (k : Nat) (x : Crew) : (s.setCrew k x).silent = s.silent := rfl
@[simp] theorem State.setCrew_peers (s : State) (k : Nat) (x : Crew) : (s.setCrew k x).peers = s.peers := rfl
@[simp] theorem State.setCrew_module_ (s : State) (k : Nat) (x : Crew) : (s.setCrew k x).module_ = s.module_ := rfl
@[simp] theorem State.setCrew_chans (s : State) (k : Nat) (x : Crew) : (s.setCrew k x).chans = s.chans := rfl
@[simp] theorem State.setCrew_sliceSel (s : State) (k : Nat) (x : Crew) : (s.setCrew k x).sliceSel = s.sliceSel := rfl
@[simp] theorem State.setCrew_sliceCount (s : State) (k : Nat) (x : Crew) : (s.setCrew k x).sliceCount = s.sliceCount := rfl
@[simp] theorem State.setCrew_sensors (s : State) (k : Nat) (x : Crew) : (s.setCrew k x).sensors = s.sensors := rfl
@[simp] theorem State.setCrew_mgr (s : State) (k : Nat) (x : Crew) : (s.setCrew k x).mgr = s.mgr := rfl
@[simp] theorem State.setCrew_sched (s : State) (k : Nat) (x : Crew) : (s.setCrew k x).sched = s.sched := rfl

@[simp] theorem State.setGang_power (s : State) (k : Nat) (x : Gang) : (s.setGang k x).power = s.power := rfl
@[simp] theorem State.setGang_agenda (s : State) (k : Nat) (x : Gang) : (s.setGang k x).agenda = s.agenda := rfl
@[simp] theorem State.setGang_inbox (s : State) (k : Nat) (x : Gang) : (s.setGang k x).inbox = s.inbox := rfl
@[simp] theorem State.setGang_lastly (s : State) (k : Nat) (x : Gang) : (s.setGang k x).lastly = s.lastly := rfl
@[simp] theorem State.setGang_cycle (s : State) (k : Nat) (x : Gang) : (s.setGang k x).cycle = s.cycle := rfl
@[simp] theorem State.setGang_turns (s : State) (k : Nat) (x : Gang) : (s.setGang k x).turns = s.turns := rfl
@[simp] theorem State.setGang_issues (s : State) (k : Nat) (x : Gang) : (s.setGang k x).issues = s.issues := rfl
@[simp] theorem State.setGang_cancels (s : State) (k : Nat) (x : Gang) : (s.setGang k x).cancels = s.cancels := rfl
@[simp] theorem State.setGang_raised (s : State) (k : Nat) (x : Gang) : (s.setGang k x).raised = s.raised := rfl
@[simp] theorem State.setGang_cur (s : State) (k : Nat) (x : Gang) : (s.setGang k x).cur = s.cur := rfl
@[simp] theorem State.setGang_mem (s : State) (k : Nat) (x : Gang) : (s.setGang k x).mem = s.mem := rfl
@[simp] theorem State.setGang_poison (s : State) (k : Nat) (x : Gang) : (s.setGang k x).poison = s.poison := rfl
@[simp] theorem State.setGang_badWords (s : State) (k : Nat) (x : Gang) : (s.setGang k x).badWords = s.badWords := rfl
@[simp] theorem State.setGang_weak (s : State) (k : Nat) (x : Gang) : (s.setGang k x).weak = s.weak := rfl
@[simp] theorem State.setGang_dirty (s : State) (k : Nat) (x : Gang) : (s.setGang k x).dirty = s.dirty := rfl
@[simp] theorem State.setGang_warps (s : State) (k : Nat) (x : Gang) : (s.setGang k x).warps = s.warps := rfl
@[simp] theorem State.setGang_crews (s : State) (k : Nat) (x : Gang) : (s.setGang k x).crews = s.crews := rfl
@[simp] theorem State.setGang_gangs (s : State) (k : Nat) (x : Gang) : (s.setGang k x).gangs = s.gangs.set k x := rfl
@[simp] theorem State.setGang_cores (s : State) (k : Nat) (x : Gang) : (s.setGang k x).cores = s.cores := rfl
@[simp] theorem State.setGang_ctxs (s : State) (k : Nat) (x : Gang) : (s.setGang k x).ctxs = s.ctxs := rfl
@[simp] theorem State.setGang_launches (s : State) (k : Nat) (x : Gang) : (s.setGang k x).launches = s.launches := rfl
@[simp] theorem State.setGang_jobs (s : State) (k : Nat) (x : Gang) : (s.setGang k x).jobs = s.jobs := rfl
@[simp] theorem State.setGang_errlog (s : State) (k : Nat) (x : Gang) : (s.setGang k x).errlog = s.errlog := rfl
@[simp] theorem State.setGang_walkCache (s : State) (k : Nat) (x : Gang) : (s.setGang k x).walkCache = s.walkCache := rfl
@[simp] theorem State.setGang_slicePins (s : State) (k : Nat) (x : Gang) : (s.setGang k x).slicePins = s.slicePins := rfl
@[simp] theorem State.setGang_migs (s : State) (k : Nat) (x : Gang) : (s.setGang k x).migs = s.migs := rfl
@[simp] theorem State.setGang_key (s : State) (k : Nat) (x : Gang) : (s.setGang k x).key = s.key := rfl
@[simp] theorem State.setGang_tickets (s : State) (k : Nat) (x : Gang) : (s.setGang k x).tickets = s.tickets := rfl
@[simp] theorem State.setGang_reqs (s : State) (k : Nat) (x : Gang) : (s.setGang k x).reqs = s.reqs := rfl
@[simp] theorem State.setGang_nextReq (s : State) (k : Nat) (x : Gang) : (s.setGang k x).nextReq = s.nextReq := rfl
@[simp] theorem State.setGang_late (s : State) (k : Nat) (x : Gang) : (s.setGang k x).late = s.late := rfl
@[simp] theorem State.setGang_engines (s : State) (k : Nat) (x : Gang) : (s.setGang k x).engines = s.engines := rfl
@[simp] theorem State.setGang_savedOps (s : State) (k : Nat) (x : Gang) : (s.setGang k x).savedOps = s.savedOps := rfl
@[simp] theorem State.setGang_savedYard (s : State) (k : Nat) (x : Gang) : (s.setGang k x).savedYard = s.savedYard := rfl
@[simp] theorem State.setGang_nextOp (s : State) (k : Nat) (x : Gang) : (s.setGang k x).nextOp = s.nextOp := rfl
@[simp] theorem State.setGang_held (s : State) (k : Nat) (x : Gang) : (s.setGang k x).held = s.held := rfl
@[simp] theorem State.setGang_nextHeld (s : State) (k : Nat) (x : Gang) : (s.setGang k x).nextHeld = s.nextHeld := rfl
@[simp] theorem State.setGang_invals (s : State) (k : Nat) (x : Gang) : (s.setGang k x).invals = s.invals := rfl
@[simp] theorem State.setGang_nextInval (s : State) (k : Nat) (x : Gang) : (s.setGang k x).nextInval = s.nextInval := rfl
@[simp] theorem State.setGang_ports (s : State) (k : Nat) (x : Gang) : (s.setGang k x).ports = s.ports := rfl
@[simp] theorem State.setGang_landings (s : State) (k : Nat) (x : Gang) : (s.setGang k x).landings = s.landings := rfl
@[simp] theorem State.setGang_silent (s : State) (k : Nat) (x : Gang) : (s.setGang k x).silent = s.silent := rfl
@[simp] theorem State.setGang_peers (s : State) (k : Nat) (x : Gang) : (s.setGang k x).peers = s.peers := rfl
@[simp] theorem State.setGang_module_ (s : State) (k : Nat) (x : Gang) : (s.setGang k x).module_ = s.module_ := rfl
@[simp] theorem State.setGang_chans (s : State) (k : Nat) (x : Gang) : (s.setGang k x).chans = s.chans := rfl
@[simp] theorem State.setGang_sliceSel (s : State) (k : Nat) (x : Gang) : (s.setGang k x).sliceSel = s.sliceSel := rfl
@[simp] theorem State.setGang_sliceCount (s : State) (k : Nat) (x : Gang) : (s.setGang k x).sliceCount = s.sliceCount := rfl
@[simp] theorem State.setGang_sensors (s : State) (k : Nat) (x : Gang) : (s.setGang k x).sensors = s.sensors := rfl
@[simp] theorem State.setGang_mgr (s : State) (k : Nat) (x : Gang) : (s.setGang k x).mgr = s.mgr := rfl
@[simp] theorem State.setGang_sched (s : State) (k : Nat) (x : Gang) : (s.setGang k x).sched = s.sched := rfl

@[simp] theorem State.setCore_power (s : State) (k : Nat) (x : Core) : (s.setCore k x).power = s.power := rfl
@[simp] theorem State.setCore_agenda (s : State) (k : Nat) (x : Core) : (s.setCore k x).agenda = s.agenda := rfl
@[simp] theorem State.setCore_inbox (s : State) (k : Nat) (x : Core) : (s.setCore k x).inbox = s.inbox := rfl
@[simp] theorem State.setCore_lastly (s : State) (k : Nat) (x : Core) : (s.setCore k x).lastly = s.lastly := rfl
@[simp] theorem State.setCore_cycle (s : State) (k : Nat) (x : Core) : (s.setCore k x).cycle = s.cycle := rfl
@[simp] theorem State.setCore_turns (s : State) (k : Nat) (x : Core) : (s.setCore k x).turns = s.turns := rfl
@[simp] theorem State.setCore_issues (s : State) (k : Nat) (x : Core) : (s.setCore k x).issues = s.issues := rfl
@[simp] theorem State.setCore_cancels (s : State) (k : Nat) (x : Core) : (s.setCore k x).cancels = s.cancels := rfl
@[simp] theorem State.setCore_raised (s : State) (k : Nat) (x : Core) : (s.setCore k x).raised = s.raised := rfl
@[simp] theorem State.setCore_cur (s : State) (k : Nat) (x : Core) : (s.setCore k x).cur = s.cur := rfl
@[simp] theorem State.setCore_mem (s : State) (k : Nat) (x : Core) : (s.setCore k x).mem = s.mem := rfl
@[simp] theorem State.setCore_poison (s : State) (k : Nat) (x : Core) : (s.setCore k x).poison = s.poison := rfl
@[simp] theorem State.setCore_badWords (s : State) (k : Nat) (x : Core) : (s.setCore k x).badWords = s.badWords := rfl
@[simp] theorem State.setCore_weak (s : State) (k : Nat) (x : Core) : (s.setCore k x).weak = s.weak := rfl
@[simp] theorem State.setCore_dirty (s : State) (k : Nat) (x : Core) : (s.setCore k x).dirty = s.dirty := rfl
@[simp] theorem State.setCore_warps (s : State) (k : Nat) (x : Core) : (s.setCore k x).warps = s.warps := rfl
@[simp] theorem State.setCore_crews (s : State) (k : Nat) (x : Core) : (s.setCore k x).crews = s.crews := rfl
@[simp] theorem State.setCore_gangs (s : State) (k : Nat) (x : Core) : (s.setCore k x).gangs = s.gangs := rfl
@[simp] theorem State.setCore_cores (s : State) (k : Nat) (x : Core) : (s.setCore k x).cores = s.cores.set k x := rfl
@[simp] theorem State.setCore_ctxs (s : State) (k : Nat) (x : Core) : (s.setCore k x).ctxs = s.ctxs := rfl
@[simp] theorem State.setCore_launches (s : State) (k : Nat) (x : Core) : (s.setCore k x).launches = s.launches := rfl
@[simp] theorem State.setCore_jobs (s : State) (k : Nat) (x : Core) : (s.setCore k x).jobs = s.jobs := rfl
@[simp] theorem State.setCore_errlog (s : State) (k : Nat) (x : Core) : (s.setCore k x).errlog = s.errlog := rfl
@[simp] theorem State.setCore_walkCache (s : State) (k : Nat) (x : Core) : (s.setCore k x).walkCache = s.walkCache := rfl
@[simp] theorem State.setCore_slicePins (s : State) (k : Nat) (x : Core) : (s.setCore k x).slicePins = s.slicePins := rfl
@[simp] theorem State.setCore_migs (s : State) (k : Nat) (x : Core) : (s.setCore k x).migs = s.migs := rfl
@[simp] theorem State.setCore_key (s : State) (k : Nat) (x : Core) : (s.setCore k x).key = s.key := rfl
@[simp] theorem State.setCore_tickets (s : State) (k : Nat) (x : Core) : (s.setCore k x).tickets = s.tickets := rfl
@[simp] theorem State.setCore_reqs (s : State) (k : Nat) (x : Core) : (s.setCore k x).reqs = s.reqs := rfl
@[simp] theorem State.setCore_nextReq (s : State) (k : Nat) (x : Core) : (s.setCore k x).nextReq = s.nextReq := rfl
@[simp] theorem State.setCore_late (s : State) (k : Nat) (x : Core) : (s.setCore k x).late = s.late := rfl
@[simp] theorem State.setCore_engines (s : State) (k : Nat) (x : Core) : (s.setCore k x).engines = s.engines := rfl
@[simp] theorem State.setCore_savedOps (s : State) (k : Nat) (x : Core) : (s.setCore k x).savedOps = s.savedOps := rfl
@[simp] theorem State.setCore_savedYard (s : State) (k : Nat) (x : Core) : (s.setCore k x).savedYard = s.savedYard := rfl
@[simp] theorem State.setCore_nextOp (s : State) (k : Nat) (x : Core) : (s.setCore k x).nextOp = s.nextOp := rfl
@[simp] theorem State.setCore_held (s : State) (k : Nat) (x : Core) : (s.setCore k x).held = s.held := rfl
@[simp] theorem State.setCore_nextHeld (s : State) (k : Nat) (x : Core) : (s.setCore k x).nextHeld = s.nextHeld := rfl
@[simp] theorem State.setCore_invals (s : State) (k : Nat) (x : Core) : (s.setCore k x).invals = s.invals := rfl
@[simp] theorem State.setCore_nextInval (s : State) (k : Nat) (x : Core) : (s.setCore k x).nextInval = s.nextInval := rfl
@[simp] theorem State.setCore_ports (s : State) (k : Nat) (x : Core) : (s.setCore k x).ports = s.ports := rfl
@[simp] theorem State.setCore_landings (s : State) (k : Nat) (x : Core) : (s.setCore k x).landings = s.landings := rfl
@[simp] theorem State.setCore_silent (s : State) (k : Nat) (x : Core) : (s.setCore k x).silent = s.silent := rfl
@[simp] theorem State.setCore_peers (s : State) (k : Nat) (x : Core) : (s.setCore k x).peers = s.peers := rfl
@[simp] theorem State.setCore_module_ (s : State) (k : Nat) (x : Core) : (s.setCore k x).module_ = s.module_ := rfl
@[simp] theorem State.setCore_chans (s : State) (k : Nat) (x : Core) : (s.setCore k x).chans = s.chans := rfl
@[simp] theorem State.setCore_sliceSel (s : State) (k : Nat) (x : Core) : (s.setCore k x).sliceSel = s.sliceSel := rfl
@[simp] theorem State.setCore_sliceCount (s : State) (k : Nat) (x : Core) : (s.setCore k x).sliceCount = s.sliceCount := rfl
@[simp] theorem State.setCore_sensors (s : State) (k : Nat) (x : Core) : (s.setCore k x).sensors = s.sensors := rfl
@[simp] theorem State.setCore_mgr (s : State) (k : Nat) (x : Core) : (s.setCore k x).mgr = s.mgr := rfl
@[simp] theorem State.setCore_sched (s : State) (k : Nat) (x : Core) : (s.setCore k x).sched = s.sched := rfl

@[simp] theorem State.setCtx_power (s : State) (k : Nat) (x : Context) : (s.setCtx k x).power = s.power := rfl
@[simp] theorem State.setCtx_agenda (s : State) (k : Nat) (x : Context) : (s.setCtx k x).agenda = s.agenda := rfl
@[simp] theorem State.setCtx_inbox (s : State) (k : Nat) (x : Context) : (s.setCtx k x).inbox = s.inbox := rfl
@[simp] theorem State.setCtx_lastly (s : State) (k : Nat) (x : Context) : (s.setCtx k x).lastly = s.lastly := rfl
@[simp] theorem State.setCtx_cycle (s : State) (k : Nat) (x : Context) : (s.setCtx k x).cycle = s.cycle := rfl
@[simp] theorem State.setCtx_turns (s : State) (k : Nat) (x : Context) : (s.setCtx k x).turns = s.turns := rfl
@[simp] theorem State.setCtx_issues (s : State) (k : Nat) (x : Context) : (s.setCtx k x).issues = s.issues := rfl
@[simp] theorem State.setCtx_cancels (s : State) (k : Nat) (x : Context) : (s.setCtx k x).cancels = s.cancels := rfl
@[simp] theorem State.setCtx_raised (s : State) (k : Nat) (x : Context) : (s.setCtx k x).raised = s.raised := rfl
@[simp] theorem State.setCtx_cur (s : State) (k : Nat) (x : Context) : (s.setCtx k x).cur = s.cur := rfl
@[simp] theorem State.setCtx_mem (s : State) (k : Nat) (x : Context) : (s.setCtx k x).mem = s.mem := rfl
@[simp] theorem State.setCtx_poison (s : State) (k : Nat) (x : Context) : (s.setCtx k x).poison = s.poison := rfl
@[simp] theorem State.setCtx_badWords (s : State) (k : Nat) (x : Context) : (s.setCtx k x).badWords = s.badWords := rfl
@[simp] theorem State.setCtx_weak (s : State) (k : Nat) (x : Context) : (s.setCtx k x).weak = s.weak := rfl
@[simp] theorem State.setCtx_dirty (s : State) (k : Nat) (x : Context) : (s.setCtx k x).dirty = s.dirty := rfl
@[simp] theorem State.setCtx_warps (s : State) (k : Nat) (x : Context) : (s.setCtx k x).warps = s.warps := rfl
@[simp] theorem State.setCtx_crews (s : State) (k : Nat) (x : Context) : (s.setCtx k x).crews = s.crews := rfl
@[simp] theorem State.setCtx_gangs (s : State) (k : Nat) (x : Context) : (s.setCtx k x).gangs = s.gangs := rfl
@[simp] theorem State.setCtx_cores (s : State) (k : Nat) (x : Context) : (s.setCtx k x).cores = s.cores := rfl
@[simp] theorem State.setCtx_ctxs (s : State) (k : Nat) (x : Context) : (s.setCtx k x).ctxs = s.ctxs.set k x := rfl
@[simp] theorem State.setCtx_launches (s : State) (k : Nat) (x : Context) : (s.setCtx k x).launches = s.launches := rfl
@[simp] theorem State.setCtx_jobs (s : State) (k : Nat) (x : Context) : (s.setCtx k x).jobs = s.jobs := rfl
@[simp] theorem State.setCtx_errlog (s : State) (k : Nat) (x : Context) : (s.setCtx k x).errlog = s.errlog := rfl
@[simp] theorem State.setCtx_walkCache (s : State) (k : Nat) (x : Context) : (s.setCtx k x).walkCache = s.walkCache := rfl
@[simp] theorem State.setCtx_slicePins (s : State) (k : Nat) (x : Context) : (s.setCtx k x).slicePins = s.slicePins := rfl
@[simp] theorem State.setCtx_migs (s : State) (k : Nat) (x : Context) : (s.setCtx k x).migs = s.migs := rfl
@[simp] theorem State.setCtx_key (s : State) (k : Nat) (x : Context) : (s.setCtx k x).key = s.key := rfl
@[simp] theorem State.setCtx_tickets (s : State) (k : Nat) (x : Context) : (s.setCtx k x).tickets = s.tickets := rfl
@[simp] theorem State.setCtx_reqs (s : State) (k : Nat) (x : Context) : (s.setCtx k x).reqs = s.reqs := rfl
@[simp] theorem State.setCtx_nextReq (s : State) (k : Nat) (x : Context) : (s.setCtx k x).nextReq = s.nextReq := rfl
@[simp] theorem State.setCtx_late (s : State) (k : Nat) (x : Context) : (s.setCtx k x).late = s.late := rfl
@[simp] theorem State.setCtx_engines (s : State) (k : Nat) (x : Context) : (s.setCtx k x).engines = s.engines := rfl
@[simp] theorem State.setCtx_savedOps (s : State) (k : Nat) (x : Context) : (s.setCtx k x).savedOps = s.savedOps := rfl
@[simp] theorem State.setCtx_savedYard (s : State) (k : Nat) (x : Context) : (s.setCtx k x).savedYard = s.savedYard := rfl
@[simp] theorem State.setCtx_nextOp (s : State) (k : Nat) (x : Context) : (s.setCtx k x).nextOp = s.nextOp := rfl
@[simp] theorem State.setCtx_held (s : State) (k : Nat) (x : Context) : (s.setCtx k x).held = s.held := rfl
@[simp] theorem State.setCtx_nextHeld (s : State) (k : Nat) (x : Context) : (s.setCtx k x).nextHeld = s.nextHeld := rfl
@[simp] theorem State.setCtx_invals (s : State) (k : Nat) (x : Context) : (s.setCtx k x).invals = s.invals := rfl
@[simp] theorem State.setCtx_nextInval (s : State) (k : Nat) (x : Context) : (s.setCtx k x).nextInval = s.nextInval := rfl
@[simp] theorem State.setCtx_ports (s : State) (k : Nat) (x : Context) : (s.setCtx k x).ports = s.ports := rfl
@[simp] theorem State.setCtx_landings (s : State) (k : Nat) (x : Context) : (s.setCtx k x).landings = s.landings := rfl
@[simp] theorem State.setCtx_silent (s : State) (k : Nat) (x : Context) : (s.setCtx k x).silent = s.silent := rfl
@[simp] theorem State.setCtx_peers (s : State) (k : Nat) (x : Context) : (s.setCtx k x).peers = s.peers := rfl
@[simp] theorem State.setCtx_module_ (s : State) (k : Nat) (x : Context) : (s.setCtx k x).module_ = s.module_ := rfl
@[simp] theorem State.setCtx_chans (s : State) (k : Nat) (x : Context) : (s.setCtx k x).chans = s.chans := rfl
@[simp] theorem State.setCtx_sliceSel (s : State) (k : Nat) (x : Context) : (s.setCtx k x).sliceSel = s.sliceSel := rfl
@[simp] theorem State.setCtx_sliceCount (s : State) (k : Nat) (x : Context) : (s.setCtx k x).sliceCount = s.sliceCount := rfl
@[simp] theorem State.setCtx_sensors (s : State) (k : Nat) (x : Context) : (s.setCtx k x).sensors = s.sensors := rfl
@[simp] theorem State.setCtx_mgr (s : State) (k : Nat) (x : Context) : (s.setCtx k x).mgr = s.mgr := rfl
@[simp] theorem State.setCtx_sched (s : State) (k : Nat) (x : Context) : (s.setCtx k x).sched = s.sched := rfl

@[simp] theorem State.setLaunch_power (s : State) (k : Nat) (x : Launch) : (s.setLaunch k x).power = s.power := rfl
@[simp] theorem State.setLaunch_agenda (s : State) (k : Nat) (x : Launch) : (s.setLaunch k x).agenda = s.agenda := rfl
@[simp] theorem State.setLaunch_inbox (s : State) (k : Nat) (x : Launch) : (s.setLaunch k x).inbox = s.inbox := rfl
@[simp] theorem State.setLaunch_lastly (s : State) (k : Nat) (x : Launch) : (s.setLaunch k x).lastly = s.lastly := rfl
@[simp] theorem State.setLaunch_cycle (s : State) (k : Nat) (x : Launch) : (s.setLaunch k x).cycle = s.cycle := rfl
@[simp] theorem State.setLaunch_turns (s : State) (k : Nat) (x : Launch) : (s.setLaunch k x).turns = s.turns := rfl
@[simp] theorem State.setLaunch_issues (s : State) (k : Nat) (x : Launch) : (s.setLaunch k x).issues = s.issues := rfl
@[simp] theorem State.setLaunch_cancels (s : State) (k : Nat) (x : Launch) : (s.setLaunch k x).cancels = s.cancels := rfl
@[simp] theorem State.setLaunch_raised (s : State) (k : Nat) (x : Launch) : (s.setLaunch k x).raised = s.raised := rfl
@[simp] theorem State.setLaunch_cur (s : State) (k : Nat) (x : Launch) : (s.setLaunch k x).cur = s.cur := rfl
@[simp] theorem State.setLaunch_mem (s : State) (k : Nat) (x : Launch) : (s.setLaunch k x).mem = s.mem := rfl
@[simp] theorem State.setLaunch_poison (s : State) (k : Nat) (x : Launch) : (s.setLaunch k x).poison = s.poison := rfl
@[simp] theorem State.setLaunch_badWords (s : State) (k : Nat) (x : Launch) : (s.setLaunch k x).badWords = s.badWords := rfl
@[simp] theorem State.setLaunch_weak (s : State) (k : Nat) (x : Launch) : (s.setLaunch k x).weak = s.weak := rfl
@[simp] theorem State.setLaunch_dirty (s : State) (k : Nat) (x : Launch) : (s.setLaunch k x).dirty = s.dirty := rfl
@[simp] theorem State.setLaunch_warps (s : State) (k : Nat) (x : Launch) : (s.setLaunch k x).warps = s.warps := rfl
@[simp] theorem State.setLaunch_crews (s : State) (k : Nat) (x : Launch) : (s.setLaunch k x).crews = s.crews := rfl
@[simp] theorem State.setLaunch_gangs (s : State) (k : Nat) (x : Launch) : (s.setLaunch k x).gangs = s.gangs := rfl
@[simp] theorem State.setLaunch_cores (s : State) (k : Nat) (x : Launch) : (s.setLaunch k x).cores = s.cores := rfl
@[simp] theorem State.setLaunch_ctxs (s : State) (k : Nat) (x : Launch) : (s.setLaunch k x).ctxs = s.ctxs := rfl
@[simp] theorem State.setLaunch_launches (s : State) (k : Nat) (x : Launch) : (s.setLaunch k x).launches = s.launches.set k x := rfl
@[simp] theorem State.setLaunch_jobs (s : State) (k : Nat) (x : Launch) : (s.setLaunch k x).jobs = s.jobs := rfl
@[simp] theorem State.setLaunch_errlog (s : State) (k : Nat) (x : Launch) : (s.setLaunch k x).errlog = s.errlog := rfl
@[simp] theorem State.setLaunch_walkCache (s : State) (k : Nat) (x : Launch) : (s.setLaunch k x).walkCache = s.walkCache := rfl
@[simp] theorem State.setLaunch_slicePins (s : State) (k : Nat) (x : Launch) : (s.setLaunch k x).slicePins = s.slicePins := rfl
@[simp] theorem State.setLaunch_migs (s : State) (k : Nat) (x : Launch) : (s.setLaunch k x).migs = s.migs := rfl
@[simp] theorem State.setLaunch_key (s : State) (k : Nat) (x : Launch) : (s.setLaunch k x).key = s.key := rfl
@[simp] theorem State.setLaunch_tickets (s : State) (k : Nat) (x : Launch) : (s.setLaunch k x).tickets = s.tickets := rfl
@[simp] theorem State.setLaunch_reqs (s : State) (k : Nat) (x : Launch) : (s.setLaunch k x).reqs = s.reqs := rfl
@[simp] theorem State.setLaunch_nextReq (s : State) (k : Nat) (x : Launch) : (s.setLaunch k x).nextReq = s.nextReq := rfl
@[simp] theorem State.setLaunch_late (s : State) (k : Nat) (x : Launch) : (s.setLaunch k x).late = s.late := rfl
@[simp] theorem State.setLaunch_engines (s : State) (k : Nat) (x : Launch) : (s.setLaunch k x).engines = s.engines := rfl
@[simp] theorem State.setLaunch_savedOps (s : State) (k : Nat) (x : Launch) : (s.setLaunch k x).savedOps = s.savedOps := rfl
@[simp] theorem State.setLaunch_savedYard (s : State) (k : Nat) (x : Launch) : (s.setLaunch k x).savedYard = s.savedYard := rfl
@[simp] theorem State.setLaunch_nextOp (s : State) (k : Nat) (x : Launch) : (s.setLaunch k x).nextOp = s.nextOp := rfl
@[simp] theorem State.setLaunch_held (s : State) (k : Nat) (x : Launch) : (s.setLaunch k x).held = s.held := rfl
@[simp] theorem State.setLaunch_nextHeld (s : State) (k : Nat) (x : Launch) : (s.setLaunch k x).nextHeld = s.nextHeld := rfl
@[simp] theorem State.setLaunch_invals (s : State) (k : Nat) (x : Launch) : (s.setLaunch k x).invals = s.invals := rfl
@[simp] theorem State.setLaunch_nextInval (s : State) (k : Nat) (x : Launch) : (s.setLaunch k x).nextInval = s.nextInval := rfl
@[simp] theorem State.setLaunch_ports (s : State) (k : Nat) (x : Launch) : (s.setLaunch k x).ports = s.ports := rfl
@[simp] theorem State.setLaunch_landings (s : State) (k : Nat) (x : Launch) : (s.setLaunch k x).landings = s.landings := rfl
@[simp] theorem State.setLaunch_silent (s : State) (k : Nat) (x : Launch) : (s.setLaunch k x).silent = s.silent := rfl
@[simp] theorem State.setLaunch_peers (s : State) (k : Nat) (x : Launch) : (s.setLaunch k x).peers = s.peers := rfl
@[simp] theorem State.setLaunch_module_ (s : State) (k : Nat) (x : Launch) : (s.setLaunch k x).module_ = s.module_ := rfl
@[simp] theorem State.setLaunch_chans (s : State) (k : Nat) (x : Launch) : (s.setLaunch k x).chans = s.chans := rfl
@[simp] theorem State.setLaunch_sliceSel (s : State) (k : Nat) (x : Launch) : (s.setLaunch k x).sliceSel = s.sliceSel := rfl
@[simp] theorem State.setLaunch_sliceCount (s : State) (k : Nat) (x : Launch) : (s.setLaunch k x).sliceCount = s.sliceCount := rfl
@[simp] theorem State.setLaunch_sensors (s : State) (k : Nat) (x : Launch) : (s.setLaunch k x).sensors = s.sensors := rfl
@[simp] theorem State.setLaunch_mgr (s : State) (k : Nat) (x : Launch) : (s.setLaunch k x).mgr = s.mgr := rfl
@[simp] theorem State.setLaunch_sched (s : State) (k : Nat) (x : Launch) : (s.setLaunch k x).sched = s.sched := rfl

end Sys2Proof.Machine
end

