-- ==== Sys2Proof/Laws/Memory.lean ====
section
/-! SUPPORT. Laws of memory: reading after writing, and that every memory operation keeps the canonical form. -/

namespace Sys2Proof.Machine

open Sys2Proof

/-! ### One byte -/

theorem Memory.get_cons (b : Nat) (x : Byte) (t : Memory) (a : Nat) :
    Memory.get ((b, x) :: t) a = if b = a then x else Memory.get t a := rfl

/-- A canonical memory's tail is canonical. -/
theorem Memory.wf_tail {p : Host.Cell} {t : Memory} (h : Memory.wf (p :: t) = true) : Memory.wf t = true := by
  obtain ⟨a, x⟩ := p
  cases t with
  | nil => rfl
  | cons q t => obtain ⟨b, y⟩ := q; simp [Memory.wf] at h; exact h.2

/-- Every address of a canonical memory's tail lies above its head. -/
theorem Memory.wf_lt {a : Nat} {x : Byte} {t : Memory} (h : Memory.wf ((a, x) :: t) = true) : ∀ p ∈ t, a < p.1 := by
  induction t generalizing a x with
  | nil => simp
  | cons q t ih =>
    obtain ⟨b, y⟩ := q
    simp [Memory.wf] at h
    intro p hp
    rcases List.mem_cons.1 hp with rfl | hp
    · exact h.1.2
    · exact lt_trans h.1.2 (ih h.2 p hp)

theorem Memory.wf_cons {a : Nat} {x : Byte} {t : Memory} :
    Memory.wf ((a, x) :: t) = true ↔ x ≠ 0 ∧ (∀ p ∈ t, a < p.1) ∧ Memory.wf t = true := by
  constructor
  · intro h
    refine ⟨?_, Memory.wf_lt h, Memory.wf_tail h⟩
    cases t with
    | nil => simpa [Memory.wf] using h
    | cons q t => obtain ⟨b, y⟩ := q; simp [Memory.wf] at h; exact h.1.1
  · rintro ⟨hx, hlt, ht⟩
    cases t with
    | nil => simpa [Memory.wf] using hx
    | cons q t =>
      obtain ⟨b, y⟩ := q
      simp only [Memory.wf, ht, Bool.and_true, Bool.and_eq_true, bne_iff_ne, ne_eq, decide_eq_true_eq]
      exact ⟨hx, hlt (b, y) (by simp)⟩

/-- An address below every listed one reads 0. -/
theorem Memory.get_below {m : Memory} {a : Nat} (h : ∀ p ∈ m, a < p.1) : m.get a = 0 := by
  induction m with
  | nil => rfl
  | cons q t ih =>
    obtain ⟨b, y⟩ := q
    rw [Memory.get_cons, if_neg (by have := h (b, y) (by simp); simp at this; omega)]
    exact ih fun p hp => h p (by simp [hp])

theorem Memory.get_set_ne (m : Memory) {a b : Nat} (x : Byte) (h : b ≠ a) : (m.set a x).get b = m.get b := by
  induction m with
  | nil =>
    simp only [Memory.set]
    split
    · rfl
    · rw [Memory.get_cons, if_neg (Ne.symm h)]
  | cons q t ih =>
    obtain ⟨c, y⟩ := q
    simp only [Memory.set]
    split
    · split
      · rfl
      · rw [Memory.get_cons, if_neg (Ne.symm h)]
    · split
      · subst_vars
        split <;> simp [Memory.get_cons, Ne.symm h]
      · rw [Memory.get_cons, Memory.get_cons, ih]

/-- A byte written to a canonical memory is read back. -/
theorem Memory.get_set_self {m : Memory} (hm : Memory.wf m = true) (a : Nat) (x : Byte) : (m.set a x).get a = x := by
  induction m with
  | nil =>
    simp only [Memory.set]
    split
    · subst_vars; rfl
    · simp [Memory.get_cons]
  | cons q t ih =>
    obtain ⟨c, y⟩ := q
    have hw := Memory.wf_cons.1 hm
    simp only [Memory.set]
    split
    · split
      · subst_vars
        exact Memory.get_below (m := (c, y) :: t) (by
          intro p hp
          rcases List.mem_cons.1 hp with rfl | hp
          · assumption
          · exact lt_trans ‹a < c› (hw.2.1 p hp))
      · simp [Memory.get_cons]
    · split
      · subst_vars
        split
        · subst_vars; exact Memory.get_below hw.2.1
        · simp [Memory.get_cons]
      · rw [Memory.get_cons, if_neg (by omega), ih hw.2.2]

/-- Every address listed after a write was listed before or is the one written. -/
theorem Memory.mem_set {m : Memory} {a : Nat} {x : Byte} {p : Host.Cell} (h : p ∈ m.set a x) : p ∈ m ∨ p.1 = a := by
  induction m with
  | nil =>
    simp only [Memory.set] at h
    split at h <;> simp_all
  | cons q t ih =>
    obtain ⟨c, y⟩ := q
    simp only [Memory.set] at h
    split at h
    · split at h
      · exact Or.inl h
      · rcases List.mem_cons.1 h with rfl | h
        · exact Or.inr rfl
        · exact Or.inl h
    · split at h
      · split at h
        · exact Or.inl (by simp [h])
        · rcases List.mem_cons.1 h with rfl | h
          · exact Or.inr rfl
          · exact Or.inl (by simp [h])
      · rcases List.mem_cons.1 h with rfl | h
        · exact Or.inl (by simp)
        · rcases ih h with h | h
          · exact Or.inl (by simp [h])
          · exact Or.inr h

theorem Memory.wf_set {m : Memory} (hm : Memory.wf m = true) (a : Nat) (x : Byte) : Memory.wf (m.set a x) = true := by
  induction m with
  | nil =>
    simp only [Memory.set]
    split
    · rfl
    · simpa [Memory.wf] using ‹_›
  | cons q t ih =>
    obtain ⟨c, y⟩ := q
    have hw := Memory.wf_cons.1 hm
    simp only [Memory.set]
    split
    · split
      · exact hm
      · refine Memory.wf_cons.2 ⟨‹_›, ?_, hm⟩
        intro p hp
        rcases List.mem_cons.1 hp with rfl | hp
        · assumption
        · exact lt_trans ‹a < c› (hw.2.1 p hp)
    · split
      · subst_vars
        split
        · exact hw.2.2
        · exact Memory.wf_cons.2 ⟨‹_›, hw.2.1, hw.2.2⟩
      · refine Memory.wf_cons.2 ⟨hw.1, ?_, ih hw.2.2⟩
        intro p hp
        rcases Memory.mem_set hp with hp | hp
        · exact hw.2.1 p hp
        · omega

/-! ### Ranges -/

theorem Memory.wf_write {m : Memory} (hm : Memory.wf m = true) (a : Nat) (bs : List Byte) :
    Memory.wf (m.write a bs) = true := by
  induction bs generalizing m a with
  | nil => exact hm
  | cons x t ih => exact ih (Memory.wf_set hm a x) (a + 1)

theorem Memory.wf_filter {m : Memory} (hm : Memory.wf m = true) (p : Host.Cell → Bool) :
    Memory.wf (m.filter p) = true := by
  induction m with
  | nil => rfl
  | cons q t ih =>
    obtain ⟨c, y⟩ := q
    have hw := Memory.wf_cons.1 hm
    rw [List.filter_cons]
    split
    · exact Memory.wf_cons.2 ⟨hw.1, fun r hr => hw.2.1 r (List.mem_filter.1 hr).1, ih hw.2.2⟩
    · exact ih hw.2.2

/-- A byte outside the written range reads as before. -/
theorem Memory.get_write_ne (m : Memory) (a : Nat) (bs : List Byte) {b : Nat} (h : b < a ∨ a + bs.length ≤ b) :
    (m.write a bs).get b = m.get b := by
  induction bs generalizing m a with
  | nil => rfl
  | cons x t ih =>
    simp only [List.length_cons] at h
    rw [Memory.write, ih _ _ (by omega), Memory.get_set_ne _ _ (by omega)]

/-- A byte of the written range reads what was written. -/
theorem Memory.get_write_self {m : Memory} (hm : Memory.wf m = true) (a : Nat) (bs : List Byte) {k : Nat}
    (h : k < bs.length) : (m.write a bs).get (a + k) = bs[k] := by
  induction bs generalizing m a k with
  | nil => simp at h
  | cons x t ih =>
    rw [Memory.write]
    cases k with
    | zero => rw [Memory.get_write_ne _ _ _ (by omega)]; simpa using Memory.get_set_self hm a x
    | succ k =>
      have := ih (Memory.wf_set hm a x) (a + 1) (k := k) (by simpa using h)
      rw [show a + (k + 1) = a + 1 + k by omega, this]; simp

@[simp] theorem Memory.read_length (m : Memory) (a n : Nat) : (m.read a n).length = n := by
  induction n generalizing a with
  | zero => rfl
  | succ k ih => simp [Memory.read, ih]

theorem Memory.read_get (m : Memory) (a n : Nat) {k : Nat} (h : k < n) : (m.read a n)[k]'(by simpa using h) = m.get (a + k) := by
  induction n generalizing a k with
  | zero => omega
  | succ n ih =>
    cases k with
    | zero => simp [Memory.read]
    | succ k => simp only [Memory.read, List.getElem_cons_succ]; rw [ih (a + 1) (by omega)]; congr 1; omega

/-- Two memories that agree on a range give one string. -/
theorem Memory.read_congr {m k : Memory} {a n : Nat} (h : ∀ b, a ≤ b → b < a + n → m.get b = k.get b) :
    m.read a n = k.read a n := by
  induction n generalizing a with
  | zero => rfl
  | succ n ih =>
    rw [Memory.read, Memory.read, h a (by omega) (by omega), ih fun b h1 h2 => h b (by omega) (by omega)]

/-- The bytes just written are read back. -/
theorem Memory.read_write {m : Memory} (hm : Memory.wf m = true) (a : Nat) (bs : List Byte) :
    (m.write a bs).read a bs.length = bs := by
  apply List.ext_getElem (by simp)
  intro k h1 h2
  rw [Memory.read_get _ _ _ (by simpa using h2), Memory.get_write_self hm a bs h2]

/-! ### Stores -/

@[simp] theorem State.store_mem (s : State) (a : Nat) (bs : List Byte) : (s.store a bs).mem = s.mem.write a bs := rfl
@[simp] theorem State.storeX_mem (s : State) (a : Nat) (bs : List Byte) : (s.storeX a bs).mem = s.mem.write a bs := rfl

theorem State.store_wf {s : State} (h : Memory.wf s.mem = true) (a : Nat) (bs : List Byte) :
    Memory.wf (s.store a bs).mem = true := Memory.wf_write h a bs
theorem State.storeX_wf {s : State} (h : Memory.wf s.mem = true) (a : Nat) (bs : List Byte) :
    Memory.wf (s.storeX a bs).mem = true := Memory.wf_write h a bs

end Sys2Proof.Machine
end

