-- ==== Sys2Proof/Laws/Ops.lean ====
section
/-! SUPPORT. What each shared operation over registers, lanes and issue groups can do: the lemmas that later proofs cite in place of
unfolding it. -/

namespace Sys2Proof.Machine

open Sys2Proof


/-! ### Warps -/

@[simp] theorem State.warp_setWarp_self (s : State) (w : Nat) (x : Warp) : (s.setWarp w x).warp w = x := by
  simp [State.warp]

theorem State.warp_setWarp_ne (s : State) {w v : Nat} (x : Warp) (h : v ≠ w) : (s.setWarp w x).warp v = s.warp v := by
  simp [State.warp, FMap.get_set_ne _ _ h]

theorem State.warp_setWarp (s : State) (w v : Nat) (x : Warp) :
    (s.setWarp w x).warp v = if v = w then x else s.warp v := by
  simp [State.warp, FMap.get_set]

@[simp] theorem State.curWarp_setWarp_self (s : State) (x : Warp) : (s.setWarp s.cur.warp x).curWarp = x := by
  simp [State.curWarp]

theorem State.upCur_eq (s : State) (f : Warp → Warp) : s.upCur f = s.setWarp s.cur.warp (f s.curWarp) := rfl

@[simp] theorem State.upCur_cur (s : State) (f : Warp → Warp) : (s.upCur f).cur = s.cur := rfl
@[simp] theorem State.upCur_mem (s : State) (f : Warp → Warp) : (s.upCur f).mem = s.mem := rfl
@[simp] theorem State.upCur_cycle (s : State) (f : Warp → Warp) : (s.upCur f).cycle = s.cycle := rfl
@[simp] theorem State.curWarp_upCur (s : State) (f : Warp → Warp) : (s.upCur f).curWarp = f s.curWarp := by
  simp [State.upCur_eq, State.curWarp]

/-! ### The checks of every group -/

/-- A group that passes the checks of R199 does what its own description says. -/
theorem groupOp_clear {is : List Instr} {s : State} (h : clearGroup is s = true) (body : State → Except Trap State) :
    groupOp is s body = match body s with
      | .error t => .next (s.issueTrap t)
      | .ok s' => .next s' := by
  simp only [clearGroup, Bool.and_eq_true, List.all_eq_true, Bool.not_eq_true', beq_iff_eq, Option.isNone_iff_eq_none] at h
  obtain ⟨⟨h1, h2⟩, h3⟩ := h
  have e1 : (groupWords is 0 0).find? (fun g => g.2.2.any (overQuota s.curWarp.quota)) = none := by
    rw [List.find?_eq_none]; intro g hg; simp [h1 g hg]
  have e3 : (groupWords is 0 0).find? (fun g => s.curWarp.badSources s.cur.lanes g.2.2 != 0) = none := by
    rw [List.find?_eq_none]; intro g hg; simp [h3 g hg]
  rw [groupOp]
  simp only [e1, h2, e3]
  all_goals rfl

theorem runOp_clear {i : Instr} {s : State} (h : clear i s = true) (body : State → Except Trap State) :
    runOp i s body = match body s with
      | .error t => .next (s.issueTrap t)
      | .ok s' => .next s' := groupOp_clear h body

theorem plainOp_clear {i : Instr} {s : State} (h : clear i s = true) (f : State → State) :
    plainOp i s f = .next ((f s).advance i.len) := by
  rw [plainOp, runOp_clear h]

theorem checkedOp_ok {i : Instr} {s t : State} (h : clear i s = true) {f : State → Except Trap State}
    (hf : f s = .ok t) : checkedOp i s f = .next (t.advance i.len) := by
  rw [checkedOp, runOp_clear h, hf]

theorem checkedOp_error {i : Instr} {s : State} (h : clear i s = true) {f : State → Except Trap State} {x : Trap}
    (hf : f s = .error x) : checkedOp i s f = .next (s.issueTrap x) := by
  rw [checkedOp, runOp_clear h, hf]

/-! ### Lanes -/

theorem Warp.lane_setLane (w : Warp) (l : Nat) (x : Lane) (k : Nat) :
    (w.setLane l x).lane k = if k = l then x else w.lane k := by
  simp [Warp.lane, Warp.setLane, FMap.get_set]

theorem foldl_set_get {α : Type} [Inhabited α] (f : Nat → α → α) (ls : List Nat) (hn : ls.Nodup) (t : FMap α) (k : Nat) :
    (ls.foldl (fun t l => t.set l (f l (t.get l))) t).get k = if k ∈ ls then f k (t.get k) else t.get k := by
  induction ls generalizing t with
  | nil => simp
  | cons a ls ih =>
    obtain ⟨ha, hn⟩ := List.nodup_cons.1 hn
    rw [List.foldl_cons, ih hn]
    by_cases h : k = a
    · subst h; simp [ha]
    · simp [h, FMap.get_set_ne _ _ h]

theorem Warp.lane_mapLanes (w : Warp) (m : LaneSet) (f : Lane → Lane) (l : Nat) :
    (w.mapLanes m f).lane l = if m.getLsbD l then f (w.lane l) else w.lane l := by
  have := foldl_set_get (fun _ => f) (lanesOf m) (lanesOf_nodup m) w.lanes l
  simp only [mem_lanesOf] at this
  exact this

@[simp] theorem Warp.advance_vregs (w : Warp) (m : LaneSet) (n : Nat) : (w.advance m n).vregs = w.vregs := rfl
@[simp] theorem Warp.advance_sregs (w : Warp) (m : LaneSet) (n : Nat) : (w.advance m n).sregs = w.sregs := rfl
@[simp] theorem Warp.advance_badRegs (w : Warp) (m : LaneSet) (n : Nat) : (w.advance m n).badRegs = w.badRegs := rfl

/-- Advancing changes the lanes only. -/
theorem Warp.advance_eq (w : Warp) (m : LaneSet) (n : Nat) : w.advance m n = { w with lanes := (w.advance m n).lanes } := rfl

/-! ### Register writes -/

theorem Warp.v_setV (w : Warp) (n l : Nat) (x : Word) (m k : Nat) (hl : l < 32) (hk : k < 32) :
    (w.setV n l x).v m k = if m = n ∧ k = l then x else w.v m k := by
  simp only [Warp.v, Warp.setV, FMap.get_set, vkey]
  by_cases h : m = n ∧ k = l
  · simp [h.1, h.2]
  · rw [if_neg (by omega), if_neg h]

theorem Warp.setVs_v (w : Warp) (n l : Nat) (hl : l < 32) (nw x m k : Nat) (hk : k < 32) :
    (w.setVs n l nw x).v m k =
      if k = l ∧ n ≤ m ∧ m < n + nw then BitVec.ofNat 32 (x / 2 ^ (32 * (m - n))) else w.v m k := by
  induction nw generalizing w n x with
  | zero => rw [Warp.setVs, if_neg (by omega)]
  | succ j ih =>
    rw [Warp.setVs, ih, Warp.v_setV _ _ _ _ _ _ hl hk]
    by_cases h : k = l
    · subst h
      by_cases e : m = n
      · subst e; simp
      · by_cases g : n + 1 ≤ m ∧ m < n + 1 + j
        · rw [if_pos ⟨rfl, g⟩, if_pos ⟨rfl, by omega⟩, Nat.div_div_eq_div_mul, ← Nat.pow_add]
          congr 3; omega
        · rw [if_neg (by tauto), if_neg (by tauto), if_neg (by omega)]
    · simp [h]

/-- A write of vector registers changes nothing else of the warp. -/
theorem Warp.setVs_rest (w : Warp) (n l nw x : Nat) :
    ∃ v b, w.setVs n l nw x = { w with vregs := v, badRegs := b } := by
  induction nw generalizing w n x with
  | zero => exact ⟨_, _, rfl⟩
  | succ j ih => obtain ⟨v, b, e⟩ := ih (w.setV n l (BitVec.ofNat 32 x)) (n + 1) (x / 2 ^ 32); exact ⟨v, b, by rw [Warp.setVs, e]; rfl⟩

theorem Warp.setVs_bad (w : Warp) (n l nw x r : Nat) :
    r ∈ (w.setVs n l nw x).badRegs ↔ r ∈ w.badRegs ∧ ∀ m, n ≤ m → m < n + nw → r ≠ vkey m l := by
  induction nw generalizing w n x with
  | zero => simp only [Warp.setVs]; constructor
            · intro h; exact ⟨h, fun m h1 h2 => by omega⟩
            · exact fun h => h.1
  | succ j ih =>
    rw [Warp.setVs, ih]
    simp only [Warp.setV, List.mem_filter, bne_iff_ne, ne_eq]
    constructor
    · rintro ⟨⟨h1, h2⟩, h3⟩
      refine ⟨h1, fun m g1 g2 => ?_⟩
      by_cases e : m = n
      · subst e; exact h2
      · exact h3 m (by omega) (by omega)
    · rintro ⟨h1, h2⟩
      exact ⟨⟨h1, h2 n (by omega) (by omega)⟩, fun m g1 g2 => h2 m (by omega) (by omega)⟩

/-- A vector result written lane by lane. -/
theorem foldl_setVs (n nw : Nat) (f : Nat → Nat) (ls : List Nat) (hn : ls.Nodup) (hl : ∀ l ∈ ls, l < 32) (w : Warp) :
    let y := ls.foldl (fun w l => w.setVs n l nw (f l)) w
    (∀ m k, k < 32 → y.v m k =
      if k ∈ ls ∧ n ≤ m ∧ m < n + nw then BitVec.ofNat 32 (f k / 2 ^ (32 * (m - n))) else w.v m k)
    ∧ (∀ r, r ∈ y.badRegs ↔ r ∈ w.badRegs ∧ ∀ l ∈ ls, ∀ m, n ≤ m → m < n + nw → r ≠ vkey m l)
    ∧ ∃ v b, y = { w with vregs := v, badRegs := b } := by
  induction ls generalizing w with
  | nil => exact ⟨by simp, by simp, _, _, rfl⟩
  | cons a ls ih =>
    obtain ⟨ha, hn⟩ := List.nodup_cons.1 hn
    obtain ⟨h1, h2, h3⟩ := ih hn (fun l h => hl l (by simp [h])) (w.setVs n a nw (f a))
    have ha32 := hl a (by simp)
    refine ⟨?_, ?_, ?_⟩
    · intro m k hk
      rw [List.foldl_cons, h1 m k hk, Warp.setVs_v _ _ _ ha32 _ _ _ _ hk]
      by_cases e : k = a
      · subst e; simp [ha]
      · simp [e]
    · intro r
      rw [List.foldl_cons, h2 r, Warp.setVs_bad]
      simp only [List.mem_cons, forall_eq_or_imp, and_assoc]
    · obtain ⟨v, b, e⟩ := h3
      obtain ⟨v', b', e'⟩ := Warp.setVs_rest w n a nw (f a)
      exact ⟨v, b, by rw [List.foldl_cons, e, e']⟩

/-- What writing a lane-wise result does (R189, R190). -/
theorem writeLanes_spec (w : Warp) (lanes : LaneSet) (nw : Nat) (d : Operand) (f : Nat → Nat) :
    let y := w.writeLanes lanes nw d f
    (∀ m l, l < 32 → y.v m l =
      if vecWritten d lanes nw m l then BitVec.ofNat 32 (f l / 2 ^ (32 * (m - firstReg d))) else w.v m l)
    ∧ (∀ m, y.s m = if scaWritten d lanes m then BitVec.ofNat 64 (f (leader lanes)) else w.s m)
    ∧ (∀ r, r ∈ y.badRegs ↔ r ∈ w.badRegs ∧ ¬ (∃ m l, vecWritten d lanes nw m l = true ∧ r = vkey m l)
        ∧ ¬ (∃ m, scaWritten d lanes m = true ∧ r = badS m))
    ∧ ∃ v r b, y = { w with vregs := v, sregs := r, badRegs := b } := by
  cases d with
  | v n =>
    obtain ⟨h1, h2, v, b, h3⟩ := foldl_setVs n nw f (lanesOf lanes) (lanesOf_nodup _) (fun _ h => lanesOf_lt h) w
    refine ⟨?_, ?_, ?_, ?_⟩
    · intro m l hl
      refine (h1 m l hl).trans ?_
      simp [vecWritten, mem_lanesOf, firstReg, and_assoc]
    · intro m
      simp only [scaWritten, Bool.false_eq_true, if_false, Warp.s, Warp.writeLanes]
      rw [h3]
    · intro r
      refine (h2 r).trans ?_
      simp only [mem_lanesOf, vecWritten, scaWritten, Bool.and_eq_true, decide_eq_true_eq, Bool.false_eq_true, false_and,
        exists_false, not_false_eq_true, and_true, not_exists, not_and]
      exact and_congr_right fun _ => ⟨fun h m l g => h l g.1.1 m g.1.2 g.2, fun h l g m g1 g2 => h m l ⟨⟨g, g1⟩, g2⟩⟩
    · exact ⟨v, w.sregs, b, h3⟩
  | s n =>
    by_cases h : lanes = 0
    · subst h
      exact ⟨by simp [Warp.writeLanes, vecWritten], by simp [Warp.writeLanes, scaWritten],
        by simp [Warp.writeLanes, vecWritten, scaWritten], _, _, _, rfl⟩
    · have e : w.writeLanes lanes nw (.s n) f = w.setS n (BitVec.ofNat 64 (f (leader lanes))) := if_neg h
      rw [e]
      refine ⟨by simp [Warp.setS, Warp.v, vecWritten], ?_, ?_, _, _, _, rfl⟩
      · intro m
        have hs : scaWritten (.s n) lanes m = decide (m = n) := by
          have hb : (lanes != 0) = true := bne_iff_ne.2 h
          rw [scaWritten, hb, Bool.and_true]; by_cases g : m = n <;> simp [g, Ne.symm]
        simp only [hs, decide_eq_true_eq]
        exact FMap.get_set ..
      · intro r
        have hs : ∀ m, scaWritten (.s n) lanes m = true ↔ m = n := by
          intro m
          have hb : (lanes != 0) = true := bne_iff_ne.2 h
          rw [scaWritten, hb, Bool.and_true, beq_iff_eq, eq_comm]
        simp [Warp.setS, vecWritten, hs]
  | _ => exact ⟨by simp [Warp.writeLanes, vecWritten], by simp [Warp.writeLanes, scaWritten], by simp [Warp.writeLanes, vecWritten, scaWritten], _, _, _, rfl⟩

end Sys2Proof.Machine

namespace Sys2Proof

open Sys2Proof.Machine

/-! ### What a step leaves -/

/-- A change of the issuing warp leaves everything else. -/
theorem WarpOnly.upCur (s : State) (f : Warp → Warp) : WarpOnly s (s.upCur f) where
  rest := rfl
  other _ h := State.warp_setWarp_ne _ _ h
  memory _ := rfl

theorem WarpOnly.refl (s : State) : WarpOnly s s := ⟨rfl, fun _ _ => rfl, fun _ => rfl⟩

theorem WarpOnly.cur {s t : State} (h : WarpOnly s t) : t.cur = s.cur := by rw [h.rest]

theorem WarpOnly.trans {s t u : State} (h : WarpOnly s t) (k : WarpOnly t u) : WarpOnly s u where
  rest := by rw [k.rest]; rw [h.rest]
  other w hw := by rw [k.other w (by rwa [h.cur]), h.other w hw]
  memory a := by rw [k.memory, h.memory]

/-- The executing lanes of the issue stand `n` words further. -/
theorem Advanced.advance (s : State) (n : Nat) : Advanced s (s.advance n) n := by
  intro l
  simp only [State.advance, State.curWarp_upCur, Warp.advance]
  rw [Warp.lane_mapLanes]

/-- The result and the advance that end every lane-wise instruction. -/
theorem LaneResult.of_writeRes (s : State) (nw : Nat) (d : Operand) (f : Nat → Nat) (n : Nat) :
    LaneResult s ((s.writeRes nw d f).advance n) n nw d f := by
  obtain ⟨h1, h2, h3, v, r, b, h4⟩ := writeLanes_spec s.curWarp s.cur.lanes nw d f
  have e : ((s.writeRes nw d f).advance n).curWarp = (s.curWarp.writeLanes s.cur.lanes nw d f).advance s.cur.lanes n := by
    simp [State.advance, State.writeRes]
  refine ⟨(WarpOnly.upCur _ _).trans (WarpOnly.upCur _ _), ?_, ?_, ?_⟩
  · rw [e]; exact ⟨h1, h2, h3⟩
  · intro l
    rw [e, Warp.advance, Warp.lane_mapLanes]
    have : ∀ l, (s.curWarp.writeLanes s.cur.lanes nw d f).lane l = s.curWarp.lane l := by
      intro l; unfold Warp.lane; rw [h4]
    simp only [this]
  · rw [e]; rw [h4]; rfl

/-- A lane-wise instruction without faults of its own. -/
theorem plainOp_lane {i : Instr} {s : State} (h : clear i s = true) (nw : Nat) (d : Operand) (f : State → Nat → Nat) :
    ∃ t, plainOp i s (fun s => s.writeRes nw d (f s)) = .next t ∧ LaneResult s t i.len nw d (f s) :=
  ⟨_, plainOp_clear h _, LaneResult.of_writeRes ..⟩

/-- A lane-wise instruction that passed its own checks. -/
theorem checkedOp_lane {i : Instr} {s : State} (h : clear i s = true) {g : State → Except Trap State} {nw : Nat} {d : Operand}
    {f : Nat → Nat} (hg : g s = .ok (s.writeRes nw d f)) :
    ∃ t, checkedOp i s g = .next t ∧ LaneResult s t i.len nw d f :=
  ⟨_, checkedOp_ok h hg, LaneResult.of_writeRes ..⟩

end Sys2Proof
end

