-- ==== Sys2Proof/Laws/Integer.lean ====
section
/-! SUPPORT. Laws of the integer results: what decides a lane's written bits, the bit counts as searches, the clamp of saturation,
and that an integer operation completes lane by lane. -/

namespace Sys2Proof

open Sys2Proof.Machine

/-- Results that wrap alike are written alike (R123, R124). -/
theorem ext_congr {t : IntTy} {x y : Int} (h : wrapInt t x = wrapInt t y) : extendInt t x = extendInt t y := by
  simp only [extendInt, h]
/-- An instruction that is an integer operation completes with the operation's value in each lane. -/
theorem intOp_completes {i : Instr} {op : IntOp} {t : IntTy} {sat : Bool} {d a e c : Operand} {s : State} {f : Nat → Nat}
    (hx : exec i s = intOp i op t sat d a e c s) (hr : ∀ l, f l = s.intLane op t sat a e c l) : LaneCompletes i s (intWords t) d f := by
  intro hc
  obtain ⟨t', h1, h2⟩ := plainOp_lane hc (intWords t) d (fun s => s.intLane op t sat a e c)
  exact ⟨t', hx.trans h1, funext hr ▸ h2⟩
/-- ctz finds the lowest set bit, popc counts the set bits, clz finds the highest (R215). -/
theorem ctz_eq (n p : Nat) : ctzNat n p = (List.range n).findIdx p.testBit := by
  induction n generalizing p with
  | zero => rfl
  | succ n ih =>
    rw [ctzNat, List.range_succ_eq_map, List.findIdx_cons, Nat.testBit_zero, List.findIdx_map, ih]
    by_cases h : p % 2 = 1
    · simp [h]
    · simp only [h, decide_false, cond_false, if_false]
      rw [Nat.add_comm]; congr 2
      funext k; simp [Nat.testBit_succ]
theorem popc_eq (n p : Nat) : popcNat n p = (List.range n).countP p.testBit := by
  induction n generalizing p with
  | zero => rfl
  | succ n ih =>
    rw [popcNat, List.range_succ_eq_map, List.countP_cons, Nat.testBit_zero, List.countP_map, ih]
    rw [show (p.testBit ∘ Nat.succ) = (p/2).testBit from funext fun k => by simp [Nat.testBit_succ]]
    by_cases h : p % 2 = 1
    · simp [h]; omega
    · simp [h]; omega
theorem clz_eq (n p : Nat) (hp : p < 2 ^ n) : clzNat n p = (List.range n).reverse.findIdx p.testBit := by
  induction n with
  | zero =>
    have : p = 0 := by omega
    simp [clzNat, this]
  | succ n ih =>
    rw [List.range_succ, List.reverse_append, List.reverse_singleton, List.singleton_append, List.findIdx_cons]
    by_cases h : p < 2 ^ n
    · have := Nat.testBit_lt_two_pow h
      rw [this, cond_false, ← ih h]
      unfold clzNat
      split
      · rfl
      · have : Nat.log2 p < n := (Nat.log2_lt ‹_›).2 h
        omega
    · have : p.testBit n = true := by
        by_contra hn
        rw [Bool.not_eq_true] at hn
        apply h
        apply Nat.lt_pow_two_of_testBit
        intro i hi
        rcases Nat.eq_or_lt_of_le hi with rfl | hi
        · exact hn
        · exact Nat.testBit_lt_two_pow (lt_of_lt_of_le hp (Nat.pow_le_pow_right (by decide) hi))
      rw [this, cond_true]
      have h0 : p ≠ 0 := by rintro rfl; simp at this
      have : Nat.log2 p = n := by
        apply le_antisymm
        · have := (Nat.log2_lt h0).2 hp; omega
        · exact (Nat.le_log2 h0).2 (by omega)
      simp [clzNat, h0, this]
/-- Saturation is clamping to the type's range (R124). -/
theorem clamp_eq (t : IntTy) (r : Int) (h : minInt t ≤ maxInt t) : max (minInt t) (min r (maxInt t)) = satInt t r := by
  unfold satInt; split
  · rw [min_eq_left (by omega), max_eq_left (by omega)]
  · split
    · rw [min_eq_right (by omega), max_eq_right (by omega)]
    · rw [min_eq_left (by omega), max_eq_right (by omega)]

end Sys2Proof
end

