-- ==== Sys2Proof/Laws/PerInstr.lean ====
section
/-! SUPPORT. Laws that hold of every instruction as syntax, one lemma for each constructor: a well-formed instruction fits in a
packet (R182, R193, R195). -/

namespace Sys2Proof.Laws

/-- A well-formed instruction has a word, takes one to three words, and one only behind a chain bit. -/
def Fits.Statement (i : Instr) : Prop :=
  i.wf = true → i.isWord = true ∧ 1 ≤ i.len ∧ i.len ≤ 3 ∧ (i.chain = true → i.len = 1)

theorem Fits.of_wf (i : Instr) : Fits.Statement i := by
  intro h
  simp only [Instr.wf, Instr.litsOk, Bool.and_eq_true, decide_eq_true_eq, Bool.or_eq_true, Bool.not_eq_true', beq_iff_eq] at h
  obtain ⟨⟨⟨h1, -⟩, ⟨⟨-, h2⟩, h3⟩⟩, -⟩ := h
  refine ⟨h1, by unfold Instr.len; omega, h2, fun hc => ?_⟩
  rcases h3 with h3 | h3
  · rw [h3] at hc; cases hc
  · exact h3

theorem Fits.add (d a b : Operand) : Fits.Statement (.add d a b) := of_wf _
theorem Fits.sub (d a b : Operand) : Fits.Statement (.sub d a b) := of_wf _
theorem Fits.mul (d a b : Operand) : Fits.Statement (.mul d a b) := of_wf _
theorem Fits.mulh (d a b : Operand) : Fits.Statement (.mulh d a b) := of_wf _
theorem Fits.mad (d a b : Operand) : Fits.Statement (.mad d a b) := of_wf _
theorem Fits.div (d a b : Operand) : Fits.Statement (.div d a b) := of_wf _
theorem Fits.rem (d a b : Operand) : Fits.Statement (.rem d a b) := of_wf _
theorem Fits.min (d a b : Operand) : Fits.Statement (.min d a b) := of_wf _
theorem Fits.max (d a b : Operand) : Fits.Statement (.max d a b) := of_wf _
theorem Fits.and (d a b : Operand) : Fits.Statement (.and d a b) := of_wf _
theorem Fits.or (d a b : Operand) : Fits.Statement (.or d a b) := of_wf _
theorem Fits.xor (d a b : Operand) : Fits.Statement (.xor d a b) := of_wf _
theorem Fits.not (d a : Operand) : Fits.Statement (.not d a) := of_wf _
theorem Fits.shl (d a b : Operand) : Fits.Statement (.shl d a b) := of_wf _
theorem Fits.shr (d a b : Operand) : Fits.Statement (.shr d a b) := of_wf _
theorem Fits.sar (d a b : Operand) : Fits.Statement (.sar d a b) := of_wf _
theorem Fits.rot (d a b : Operand) : Fits.Statement (.rot d a b) := of_wf _
theorem Fits.shlImm (d a : Operand) (n : Nat) : Fits.Statement (.shlImm d a n) := of_wf _
theorem Fits.shrImm (d a : Operand) (n : Nat) : Fits.Statement (.shrImm d a n) := of_wf _
theorem Fits.sarImm (d a : Operand) (n : Nat) : Fits.Statement (.sarImm d a n) := of_wf _
theorem Fits.rotImm (d a : Operand) (n : Nat) : Fits.Statement (.rotImm d a n) := of_wf _
theorem Fits.clz (d a : Operand) : Fits.Statement (.clz d a) := of_wf _
theorem Fits.ctz (d a : Operand) : Fits.Statement (.ctz d a) := of_wf _
theorem Fits.popc (d a : Operand) : Fits.Statement (.popc d a) := of_wf _
theorem Fits.bfx (d a b : Operand) : Fits.Statement (.bfx d a b) := of_wf _
theorem Fits.bfi (d a b : Operand) : Fits.Statement (.bfi d a b) := of_wf _
theorem Fits.addImm (d a : Operand) (n : Nat) : Fits.Statement (.addImm d a n) := of_wf _
theorem Fits.movi (d : Operand) (n : Nat) : Fits.Statement (.movi d n) := of_wf _
theorem Fits.sel (t : Option Ty) (d c a b : Operand) : Fits.Statement (.sel t d c a b) := of_wf _
theorem Fits.cmp (cc : Cond) (t : IntTy) (d a b : Operand) : Fits.Statement (.cmp cc t d a b) := of_wf _
theorem Fits.lea (t : IntTy) (sh : Nat) (d a b c : Operand) : Fits.Statement (.lea t sh d a b c) := of_wf _
theorem Fits.intTyped (op : IntOp) (t : IntTy) (sat : Bool) (d a b c : Operand) : Fits.Statement (.intTyped op t sat d a b c) := of_wf _
theorem Fits.faddF32 (ch : Bool) (d a b : Operand) : Fits.Statement (.faddF32 ch d a b) := of_wf _
theorem Fits.faddF16 (ch : Bool) (d a b : Operand) : Fits.Statement (.faddF16 ch d a b) := of_wf _
theorem Fits.faddBf16 (ch : Bool) (d a b : Operand) : Fits.Statement (.faddBf16 ch d a b) := of_wf _
theorem Fits.fsubF32 (ch : Bool) (d a b : Operand) : Fits.Statement (.fsubF32 ch d a b) := of_wf _
theorem Fits.fsubF16 (ch : Bool) (d a b : Operand) : Fits.Statement (.fsubF16 ch d a b) := of_wf _
theorem Fits.fsubBf16 (ch : Bool) (d a b : Operand) : Fits.Statement (.fsubBf16 ch d a b) := of_wf _
theorem Fits.fmulF32 (ch : Bool) (d a b : Operand) : Fits.Statement (.fmulF32 ch d a b) := of_wf _
theorem Fits.fmulF16 (ch : Bool) (d a b : Operand) : Fits.Statement (.fmulF16 ch d a b) := of_wf _
theorem Fits.fmulBf16 (ch : Bool) (d a b : Operand) : Fits.Statement (.fmulBf16 ch d a b) := of_wf _
theorem Fits.ffmaF32 (ch : Bool) (d a b : Operand) : Fits.Statement (.ffmaF32 ch d a b) := of_wf _
theorem Fits.ffmaF16 (ch : Bool) (d a b : Operand) : Fits.Statement (.ffmaF16 ch d a b) := of_wf _
theorem Fits.ffmaBf16 (ch : Bool) (d a b : Operand) : Fits.Statement (.ffmaBf16 ch d a b) := of_wf _
theorem Fits.fmaxF32 (ch : Bool) (d a b : Operand) : Fits.Statement (.fmaxF32 ch d a b) := of_wf _
theorem Fits.fmaxF16 (ch : Bool) (d a b : Operand) : Fits.Statement (.fmaxF16 ch d a b) := of_wf _
theorem Fits.fmaxBf16 (ch : Bool) (d a b : Operand) : Fits.Statement (.fmaxBf16 ch d a b) := of_wf _
theorem Fits.fminF32 (ch : Bool) (d a b : Operand) : Fits.Statement (.fminF32 ch d a b) := of_wf _
theorem Fits.fminF16 (ch : Bool) (d a b : Operand) : Fits.Statement (.fminF16 ch d a b) := of_wf _
theorem Fits.fminBf16 (ch : Bool) (d a b : Operand) : Fits.Statement (.fminBf16 ch d a b) := of_wf _
theorem Fits.fgateF32 (ch : Bool) (d a b : Operand) : Fits.Statement (.fgateF32 ch d a b) := of_wf _
theorem Fits.fgateF16 (ch : Bool) (d a b : Operand) : Fits.Statement (.fgateF16 ch d a b) := of_wf _
theorem Fits.fgateBf16 (ch : Bool) (d a b : Operand) : Fits.Statement (.fgateBf16 ch d a b) := of_wf _
theorem Fits.fclampF32 (ch : Bool) (d a b : Operand) : Fits.Statement (.fclampF32 ch d a b) := of_wf _
theorem Fits.fclampF16 (ch : Bool) (d a b : Operand) : Fits.Statement (.fclampF16 ch d a b) := of_wf _
theorem Fits.fclampBf16 (ch : Bool) (d a b : Operand) : Fits.Statement (.fclampBf16 ch d a b) := of_wf _
theorem Fits.fdivF32 (ch : Bool) (d a b : Operand) : Fits.Statement (.fdivF32 ch d a b) := of_wf _
theorem Fits.fsqrt (ch : Bool) (t : FTy) (d a : Operand) : Fits.Statement (.fsqrt ch t d a) := of_wf _
theorem Fits.frsq (ch : Bool) (t : FTy) (d a : Operand) : Fits.Statement (.frsq ch t d a) := of_wf _
theorem Fits.frcp (ch : Bool) (t : FTy) (d a : Operand) : Fits.Statement (.frcp ch t d a) := of_wf _
theorem Fits.fexp2 (ch : Bool) (t : FTy) (d a : Operand) : Fits.Statement (.fexp2 ch t d a) := of_wf _
theorem Fits.flog2 (ch : Bool) (t : FTy) (d a : Operand) : Fits.Statement (.flog2 ch t d a) := of_wf _
theorem Fits.fround (ch : Bool) (t : FTy) (d a : Operand) : Fits.Statement (.fround ch t d a) := of_wf _
theorem Fits.fcvt (ch : Bool) (dt st : Ty) (d a : Operand) : Fits.Statement (.fcvt ch dt st d a) := of_wf _
theorem Fits.fscaleF32 (ch : Bool) (d a b : Operand) : Fits.Statement (.fscaleF32 ch d a b) := of_wf _
theorem Fits.fcmp (cc : FCond) (t : FTy) (d a b : Operand) : Fits.Statement (.fcmp cc t d a b) := of_wf _
theorem Fits.fquant (dt : F8Ty) (st : FTy) (d a : Operand) : Fits.Statement (.fquant dt st d a) := of_wf _
theorem Fits.fdequant (dt : FTy) (st : F8Ty) (m : RMod) (d a : Operand) : Fits.Statement (.fdequant dt st m d a) := of_wf _
theorem Fits.floatTyped (f : FTyped) (m : RMod) (d a b c : Operand) : Fits.Statement (.floatTyped f m d a b c) := of_wf _
theorem Fits.flumeWriteback (w port : Nat) : Fits.Statement (.flumeWriteback w port) := of_wf _
theorem Fits.vshfl (d a b : Operand) : Fits.Statement (.vshfl d a b) := of_wf _
theorem Fits.vbcast (d a : Operand) (l : Nat) : Fits.Statement (.vbcast d a l) := of_wf _
theorem Fits.vvote (kind : VoteKind) (d a : Operand) : Fits.Statement (.vvote kind d a) := of_wf _
theorem Fits.vshflMasked (d a b m : Operand) : Fits.Statement (.vshflMasked d a b m) := of_wf _
theorem Fits.vbcastMasked (d a : Operand) (l : Nat) (m : Operand) : Fits.Statement (.vbcastMasked d a l m) := of_wf _
theorem Fits.vvoteMasked (kind : VoteKind) (d a m : Operand) : Fits.Statement (.vvoteMasked kind d a m) := of_wf _
theorem Fits.vred (op : RedOp) (t : RedTy) (sat : Bool) (rm : RMod) (d a m : Operand) : Fits.Statement (.vred op t sat rm d a m) := of_wf _
theorem Fits.vscan (op : RedOp) (t : RedTy) (excl sat : Bool) (rm : RMod) (d a m : Operand) : Fits.Statement (.vscan op t excl sat rm d a m) := of_wf _
theorem Fits.mjoin (k : Nat) : Fits.Statement (.mjoin k) := of_wf _
theorem Fits.mleave (k : Nat) : Fits.Statement (.mleave k) := of_wf _
theorem Fits.mwait (k : Nat) : Fits.Statement (.mwait k) := of_wf _
theorem Fits.mwaitt (d a : Operand) (k : Nat) : Fits.Statement (.mwaitt d a k) := of_wf _
theorem Fits.mwaittDeadline (w lane : Nat) : Fits.Statement (.mwaittDeadline w lane) := of_wf _
theorem Fits.bra (off : Nat) : Fits.Statement (.bra off) := of_wf _
theorem Fits.brc (c : Operand) (off : Nat) : Fits.Statement (.brc c off) := of_wf _
theorem Fits.brcZ (c : Operand) (off : Nat) : Fits.Statement (.brcZ c off) := of_wf _
theorem Fits.call (c : Operand) (off : Nat) : Fits.Statement (.call c off) := of_wf _
theorem Fits.ret (a : Operand) : Fits.Statement (.ret a) := of_wf _
theorem Fits.exit : Fits.Statement .exit := of_wf _
theorem Fits.reform (a : Operand) (k : Nat) : Fits.Statement (.reform a k) := of_wf _
theorem Fits.reformageExpiry (core bin : Nat) : Fits.Statement (.reformageExpiry core bin) := of_wf _
theorem Fits.binBuildOnFreeSlot (core bin : Nat) : Fits.Statement (.binBuildOnFreeSlot core bin) := of_wf _
theorem Fits.stagenext (d : Operand) : Fits.Statement (.stagenext d) := of_wf _
theorem Fits.qput (d a b : Operand) : Fits.Statement (.qput d a b) := of_wf _
theorem Fits.qtake (d b : Operand) : Fits.Statement (.qtake d b) := of_wf _
theorem Fits.bar (a : Operand) (id : Nat) : Fits.Statement (.bar a id) := of_wf _
theorem Fits.barArrive (a : Operand) (id : Nat) : Fits.Statement (.barArrive a id) := of_wf _
theorem Fits.barGang (a : Operand) (id : Nat) : Fits.Statement (.barGang a id) := of_wf _
theorem Fits.barGangArrive (a : Operand) (id : Nat) : Fits.Statement (.barGangArrive a id) := of_wf _
theorem Fits.yieldOp : Fits.Statement .yieldOp := of_wf _
theorem Fits.sleep (a : Operand) : Fits.Statement (.sleep a) := of_wf _
theorem Fits.sleepExpiry (w lane : Nat) : Fits.Statement (.sleepExpiry w lane) := of_wf _
theorem Fits.nop : Fits.Statement .nop := of_wf _
theorem Fits.ldG (w : Width) (ord : Order) (sc : Scope) (d a : Operand) : Fits.Statement (.ldG w ord sc d a) := of_wf _
theorem Fits.ldX (w : Width) (ord : Order) (sc : Scope) (d a : Operand) : Fits.Statement (.ldX w ord sc d a) := of_wf _
theorem Fits.stG (w : Width) (ord : Order) (sc : Scope) (d a : Operand) : Fits.Statement (.stG w ord sc d a) := of_wf _
theorem Fits.stX (w : Width) (ord : Order) (sc : Scope) (d a : Operand) : Fits.Statement (.stX w ord sc d a) := of_wf _
theorem Fits.prf (w : Width) (a : Operand) : Fits.Statement (.prf w a) := of_wf _
theorem Fits.ldOffset (x : Bool) (w : Width) (ord : Order) (sc : Scope) (d a b : Operand) : Fits.Statement (.ldOffset x w ord sc d a b) := of_wf _
theorem Fits.stOffset (x : Bool) (w : Width) (ord : Order) (sc : Scope) (d a b : Operand) : Fits.Statement (.stOffset x w ord sc d a b) := of_wf _
theorem Fits.atomG (op : AtomOp) (t : AtomTy) (ord : Order) (sc : Scope) (d a b c : Operand) : Fits.Statement (.atomG op t ord sc d a b c) := of_wf _
theorem Fits.atomX (op : AtomOp) (t : AtomTy) (ord : Order) (sc : Scope) (d a b c : Operand) : Fits.Statement (.atomX op t ord sc d a b c) := of_wf _
theorem Fits.fence (sc : Scope) : Fits.Statement (.fence sc) := of_wf _
theorem Fits.ldt (try_ : Bool) (w : Width) (d a : Operand) : Fits.Statement (.ldt try_ w d a) := of_wf _
theorem Fits.ldtBlock (try_ : Bool) (d a b : Operand) : Fits.Statement (.ldtBlock try_ d a b) := of_wf _
theorem Fits.redeem (try_ : Bool) (d a c : Operand) : Fits.Statement (.redeem try_ d a c) := of_wf _
theorem Fits.redeemX (try_ : Bool) (a b c : Operand) : Fits.Statement (.redeemX try_ a b c) := of_wf _
theorem Fits.tkdrop (d a : Operand) : Fits.Statement (.tkdrop d a) := of_wf _
theorem Fits.tkstat (d a : Operand) : Fits.Statement (.tkstat d a) := of_wf _
theorem Fits.ticketReady (table entry : Nat) : Fits.Statement (.ticketReady table entry) := of_wf _
theorem Fits.ticketDeadline (table entry : Nat) : Fits.Statement (.ticketDeadline table entry) := of_wf _
theorem Fits.lalloc (d a b c : Operand) : Fits.Statement (.lalloc d a b c) := of_wf _
theorem Fits.lfree (d a : Operand) : Fits.Statement (.lfree d a) := of_wf _
theorem Fits.lquota (d a : Operand) : Fits.Statement (.lquota d a) := of_wf _
theorem Fits.memoryResponse (req : Nat) : Fits.Statement (.memoryResponse req) := of_wf _
theorem Fits.remoteStoreAck (req : Nat) : Fits.Statement (.remoteStoreAck req) := of_wf _
theorem Fits.remoteStoreTimeout (req : Nat) (performed : Bool) : Fits.Statement (.remoteStoreTimeout req performed) := of_wf _
theorem Fits.fabricTimeout (req : Nat) (performed : Bool) : Fits.Statement (.fabricTimeout req performed) := of_wf _
theorem Fits.cpyLd (t : CpyTy) (q : Nat) (m : CpyMod) (arr : Bool) (d a b c : Operand) : Fits.Statement (.cpyLd t q m arr d a b c) := of_wf _
theorem Fits.cpySt (addF : Bool) (q : Nat) (m : CpyMod) (arr : Bool) (d a b c : Operand) : Fits.Statement (.cpySt addF q m arr d a b c) := of_wf _
theorem Fits.copyPerform (core q : Nat) : Fits.Statement (.copyPerform core q) := of_wf _
theorem Fits.bulk (xs xd arr held : Bool) (d a : Operand) : Fits.Statement (.bulk xs xd arr held d a) := of_wf _
theorem Fits.bulkPerform (core : Nat) : Fits.Statement (.bulkPerform core) := of_wf _
theorem Fits.bulkPieceArrival (handle : DWord) (xd : Option Nat) (bytes : List Byte) (count : Nat) : Fits.Statement (.bulkPieceArrival handle xd bytes count) := of_wf _
theorem Fits.arminit (d a b : Operand) : Fits.Statement (.arminit d a b) := of_wf _
theorem Fits.arrive (a b : Operand) : Fits.Statement (.arrive a b) := of_wf _
theorem Fits.await (d a : Operand) : Fits.Statement (.await d a) := of_wf _
theorem Fits.qfence (q : Nat) : Fits.Statement (.qfence q) := of_wf _
theorem Fits.tagset (d a b : Operand) : Fits.Statement (.tagset d a b) := of_wf _
theorem Fits.mload (f : MLoad) (a b : Operand) : Fits.Statement (.mload f a b) := of_wf _
theorem Fits.mswap : Fits.Statement .mswap := of_wf _
theorem Fits.mmul (m : Nat) (zero : Bool) (t : MTy) (j : Nat) (a : Operand) : Fits.Statement (.mmul m zero t j a) := of_wf _
theorem Fits.mdrain (f : MDrain) (j : Nat) (d a b : Operand) : Fits.Statement (.mdrain f j d a b) := of_wf _
theorem Fits.mtask (d a : Operand) : Fits.Statement (.mtask d a) := of_wf _
theorem Fits.deckTaskStart (core idx : Nat) : Fits.Statement (.deckTaskStart core idx) := of_wf _
theorem Fits.deckTaskComplete (core idx : Nat) : Fits.Statement (.deckTaskComplete core idx) := of_wf _
theorem Fits.ctload (x : Bool) (slot : Nat) (d a : Operand) : Fits.Statement (.ctload x slot d a) := of_wf _
theorem Fits.ctsave (x : Bool) (slot : Nat) (d a : Operand) : Fits.Statement (.ctsave x slot d a) := of_wf _
theorem Fits.encoderTableOp (core : Nat) : Fits.Statement (.encoderTableOp core) := of_wf _
theorem Fits.kvput (t : FTy) (d a b c : Operand) : Fits.Statement (.kvput t d a b c) := of_wf _
theorem Fits.blockUpdate (core : Nat) : Fits.Statement (.blockUpdate core) := of_wf _
theorem Fits.bin (x : Bool) (d a b c : Operand) : Fits.Statement (.bin x d a b c) := of_wf _
theorem Fits.binPerform (core : Nat) : Fits.Statement (.binPerform core) := of_wf _
theorem Fits.spawn (held : Bool) (d a b : Operand) : Fits.Statement (.spawn held d a b) := of_wf _
theorem Fits.cancel (d a : Operand) : Fits.Statement (.cancel d a) := of_wf _
theorem Fits.trap (code : Nat) : Fits.Statement (.trap code) := of_wf _
theorem Fits.trapret : Fits.Statement .trapret := of_wf _
theorem Fits.trapsupply (a : Operand) : Fits.Statement (.trapsupply a) := of_wf _
theorem Fits.csrr (d : Operand) (r : Nat) : Fits.Statement (.csrr d r) := of_wf _
theorem Fits.csrw (src : Operand) (r : Nat) : Fits.Statement (.csrw src r) := of_wf _
theorem Fits.csrContextCommit (w : Nat) : Fits.Statement (.csrContextCommit w) := of_wf _
theorem Fits.flsave (a : Operand) (port : Nat) : Fits.Statement (.flsave a port) := of_wf _
theorem Fits.flrestore (a : Operand) (port : Nat) : Fits.Statement (.flrestore a port) := of_wf _
theorem Fits.brk (code : Nat) : Fits.Statement (.brk code) := of_wf _
theorem Fits.halt : Fits.Statement .halt := of_wf _
theorem Fits.contextSave (crew : Nat) : Fits.Statement (.contextSave crew) := of_wf _
theorem Fits.levelAging (launch : Nat) : Fits.Statement (.levelAging launch) := of_wf _
theorem Fits.drainReservation (launch : Nat) : Fits.Statement (.drainReservation launch) := of_wf _
theorem Fits.crewComplete (crew : Nat) : Fits.Statement (.crewComplete crew) := of_wf _
theorem Fits.stallHint (landing peer : Nat) : Fits.Statement (.stallHint landing peer) := of_wf _
theorem Fits.stallHintWithdraw (landing peer : Nat) : Fits.Statement (.stallHintWithdraw landing peer) := of_wf _
theorem Fits.hintReturnTimeout (crew : Nat) : Fits.Statement (.hintReturnTimeout crew) := of_wf _
theorem Fits.pageWalk (core idx : Nat) : Fits.Statement (.pageWalk core idx) := of_wf _
theorem Fits.heldFaultTimeout (number : Nat) : Fits.Statement (.heldFaultTimeout number) := of_wf _
theorem Fits.invalidationComplete (id : Nat) : Fits.Statement (.invalidationComplete id) := of_wf _
theorem Fits.backgroundPullSlot (channel : Nat) : Fits.Statement (.backgroundPullSlot channel) := of_wf _
theorem Fits.refreshSlot (channel : Nat) : Fits.Statement (.refreshSlot channel) := of_wf _
theorem Fits.scrubSlot (channel : Nat) : Fits.Statement (.scrubSlot channel) := of_wf _
theorem Fits.remapReload (channel : Nat) : Fits.Statement (.remapReload channel) := of_wf _
theorem Fits.remoteRequest (sender pa : Nat) (req : RemoteReq) : Fits.Statement (.remoteRequest sender pa req) := of_wf _
theorem Fits.requestDeadlineExpiry (req : Nat) : Fits.Statement (.requestDeadlineExpiry req) := of_wf _
theorem Fits.linkUp (port module_ : Nat) : Fits.Statement (.linkUp port module_) := of_wf _
theorem Fits.linkDown (port : Nat) : Fits.Statement (.linkDown port) := of_wf _
theorem Fits.landingLost (port : Nat) : Fits.Statement (.landingLost port) := of_wf _
theorem Fits.landingFailureReport (port : Nat) : Fits.Statement (.landingFailureReport port) := of_wf _
theorem Fits.extentAdd (landing offset length : Nat) : Fits.Statement (.extentAdd landing offset length) := of_wf _
theorem Fits.extentRelease (landing offset length : Nat) : Fits.Statement (.extentRelease landing offset length) := of_wf _
theorem Fits.extentForcedRelease (landing offset length : Nat) : Fits.Statement (.extentForcedRelease landing offset length) := of_wf _
theorem Fits.rdmaWrite (qp rkey addr : Nat) (bytes : List Byte) : Fits.Statement (.rdmaWrite qp rkey addr bytes) := of_wf _
theorem Fits.rdmaRead (qp rkey addr n : Nat) : Fits.Statement (.rdmaRead qp rkey addr n) := of_wf _
theorem Fits.unsupportedFrame (roce : Bool) (qp : Nat) : Fits.Statement (.unsupportedFrame roce qp) := of_wf _
theorem Fits.eventDelivery (qp : Nat) : Fits.Statement (.eventDelivery qp) := of_wf _
theorem Fits.ctxCreate (hdr : Hdr) (root stack save savesize : Nat) : Fits.Statement (.ctxCreate hdr root stack save savesize) := of_wf _
theorem Fits.ctxDestroy (hdr : Hdr) : Fits.Statement (.ctxDestroy hdr) := of_wf _
theorem Fits.ctxQuota (hdr : Hdr) (landing bytes : Nat) : Fits.Statement (.ctxQuota hdr landing bytes) := of_wf _
theorem Fits.jobSubmit (hdr : Hdr) (job : Nat) : Fits.Statement (.jobSubmit hdr job) := of_wf _
theorem Fits.unitCancel (hdr : Hdr) (handle : DWord) : Fits.Statement (.unitCancel hdr handle) := of_wf _
theorem Fits.winReg (hdr : Hdr) (va length access : Nat) : Fits.Statement (.winReg hdr va length access) := of_wf _
theorem Fits.winDereg (hdr : Hdr) (rkey : Nat) : Fits.Statement (.winDereg hdr rkey) := of_wf _
theorem Fits.tlbInval (hdr : Hdr) (va length : Nat) : Fits.Statement (.tlbInval hdr va length) := of_wf _
theorem Fits.faultResolve (hdr : Hdr) (number answer : Nat) : Fits.Statement (.faultResolve hdr number answer) := of_wf _
theorem Fits.migrateArm (hdr : Hdr) (size old new : Nat) : Fits.Statement (.migrateArm hdr size old new) := of_wf _
theorem Fits.migrateStart (hdr : Hdr) (slot : Nat) : Fits.Statement (.migrateStart hdr slot) := of_wf _
theorem Fits.migrateAbort (hdr : Hdr) (slot : Nat) : Fits.Statement (.migrateAbort hdr slot) := of_wf _
theorem Fits.migrateRelease (hdr : Hdr) (slot : Nat) : Fits.Statement (.migrateRelease hdr slot) := of_wf _
theorem Fits.indexAudit (hdr : Hdr) (handle : Nat) : Fits.Statement (.indexAudit hdr handle) := of_wf _
theorem Fits.poolAlloc (hdr : Hdr) (size : Nat) (attr : Word) : Fits.Statement (.poolAlloc hdr size attr) := of_wf _
theorem Fits.poolGrant (hdr : Hdr) (va length target access tmod omod : Nat) : Fits.Statement (.poolGrant hdr va length target access tmod omod) := of_wf _
theorem Fits.poolRevoke (hdr : Hdr) (va length target tmod omod : Nat) : Fits.Statement (.poolRevoke hdr va length target tmod omod) := of_wf _
theorem Fits.debugRead (hdr : Hdr) (cls lane crew warp number : Nat) : Fits.Statement (.debugRead hdr cls lane crew warp number) := of_wf _
theorem Fits.debugWrite (hdr : Hdr) (cls lane crew warp number : Nat) (value : DWord) : Fits.Statement (.debugWrite hdr cls lane crew warp number value) := of_wf _
theorem Fits.debugResume (hdr : Hdr) (crew warp : Nat) : Fits.Statement (.debugResume hdr crew warp) := of_wf _
theorem Fits.linkDrain (hdr : Hdr) (port : Nat) : Fits.Statement (.linkDrain hdr port) := of_wf _
theorem Fits.linkRetrain (hdr : Hdr) (port : Nat) : Fits.Statement (.linkRetrain hdr port) := of_wf _
theorem Fits.linkRestore (hdr : Hdr) (port : Nat) : Fits.Statement (.linkRestore hdr port) := of_wf _
theorem Fits.idGet (hdr : Hdr) : Fits.Statement (.idGet hdr) := of_wf _
theorem Fits.sessionChallenge (hdr : Hdr) : Fits.Statement (.sessionChallenge hdr) := of_wf _
theorem Fits.nonceExpiry (qp : Nat) : Fits.Statement (.nonceExpiry qp) := of_wf _
theorem Fits.sessionOpen (hdr : Hdr) (operator : Nat) (rights : Word) (endorsement proof : Nat) : Fits.Statement (.sessionOpen hdr operator rights endorsement proof) := of_wf _
theorem Fits.sessionClose (hdr : Hdr) : Fits.Statement (.sessionClose hdr) := of_wf _
theorem Fits.quote (hdr : Hdr) (nonce : Nat) : Fits.Statement (.quote hdr nonce) := of_wf _
theorem Fits.ownerSet (hdr : Hdr) (key : Nat) : Fits.Statement (.ownerSet hdr key) := of_wf _
theorem Fits.configApply (hdr : Hdr) (blob : List Byte) : Fits.Statement (.configApply hdr blob) := of_wf _
theorem Fits.resetWarm (hdr : Hdr) (retain : Bool) : Fits.Statement (.resetWarm hdr retain) := of_wf _
theorem Fits.resetCold (hdr : Hdr) : Fits.Statement (.resetCold hdr) := of_wf _
theorem Fits.health (hdr : Hdr) : Fits.Statement (.health hdr) := of_wf _
theorem Fits.counterSet (hdr : Hdr) (cls unit counter : Nat) (select : Word) (count : DWord) : Fits.Statement (.counterSet hdr cls unit counter select count) := of_wf _
theorem Fits.counterRead (hdr : Hdr) (cls unit : Nat) : Fits.Statement (.counterRead hdr cls unit) := of_wf _
theorem Fits.coreOffline (hdr : Hdr) (core : Nat) : Fits.Statement (.coreOffline hdr core) := of_wf _
theorem Fits.coreOnline (hdr : Hdr) (core : Nat) : Fits.Statement (.coreOnline hdr core) := of_wf _
theorem Fits.coreReset (hdr : Hdr) (core : Nat) : Fits.Statement (.coreReset hdr core) := of_wf _
theorem Fits.pinSet (hdr : Hdr) (cls unit frames : Nat) : Fits.Statement (.pinSet hdr cls unit frames) := of_wf _
theorem Fits.channelRetrain (hdr : Hdr) (stack channel : Nat) (passed : Bool) : Fits.Statement (.channelRetrain hdr stack channel passed) := of_wf _
theorem Fits.repair (hdr : Hdr) (stack channel bank row : Nat) : Fits.Statement (.repair hdr stack channel bank row) := of_wf _
theorem Fits.logRead (hdr : Hdr) (kind from_ : Nat) : Fits.Statement (.logRead hdr kind from_) := of_wf _
theorem Fits.powerSample (temps : List Int) (coolant : Int) (power : Nat) : Fits.Statement (.powerSample temps coolant power) := of_wf _
theorem Fits.unknownOpcode (hdr : Hdr) (opcode : Nat) (badHeader : Bool) : Fits.Statement (.unknownOpcode hdr opcode badHeader) := of_wf _
theorem Fits.sendOnNonManagementQp (qp : Nat) : Fits.Statement (.sendOnNonManagementQp qp) := of_wf _
theorem Fits.landingPoolResponse (req : Nat) (answer : PoolAnswer) : Fits.Statement (.landingPoolResponse req answer) := of_wf _
theorem Fits.retiredTagReuse (port tag : Nat) : Fits.Statement (.retiredTagReuse port tag) := of_wf _
theorem Fits.priorityFlowControlFrame (prio : Nat) (pause : Bool) : Fits.Statement (.priorityFlowControlFrame prio pause) := of_wf _
theorem Fits.congestionNotificationPacket (qp : Nat) : Fits.Statement (.congestionNotificationPacket qp) := of_wf _
theorem Fits.placementPass : Fits.Statement .placementPass := of_wf _
theorem Fits.deadlockWalk : Fits.Statement .deadlockWalk := of_wf _
theorem Fits.powerOn : Fits.Statement .powerOn := of_wf _
theorem Fits.throttleStep : Fits.Statement .throttleStep := of_wf _
theorem Fits.throttleExit : Fits.Statement .throttleExit := of_wf _
theorem Fits.thermalShutdown : Fits.Statement .thermalShutdown := of_wf _
theorem Fits.illegalInstruction : Fits.Statement .illegalInstruction := of_wf _
theorem Fits.powerRemoved : Fits.Statement .powerRemoved := of_wf _

end Sys2Proof.Laws
end

