-- ==== Sys2Proof/Laws/Waits.lean ====
section
/-! SUPPORT. Laws of waiting: what blocking lanes leaves, and what taking lanes out of waits, releasing them, or letting them issue
again does (R49). -/

namespace Sys2Proof.Machine

open Sys2Proof

/-- Blocking adds one wait of the issuing lanes and changes nothing else. -/
theorem State.block_spec (s : State) (len : Nat) (x : Wait) :
    WarpOnly s (s.block len x)
      ∧ (s.block len x).curWarp = { s.curWarp with waits := s.curWarp.waits ++ [⟨s.cur.lanes, s.cur.pc, len, s.cur.port, x⟩] } :=
  ⟨WarpOnly.upCur s _, by simp [State.block]⟩

/-- Lanes in no wait are taken out of none. -/
theorem Warp.unwait_disjoint (w : Warp) (m : LaneSet) (h : ∀ r ∈ w.waits, r.lanes &&& m = 0 ∧ r.lanes ≠ 0) : w.unwait m = w := by
  have key : ∀ ws : List WaitRec, (∀ r ∈ ws, r.lanes &&& m = 0 ∧ r.lanes ≠ 0) →
      (ws.map fun r => { r with lanes := r.lanes &&& ~~~m }).filter (fun r => r.lanes != 0) = ws := by
    intro ws hw
    induction ws with
    | nil => rfl
    | cons r t ih =>
      obtain ⟨h1, h2⟩ := hw r (List.mem_cons_self ..)
      have e : r.lanes &&& ~~~m = r.lanes := by
        apply BitVec.eq_of_getLsbD_eq
        intro i hi
        have := congrArg (fun b : LaneSet => b.getLsbD i) h1
        simp only [BitVec.getLsbD_and, BitVec.getLsbD_not, hi, decide_true, Bool.true_and] at this ⊢
        cases ha : r.lanes.getLsbD i <;> simp_all
      have hr : ({ r with lanes := r.lanes &&& ~~~m } : WaitRec) = r := by rw [e]
      rw [List.map_cons, hr, List.filter_cons, if_pos (by simpa using h2), ih fun q hq => hw q (List.mem_cons_of_mem _ hq)]
  show { w with waits := _ } = w
  rw [key w.waits h]

/-- The only wait, all of its lanes taken out: none is left. -/
theorem Warp.unwait_single (w : Warp) (r : WaitRec) (h : w.waits = [r]) : w.unwait r.lanes = { w with waits := [] } := by
  have : r.lanes &&& ~~~r.lanes = 0 := by simp
  simp [Warp.unwait, h]

/-- Taking lanes out of waits changes the waits alone. -/
theorem Warp.unwait_rest (w : Warp) (m : LaneSet) : w.unwait m = { w with waits := (w.unwait m).waits } := rfl

/-- Released lanes stand past the instruction, eligible in the next cycle; the others stay. -/
theorem Warp.lane_release (w : Warp) (cycle : Nat) (r : WaitRec) (m : LaneSet) (l : Nat) :
    (w.release cycle r m).lane l =
      if m.getLsbD l then { w.lane l with pc := r.pc + BitVec.ofNat 64 r.len, readyAt := cycle + 1 } else w.lane l := by
  rw [Warp.release, Warp.lane_mapLanes]; rfl

/-- Lanes that issue again are eligible in the next cycle where they stand. -/
theorem Warp.lane_retry (w : Warp) (cycle : Nat) (m : LaneSet) (l : Nat) :
    (w.retry cycle m).lane l = if m.getLsbD l then { w.lane l with readyAt := cycle + 1 } else w.lane l := by
  rw [Warp.retry, Warp.lane_mapLanes]; rfl

/-- Releasing changes waits and lanes alone. -/
theorem Warp.release_rest (w : Warp) (cycle : Nat) (r : WaitRec) (m : LaneSet) :
    w.release cycle r m = { w with waits := (w.unwait m).waits, lanes := (w.release cycle r m).lanes } := by
  simp only [Warp.release, Warp.mapLanes]; rfl
theorem Warp.retry_rest (w : Warp) (cycle : Nat) (m : LaneSet) :
    w.retry cycle m = { w with waits := (w.unwait m).waits, lanes := (w.retry cycle m).lanes } := by
  simp only [Warp.retry, Warp.mapLanes]; rfl

end Sys2Proof.Machine
end

