-- ==== Sys2Proof/Tests/Slice0.lean ====
section
/-! SUPPORT. Tests: ill-formed instructions refused, words of the spec decoded, single steps with results worked out from the
spec, and for every obligation with hypotheses a state and operands that meet them. -/

namespace Sys2Proof.Tests

open Sys2Proof Sys2Proof.Machine

-- One theorem at a time: each kernel evaluation waits for those before it.
set_option Elab.async false

/-! ### What no word encodes (R182, R187, R191 to R195, and each instruction's own ranges) -/

theorem test_wf_plain : (Instr.add (.v 191) (.s 47) (.k 7)).wf = true := by decide
theorem test_wf_register_number : (Instr.add (.v 192) (.v 0) (.v 0)).wf = false := by decide
theorem test_wf_high_scalar_needs_fx : (Instr.add (.v 0) (.s 48) (.v 0)).wf = false := by decide
theorem test_wf_high_scalar_address : (Instr.ldG .w32 .none .device (.v 0) (.s 63)).wf = true := by decide
theorem test_wf_odd_pair : (Instr.intTyped .add .i64 false (.v 11) (.v 12) (.v 14) .z).wf = false := by decide
theorem test_wf_quad : (Instr.ldG .w128 .none .device (.v 2) (.s 0)).wf = false := by decide
theorem test_wf_literal_destination : (Instr.add (.lit32 0) (.v 0) (.v 0)).wf = false := by decide
theorem test_wf_two_literals : (Instr.add (.v 0) (.lit32 1) (.lit32 1)).wf = false := by decide
theorem test_wf_too_long : (Instr.intTyped .add .i64 false (.v 10) (.lit64 1) (.v 14) .z).wf = false := by decide
theorem test_wf_chained_literal : (Instr.faddF32 true .z (.v 0) (.lit32 1)).wf = false := by decide
theorem test_wf_unused_operand : (Instr.intTyped .not .i32 false (.v 1) (.v 2) (.v 3) .z).wf = false := by decide
theorem test_wf_shift_amount : (Instr.shlImm (.v 0) (.v 1) 32).wf = false := by decide
theorem test_wf_immediate : (Instr.addImm (.v 0) (.v 1) 256).wf = false := by decide
theorem test_wf_movi : (Instr.movi (.v 0) 65536).wf = false := by decide
theorem test_wf_typed_amount : (Instr.intTyped (.shlImm 16) .i16 false (.v 0) (.v 1) .z .z).wf = false := by decide
theorem test_wf_sat : (Instr.intTyped .mulh .i32 true (.v 0) (.v 1) (.v 2) .z).wf = false := by decide
theorem test_wf_sel_type : (Instr.sel (some (.f8 ⟨4, false, false⟩)) (.v 0) (.v 1) (.v 2) (.v 3)).wf = false := by decide
theorem test_wf_lea_type : (Instr.lea .i16 0 (.v 0) (.v 2) (.v 4) .z).wf = false := by decide
theorem test_wf_lea_shift : (Instr.lea .i32 8 (.v 0) (.v 2) (.v 4) .z).wf = false := by decide
theorem test_wf_fcvt_type : (Instr.fcvt false (.f8 ⟨4, false, false⟩) (.flt .f32) (.v 0) (.v 1)).wf = false := by decide
theorem test_wf_precision : (Instr.fquant ⟨8, false, false⟩ .f32 (.v 0) (.v 1)).wf = false := by decide
theorem test_wf_rounding : (Instr.floatTyped (.op .fmax .f32) .rz (.v 0) (.v 1) (.v 2) .z).wf = false := by decide
theorem test_wf_broadcast_lane : (Instr.vbcast (.v 0) (.v 1) 32).wf = false := by decide
theorem test_wf_float_reduction : (Instr.vred .xor (.flt .f32) false .mode (.v 0) (.v 1) .z).wf = false := by decide
theorem test_wf_float_scan : (Instr.vscan .add (.flt .f32) true false .mode (.v 0) (.v 1) .z).wf = false := by decide
theorem test_wf_mask : (Instr.mjoin 12).wf = false := by decide
theorem test_wf_offset : (Instr.bra 65536).wf = false := by decide
theorem test_wf_reform : (Instr.reform (.v 0) 65).wf = false := by decide
theorem test_wf_barrier : (Instr.bar (.s 0) 16).wf = false := by decide
theorem test_wf_gang_barrier : (Instr.barGang (.s 0) 8).wf = false := by decide
theorem test_wf_load_order : (Instr.ldG .w32 .rel .device (.v 0) (.s 0)).wf = false := by decide
theorem test_wf_store_order : (Instr.stX .w32 .acq .crew (.v 0) (.s 0)).wf = false := by decide
theorem test_wf_atomic_type : (Instr.atomG .add (.int .i16) .none .device (.v 0) (.s 0) (.v 1) .z).wf = false := by decide
theorem test_wf_atomic_operand : (Instr.atomG .add (.int .i32) .none .device (.v 0) (.s 0) (.v 1) (.v 2)).wf = false := by decide
theorem test_wf_ticket_width : (Instr.ldt false .w128 (.v 0) (.s 0)).wf = false := by decide
theorem test_wf_copy_queue : (Instr.cpySt false 4 .plain false .z (.s 0) (.s 1) (.s 2)).wf = false := by decide
theorem test_wf_bulk_handle : (Instr.bulk false true false false .z (.s 4)).wf = false := by decide
theorem test_wf_bulk_quad : (Instr.bulk false false false false .z (.s 5)).wf = false := by decide
theorem test_wf_queue_fence : (Instr.qfence 0).wf = false := by decide
theorem test_wf_mload : (Instr.mload (.acc 4) (.s 0) .z).wf = false := by decide
theorem test_wf_mmul : (Instr.mmul 4 false (.f8 ⟨4, false, false⟩) 0 (.s 0)).wf = false := by decide
theorem test_wf_mdrain : (Instr.mdrain .xf32 0 (.v 0) (.s 0) .z).wf = false := by decide
theorem test_wf_table_slot : (Instr.ctload false 8 .z (.s 0)).wf = false := by decide
theorem test_wf_spawn : (Instr.spawn false .z (.s 0) (.s 2)).wf = false := by decide
theorem test_wf_trap_code : (Instr.trap 256).wf = false := by decide
theorem test_wf_brk_code : (Instr.brk 128).wf = false := by decide
theorem test_wf_csrr : (Instr.csrr (.s 0) 0x03).wf = false := by decide
theorem test_wf_csrw_read_only : (Instr.csrw (.s 0) 0x11).wf = false := by decide
theorem test_wf_flume_port : (Instr.flsave (.s 0) 2).wf = false := by decide
theorem test_wf_step_without_word : Instr.placementPass.wf = false := by decide

/-! ### Words of the spec (R180 to R198 and the worked examples) -/

theorem test_decode_add_literal : decode [0x010A0BFE, 0x3E8, 0] = .ok (.add (.v 10) (.v 11) (.lit32 1000)) := by decide
theorem test_decode_sar_immediate : decode [0x12070783, 0, 0] = .ok (.sarImm (.v 7) (.v 7) 3) := by decide
theorem test_decode_typed : decode [0x1B0A0CC3, 0xFC044200, 0] = .ok (.intTyped .add .i64 true (.v 10) (.v 12) (.s 3) .z) := by decide
theorem test_decode_lea : decode [0x1A14C603, 0xF60C7000, 0] = .ok (.lea .n32 3 (.v 20) (.s 6) (.v 3) (.k 6)) := by decide
theorem test_decode_compare : decode [0x1901F8FE, 0xFC083000, 12] = .ok (.cmp .lt .i32 (.v 1) .lane (.lit32 12)) := by decide
theorem test_decode_movi : decode [0x17C9FFFE, 0, 0] = .ok (.movi (.s 9) 0xFFFE) := by decide
theorem test_decode_chained : decode [0xA6FC0203, 0xA9FC0405, 0x3206FC07] = .ok (.fmulF32 true .z (.v 2) (.v 3)) := by decide
theorem test_decode_chain_end : decode [0x3206FC07] = .ok (.fgateF32 false (.v 6) .z (.v 7)) := by decide
theorem test_decode_rounded : decode [0x3F1415C2, 0xFC80A402, 0]
    = .ok (.floatTyped (.op .fadd .f16) .rz (.v 20) (.v 21) (.s 50) .z) := by decide
theorem test_decode_load : decode [0x600CC584, 0, 0] = .ok (.ldG .w32 .none .device (.v 12) (.s 5)) := by decide
theorem test_decode_exit : decode [0x55FCFCFC, 0, 0] = .ok .exit := by decide
theorem test_decode_nop : decode [0x5D000000, 0, 0] = .ok .nop := by decide
theorem test_decode_yield : decode [0x5BFCFCFC, 0, 0] = .ok .yieldOp := by decide
theorem test_decode_csrr : decode [0x7BEC0011, 0, 0] = .ok (.csrr (.s 44) 0x11) := by decide
theorem test_decode_csrw : decode [0x7CC30021, 0, 0] = .ok (.csrw (.s 3) 0x21) := by decide
theorem test_decode_lfree : decode [0x6DC3CAFC, 0, 0] = .ok (.lfree (.s 3) (.s 10)) := by decide
theorem test_decode_trapsupply : decode [0x7AFCF0FC, 0, 0] = .ok (.trapsupply (.k 0)) := by decide
theorem test_decode_reserved_major : ∃ e, decode [0x00000000, 0, 0] = .error e := ⟨_, rfl⟩
theorem test_decode_nop_body : ∃ e, decode [0x5D000001, 0, 0] = .error e := ⟨_, rfl⟩
theorem test_decode_chain_bit : ∃ e, decode [0x810A0B0C, 0, 0] = .error e := ⟨_, rfl⟩
theorem test_decode_literal_missing : ∃ e, decode [0x010A0BFE] = .error e := ⟨_, rfl⟩
theorem test_table_word : decodeTableWord 64 0xFC0442001B0A0CC3 = some (.intTyped .add .i64 true (.v 10) (.v 12) (.s 3) .z) := by decide

/-! ### States that meet the statements' hypotheses -/

/-- Warp 0 of crew 0 with 32 live lanes at word 0x1800, lanes 0 and 1 issuing on port A in cycle 0. -/
def two : State := { State.reset.withFetchWord 32 0x5D000000 with turns := [], cur := ⟨0, 3, 0x1800, 0, [], 0, false⟩ }

/-- All 32 lanes issuing. -/
def full : State := { two with cur := ⟨0, 0xFFFFFFFF, 0x1800, 0, [], 0, false⟩ }

theorem onLanes {m : LaneSet} {P : Nat → Prop} (h : ∀ l ∈ lanesOf m, P l) : ∀ l, m.getLsbD l = true → P l :=
  fun l hl => h l (mem_lanesOf.2 hl)

theorem onAll {α : Type} [Inhabited α] {P : α → Prop} (m : FMap α) (h0 : P default) (h : ∀ p ∈ m, P p.2) : ∀ k, P (m.get k) := by
  intro k
  induction m with
  | nil => exact h0
  | cons p t ih =>
    have := ih fun q hq => h q (List.mem_cons_of_mem _ hq)
    obtain ⟨j, a⟩ := p
    rw [FMap.get, FMap.find_cons]
    split
    · exact h _ (List.mem_cons_self ..)
    · exact this

/-! ### Integer, float, lanes, masks, reductions -/

theorem witness_IntegerArithmetic : clear (.add (.v 1) (.v 2) (.k 3)) two = true ∧ clear (.mad (.s 1) (.v 2) (.lit32 7)) two = true := by decide
theorem witness_IntegerShiftsAndFields : clear (.bfi (.v 191) (.v 2) (.k 3)) two = true ∧ clear (.movi (.s 47) 0xFFFF) full = true := by decide
theorem witness_IntegerTyped : clear (.intTyped .mad .i64 true (.v 190) (.v 2) (.k 3) .z) two = true := by decide
theorem witness_IntegerTyped_fields : clear (.intTyped .bfx .i64 false (.v 10) (.v 12) (.v 2) .z) two = true
    ∧ clear (.intTyped .bfi .n32 false (.v 1) (.v 2) (.k 3) (.v 4)) two = true ∧ clear (.intTyped (.shlImm 63) .n64 true (.s 2) (.v 2) .z .z) two = true := by decide
theorem witness_IntegerCompareSelectAddress : clear (.cmp .lt .i32 (.v 1) .lane (.k 6)) two = true
    ∧ (∀ l, (fun _ => Operand.v 2) l = if two.src32 two.cur.warp l .z ≠ 0 then Operand.v 1 else .v 2)
    ∧ clear (.sel none (.v 3) .z (.v 1) (.v 2)) two = true ∧ clear (.lea .i64 7 (.v 10) (.v 2) (.v 4) .z) two = true :=
  ⟨by decide, fun _ => rfl, by decide⟩

theorem witness_FlumeIssue : (flumeOf (.faddF32 false .z (.v 1) (.v 2))).isSome = true
    ∧ (∀ j ∈ ({ two with cur := ⟨0, 3, 0x1800, 1, [.fmulF32 false (.v 3) (.v 4) (.v 5)], 0, false⟩ } : State).cur.tail, (flumeOf j).isSome = true)
    ∧ clearGroup [.faddF32 true .z (.v 1) (.v 2), .fmulF32 false (.v 3) (.v 4) (.v 5)] two = true := by decide
theorem witness_ChainLatch : ∃ m, flumeOf (.ffmaF32 false (.v 1) (.v 2) (.v 3)) = some m ∧ ∀ d t, m.kind ≠ .quant d t :=
  ⟨_, rfl, fun _ _ => by simp [f3]⟩

/-- A chain of one .f32 member for v1, ten cycles old, whose lane 1 trapped in member `trap` (0 for none). -/
def chainOf (trap : Nat) : Chain :=
  ⟨0, [⟨.v 1, 1, false⟩], 3, 0, 1, 4, 10, [(0, ⟨[0x3F800000], 0, 0⟩), (1, ⟨[0x40000000], 0, trap⟩)], 0x1800, false, false⟩
def chained : State := ({ two with cycle := 20 } : State).setWarp 0 { two.warp 0 with chainA := some (chainOf 0) }
theorem noTraps : ∀ l, ¬ ((chainOf 0).lanes.getLsbD l = true ∧ ((chainOf 0).results.get l).trapMember ≠ 0) := fun l h =>
  h.2 (onLanes (m := (chainOf 0).lanes) (P := fun l => ((chainOf 0).results.get l).trapMember = 0) (by decide) l h.1)
theorem witness_ChainWriteback : (chained.warp 0).chain 0 = some (chainOf 0) ∧ (chainOf 0).port = 0
    ∧ (chainOf 0).start + ((chainOf 0).total + 3) / 4 + 1 ≤ chained.cycle ∧ (chained.warp 0).parked 0 = none
    ∧ (chainOf 0).members = [] ++ ⟨.v 1, 1, false⟩ :: [] ∧ ((chained.warp 0).lane 1).live = true ∧ chained.cur.pairs = false
    ∧ (chained.warp 0).pendingFaults = [] := by decide
/-- A chain whose members write v4:v5, s6 sign-extended and s7 zero-extended. -/
def chainWide : Chain :=
  ⟨0, [⟨.v 4, 2, false⟩, ⟨.s 6, 1, true⟩, ⟨.s 7, 1, false⟩], 3, 0, 1, 4, 10, [(0, ⟨[1, 2, 0x80000000, 4], 0, 0⟩), (1, ⟨[5, 6, 7, 8], 0, 0⟩)], 0x1800, false, false⟩
theorem witness_ChainWriteback_wide : chainWide.start + (chainWide.total + 3) / 4 + 1 ≤ chained.cycle ∧ chainWide.lanes ≠ 0
    ∧ chainWide.members = [] ++ ⟨.v 4, 2, false⟩ :: [⟨.s 6, 1, true⟩, ⟨.s 7, 1, false⟩]
    ∧ chainWide.members = [⟨.v 4, 2, false⟩] ++ ⟨.s 6, 1, true⟩ :: [⟨.s 7, 1, false⟩]
    ∧ chainWide.members = [⟨.v 4, 2, false⟩, ⟨.s 6, 1, true⟩] ++ ⟨.s 7, 1, false⟩ :: []
    ∧ ((chained.warp 0).lane (leader chainWide.lanes)).live = true := by decide
theorem witness_ChainWriteback_early : ¬ (chainOf 0).start + ((chainOf 0).total + 3) / 4 + 1 ≤ 11 := by decide
/-- The port's record slot holds a chain that is counted out, its pipe none. -/
def chainedOver : State := chained.setWarp 0 { two.warp 0 with recA := some { chainOf 0 with counting := true } }
theorem witness_ChainWriteback_counted : (chainedOver.warp 0).chain 0 = none ∧ chainedOver.cur.pairs = false
    ∧ (chainedOver.warp 0).parked 0 = some { chainOf 0 with counting := true }
    ∧ (chainOf 0).start + ((chainOf 0).total + 3) / 4 + 1 ≤ chainedOver.cycle := by decide
theorem witness_ChainWriteback_traps : (let y : Warp := { two.warp 0 with chainA := some (chainOf 1) }
    let s := (chained.setCtx 1 { chained.ctx 1 with trapbase := 0x6000 }).setWarp 0 y
    (s.warp 0).chain 0 = some (chainOf 1) ∧ (chainOf 1).lanes.getLsbD 1 = true ∧ ((chainOf 1).results.get 1).trapMember ≠ 0
      ∧ (s.warp 0).handler = none ∧ (s.warp 0).chain 1 = none ∧ (s.warp 0).parked 0 = none ∧ (s.warp 0).parked 1 = none
      ∧ (s.ctx (s.ctxOf 0)).trapbase ≠ 0 ∧ s.cur.pairs = false) := by decide
theorem witness_NaNCanonical : ((fmtOf .f32).decode 0x7F800001).isNan = true ∧ ((fmtOf .f16).decode 0x7C01).isNan = true
    ∧ ((fmtOf .bf16).decode 0xFFFF).isNan = true := by decide

theorem witness_LaneExchange : (∀ l, two.cur.lanes.getLsbD l = true → two.src32 0 l (.lit32 3) = 3 ∧ (3 : Nat).testBit l = true)
    ∧ clear (.vshflMasked (.v 1) (.v 2) (.v 3) (.lit32 3)) two = true ∧ clear (.vvoteMasked .all (.v 1) (.v 2) .z) two = true
    ∧ ∀ l, two.cur.lanes.getLsbD l = true → two.src32 0 l (.k 1) ≠ 0 :=
  ⟨onLanes (by decide), by decide, by decide, onLanes (by decide)⟩
theorem witness_MemberMaskFaults : clear (.vbcastMasked (.v 1) (.v 2) 5 (.k 1)) two = true ∧ Operand.k 1 ≠ .z
    ∧ two.cur.lanes.getLsbD 1 = true ∧ (two.src32 0 1 (.k 1)).testBit 1 = false := by decide

/-- Lane 0 of `two` is a member of mask 3 and lane 2 with it; mask 5 has the two issuing lanes; mask 0 has lane 0 only. -/
def masked : State := two.setWarp 0 { two.warp 0 with masks := [(0, 1), (3, 7), (5, 3)] }
theorem witness_MaskMembership : clear (.mjoin 11) masked = true ∧ clear (.mleave 3) masked = true
    ∧ masked.curWarp.waiting (Wait.onMask 3) = 0 := by decide
theorem witness_MaskMembership_left : masked.curWarp.masks.get 3 &&& ~~~masked.cur.lanes
    &&& ~~~masked.curWarp.waiting (Wait.onMask 3) ≠ 0 := by decide
theorem witness_MaskWait_member : masked.cur.lanes &&& ~~~masked.curWarp.masks.get 0 ≠ 0 ∧ clear (.mwait 0) masked = true
    ∧ clear (.mwaitt (.v 1) (.k 9) 0) masked = true := by decide
theorem witness_MaskWait_block : masked.cur.lanes &&& ~~~masked.curWarp.masks.get 3 = 0
    ∧ masked.curWarp.masks.get 3 &&& ~~~(masked.curWarp.waiting (Wait.onMask 3) ||| masked.cur.lanes) ≠ 0
    ∧ clear (.mwait 3) masked = true ∧ clear (.mwaitt (.v 1) (.k 9) 3) masked = true := by decide
theorem witness_MaskWait_release : masked.cur.lanes = masked.curWarp.masks.get 5 ∧ masked.cur.lanes ≠ 0
    ∧ (∀ r ∈ masked.curWarp.waits, Wait.onMask 5 r.wait = false) ∧ clear (.mwait 5) masked = true := by decide
/-- Lanes 0 and 1 wait on mask 3, lane 0 until cycle 9. -/
def waiting : State := ({ masked with cycle := 9 } : State).setWarp 0 { masked.warp 0 with
  waits := [⟨3, 0x1800, 2, 0, .maskT 3 (.v 1) [(0, 9), (1, 12)]⟩] }
theorem witness_MaskDeadline : (waiting.warp 0).waits = [⟨3, 0x1800, 2, 0, .maskT 3 (.v 1) [(0, 9), (1, 12)]⟩]
    ∧ (3 : LaneSet).getLsbD 0 = true ∧ FMap.get (α := Nat) [(0, 9), (1, 12)] 0 ≤ waiting.cycle := by decide

/-- Lanes 0 and 1 issue; lane 2, the third member of mask 3, waits on it, in mwait or in mwaitt. -/
def arrivedBy (x : Wait) : State := masked.setWarp 0 { masked.warp 0 with waits := [⟨4, 0x1804, 1, 0, x⟩] }
theorem witness_MaskCompletion (x : Wait) (h : x = .mask 3 ∨ x = .maskT 3 (.v 1) [(2, 12)]) : (let s := arrivedBy x
    s.curWarp.waits = [⟨4, 0x1804, 1, 0, x⟩] ∧ Wait.onMask 3 x = true ∧ (4 : LaneSet) ≠ 0 ∧ (4 : LaneSet) &&& s.cur.lanes = 0
      ∧ s.cur.lanes ≠ 0 ∧ s.cur.lanes &&& ~~~s.curWarp.masks.get 3 = 0
      ∧ s.curWarp.masks.get 3 &&& ~~~(s.curWarp.waiting (Wait.onMask 3) ||| s.cur.lanes) = 0
      ∧ clear (.mwait 3) s = true ∧ clear (.mwaitt (.v 1) (.k 9) 3) s = true
      ∧ s.curWarp.masks.get 3 &&& ~~~s.cur.lanes &&& ~~~s.curWarp.waiting (Wait.onMask 3) = 0 ∧ clear (.mleave 3) s = true) := by
  obtain h | h := h <;> subst h <;> decide

theorem witness_IntegerReduction : lanesOf two.cur.lanes = 0 :: [1] ∧ clear (.vred .add (.int .i32) true .mode (.v 1) (.v 2) .z) two = true
    ∧ clear (.vscan .xor (.int .i64) false false .mode (.v 10) (.v 12) .z) two = true := by decide
theorem witness_IntegerReduction_members : (∀ l, two.cur.lanes.getLsbD l = true → two.src32 0 l (.lit32 3) = 3 ∧ (3 : Nat).testBit l = true)
    ∧ clear (.vred .max (.int .i16) false .mode (.v 1) (.v 2) (.lit32 3)) two = true
    ∧ clear (.vscan .min (.int .n32) true false .mode (.v 1) (.v 2) (.lit32 3)) two = true
    ∧ clear (.vscan .max (.flt .f16) false false .mode (.v 1) (.v 2) (.lit32 3)) two = true := ⟨onLanes (by decide), by decide⟩
theorem witness_FloatReduction : lanesOf two.cur.lanes = 0 :: [1] ∧ clear (.vred .add (.flt .f32) false .mode (.v 1) (.v 2) .z) two = true
    ∧ (floatOp .fadd .f32 (rmOf .mode two.curWarp.fpmode.toNat) (two.srcFlt 0 0 .f32 (.v 2)) (two.srcFlt 0 1 .f32 (.v 2)) 0 0).fl
        &&& (two.curWarp.fpmode.toNat / 2 ^ 8 % 2 ^ 5) = 0 := by decide

/-! ### Control -/

/-- Two issuing lanes, v2:v3 a return address out of range in lane 1; s4:s5 one in range. -/
def returning : State := two.setWarp 0 { two.warp 0 with vregs := [(vkey 2 0, 0x1800), (vkey 2 1, 7), (vkey 3 1, 0x80000)], sregs := [(4, 0x1900)] }
theorem witness_BranchesCallsReturns : clear (.bra 0xFFFF) two = true ∧ clear (.brcZ (.v 3) 5) two = true ∧ clear (.call (.v 190) 5) two = true
    ∧ clear (.ret (.s 4)) returning = true ∧ (∀ l, returning.cur.lanes.getLsbD l = true → returning.src64 0 l false (.s 4) < 2 ^ 51) :=
  ⟨by decide, by decide, by decide, by decide, onLanes (by decide)⟩
theorem witness_ReturnOutOfRange : clear (.ret (.v 2)) returning = true ∧ (2 : LaneSet) ≠ 0
    ∧ ∀ l, (2 : LaneSet).getLsbD l = (returning.cur.lanes.getLsbD l && decide (2 ^ 51 ≤ returning.src64 0 l false (.v 2))) := by
  refine ⟨by decide, by decide, fun l => ?_⟩
  by_cases h : l < 2
  · have : ∀ l < 2, (2 : LaneSet).getLsbD l = (returning.cur.lanes.getLsbD l && decide (2 ^ 51 ≤ returning.src64 0 l false (.v 2))) := by decide
    exact this l h
  · have h2 : ∀ l, 2 ≤ l → (2 : LaneSet).getLsbD l = false ∧ returning.cur.lanes.getLsbD l = false := by
      intro l hl
      rcases Nat.lt_or_ge l 32 with h | h
      · have : ∀ l < 32, 2 ≤ l → (2 : LaneSet).getLsbD l = false ∧ returning.cur.lanes.getLsbD l = false := by decide
        exact this l h hl
      · exact ⟨BitVec.getLsbD_of_ge _ _ h, BitVec.getLsbD_of_ge _ _ h⟩
    rw [(h2 l (by omega)).1, (h2 l (by omega)).2, Bool.false_and]

theorem witness_ExitLeaves : clear .exit two = true ∧ two.curWarp.waits = [] ∧ two.curWarp.handler = none
    ∧ two.curWarp.liveLanes &&& ~~~two.cur.lanes ≠ 0 := by decide
theorem witness_LastExitEndsWarp : clear .exit full = true ∧ full.curWarp.liveLanes &&& ~~~full.cur.lanes = 0 ∧ full.curWarp.remoteErr = none
    ∧ full.curWarp.deckFaults = [] := by decide
theorem witness_NopYieldSleep : clear .nop two = true ∧ clear .yieldOp two = true ∧ clear (.sleep (.k 5)) two = true := by decide
/-- Lanes 0 and 1 asleep, lane 0 until this cycle. -/
def asleep : State := ({ two with cycle := 5 } : State).setWarp 0 { two.warp 0 with waits := [⟨3, 0x1800, 1, 0, .sleep [(0, 5), (1, 6)]⟩] }
theorem witness_SleepExpiry : (asleep.warp 0).waits = [⟨3, 0x1800, 1, 0, .sleep [(0, 5), (1, 6)]⟩] ∧ (3 : LaneSet).getLsbD 0 = true
    ∧ FMap.get (α := Nat) [(0, 5), (1, 6)] 0 ≤ asleep.cycle ∧ (3 : LaneSet).getLsbD 1 = true ∧ asleep.cycle < FMap.get (α := Nat) [(0, 5), (1, 6)] 1 := by decide

/-- A crew of 62 threads' barrier 3 with three arrivals; gang 1 of this crew with its barrier 0 free. -/
def barred : State :=
  (two.setCrew 0 { two.crew 0 with gang := 1, barriers := [(3, ⟨5, 3⟩)] }).setGang 1 { (default : Gang) with live := true, crews := [0] }
theorem witness_BarrierArrival : (Instr.barArrive (.k 6) 3, false, false, 2048) ∈ barForms (.k 6) 3 ∧ clear (.barGang (.lit32 5) 0) barred = true
    ∧ (∀ l, barred.cur.lanes.getLsbD l = true → barred.src32 0 l (.lit32 5) = 5) ∧ 0 < laneCount barred.cur.lanes
    ∧ (barred.barrier 0 true 0).arrived = 0 ∧ (barred.barrier 0 true 0).arrived + laneCount barred.cur.lanes < 5 :=
  ⟨by decide, by decide, onLanes (by decide), by decide, by decide, by decide⟩
/-- Two warps of the crew; in warp 1 lanes 0 to 2 wait on barrier 3, and on the gang's barrier 0. -/
def barredBy (gang : Bool) (id count arrived : Nat) : State :=
  let s := (barred.setBarrier 0 gang id ⟨count, arrived⟩)
  s.setWarp 1 { two.warp 0 with waits := [⟨1, 0x1804, 1, 0, .bar gang id⟩, ⟨6, 0x1806, 2, 0, .bar gang id⟩] }
theorem witness_BarrierCompletion : (let s := barredBy false 3 5 3
    clear (.bar (.lit32 5) 3) s = true ∧ clear (.barArrive (.lit32 5) 3) s = true
      ∧ (∀ l, s.cur.lanes.getLsbD l = true → s.src32 s.cur.warp l (.lit32 5) = 5)
      ∧ s.barrier 0 false 3 = ⟨5, 3⟩ ∧ (s.barrier 0 false 3).arrived + laneCount s.cur.lanes = 5
      ∧ s.cur.warp ∈ s.barrierWarps (crewTok s.cur.warp) false ∧ 1 ∈ s.barrierWarps (crewTok s.cur.warp) false
      ∧ (∀ w ∈ s.barrierWarps (crewTok s.cur.warp) false, (∀ r ∈ (s.warp w).waits, r.lanes ≠ 0)
          ∧ (s.warp w).waits.Pairwise (fun r q => r.lanes &&& q.lanes = 0))
      ∧ (s.warp 1).waits ≠ [] ∧ s.curWarp.waits = []) := ⟨by decide, by decide, onLanes (by decide), by decide⟩
/-- One lane more than the instance needs. -/
theorem witness_BarrierCompletion_more : (let s := barredBy false 3 4 3
    clear (.bar (.k 4) 3) s = true ∧ (∀ l, s.cur.lanes.getLsbD l = true → s.src32 s.cur.warp l (.k 4) = 4)
      ∧ s.barrier 0 false 3 = ⟨4, 3⟩ ∧ 4 < (s.barrier 0 false 3).arrived + laneCount s.cur.lanes
      ∧ ((s.barrier 0 false 3).arrived + laneCount s.cur.lanes) % 4 ≠ 0) := ⟨by decide, onLanes (by decide), by decide⟩
/-- The greatest counts. -/
theorem witness_BarrierCompletion_most : (let s := barredBy false 3 2048 2046
    clear (.bar (.lit32 2048) 3) s = true ∧ (∀ l, s.cur.lanes.getLsbD l = true → s.src32 s.cur.warp l (.lit32 2048) = 2048)
      ∧ (s.barrier 0 false 3).arrived < 2048 ∧ 2048 ≤ (s.barrier 0 false 3).arrived + laneCount s.cur.lanes)
    ∧ (let s := barredBy true 0 16384 16382
    clear (.barGang (.lit32 16384) 0) s = true ∧ clear (.barGangArrive (.lit32 16384) 0) s = true
      ∧ (∀ l, s.cur.lanes.getLsbD l = true → s.src32 s.cur.warp l (.lit32 16384) = 16384)
      ∧ (s.barrier 0 true 0).arrived < 16384 ∧ 16384 ≤ (s.barrier 0 true 0).arrived + laneCount s.cur.lanes
      ∧ s.cur.warp ∈ s.barrierWarps (crewTok s.cur.warp) true ∧ 1 ∈ s.barrierWarps (crewTok s.cur.warp) true
      ∧ (∀ w ∈ s.barrierWarps (crewTok s.cur.warp) true, (∀ r ∈ (s.warp w).waits, r.lanes ≠ 0)
          ∧ (s.warp w).waits.Pairwise (fun r q => r.lanes &&& q.lanes = 0))) :=
  ⟨⟨by decide, onLanes (by decide), by decide⟩, by decide, by decide, onLanes (by decide), by decide⟩
theorem witness_BarrierFaults_most : clear (.bar (.lit32 2049) 3) barred = true ∧ 2048 < barred.lead32 (.lit32 2049)
    ∧ clear (.barGang (.lit32 16385) 0) barred = true ∧ 16384 < barred.lead32 (.lit32 16385) := by decide
theorem witness_BarrierFaults : clear (.bar .z 3) barred = true ∧ barred.lead32 .z = 0 ∧ clear (.bar .lane 3) barred = true
    ∧ barred.same32 .lane = false ∧ clear (.bar (.k 6) 3) barred = true ∧ barred.same32 (.k 6) = true
    ∧ (barred.barrier 0 false 3).arrived ≠ 0 ∧ (barred.barrier 0 false 3).count ≠ barred.lead32 (.k 6) := by decide

/-- The launch has two stages; the queue of stage 1 has room for two items of 16 bytes and holds one, that of stage 0 is empty. -/
def staged : State :=
  let d : StageDecl := ⟨0x6000, 64, 192, 0, 1, 16, 2, 0x100⟩
  let l := two.launch 0
  { (two.setCrew 0 { two.crew 0 with puts := [(1, 1)], quotas := [(0, 192), (1, 192)] }) with
    launches := [(0, { l with spec := { l.spec with stages := 2, stage := [d, { d with queue := 0x200 }] } })] }
theorem witness_QueueTransfer_put : staged.same32 (.k 5) = true ∧ staged.lead32 (.k 5) % 8 = 0
    ∧ (∀ w ∈ staged.warpsOf 0, (staged.warp w).waits = []) ∧ staged.same32 (.k 1) = true ∧ staged.lead32 (.k 1) = 1 ∧ 1 < staged.stageCount 0
    ∧ staged.lead32 (.k 5) + (staged.stageDecl 0 1).item ≤ (staged.crew 0).size
    ∧ (staged.crew 0).puts.get 1 - (staged.crew 0).takes.get 1 < (staged.stageDecl 0 1).depth
    ∧ clear (.qput (.v 1) (.k 1) (.k 5)) staged = true := by decide
def stagedAt1 : State := staged.setWarp 0 { staged.warp 0 with stage := 1 }
theorem witness_QueueTransfer_take : stagedAt1.curWarp.stage = 1 ∧ 0 < stagedAt1.stageCount 0
    ∧ stagedAt1.lead32 (.k 5) + (stagedAt1.stageDecl 0 1).item ≤ (stagedAt1.crew 0).size
    ∧ (stagedAt1.crew 0).puts.get 1 - (stagedAt1.crew 0).takes.get 1 ≠ 0 ∧ clear (.qtake (.v 1) (.k 5)) stagedAt1 = true := by decide
theorem witness_StageBlocking_put : (let s := staged.setCrew 0 { staged.crew 0 with puts := [(1, 2)] }
    s.same32 (.k 1) = true ∧ s.lead32 (.k 1) = 1 ∧ 1 < s.stageCount 0 ∧ (s.stageDecl 0 1).depth ≤ (s.crew 0).puts.get 1 - (s.crew 0).takes.get 1
      ∧ clear (.qput (.v 1) (.k 1) (.k 5)) s = true) := by decide
theorem witness_StageBlocking_take : (staged.crew 0).puts.get staged.curWarp.stage - (staged.crew 0).takes.get staged.curWarp.stage = 0
    ∧ 0 < staged.stageCount 0 ∧ clear (.qtake (.v 1) (.k 5)) staged = true
    ∧ staged.curWarp.liveLanes &&& ~~~(staged.curWarp.waiting Wait.isStage ||| staged.cur.lanes) ≠ 0 ∧ clear (.stagenext (.s 1)) staged = true := by decide
def stagedFull : State := { staged with cur := full.cur }
theorem witness_StageRestart : clear (.stagenext (.s 1)) stagedFull = true ∧ stagedFull.curWarp.live = true ∧ stagedFull.curWarp.waits = []
    ∧ stagedFull.cur.lanes = stagedFull.curWarp.liveLanes ∧ stagedFull.cur.lanes ≠ 0 ∧ (stagedFull.crew 0).resident = true
    ∧ 0 < stagedFull.stageCount 0 ∧ stagedFull.moveTo 0 stagedFull.curWarp.stage = none ∧ stagedFull.stayQuota 0 0 = 184
    ∧ stagedFull.quadRoom 0 (stagedFull.quadrantOf 0) 184 [0] = true := by decide
/-- Stage 1 had an item at the start of the cycle, and no taker waits for it. -/
def stagedMove : State := stagedFull.setCrew 0 { stagedFull.crew 0 with snap := [(1, (1, false, false))] }
theorem witness_StageRestart_move : clear (.stagenext (.s 1)) stagedMove = true ∧ stagedMove.moveTo 0 stagedMove.curWarp.stage = some 1
    ∧ stagedMove.quadRoom 0 (stagedMove.quadrantOf 0) ((stagedMove.crew 0).quotas.get 1) [0] = true := by decide

theorem witness_ReformFiles : clear (.reform (.k 5) 2) two = true ∧ 2 ≤ two.curWarp.quota ∧ two.curWarp.waits = [] ∧ two.curWarp.handler = none
    ∧ two.curWarp.liveLanes &&& ~~~two.cur.lanes ≠ 0 ∧ (two.crewOf 0).failed = false ∧ (two.core 0).bins = [] ∧ (two.core 0).yardWait = []
    ∧ (two.core 0).evsel = [] ∧ ∀ l, two.cur.lanes.getLsbD l = true → two.src32 0 l (.k 5) = 8 :=
  ⟨by decide, by decide, by decide, by decide, by decide, by decide, by decide, by decide, by decide, onLanes (by decide)⟩
/-- A bin of age in core 0's yard, and a second slot of the crew free. -/
def binned : State := (({ two with cycle := 300 } : State).setCrew 0 { two.crew 0 with slots := 2 }).setCore 0 { two.core 0 with
  bins := [(0, ⟨⟨0, 0, 0x1801, 5, 1⟩, [⟨0, [(0, 9)], 0, 0, 20⟩], 20⟩)] }
theorem witness_BinBuilt : ∃ b slot, (binned.core 0).bins.find 0 = some b ∧ (binned.core 0).yardWait = [] ∧ (binned.core 0).evsel = []
    ∧ b.threads.length ≤ 32 ∧ b.since + ((binned.ctx (binned.crew b.key.crew).ctx).reformage).toNat ≤ binned.cycle
    ∧ binned.freeSlot b.key = some slot := ⟨_, 1, rfl, by decide, by decide, by decide, by decide, by decide⟩

/-! ### Loads, stores, atomics -/

/-- s4 holds an address in the mapped page. -/
def global : State := two.setWarp 0 { two.warp 0 with sregs := [(4, 0x6010)] }
theorem witness_ScratchpadLoad : (Instr.ldX .w32 .acq .gang (.v 1) (.k 4), none) ∈ loadForms true .w32 .acq .gang (.v 1) (.k 4) .z
    ∧ clear (.ldX .w32 .acq .gang (.v 1) (.k 4)) two = true ∧ clear (.ldOffset true .w64 .none .warp (.v 2) (.k 5) .lane) two = true
    ∧ ∀ l, two.cur.lanes.getLsbD l = true → two.laneVa true (.k 4) none l % 4 = 0
      ∧ two.scratchPhys (crewTok two.cur.warp) (two.laneVa true (.k 4) none l) 4 = some 0x100_1000_0004
      ∧ two.badWord 0x100_1000_0004 4 = false := ⟨by decide, by decide, by decide, onLanes (by decide)⟩
theorem witness_ScratchpadStore : (Instr.stX .w32 .rel .device (.v 1) (.k 4), none) ∈ storeForms true .w32 .rel .device (.v 1) (.k 4) .z
    ∧ clear (.stX .w32 .rel .device (.v 1) (.k 4)) two = true ∧ Good two
    ∧ (∀ l, two.cur.lanes.getLsbD l = true → two.laneVa true (.k 4) none l % 4 = 0
      ∧ two.scratchPhys (crewTok two.cur.warp) (two.laneVa true (.k 4) none l) 4 = some 0x100_1000_0004)
    ∧ two.outstanding two.cur.warp = 0 ∧ two.curWarp.remoteErr = none :=
  ⟨by decide, by decide, by unfold Good; decide, onLanes (by decide), by decide⟩
theorem witness_GlobalLoad : ∃ parts, clear (.ldG .w32 .none .device (.v 1) (.s 4)) global = true
    ∧ (∀ o ∈ global.laneOps false (.s 4) none (fun _ => 0) fun _ => 0, o.va % 4 = 0 ∧ o.va < 2 ^ 53)
    ∧ global.reach .read 4 (global.laneOps false (.s 4) none (fun _ => 0) fun _ => 0) = .ok parts ∧ parts ≠ []
    ∧ (∀ p ∈ parts, isRemote p.x.pa = false ∧ p.x.mig = false ∧ ∀ o ∈ p.ops, global.readBad o.pa 4 = false)
    ∧ (global.core (global.coreOf global.cur.warp)).l1 = [] ∧ global.silent.get 16 = false := ⟨_, by decide, by decide, rfl, by decide, by decide, by decide⟩
theorem witness_GlobalStore : ∃ parts, clear (.stG .w32 .rel .device (.v 1) (.s 4)) global = true ∧ Good global
    ∧ global.reach .write 4 (global.laneOps false (.s 4) none (fun l => global.src32 0 l (.v 1)) fun _ => 0) = .ok parts ∧ parts ≠ []
    ∧ (∀ p ∈ parts, isRemote p.x.pa = false ∧ p.x.mig = false
        ∧ ∀ o ∈ p.ops, o.pa < 0x4_0000_0000_0000 ∧ global.chanFailed o.pa = false)
    ∧ global.outstanding global.cur.warp = 0 ∧ global.curWarp.remoteErr = none :=
  ⟨_, by decide, by unfold Good; decide, rfl, by decide, by decide, by decide⟩
/-- A release on a strong page waits for the counter; here it is 0. -/
theorem witness_GlobalStore_release : ∃ parts, global.reach .write 4 (global.laneOps false (.s 4) none (fun l => global.src32 0 l (.v 1)) fun _ => 0) = .ok parts
    ∧ 5 ≤ Scope.pool.code ∧ (∃ p ∈ parts, p.x.order ≠ 2) := ⟨_, rfl, by decide⟩
/-- The page of `global` migrates from 0x40000, its line 0 pulled. -/
def moving : State := { global.setCore 0 { global.core 0 with tlb := [⟨1, 3, 13, 0x8000000000200E5⟩] } with
  migs := [(2, ⟨2, 1, 0x40000, 0x20000, 8192, [0], [], 0, 1, true⟩)] }
theorem witness_servedHere : ∃ p, moving.reach .read 4 (moving.laneOps false (.s 4) none (fun _ => 0) fun _ => 0) = .ok [p] ∧ isRemote p.x.pa = false
    ∧ p.x.mig = true ∧ moving.migOf p.x.pa = some 2 ∧ (∀ l ∈ (moving.migs.get 2).linesOf p.x.pa p.size,
      l ∈ (moving.migs.get 2).pulled ∧ (moving.migs.get 2).failed.find l = none) ∧ ∀ o ∈ p.ops, moving.readBad o.pa 4 = false :=
  ⟨_, rfl, by decide⟩
theorem lanesIff {m : LaneSet} {P : Nat → Prop} (h : ∀ l ∈ lanesOf m, P l) : ∀ l, m.getLsbD l = true ↔ m.getLsbD l = true ∧ P l :=
  fun l => ⟨fun hl => ⟨hl, onLanes h l hl⟩, (·.1)⟩
/-- s4 odd, s6 just past the address space. -/
def astray : State := two.setWarp 0 { two.warp 0 with sregs := [(4, 0x6011), (6, 0x20_0000_0000_0000)] }
theorem witness_AddressFaults_align : clear (.ldG .i16 .none .device (.v 1) (.s 4)) astray = true
    ∧ (∀ l, (3 : LaneSet).getLsbD l = true ↔ astray.cur.lanes.getLsbD l = true ∧ astray.laneVa false (.s 4) none l % 2 ≠ 0)
    ∧ (3 : LaneSet).getLsbD 0 = true ∧ ∀ l, (3 : LaneSet).getLsbD l = true → 0x6011 ≤ astray.laneVa false (.s 4) none l :=
  ⟨by decide, lanesIff (m := 3) (by decide), by decide, onLanes (by decide)⟩
theorem witness_AddressFaults_range : clear (.stG .i16 .none .device (.v 1) (.s 6)) astray = true
    ∧ (∀ l, astray.cur.lanes.getLsbD l = true → astray.laneVa false (.s 6) none l % 2 = 0)
    ∧ (∀ l, (3 : LaneSet).getLsbD l = true ↔ astray.cur.lanes.getLsbD l = true ∧ 2 ^ 53 ≤ astray.laneVa false (.s 6) none l) :=
  ⟨by decide, onLanes (by decide), lanesIff (m := 3) (by decide)⟩
theorem witness_AddressFaults_scratch : clear (.ldX .w64 .none .crew (.v 2) (.lit32 0x10000)) two = true
    ∧ (∀ l, two.cur.lanes.getLsbD l = true → two.laneVa true (.lit32 0x10000) none l % 8 = 0)
    ∧ (∀ l, (3 : LaneSet).getLsbD l = true ↔ two.cur.lanes.getLsbD l = true
      ∧ two.scratchPhys (crewTok two.cur.warp) (two.laneVa true (.lit32 0x10000) none l) 8 = none) :=
  ⟨by decide, onLanes (by decide), lanesIff (m := 3) (by decide)⟩
def missing : State := two.setWarp 0 { two.warp 0 with sregs := [(4, 0x8010)] }
theorem witness_TranslationMiss : clear (.ldG .w32 .none .device (.v 1) (.s 4)) missing = true ∧ missing.cur.lanes ≠ 0
    ∧ (∀ l, missing.cur.lanes.getLsbD l = true → missing.laneVa false (.s 4) none l = 0x8010) ∧ missing.curWarp.walkFaults = []
    ∧ (missing.core 0).misses = []
    ∧ (∀ u : Nat, u / 128 = 0x8010 / 128 → ∀ e ∈ (missing.core 0).tlb, e.covers (missing.ctxOf missing.cur.warp) u = false) := by
  refine ⟨by decide, by decide, onLanes (by decide), by decide, by decide, ?_⟩
  intro u hu e he
  have he : e = ⟨1, 3, 13, 0x200E5⟩ := by
    have : (missing.core 0).tlb = [⟨1, 3, 13, 0x200E5⟩] := by decide
    rw [this] at he; simpa using he
  subst he
  simp only [TlbEntry.covers, Bool.and_eq_false_iff]
  right
  have : u / 2 ^ 13 ≠ 3 := by omega
  simp only [beq_eq_false_iff_ne, ne_eq]
  exact fun h => this h.symm
theorem witness_PrefetchAndFence : clear (.prf .w32 (.s 4)) global = true ∧ clear (.fence .crew) two = true ∧ clear (.fence .gang) two = true
    ∧ Scope.crew.code < 3 ∧ 3 ≤ Scope.gang.code ∧ two.outstanding two.cur.warp = 0 ∧ two.curWarp.remoteErr = none := by decide

/-- A port with its landing, on which context 1 holds 8 KiB; a remote store and load of warp 0 outstanding. -/
def linked : State :=
  let r : Req := ⟨.store, 0, 1, 0x10_0000_0000_0010, 0x8_0000_0000_0010, 4, 4, 0, [⟨0, 0x10_0000_0000_0010, 0x8_0000_0000_0010, 5, 0, false⟩], 0, some 3, 9000, false⟩
  { two with
    cycle := 100, ports := [(0, { (default : Port) with state := 2, up := true, attached := true, retired := [(5, 50)] })]
    landings := [(0, { (default : Landing) with quota := [(1, 0x100000)], allocs := [⟨1, 0, 0x2000, 0, false, none⟩] })], reqs := [(4, r)] }
/-- s4 holds an address of context 1 at landing 0. -/
def far : State := { linked.setWarp 0 { linked.warp 0 with sregs := [(4, 0x10_0000_0000_0010)] } with
  reqs := [], cores := [(0, { (default : Core) with tlb := [⟨1, 2 ^ 39, 13, 0x8_0000_0000_00E5⟩] })] }
theorem witness_RemoteAccess_load : ∃ parts, clear (.ldG .w32 .acq .device (.v 1) (.s 4)) far = true
    ∧ (∀ o ∈ far.laneOps false (.s 4) none (fun _ => 0) fun _ => 0, o.va % 4 = 0 ∧ o.va < 2 ^ 53)
    ∧ far.reach .read 4 (far.laneOps false (.s 4) none (fun _ => 0) fun _ => 0) = .ok parts ∧ parts ≠ []
    ∧ (∀ p ∈ parts, isRemote p.x.pa = true ∧ p.x.mig = false ∧ far.carrier p.x.pa ≠ none)
    ∧ ∀ p ∈ parts, p.x.home ≠ 0 ∨ ∃ o ∈ p.ops, (far.core 0).l1.find (o.pa / 16) = none := ⟨_, by decide, by decide, rfl, by decide⟩
/-- The slices of this module answer late. -/
def late : State := { global with silent := [(16, true)] }
theorem witness_RemoteAccess_late : ∃ parts, clear (.ldG .w32 .none .device (.v 1) (.s 4)) late = true
    ∧ (∀ o ∈ late.laneOps false (.s 4) none (fun _ => 0) fun _ => 0, o.va % 4 = 0 ∧ o.va < 2 ^ 53)
    ∧ late.reach .read 4 (late.laneOps false (.s 4) none (fun _ => 0) fun _ => 0) = .ok parts ∧ parts ≠ [] ∧ late.silent.get 16 = true
    ∧ (∀ p ∈ parts, isRemote p.x.pa = false ∧ p.x.mig = false)
    ∧ ∀ p ∈ parts, p.x.home ≠ 0 ∨ ∃ o ∈ p.ops, (late.core 0).l1.find (o.pa / 16) = none := ⟨_, by decide, by decide, rfl, by decide⟩
/-- A time limit that leaves a request nothing after its way, and one that leaves it something. -/
theorem witness_limited : (let s := far.setCtx 1 { far.ctx 1 with fabrictimeout := 10 }
    (s.ctx 1).fabrictimeout.toNat ≤ 10) ∧ ¬ (far.ctx 1).fabrictimeout.toNat ≤ 10 := by decide
theorem witness_RemoteAccess_store : ∃ parts, clear (.stG .w32 .rel .device (.v 1) (.s 4)) far = true
    ∧ far.reach .write 4 (far.laneOps false (.s 4) none (fun l => far.src32 0 l (.v 1)) fun _ => 0) = .ok parts ∧ parts ≠ []
    ∧ (∀ p ∈ parts, isRemote p.x.pa = true ∧ p.x.mig = false ∧ far.carrier p.x.pa ≠ none)
    ∧ far.outstanding 0 = 0 ∧ far.curWarp.remoteErr = none ∧ far.outstanding 0 + parts.length ≤ 256 := ⟨_, by decide, rfl, by decide⟩
theorem witness_Fence_waits : clear (.fence .gang) linked = true ∧ linked.outstanding linked.cur.warp ≠ 0 := by decide
theorem witness_AtomicsInLaneOrder : AtomOp.cas.tyOk (.int .i32) = true ∧ clear (.atomX .cas (.int .i32) .none .crew (.v 1) (.k 4) (.k 1) .z) two = true
    ∧ (∀ l, two.cur.lanes.getLsbD l = true → two.laneVa true (.k 4) none l % 4 = 0
      ∧ two.scratchPhys (crewTok two.cur.warp) (two.laneVa true (.k 4) none l) 4 = some 0x100_1000_0004
      ∧ two.badWord 0x100_1000_0004 4 = false) ∧ Scope.crew.code < 5 := ⟨by decide, by decide, onLanes (by decide), by decide⟩
theorem witness_AtomicsInLaneOrder_global : ∃ p, clear (.atomG .add (.int .i32) .none .device (.v 1) (.s 4) (.k 1) .z) global = true
    ∧ global.reach .both 4 (global.laneOps false (.s 4) none (fun _ => 1) fun _ => 0) = .ok [p] ∧ isRemote p.x.pa = false ∧ p.x.mig = false
    ∧ (∀ o ∈ p.ops, global.readBad o.pa 4 = false ∧ o.pa < 0x4_0000_0000_0000) ∧ global.silent.get 16 = false :=
  ⟨_, by decide, rfl, by decide, by decide, by decide⟩
theorem witness_AtomicsSent : ∃ parts, AtomOp.add.tyOk (.int .i32) = true ∧ clear (.atomG .add (.int .i32) .acqrel .pool (.v 1) (.s 4) (.k 1) .z) far = true
    ∧ clear (.atomG .add (.int .i32) .none .device .z (.s 4) (.k 1) .z) far = true
    ∧ (∀ o ∈ far.laneOps false (.s 4) none (fun _ => 1) fun _ => 0, o.va % 4 = 0 ∧ o.va < 2 ^ 53)
    ∧ far.reach .both 4 (far.laneOps false (.s 4) none (fun _ => 1) fun _ => 0) = .ok parts ∧ parts ≠ []
    ∧ (∀ p ∈ parts, isRemote p.x.pa = true ∧ p.x.mig = false ∧ far.carrier p.x.pa ≠ none) ∧ (∃ p ∈ parts, p.x.order ≠ 2)
    ∧ far.outstanding 0 = 0 ∧ far.curWarp.remoteErr = none ∧ far.outstanding 0 + parts.length ≤ 256 :=
  ⟨_, by decide, by decide, by decide, by decide, rfl, by decide⟩

/-! ### Tickets, the pool, answers -/

theorem witness_TicketIssue : ∃ parts p, clear (.ldt false .w32 (.v 2) (.s 4)) global = true
    ∧ (∀ o ∈ global.laneOps false (.s 4) none (fun _ => 0) fun _ => 0, o.va % 4 = 0 ∧ o.va < 2 ^ 53)
    ∧ global.reach .read 4 (global.laneOps false (.s 4) none (fun _ => 0) fun _ => 0) = .ok parts ∧ parts = [p] ∧ isRemote p.x.pa = false
    ∧ global.freeEntry (global.tableOf p.x) (laneCount global.cur.lanes * 4) = some 0 := ⟨_, _, by decide, by decide, rfl, rfl, by decide, by decide⟩
theorem witness_TicketIssue_wide : ∃ parts, clear (.ldt true .w64 (.v 2) (.s 4)) global = true
    ∧ global.reach .read 8 (global.laneOps false (.s 4) none (fun _ => 0) fun _ => 0) = .ok parts ∧ parts ≠ []
    ∧ ∀ p ∈ parts, global.freeEntry (global.tableOf p.x) (laneCount global.cur.lanes * 8) = some 0 := ⟨_, by decide, rfl, by decide⟩
theorem witness_TicketIssue_remote : ∃ parts, clear (.ldt true .w32 (.v 2) (.s 4)) far = true
    ∧ far.reach .read 4 (far.laneOps false (.s 4) none (fun _ => 0) fun _ => 0) = .ok parts ∧ parts ≠ []
    ∧ (∀ p ∈ parts, far.tableOf p.x = 64 ∧ isRemote p.x.pa = true ∧ far.carrier p.x.pa ≠ none) ∧ far.freeEntry 64 8 = some 0 :=
  ⟨_, by decide, rfl, by decide⟩
/-- The staging room of table 8 is used up. -/
def roomless : State := { global with tickets := [(8 * 4096, { (default : TicketEntry) with
    state := 1, bytes := 0x8_0000, width := .w32, parts := [⟨0, 0x6010, 0x20010, 0, 0, false⟩, ⟨1, 0x6014, 0x20014, 0, 0, false⟩] })] }
theorem witness_TicketIssue_block : ∃ x, clear (.ldtBlock true (.v 2) (.s 4) (.k 6)) roomless = true
    ∧ roomless.same64 (.s 4) = true ∧ roomless.same32 (.k 6) = true ∧ roomless.lead32 (.k 6) = 16 ∧ roomless.lead64 (.s 4) = 0x6010
    ∧ roomless.xlateWarp 0 (roomless.lead64 (.s 4)) .read = .ok x ∧ x.packed = false ∧ roomless.beforeSwing x = false ∧ x.bits = 13
    ∧ isRemote x.pa = false ∧ roomless.tableOf x = 8 ∧ (roomless.blockTables x 16).length = 1 ∧ roomless.freeEntry 8 16 = none :=
  ⟨_, by decide, by decide, by decide, by decide, by decide, rfl, by decide⟩

/-- A lane ticket or a block ticket of context 1 for entry 0 of table 0, reuse 0. -/
def ticket (block : Bool) : Nat := ticketBits 0 0 1 0 0 0 block
/-- s4 holds the ticket of entry 0 of table 0, which is in state `st`, holding a word for lane 0. -/
def ticketed (block : Bool) (st : Nat) : State := { two.setWarp 0 { two.warp 0 with sregs := [(4, BitVec.ofNat 64 (ticket block))] } with
  tickets := [(0, { (default : TicketEntry) with
    state := st, ctx := 1, block := block, deadline := 100, lanes := 1, width := .w32, bytes := 16, data := [(0, [1, 2, 3, 4])] })] }
theorem ticket_form (block : Bool) : ticket block = (if block then 68719476993 else 68719476737)
    + (Config.ticketCheck 0 (if block then 68719476993 else 68719476737)).toNat * 281474976710656 := by
  unfold ticket ticketBits
  cases block <;>
    simp only [Nat.reducePow, Nat.reduceMod, Nat.reduceAdd, Nat.zero_mul, Nat.one_mul, Bool.false_eq_true, ite_true, ite_false]
theorem ticket_fields (block : Bool) (s : State) (key : s.key = 0) (mod : s.module_ = 0) (ctx : s.ctxOf s.cur.warp = 1) :
    ticket block < 18446744073709551616 ∧ s.ticketCheck (ticket block) none = 0 ∧ s.ticketCheck (ticket block) (some block) = 0
      ∧ tkReuse (ticket block) = 0 ∧ tkKey (ticket block) = 0 := by
  obtain ⟨low, hl⟩ : ∃ low : Nat, low = if block then 68719476993 else 68719476737 := ⟨_, rfl⟩
  have ht := ticket_form block
  rw [← hl] at ht
  obtain ⟨c, hk⟩ : ∃ c : Nat, c = (Config.ticketCheck 0 low).toNat := ⟨_, rfl⟩
  have hc : c < 65536 := by rw [hk]; exact BitVec.isLt _
  rw [← hk] at ht
  generalize ticket block = t at ht
  have e : t < 18446744073709551616 ∧ t % 281474976710656 = low ∧ t / 281474976710656 = c ∧ bits t 7 2 = 0 ∧ bits t 15 9 = 0
      ∧ bits t 27 16 = 0 ∧ bits t 35 28 = 0 ∧ bits t 47 36 = 1 ∧ t % 4 = 1 ∧ t ≠ 0 := by
    unfold bits; cases block <;> simp only [Bool.false_eq_true, ite_true, ite_false] at hl <;> omega
  have e4 : (bits t 8 8 == 1) = block := by
    unfold bits; cases block <;> simp at hl ⊢ <;> omega
  obtain ⟨a0, e1, e2, a1, a2, a3, a4, a5, a6, a7⟩ := e
  refine ⟨a0, ?_, ?_, a4, ?_⟩
  · simp [State.ticketCheck, a7, mod, key, ctx, tkTable, tkEntry, a1, a2, a3, a5, a6, e1, e2, ← hk, tableEntries]
  · simp [State.ticketCheck, a7, mod, key, ctx, tkTable, tkEntry, a1, a2, a3, a5, a6, e1, e2, ← hk, tableEntries, e4]
  · simp [tkKey, tkTable, tkEntry, a2, a3, entryKey]
theorem ticketed_ctx (block : Bool) (st : Nat) : (ticketed block st).ctxOf (ticketed block st).cur.warp = 1 := by
  have h1 : (ticketed block st).crews = two.crews := rfl
  have h2 : (ticketed block st).cur = two.cur := rfl
  have h3 : (two.crews.get (crewTok two.cur.warp)).ctx = 1 := by decide
  unfold State.ctxOf State.crewOf State.crew
  rw [h1, h2, h3]
theorem src64_scalar (s : State) (w l : Nat) (b : Bool) (n : Nat) : s.src64 w l b (.s n) = ((s.warp w).s n).toNat := rfl
theorem ticketed_warps (block : Bool) (st : Nat) :
    (ticketed block st).warps = [(0, { two.warp 0 with sregs := [(4, BitVec.ofNat 64 (ticket block))] })] := rfl
theorem witness_TicketUse (block : Bool) (st : Nat) :
    let s := ticketed block st
    s.same64 (.s 4) = true ∧ s.lead64 (.s 4) = ticket block ∧ (∀ p ∈ s.warps, p.2.waits = [])
      ∧ s.ticketCheck (ticket block) none = 0 ∧ s.ticketCheck (ticket block) (some block) = 0
      ∧ (s.tickets.get (tkKey (ticket block))).reqs = [] ∧ (s.tickets.get (tkKey (ticket block))).reuse = tkReuse (ticket block)
      ∧ (s.tickets.get (tkKey (ticket block))).state = st := by
  intro s
  obtain ⟨h, h1, h2, hr, hk⟩ := ticket_fields block s rfl rfl (ticketed_ctx block st)
  have hw : (s.warp s.cur.warp).s 4 = BitVec.ofNat 64 (ticket block) := by
    unfold State.warp
    rw [show s.warps = _ from ticketed_warps block st]
    rfl
  have hv : s.lead64 (.s 4) = ticket block := by
    rw [State.lead64, src64_scalar, hw, BitVec.toNat_ofNat, Nat.mod_eq_of_lt h]
  have hl : lanesOf s.cur.lanes = [0, 1] := by
    rw [show s.cur = two.cur from rfl]; decide
  rw [hr, hk]
  refine ⟨?_, hv, ?_, h1, h2, rfl, rfl, rfl⟩
  · rw [State.same64, hl]; simp [sameAll, src64_scalar]
  · rw [show s.warps = _ from ticketed_warps block st]
    intro p hp
    rw [List.mem_singleton.1 hp]
    have : (two.warp 0).waits = [] := by decide
    exact this
/-- A ready lane ticket of 8 bytes, and destinations that take them. -/
theorem witness_TicketUse_wide : (let s := ticketed false 2
    let e := { s.tickets.get 0 with width := Width.w64, data := [(0, [1, 2, 3, 4, 5, 6, 7, 8])] }
    clear (.redeem true (.v 4) (.s 4) (.v 2)) { s with tickets := [(0, e)] } = true ∧ e.width = .w64 ∧ e.state = 2 ∧ e.err = none
      ∧ (∃ n, Operand.v 4 = .v n ∧ n % 2 = 0) ∧ (∀ m, Operand.v 2 = .v m → m < 4 ∨ 4 + 2 ≤ m)
      ∧ e.lanes.getLsbD (leader s.cur.lanes) = true ∧ clear (.redeem true (.s 3) (.s 4) (.v 2)) { s with tickets := [(0, e)] } = true) :=
  ⟨by decide, rfl, rfl, rfl, ⟨4, rfl, rfl⟩, fun m h => by cases h; decide, by decide, by decide⟩
theorem witness_TicketUse_clear : clear (.tkdrop (.v 1) (.s 4)) (ticketed false 0) = true
    ∧ clear (.redeem false (.v 1) (.s 4) (.v 2)) (ticketed false 2) = true
    ∧ clear (.redeemX true (.s 4) (.k 6) (.v 2)) (ticketed true 2) = true := by decide
theorem witness_TicketSteps : (let e := roomless.tickets.get (8 * 4096 + 0)
    (∀ p ∈ roomless.warps, p.2.waits = []) ∧ e.reqs = [] ∧ e.data = [] ∧ e.state = 1 ∧ (e.parts.map (·.lane)).Nodup ∧ e.parts.length = 2
      ∧ (∀ o ∈ e.parts, o.mig = false ∧ roomless.readBad o.pa e.partBytes = false) ∧ e.deadline ≤ roomless.cycle) := by decide
/-- A pending entry of one lane whose read is request 7 at landing 0. -/
def awaited : State :=
  let op : LaneOp := ⟨0, 0x10_0000_0000_0010, 0x8_0000_0000_0010, 0, 0, false⟩
  let r : Req := ⟨.ticket (64 * 4096), 0, 1, op.va, op.pa, 16, 4, 0, [op], 0, some 3, 9000, false⟩
  { far with
    reqs := [(7, r)], tickets := [(64 * 4096, { (default : TicketEntry) with
      state := 1, ctx := 1, deadline := 9000, width := .w32, lanes := 1, bytes := 4, parts := [op], reqs := [7] })] }
theorem witness_TicketSteps_answer : ∃ r, awaited.reqs.find 7 = some r ∧ (let e := awaited.tickets.get (64 * 4096 + 0)
    e.state = 1 ∧ e.reqs = [7] ∧ e.data = [] ∧ awaited.answers 7 r = true
      ∧ awaited.fabricFault r.ctx r.pa r.size false = none ∧ (r.ops.map (·.lane)).Nodup ∧ (∀ p ∈ awaited.warps, p.2.waits = [])
      ∧ (∀ o ∈ r.ops, o.mig = false ∧ awaited.readBad o.pa e.partBytes = false) ∧ awaited.cycle < e.deadline) := ⟨_, rfl, by decide⟩

theorem witness_PoolRequests : linked.attached 0 = true ∧ linked.portLost 0 = false ∧ linked.same64 (.lit32 9000) = true ∧ linked.same32 .z = true
    ∧ attrOk (linked.lead64 (.lit32 9000)) (linked.lead32 .z) = true ∧ clear (.lalloc (.v 2) (.lit32 9000) .z (.v 1)) linked = true
    ∧ linked.lead32 .z = 0 ∧ clear (.lquota (.v 2) .z) linked = true := by decide
def holding : State := { (linked.setWarp 0 { linked.warp 0 with sregs := [(4, 0x10_0000_0000_0000)] }) with reqs := [] }
theorem witness_PoolRequests_free : holding.attached 0 = true ∧ holding.portLost 0 = false ∧ holding.same64 (.s 4) = true
    ∧ 2 ^ 52 ≤ holding.lead64 (.s 4) ∧ (holding.lead64 (.s 4) - 2 ^ 52) / 2 ^ 46 = 0 ∧ holding.outstanding holding.cur.warp = 0
    ∧ holding.curWarp.remoteErr = none ∧ clear (.lfree (.v 1) (.s 4)) holding = true := by decide
/-- Lanes 0 and 1 wait for request 7 of this kind at landing 0; the pool's table levels stand. -/
def pooled (k : ReqKind) : State :=
  let r : Req := ⟨k, 0, 1, 0, 0, 0, 0, 0, [], 0, some 3, 9000, false⟩
  { (linked.setWarp 0 { two.warp 0 with waits := [⟨3, 0x1800, 2, 0, .pool 7 (.v 2) (.v 1)⟩] }) with
    reqs := [(7, r)], mem := linked.mem.write 0x11000 (natToBytes 8 0x12001) }
theorem witness_PoolAnswers (k : ReqKind) : ∃ r y, (pooled k).reqs.find 7 = some r ∧ r.open_ (pooled k) = true ∧ r.kind = k
    ∧ ((pooled k).warp r.warp).waits = [y] ∧ y.wait = .pool 7 (.v 2) (.v 1) := ⟨_, _, rfl, rfl, rfl, rfl, rfl⟩
theorem witness_PoolAnswers_grant : ((pooled (.alloc 9000 0 none)).landings.get 0).canGrant (roundedSize 9000 0) 0 0x4000 = true
    ∧ roundedSize 9000 0 ≤ ((pooled (.alloc 9000 0 none)).landings.get 0).remaining 1
    ∧ (pooled (.alloc 9000 0 none)).installBad 1 0 true (poolBase 0 + 0x4000) (roundedSize 9000 0 / 2 ^ pageBits (attrPage 0)) = none
    ∧ ((pooled (.alloc 9000 0 none)).installPages 1 0 true (poolBase 0 + 0x4000) (roundedSize 9000 0 / 2 ^ pageBits (attrPage 0))).isSome = true := by decide
theorem witness_PoolAnswers_free : (let s := pooled (.free 0x10_0000_0000_0000)
    let a : PoolAlloc := ⟨1, 0, 0x2000, 0, false, none⟩
    (s.landings.get 0).startsAt 1 0 = some a ∧ s.endBad (s.reqs.get 7) a = none ∧ s.reqs.find 7 = some (s.reqs.get 7)
      ∧ ∀ p ∈ s.tickets, p.2.state ≠ 1) := by decide +kernel

/-- `linked` with lanes 0 and 1 waiting for load 7 from landing 0. -/
def asked : State :=
  let m : MemWait := ⟨false, .w32, 4, none, .v 1, [7], [], [], false, false⟩
  let r : Req := ⟨.load, 0, 1, 0x10_0000_0000_0010, 0x8_0000_0000_0010, 8, 4, 0,
    [⟨0, 0x10_0000_0000_0010, 0x8_0000_0000_0010, 0, 0, false⟩, ⟨1, 0x10_0000_0000_0014, 0x8_0000_0000_0014, 0, 0, false⟩], 0, some 3, 90, false⟩
  { (linked.setWarp 0 { two.warp 0 with waits := [⟨3, 0x1800, 1, 0, .mem m⟩] }) with reqs := [(7, r)] }
theorem witness_RequestAnswers_load : ∃ r y m, asked.reqs.find 7 = some r ∧ (asked.warp 0).waits = [y] ∧ y.wait = .mem m ∧ r.kind = .load
    ∧ m.reqs = [7] ∧ m.got = [] ∧ m.faults = [] ∧ m.atomic = false ∧ m.ext = none ∧ r.open_ asked = true ∧ asked.behindWrite 7 r = false
    ∧ asked.fabricFault r.ctx r.pa r.size false = none ∧ m.d = .v 1 ∧ m.bytes < 8 ∧ m.width.bytes = r.bytes ∧ r.bytes < 8
    ∧ (r.ops.map (·.lane)).Nodup
    ∧ (∀ o ∈ r.ops, o.lane < 32 ∧ y.lanes.getLsbD o.lane = true ∧ asked.readBad o.pa r.bytes = false) :=
  ⟨_, _, _, rfl, rfl, rfl, by decide⟩
/-- Lanes 0 and 1 wait for `reqs` of one instruction with these bytes for each lane, lane 1's value in; request 7 is lane 0's. -/
def askedFor (kind : ReqKind) (n : Nat) (w : Width) (ext : Option IntTy) (reqs : List Nat) : State :=
  let m : MemWait := ⟨ext.isSome, w, n, ext, .v 4, reqs, [(1, 5)], [], false, false⟩
  let o : LaneOp := ⟨0, 0x10_0000_0000_0010, 0x8_0000_0000_0010, 3, 0, false⟩
  { (linked.setWarp 0 { two.warp 0 with waits := [⟨3, 0x1800, 1, 0, .mem m⟩] }) with
    reqs := [(7, ⟨kind, 0, 1, o.va, o.pa, n, n, 0, [o], 0, some 3, 9000, false⟩)] }
def answeredBy (s : State) : Bool :=
  let r := s.reqs.get 7
  r.open_ s && !s.behindWrite 7 r && s.fabricFault r.ctx r.pa r.size r.writes == none
    && r.ops.all fun o => !s.readBad o.pa r.bytes && !s.chanFailed (s.ownAddr o.pa)
theorem witness_RequestAnswers_wide : answeredBy (askedFor .load 8 .w64 none [7]) = true ∧ answeredBy (askedFor .load 16 .w128 none [7]) = true
    ∧ answeredBy (askedFor .load 16 .w128 none [6, 7]) = true ∧ (∃ k ∈ [6, 7], k ≠ 7)
    ∧ ([1, 0] : List Nat).Nodup ∧ (∀ p ∈ ([(1, 5)] : FMap Nat), p.1 < 32 ∧ (3 : LaneSet).getLsbD p.1 = true ∧ p.2 < 2 ^ (8 * 16)) := by
  decide
theorem witness_RequestAnswers_atomic : answeredBy (askedFor (.atom .add (.int .i32) true) 4 .w32 (some .i32) [7]) = true
    ∧ AtomOp.add.tyOk (.int .i32) = true ∧ answeredBy { askedFor (.atom .add (.int .i32) false) 4 .w32 none [] with warps := two.warps } = true
    ∧ (two.warp 0).waits = [] := by decide
/-- A context with a handler. -/
def handled (s : State) : State := s.setCtx 1 { s.ctx 1 with trapbase := 0x6000 }
theorem witness_RequestAnswers_timeout : (asked.reqs.get 7).deadline ≤ asked.cycle ∧ ((handled asked).warp 0).handler = none
    ∧ ((handled asked).ctx ((handled asked).ctxOf 0)).trapbase ≠ 0 ∧ ((handled asked).warp 0).chainA = none
    ∧ ((handled asked).warp 0).chainB = none ∧ ((handled asked).crewOf 0).saving = false ∧ (handled asked).cur.pairs = false := by decide
theorem witness_RequestAnswers_saving : (let s := { asked.setCrew 0 { asked.crew 0 with saving := true, savingAt := 1 } with cycle := 90000 }
    (s.warp 0).handler = none ∧ (s.crewOf 0).saving = true ∧ (s.crewOf 0).savingAt < s.cycle ∧ (s.reqs.get 7).deadline ≤ s.cycle) := by decide
theorem witness_RequestAnswers_store : ∃ r, linked.reqs.find 4 = some r ∧ r.kind = .store ∧ r.open_ linked = true ∧ linked.behindWrite 4 r = false
    ∧ linked.fabricFault r.ctx r.pa r.size true = none ∧ Good linked ∧ (∀ o ∈ r.ops, linked.chanFailed (linked.ownAddr o.pa) = false)
    ∧ (linked.warp 0).live = true ∧ (linked.warp 0).remoteErr = none ∧ r.deadline ≤ linked.cycle + 9000 ∧ (linked.warp 0).waits = []
    ∧ ((linked.ports.get 0).retired.find 5) = some 50 ∧ 50 ≤ linked.cycle :=
  ⟨_, rfl, rfl, by decide, by decide, by decide, by unfold Good; decide, by decide⟩
theorem witness_RequestAnswers_lost : (let s : State := { linked with cycle := 9000, silent := [(0, true)] }
    ∃ r, s.reqs.find 4 = some r ∧ r.kind = .store ∧ r.deadline ≤ s.cycle ∧ s.answers 4 r = false) := ⟨_, rfl, by decide⟩
/-- A pending entry whose read is request 7. -/
def reading : State := { two with
  cycle := 10, reqs := [(7, { (default : Req) with kind := .ticket 0, deadline := 10 })]
  tickets := [(0, { (default : TicketEntry) with state := 1, reqs := [7] })] }
theorem witness_RequestAnswers_ticket : (reading.reqs.get 7).kind = .ticket 0 ∧ 7 ∈ (reading.tickets.get 0).reqs ∧ (∀ p ∈ reading.warps, p.2.waits = [])
    ∧ (reading.reqs.get 7).deadline ≤ reading.cycle ∧ ((pooled .quota).reqs.get 7).kind = .quota := by decide

/-! ### Engines -/

/-- A layout record of 2 × 4 words of .f32, a descriptor of one tile of 32 × 64, a launch record of one crew; all zero filled. -/
def layoutBytes : List Byte :=
  [1, 0, 0, 2, 9, 1, 0, 0] ++ natToBytes 8 0x8600 ++ [4, 2, 1, 1, 1].flatMap (natToBytes 4) ++ [4, 2, 1, 1, 1].flatMap (natToBytes 2)
    ++ [0, 0] ++ natToBytes 4 4 ++ List.replicate 12 0
def descBytes : List Byte :=
  [1, 0, 2, 4] ++ [32, 64, 1, 1, 1].flatMap (natToBytes 4) ++ [32, 64, 1, 1, 1].flatMap (natToBytes 2) ++ List.replicate 6 0
    ++ natToBytes 8 0x8700 ++ natToBytes 8 0x8800 ++ natToBytes 8 8 ++ List.replicate 64 0
def launchBytes : List Byte :=
  [1, 0, 0, 0] ++ natToBytes 4 1 ++ natToBytes 8 0x6000 ++ [64, 1, 1, 0] ++ natToBytes 4 8192 ++ List.replicate 232 0
/-- The memory that lists these bytes from an address on. -/
def cells (a : Nat) : List Byte → Memory
  | [] => []
  | b :: t => if b = 0 then cells (a + 1) t else (a, b) :: cells (a + 1) t
/-- They stand in a page of home 1 at 0x8000, 0x8100, 0x8200; s4, s6, s8 hold the addresses, s10 to s13 a bulk command; scratchpad bytes 0 to
15 are a kvput header, 64 to 79 a binning table's header, 128 to 143 an armed counter that has reached its target. -/
def recorded : State :=
  let m := two.mem ++ cells 0x40000 layoutBytes ++ cells 0x40100 descBytes ++ cells 0x40200 launchBytes
    ++ cells 0x100_1000_0000 (natToBytes 4 0 ++ natToBytes 4 4) ++ cells 0x100_1000_0040 (natToBytes 4 2 ++ natToBytes 4 1)
    ++ cells 0x100_1000_0080 (Counter.bytes ⟨40, 32, true, false, true, 0, 3⟩)
  { (((two.setWarp 0 { two.warp 0 with
      sregs := [(4, 0x8000), (6, 0x8100), (8, 0x8200), (10, 0x200), (11, 0x300), (12, 64), (13, 0)] }).setCore 0 { two.core 0 with
      tlb := [⟨1, 4, 13, 0x408E5⟩] })) with mem := m }
def heldOk (s : State) (va n : Nat) (bs : List Byte) : Bool :=
  decide (va < 2 ^ 53) && match s.xlateWarp s.cur.warp va .read with
  | .ok x => !x.packed && !x.mig && !isRemote x.pa && !s.openWrite x.pa n && !s.readBad x.pa n && s.readPhys x.pa n == bs && x.home != 0
  | _ => false
theorem held_of_ok {s : State} {va n : Nat} {bs : List Byte} (h : heldOk s va n bs = true) : recordHeld s va n bs := by
  unfold heldOk at h
  simp only [Bool.and_eq_true, decide_eq_true_eq] at h
  obtain ⟨h1, h2⟩ := h
  split at h2
  · rename_i x hx
    simp only [Bool.and_eq_true, Bool.not_eq_true', bne_iff_ne, beq_iff_eq] at h2
    obtain ⟨⟨⟨⟨⟨⟨a, b⟩, c⟩, o⟩, d⟩, e⟩, f⟩ := h2
    exact ⟨h1, x, hx, a, b, c, o, d, e, fun h => absurd h f⟩
  · cases h2
/-- A record on a page of home 0 of which L1 holds a sector. -/
theorem witness_recordHeld : (let s := two.setCore 0 { two.core 0 with l1 := [(0x20040 / 16, List.replicate 16 0)] }
    ∃ x, s.xlateWarp 0 0x6040 .read = .ok x ∧ x.packed = false ∧ x.mig = false ∧ isRemote x.pa = false ∧ s.readBad x.pa 64 = false
      ∧ x.home = 0 ∧ x.pa % 16 = 0 ∧ (s.core 0).l1.find (x.pa / 16) = some (s.readPhys x.pa 16)) := ⟨_, rfl, by decide⟩
def theLayout : Layout := (parseLayout layoutBytes).getD default
def theDesc : Desc := (parseDesc descBytes).getD default
theorem layout_parses : parseLayout layoutBytes = some theLayout ∧ parseDesc descBytes = some theDesc := by decide +kernel
theorem witness_CopyIssue : recorded.lead64 (.s 4) % 64 = 0 ∧ recordHeld recorded (recorded.lead64 (.s 4)) 64 layoutBytes
    ∧ theLayout.packed = false ∧ coordOk (tileCounts theLayout.shape theLayout.tile) (recorded.lead64 .z) = true
    ∧ recorded.lead64 .z % 2 ^ 32 % 16 = 0 ∧ product theLayout.tile * theLayout.z ≤ (recorded.crewOf 0).size
    ∧ clear (.cpyLd .raw 3 .plain false (.s 1) (.s 4) .z .z) recorded = true
    ∧ recorded.engineRoom 0 (.cpyLd .raw 3 .plain false (.s 1) (.s 4) .z .z) = true
    ∧ clear (.cpySt true 0 .crc true (.s 1) (.s 4) .z .z) recorded = true :=
  ⟨by decide +kernel, held_of_ok (by decide +kernel), by decide +kernel⟩
def packedRecord : List Byte := [1, 0, 1, 0, 0, 1, 0, 0] ++ natToBytes 8 0x8100 ++ List.replicate 48 0
theorem witness_CopyIssue_packed : (parseLayout packedRecord).isSome = true ∧ ((parseLayout packedRecord).getD default).packed = true
    ∧ ((parseLayout packedRecord).getD default).base = 0x8100 ∧ recordHeld recorded 0x8100 128 descBytes
    ∧ coordOk (tileCounts theDesc.shape theDesc.tile) 0 = true :=
  ⟨by decide +kernel, by decide +kernel, by decide +kernel, held_of_ok (by decide +kernel), by decide +kernel⟩
theorem witness_patch : patchAllowed 0x10_0000_0000 true := by unfold patchAllowed; decide
theorem witness_QueueIssue_bulk : (recorded.curWarp.s 10).toNat % 16 = 0 ∧ (recorded.curWarp.s 11).toNat % 16 = 0
    ∧ (recorded.curWarp.s 12).toNat = 64 ∧ (recorded.curWarp.s 10).toNat + 64 ≤ (recorded.crewOf 0).size
    ∧ clear (.bulk true true false false (.s 1) (.s 10)) recorded = true
    ∧ recorded.engineRoom 0 (.bulk true true false false (.s 1) (.s 10)) = true := by decide +kernel
theorem witness_QueueIssue_encoder : recorded.lead64 (.s 6) % 128 = 0 ∧ recordHeld recorded (recorded.lead64 (.s 6)) 128 descBytes
    ∧ coordOk (tileCounts theDesc.shape theDesc.tile) (recorded.lead64 .z) = true
    ∧ recorded.badWord ((recorded.crewOf 0).phys 0) 16 = false
    ∧ recorded.mem.read ((recorded.crewOf 0).phys 0) 16 = natToBytes 4 0 ++ natToBytes 4 4 ++ natToBytes 8 0 ∧ 4 ≤ theDesc.size
    ∧ clear (.kvput .f32 (.s 1) (.s 6) .z .z) recorded = true ∧ recorded.engineRoom 0 (.kvput .f32 (.s 1) (.s 6) .z .z) = true
    ∧ clear (.ctload true 7 (.s 1) .z) recorded = true ∧ clear (.ctsave false 0 .z (.s 6)) recorded = true :=
  ⟨by decide +kernel, held_of_ok (by decide +kernel), by decide +kernel⟩
theorem witness_QueueIssue_bin : recorded.lead32 (.k 4) = 4 ∧ recorded.lead32 (.lit32 0x100) % 4 = 0 ∧ recorded.lead32 (.lit32 64) = 64
    ∧ recorded.badWord ((recorded.crewOf 0).phys 64) 16 = false ∧ recorded.mem.read ((recorded.crewOf 0).phys 64) 16 = natToBytes 4 2 ++ natToBytes 4 1
      ++ natToBytes 8 0 ∧ clear (.bin true (.s 1) (.lit32 0x100) (.k 4) (.s 40)) recorded = true
    ∧ recorded.engineRoom 0 (.bin true (.s 1) (.lit32 0x100) (.k 4) (.s 40)) = true := by decide +kernel
theorem witness_DeckIssue : recorded.curWarp.taskBuf = [] ∧ clear (.mload (.tile .f16) .z .z) recorded = true ∧ recorded.lead32 .z % 16 = 0
    ∧ 32768 ≤ (recorded.crewOf 0).size ∧ clear .mswap recorded = true ∧ clear (.mmul 3 true .bf16 15 .z) recorded = true
    ∧ clear (.mdrain .vreg 0 (.v 64) (.k 1) .z) recorded = true := by decide +kernel
theorem witness_DeckIssue_records : recordHeld recorded (recorded.lead64 (.s 4)) 64 layoutBytes ∧ drainRecord true theLayout = true
    ∧ coordOk (tileCounts theLayout.shape theLayout.tile) 0 = true ∧ recordHeld recorded (recorded.lead64 (.s 6)) 128 descBytes
    ∧ matDesc ⟨4, false, false⟩ theDesc = true :=
  ⟨held_of_ok (by decide +kernel), by decide +kernel, by decide +kernel, held_of_ok (by decide +kernel), by decide +kernel⟩
def buffered : State := recorded.setWarp 0 { recorded.warp 0 with taskBuf := [.swap] }
theorem witness_DeckIssue_task : clear (.mtask (.s 1) .z) buffered = true ∧ buffered.engineRoom 0 (.mtask (.s 1) .z) = true
    ∧ buffered.curWarp.taskBuf ≠ [] ∧ ∀ k, k < 64 → (buffered.lead64 .z).testBit k = true → ((buffered.crewOf 0).tags.get k).defined = true := by decide +kernel

theorem witness_CountersFencesTags_arm : Good recorded ∧ clear (.arminit (.v 2) (.k 6) (.k 5)) recorded = true ∧ (recorded.crew 0).resident = true
    ∧ recorded.lead32 (.k 6) = 16 ∧ recorded.lead32 (.k 5) ≠ 0 := ⟨by unfold Good; decide +kernel, by decide +kernel⟩
theorem witness_CountersFencesTags_await : recorded.lead32 (.lit32 128) = 128 ∧ recorded.counterPlace 0 128 = some (0, 128)
    ∧ (recorded.counter 0 128).armed = true ∧ (recorded.counter 0 128).complete = true ∧ clear (.await (.v 1) (.lit32 128)) recorded = true
    ∧ clear (.arrive (.lit32 128) (.k 5)) recorded = true ∧ (∀ p ∈ recorded.warps, p.2.waits = []) := by decide +kernel
def arming : State := { recorded with mem := recorded.mem.write 0x100_1000_0080 (Counter.bytes ⟨4, 32, true, false, false, 0, 3⟩) }
theorem witness_CountersFencesTags_wait : (arming.counter 0 128).armed = true ∧ (arming.counter 0 128).complete = false
    ∧ (arming.counter 0 128).error = false ∧ clear (.await (.v 1) (.lit32 128)) arming = true := by decide +kernel
def entry (op : EngOp) : EngEntry := ⟨1, 0, 0, 1, .s 1, none, none, none, false, [], [], none, op⟩
/-- A queue of core 0 holds this operation, number 1. -/
def queued (q : Nat) (op : EngOp) : State :=
  let g : Engines := ⟨[], [], [], [], []⟩
  let s := recorded.setWarp 0 { recorded.warp 0 with pending := [⟨.s 1, 1, 1⟩] }
  ({ s with nextOp := 2 } : State).setEngs 0 (g.setList q [entry op])
theorem witness_CountersFencesTags_fence : (let s := queued 1 (.load .raw false false layoutBytes 0 0 32 0 0)
    clear (.qfence 3) s = true ∧ s.engineRoom 0 (.qfence 3) = true ∧ (∀ k, k < 8 → (s.engs 0).fenceAt k = none)
      ∧ (∀ k, k < 8 → ∀ e ∈ (s.engs 0).list k, e.num < s.nextOp) ∧ (s.engs 0).deck = [] ∧ (3 : Nat).testBit 1 = true ∧ (s.engs 0).count 1 ≠ 0
      ∧ (∀ k, k < 7 → (4 : Nat).testBit k = true → (s.engs 0).count k = 0)) := by decide +kernel
def tagged : State := recorded.setCrew 0 { recorded.crew 0 with tags := [(5, ⟨true, true, 0x400, 0x500⟩)] }
theorem witness_CountersFencesTags_tags : clear (.tagset (.v 1) (.lit32 0x20004) (.lit32 0x500)) tagged = true
    ∧ (∀ p ∈ (tagged.crew 0).tags, p.1 ≠ 4 → p.2.defined = true → 0x520 ≤ p.2.lo ∨ p.2.hi ≤ 0x500) ∧ ((tagged.crew 0).tags.get 4).defined = false
    ∧ ((tagged.crew 0).tags.get 5).defined = true ∧ tagged.lead32 (.lit32 0x105) / 2 ^ 8 % 4 = 1 ∧ tagged.lead32 (.lit32 0x305) / 2 ^ 8 % 4 = 3 := by decide +kernel

def loadOp : EngOp := .load .raw true false layoutBytes 0 0 32 0 0
def storeOp : EngOp := .store false false false layoutBytes 0 0 32 0 0
theorem witness_CopiesPerformed_load : (queued 1 loadOp).headReady 0 1 = some (entry loadOp) ∧ theLayout.packed = false
    ∧ (let out := (loadElems ((queued 1 loadOp).agentOf (entry loadOp) 0) theLayout 0 0 0 (List.range (product theLayout.tile)) [] (queued 1 loadOp)).1
       out.stop = none ∧ out.dec = none) := by decide +kernel
theorem witness_CopiesPerformed_store : (queued 2 storeOp).headReady 0 2 = some (entry storeOp)
    ∧ (let g := (queued 2 storeOp).agentOf (entry storeOp) 0
       let out := (storePlain g theLayout 0 false (fun te => engSpad g 0 (0 + theLayout.z * te) theLayout.z)
        (List.range (product theLayout.tile)) (queued 2 storeOp)).1
       out.stop = none ∧ out.dec = none) := by decide +kernel
theorem witness_CopiesPerformed_shape : inShape theLayout.shape (elemCoord theLayout.tile 1 0) = false := by decide +kernel
/-- The elements of `layoutBytes` stand at 0x40600 on. -/
def elementPa (te : Nat) : Nat := 0x40600 + 4 * te
def elementsOk (s : State) : Bool :=
  (List.range (product theLayout.tile)).all fun te => match elementAt theLayout 0 te with
    | some va => decide (va < 2 ^ 53) && !s.openWrite (elementPa te) theLayout.z && !s.chanFailed (elementPa te) && !s.readBad (elementPa te) theLayout.z
      && !s.badWord ((s.crew 0).phys (4 * te)) theLayout.z
      && (match s.xlate 0 1 va .both with
        | .ok x => x.pa == elementPa te && !x.packed && !x.mig && !isRemote x.pa
        | _ => false)
    | none => false
theorem witness_ElementsMoved : elementsOk (queued 1 (.load .raw false false layoutBytes 0 0 32 0 0)) = true ∧ elementsOk (queued 2 storeOp) = true
    ∧ parseLayout layoutBytes = some theLayout ∧ theLayout.packed = false ∧ theLayout.z = 4 ∧ theLayout.ilv = 1
    ∧ (queued 1 (.load .raw false false layoutBytes 0 0 32 0 0)).headReady 0 1 = some (entry (.load .raw false false layoutBytes 0 0 32 0 0))
    ∧ (entry storeOp).count = none ∧ (entry storeOp).failed = [] ∧ 0x40600 + 4 * product theLayout.tile ≤ ((queued 2 storeOp).crew 0).phys 0
    ∧ elementAt theLayout 1 0 = none := by decide +kernel
theorem witness_ElementsMoved_good : Good (queued 1 loadOp) ∧ Good (queued 2 storeOp) := by unfold Good; decide +kernel
/-- The record of `layoutBytes` with its tensor at another address: outside the address space, on a page that the TLB misses. -/
def layoutFrom (b : Nat) : List Byte := layoutBytes.take 8 ++ natToBytes 8 b ++ layoutBytes.drop 16
def loadFrom (b : Nat) : EngOp := .load .raw false false (layoutFrom b) 0 0 32 0 0
def stopOf (b : Nat) : Option EngStop :=
  let l := (parseLayout (layoutFrom b)).getD default
  let s := queued 1 (loadFrom b)
  (loadElems (s.agentOf (entry (loadFrom b)) 0) l 0 0 0 (List.range (product l.tile)) [] s).1.stop
theorem witness_CopiesPerformed_ends : stopOf 0x20_0000_0000_0000 = some (.cause 6) ∧ stopOf 0xA000 = some (.miss 0xA000 1)
    ∧ (queued 1 (loadFrom 0xA000)).headReady 0 1 = some (entry (loadFrom 0xA000)) := by decide +kernel
def drainOp : EngOp := .drain false layoutBytes 0 [List.replicate 64 0, List.replicate 64 0] 1
theorem witness_CopiesPerformed_drain : (queued 0 drainOp).headReady 0 0 = some (entry drainOp)
    ∧ (storePlain ((queued 0 drainOp).agentOf (entry drainOp) 0) theLayout 0 false
        (fun te => pure (drainBytes theLayout.elem (([List.replicate 64 0, List.replicate 64 0].getD (te / 4) []).getD (te % 4) 0)))
        ((List.range (product theLayout.tile)).filter fun te => te / 4 < 2) (queued 0 drainOp)).1.stop = none := by decide +kernel
def packedOp : EngOp := .load (.values .f32) false false packedRecord 0 0 32 0 0
theorem witness_CopiesPerformed_packed : (queued 1 packedOp).headReady 0 1 = some (entry packedOp)
    ∧ (let out := (loadPacked ((queued 1 packedOp).agentOf (entry packedOp) 0) (.values .f32) 0x8100 0 0 0 32 (queued 1 packedOp)).1
       out.stop = some (.cause 8)) := by decide +kernel
def bulkOp : EngOp := .bulk true false false 0x200 0x8300 32 0
def remoteBulk (len : Nat) : EngOp := .bulk true true true 0x200 0x8300 (BitVec.ofNat 64 len) 5
theorem witness_CopiesPerformed_refused : (queued 6 (remoteBulk 32)).headReady 0 6 = some (entry (remoteBulk 32))
    ∧ (queued 6 (remoteBulk 32)).bulkEnd 1 true true 0x8300 32 5 = .refused
    ∧ (queued 6 (remoteBulk 0)).headReady 0 6 = some (entry (remoteBulk 0))
    ∧ (queued 6 (remoteBulk 0xFFFFFF)).headReady 0 6 = some (entry (remoteBulk 0xFFFFFF)) := by decide +kernel
theorem witness_CopiesPerformed_plain : (queued 6 (.bulk false false true 0x8200 0x8300 32 5)).headReady 0 6
      = some (entry (.bulk false false true 0x8200 0x8300 32 5)) ∧ (queued 6 bulkOp).bulkEnd 1 false true 0x8300 32 5 = .refused := by decide +kernel
theorem witness_CopiesPerformed_bulk : (queued 6 bulkOp).headReady 0 6 = some (entry bulkOp)
    ∧ (bulkPieces ((queued 6 bulkOp).agentOf (entry bulkOp) 0) true false 0 .none 3 0x200 0x8300 32 0 (queued 6 bulkOp)).1.stop = none := by decide +kernel

/-- The handle of the counter at 128 of crew 0 (R306) with these check bits, and those of its keyed check. -/
def handleWith (c : Nat) : Nat := c * 2251799813685248 + 549755814400
def handleCheckBits : Nat := (Config.handleCheck 0 549755814400).toNat % 8192
theorem handle_fields (c : Nat) (hc : c < 8192) : handleWith c < 18446744073709551616 ∧ handleWith c % 64 = 0 ∧ bits (handleWith c) 38 23 = 0
    ∧ bits (handleWith c) 22 6 = 8 ∧ bits (handleWith c) 63 51 = c ∧ bits (handleWith c) 50 39 = 1
    ∧ handleWith c % 2251799813685248 = 549755814400 := by
  simp only [handleWith, bits]; omega
theorem handle_check : handleCheckBits < 8192 := by
  unfold handleCheckBits; exact Nat.mod_lt _ (Nat.succ_pos _)
theorem handle_key : (Config.handleCheck 0 549755814400).toNat % 8192 = handleCheckBits := by unfold handleCheckBits; rfl
theorem handle_target (s : State) (key : s.key = 0) (live : (s.crew 0).live = true) (ctx : (s.crew 0).ctx = 1) (size : 144 ≤ (s.crew 0).size)
    (h c : Nat) (h3 : bits h 38 23 = 0) (h4 : bits h 22 6 = 8) (h5 : bits h 63 51 = c) (h6 : bits h 50 39 = 1)
    (h7 : h % 2251799813685248 = 549755814400) (h8 : (Config.handleCheck 0 549755814400).toNat % 8192 = c) :
    s.handleTarget h = some (0, 128) := by
  simp [State.handleTarget, h3, h4, h5, h6, h7, key, live, ctx, size, h8]
theorem handle_here (s : State) (mod : s.module_ = 0) (h : Nat) (t : s.handleTarget h = some (0, 128)) (h2 : h % 64 = 0) :
    s.bulkEnd 1 false true 0x8300 32 h = .here 0 128 := by
  have m : handleModule h = 0 := by unfold handleModule bits; omega
  simp [State.bulkEnd, m, mod, t]
theorem witness_CopiesPerformed_arrival : Good recorded ∧ (recorded.crew 0).resident = true ∧ 0x400 + 16 ≤ (recorded.crew 0).size
    ∧ (0x400 + 16 ≤ 128 ∨ 128 + 16 ≤ 0x400) ∧ ∃ h : Nat, h < 18446744073709551616 ∧ h % 64 = recorded.module_
      ∧ recorded.handleTarget h = some (0, 128) ∧ recorded.bulkEnd 1 false true 0x8300 32 h = .here 0 128 := by
  obtain ⟨h1, h2, h3, h4, h5, h6, h7⟩ := handle_fields _ handle_check
  have hm : recorded.module_ = 0 := by decide +kernel
  have t := handle_target recorded (by decide +kernel) (by decide +kernel) (by decide +kernel) (by decide +kernel) _ _ h3 h4 h5 h6 h7 handle_key
  rw [hm]
  exact ⟨by unfold Good; decide +kernel, by decide +kernel, by decide +kernel, by decide, _, h1, h2, t, handle_here _ hm _ t h2⟩
/-- Crew 0 swapped out. -/
def imaged : State := recorded.setCrew 0 { recorded.crew 0 with resident := false, image := List.replicate (recorded.crew 0).size 0 }
theorem witness_CopiesPerformed_away : (imaged.crew 0).resident = false ∧ (imaged.crew 0).image.length = (imaged.crew 0).size
    ∧ ∃ h : Nat, h < 18446744073709551616 ∧ h % 64 = imaged.module_ ∧ imaged.handleTarget h = some (0, 128) := by
  obtain ⟨h1, h2, h3, h4, h5, h6, h7⟩ := handle_fields _ handle_check
  have hm : imaged.module_ = 0 := by decide +kernel
  have t := handle_target imaged (by decide +kernel) (by decide +kernel) (by decide +kernel) (by decide +kernel) _ _ h3 h4 h5 h6 h7 handle_key
  rw [hm]
  exact ⟨by decide +kernel, by rw [show (imaged.crew 0).image = List.replicate (recorded.crew 0).size 0 from rfl, List.length_replicate]; rfl,
    _, h1, h2, t⟩

/-- A deck whose one task has the step mswap alone. -/
def decked (running : Bool) (ended : Option (Nat × Option Trap)) : State :=
  let t : DeckTask := { (default : DeckTask) with num := 1, ctx := 1, st := .s 1, steps := [.swap], running := running, begun := running, ended := ended }
  let s := recorded.setWarp 0 { recorded.warp 0 with pending := [⟨.s 1, 1, 1⟩] }
  s.setEngs 0 ⟨[], [], [t], [], []⟩
theorem witness_DeckPerformed_start : ((decked false none).engs 0).deck.length = 1 ∧ (decked false none).taskStarts 0 0 = true
    ∧ (((decked false none).engs 0).deck.getD 0 default).steps = [.swap] := by decide +kernel
theorem witness_DeckPerformed_end : (((decked true (some (256, none))).engs 0).deck.getD 0 default).ended = some (256, none)
    ∧ ⟨.s 1, 1, 1⟩ ∈ ((decked true (some (256, none))).warp 0).pending := by decide +kernel
/-- A running task of one step, and what that step gives. -/
def deckedBy (x : DeckOp) : State :=
  let s := decked true none
  s.setTask 0 { (s.engs 0).deck.getD 0 default with steps := [x] }
def stepOf (x : DeckOp) : Except EngStop StepOut :=
  let s := deckedBy x
  let t := (s.engs 0).deck.getD 0 default
  (runEng (deckStep ⟨0, t.ctx, t.failed, some t.walked, s.lateSince t.ctx t.linkSince⟩ t x) s).1
theorem witness_DeckPerformed_steps : (let s := deckedBy .swap
    s.taskGoes ((s.engs 0).deck.getD 0 default) = true ∧ ((s.engs 0).deck.getD 0 default).at_ + 1 = 1
      ∧ (s.engs 0).count 0 < 16 ∧ ([0, 1, 2, 3, 6].map (s.engs 0).count).sum < 128)
    ∧ (match stepOf (.load (.acc 0) 0x100 0) with
      | .ok (.go _) => true
      | _ => false) = true
    ∧ (match stepOf (.drain .glob 0 .z 0x8000 0 layoutBytes) with
      | .ok (.copy ..) => true
      | _ => false) = true
    ∧ (match stepOf (.load (.packed ⟨4, false, false⟩) 0x20000000000000 0) with
      | .error (.cause _) => true
      | _ => false) = true := by decide +kernel
theorem witness_DeckPerformed_trap : (((decked true (some (261, some default))).engs 0).deck.getD 0 default).ended = some (261, some default)
    ∧ ⟨.s 1, 1, 1⟩ ∈ ((decked true (some (261, some default))).warp 0).pending
    ∧ (let s := (decked true (some (261, some default))).setWarp 0 { recorded.warp 0 with pending := [] }
       (s.warp 0).pending = [] ∧ (s.crew 0).gang = 0 ∧ ((s.engs 0).deck.getD 0 default).ended = some (261, some default)) := by decide +kernel
def tableOp : EngOp := .ctload true 2 0x200
def saveOp : EngOp := .ctsave true 2 0x200
def putOp : EngOp := .kvput .f32 0x8100 0 0 0 4
def binOp : EngOp := .bin true 0x200 4 64 2 true
theorem witness_EncoderPerformed : (queued 5 tableOp).headReady 0 5 = some (entry tableOp)
    ∧ (queued 5 tableOp).badWord (((queued 5 tableOp).crew 0).phys 0x200) 128 = false
    ∧ (queued 5 saveOp).headReady 0 5 = some (entry saveOp) ∧ (queued 5 putOp).headReady 0 5 = some (entry putOp) := by decide +kernel
theorem witness_EncoderPerformed_put : (match (runEng (updateBlock ((queued 5 putOp).agentOf (entry putOp) 0) .f32 0x8100 0 0 0 0 4) (queued 5 putOp)).1 with
    | .ok (.status _ _) => true
    | _ => false) = true := by decide +kernel
/-- How an engine action of the head of a queue ends. -/
def endOf {α : Type} (q : Nat) (op : EngOp) (act : Agent → EngM α) : Option EngStop :=
  match (runEng (act ((queued q op).agentOf (entry op) 0)) (queued q op)).1 with
  | .ok _ => none
  | .error e => some e
theorem witness_EncoderPerformed_ends : endOf 5 (.ctload false 2 0x8080) (fun g => engRead g 0x8080 128 false) = none
    ∧ endOf 5 (.ctload false 2 0x20000000000000) (fun g => engRead g 0x20000000000000 128 false) = some (.cause 6)
    ∧ endOf 5 (.ctsave false 2 0x8080) (fun g => engWrite g 0x8080 (tableBytes (List.replicate 256 0)) false) = none
    ∧ endOf 5 (.ctsave false 2 0x20000000000000) (fun g => engWrite g 0x20000000000000 (tableBytes (List.replicate 256 0)) false) = some (.cause 6)
    ∧ endOf 5 (.kvput .f32 0x20000000000000 0 0 0 4) (fun g => updateBlock g .f32 0x20000000000000 0 0 0 0 4) = some (.cause 6)
    ∧ endOf 5 (.kvput .f32 0xA000 0 0 0 4) (fun g => updateBlock g .f32 0xA000 0 0 0 0 4) = some (.miss 0xA000 1)
    ∧ endOf 7 (.bin false 0x8080 4 64 2 true) (fun g => engRead g 0x8080 16 false) = none
    ∧ endOf 7 (.bin false 0x20000000000000 4 64 2 true) (fun g => engRead g 0x20000000000000 16 false) = some (.cause 6) := by decide +kernel
theorem witness_BinPerformed : (queued 7 binOp).headReady 0 7 = some (entry binOp) ∧ (queued 7 binOp).sched.spawns = []
    ∧ (queued 7 binOp).badWord (((queued 7 binOp).crew 0).phys 0x200) 16 = false := by decide +kernel

def theLaunch (held : Bool) : LaunchRec := (parseLaunch held launchBytes).getD default
theorem witness_SpawnAndCancel_spawn : recorded.lead64 (.s 8) % 256 = 0 ∧ recordHeld recorded (recorded.lead64 (.s 8)) 256 launchBytes
    ∧ clear (.spawn false (.v 2) (.s 8) .z) recorded = true ∧ parseLaunch false launchBytes = some (theLaunch false)
    ∧ recorded.placeable (theLaunch false) = true ∧ recorded.freeLaunch = some 1
    ∧ clear (.spawn true (.s 2) (.s 8) (.s 12)) recorded = true ∧ parseLaunch true launchBytes = some (theLaunch true)
    ∧ patchAllowed 0x1_0000_0000 false :=
  ⟨by decide +kernel, held_of_ok (by decide +kernel), by decide +kernel, by decide +kernel, by decide +kernel, by decide +kernel,
    by decide +kernel, by decide +kernel, by unfold patchAllowed; decide⟩
/-- Job 5 of context 1 runs phase 0 of two; s4 holds the handle of its phase 1, s6 that of a phase of context 2. -/
def jobbed : State := { two.setWarp 0 { two.warp 0 with sregs := [(4, 2 ^ 47 + 2 ^ 34 + 5 * 2 ^ 12 + 1), (6, 2 ^ 47 + 2 * 2 ^ 34)] } with
  jobs := [(5, { (default : Job) with live := true, ctx := 1, table := [default, default] })] }
theorem witness_SpawnAndCancel_over : ((jobbed.crews.map (·.1)).foldl State.completeCrew jobbed).curWarp.live = true
    ∧ ((jobbed.crews.map (·.1)).foldl State.completeCrew jobbed).jobs = jobbed.jobs := by decide
theorem witness_SpawnAndCancel_cancel : clear (.cancel (.v 1) (.s 4)) jobbed = true ∧ jobbed.curWarp.live = true ∧ jobbed.lead64 (.s 4) < 2 ^ 48
    ∧ jobbed.lead64 (.s 4) / 2 ^ 34 % 2 ^ 12 = jobbed.ctxOf 0 ∧ jobbed.lead64 (.s 4) / 2 ^ 46 = 2 ∧ jobbed.lead64 (.s 4) / 2 ^ 12 % 2 ^ 22 = 5
    ∧ jobbed.lead64 (.s 4) % 2 ^ 12 = 1 ∧ (jobbed.jobs.get 5).live = true ∧ (jobbed.jobs.get 5).ctx = jobbed.ctxOf 0
    ∧ (jobbed.jobs.get 5).phase < 1 ∧ 1 < (jobbed.jobs.get 5).table.length ∧ jobbed.lead64 (.s 6) / 2 ^ 34 % 2 ^ 12 ≠ jobbed.ctxOf 0 := by decide

/-! ### Traps, control registers, records -/

theorem witness_TrapEntry : clear (.trap 255) (handled two) = true ∧ clear (.brk 1) (handled two) = true ∧ (handled two).curWarp.handler = none
    ∧ (handled two).curWarp.chainA = none ∧ (handled two).curWarp.chainB = none
    ∧ ((handled two).ctx ((handled two).ctxOf (handled two).cur.warp)).trapbase ≠ 0
    ∧ (∀ r ∈ (handled two).curWarp.waits, r.lanes &&& (handled two).cur.lanes = 0 ∧ r.lanes ≠ 0) ∧ (handled two).cur.pairs = false
    ∧ (handled two).curWarp.recA = none ∧ (handled two).curWarp.recB = none := by decide
theorem witness_TrapEntry_pairs : ({ two with cur := { two.cur with pairs := true } } : State).cur.pairs = true ∧ two.cur.bad = 0 := ⟨rfl, rfl⟩
/-- Lanes 0 and 1 in a handler for a page fault of a load to v7, one word long. -/
def trapped : State := (handled two).setWarp 0 { two.warp 0 with
  trapcause := 4, traplanes := 3
  handler := some ⟨3, [(0, 0x1810), (1, 0x1810)], some ⟨.v 7, .w32, 3, 1, [], none⟩, false⟩ }
theorem witness_CrewFailure : (two.crew (crewTok two.cur.warp)).gang = 0 ∧ two.curWarp.handler = none ∧ two.curWarp.chainA = none
    ∧ two.curWarp.chainB = none ∧ (two.ctx (two.ctxOf two.cur.warp)).trapbase = 0 ∧ clear .halt two = true ∧ clear (.brk 3) two = true
    ∧ (two.launch (two.crew 0).launch).failure = none ∧ two.cur.pairs = false
    ∧ ({ cause := 0x0E, detail := 7 } : Trap).coord = none ∧ ({ cause := 0x0E, detail := 7 } : Trap).cause ≠ 0x11 := by decide
theorem witness_CrewFailure_double : ∃ h, trapped.curWarp.handler = some h ∧ trapped.cur.lanes &&& h.lanes ≠ 0
    ∧ (trapped.crew (crewTok trapped.cur.warp)).gang = 0 ∧ trapped.cur.pairs = false ∧ clear .halt trapped = true
    ∧ (trapped.launch (trapped.crew 0).launch).failure = none := ⟨_, rfl, by decide⟩
theorem witness_HandlerEnds_ret : ∃ h, trapped.curWarp.handler = some h ∧ trapped.curWarp.live = true ∧ clear .trapret trapped = true
    ∧ trapped.curWarp.recA = none ∧ trapped.curWarp.recB = none ∧ trapped.curWarp.pendingFaults = []
    ∧ h.lanes &&& trapped.curWarp.liveLanes = trapped.cur.lanes ∧ trapped.curWarp.waits = [] := ⟨_, rfl, by decide⟩
def trappedHalf : State := { trapped with cur := ⟨0, 1, 0x1800, 0, [], 0, false⟩ }
theorem witness_HandlerEnds_wait : ∃ h, trappedHalf.curWarp.handler = some h ∧ clear .trapret trappedHalf = true
    ∧ h.lanes &&& trappedHalf.curWarp.liveLanes &&& ~~~(trappedHalf.curWarp.waiting (· == .trapret) ||| trappedHalf.cur.lanes) ≠ 0 :=
  ⟨_, rfl, by decide⟩
theorem witness_HandlerEnds_supply : ∃ h p, trapped.curWarp.handler = some h ∧ h.supply = some p ∧ clear (.trapsupply (.v 3)) trapped = true
    ∧ h.used = false ∧ trapped.curWarp.trapcause.toNat / 2 ^ 16 % 2 = 0 ∧ trapped.curWarp.trapcause.toNat % 256 = 0x04
    ∧ (∀ l, l < 32 → trapped.curWarp.traplanes.getLsbD l = true → (trapped.curWarp.lane l).live = true → trapped.cur.lanes.getLsbD l = true)
    ∧ supplyFits p.width trapped.curWarp.quota (.v 3) = true ∧ p.width = .w32 ∧ p.d = .v 7 ∧ p.st = none := ⟨_, _, rfl, rfl, by decide⟩
theorem witness_HandlerEnds_none : two.curWarp.handler = none ∧ clear .trapret two = true ∧ clear (.trapsupply .z) two = true := by decide
theorem witness_ControlRegisters : clear (.csrr (.v 2) 0x30) two = true ∧ (two.launchOf two.cur.warp).spec.counters = true
    ∧ clear (.csrw (.s 4) 0x57) global = true ∧ global.csrSource (.s 4) < 2 ^ 64 ∧ clear (.csrw (.k 1) 0x40) two = true
    ∧ two.csrSource (.k 1) % 2 ^ 16 ≤ 0x000E ∧ clear (.csrw (.k 1) 0x01) two = true ∧ clear (.csrw (.k 1) 0x02) two = true
    ∧ (global.csrSource (.s 4) &&& (2 ^ 53 - 1)) % 12 ≠ 0 ∧ clear (.csrw (.s 4) 0x10) global = true
    ∧ 1 ≤ two.csrSource (.k 1) &&& (2 ^ 20 - 1) ∧ clear (.csrw (.k 1) 0x21) two = true ∧ ¬ 100 ≤ (two.csrSource (.k 1) &&& (2 ^ 17 - 1)) := by decide
def uncounted : State := { two with launches := [(0, { two.launch 0 with spec := { (two.launch 0).spec with counters := false } })] }
theorem witness_ControlRegisters_refused : (uncounted.launchOf uncounted.cur.warp).spec.counters = false ∧ clear (.csrr (.v 2) 0x40) uncounted = true
    ∧ clear (.csrw .z 0x50) uncounted = true := by decide
def writing : State := two.setWarp 0 { two.warp 0 with waits := [⟨3, 0x1800, 1, 0, .csr 0x22 300⟩] }
theorem witness_ControlRegisters_commit : (writing.warp 0).waits = [⟨3, 0x1800, 1, 0, .csr 0x22 300⟩] := by decide
theorem witness_FlumeRecords_save : trapped.curWarp.handler.isSome = true ∧ trapped.lead32 .z % 64 = 0
    ∧ trapped.lead32 .z + 512 ≤ (trapped.crewOf trapped.cur.warp).size ∧ clear (.flsave .z 1) trapped = true
    ∧ clear (.flrestore .z 1) trapped = true ∧ trapped.curWarp.parked 1 = none
    ∧ recField (trapped.mem.read ((trapped.crewOf trapped.cur.warp).phys (trapped.lead32 .z)) 512) 2 1 % 2 = 0 := by decide +kernel
def parked : State := trapped.setWarp 0 { trapped.warp 0 with recB := some (chainOf 0) }
theorem witness_FlumeRecords_full : parked.curWarp.handler.isSome = true ∧ parked.curWarp.parked 1 ≠ none ∧ clear (.flrestore .z 1) parked = true := by decide
/-- The crew is being saved in this cycle, and port B's chain parks with it. -/
def parking : State := (trapped.setCrew 0 { trapped.crew 0 with saving := true, savingAt := trapped.cycle }).setWarp 0 { trapped.warp 0 with chainB := some (chainOf 0) }
theorem witness_FlumeRecords_parks : (parking.crewOf 0).saving = true ∧ (parking.crewOf 0).savingAt = parking.cycle
    ∧ parking.curWarp.chain 1 = some (chainOf 0) ∧ parking.cycle < (chainOf 0).start + ((chainOf 0).total + 3) / 4 + 1
    ∧ ((chainOf 0).members.map (·.words)).sum ≤ 3 ∧ clear (.flrestore .z 1) parking = true ∧ parking.curWarp.handler.isSome = true := by decide
def falseRecord : State := { trapped with mem := [(0x100_1000_0002, 1)] }
theorem witness_FlumeRecords_false : recField (falseRecord.mem.read ((falseRecord.crewOf 0).phys 0) 512) 2 1 % 2 = 1
    ∧ recordOk falseRecord.key (falseRecord.mem.read ((falseRecord.crewOf 0).phys 0) 512) 1 0 0 = false := by decide +kernel

/-! A record with its right check, whatever the check is. -/

def recordOf (c : Nat) : List Byte := recordBody (chainOf 0) 1 0 0 c
theorem record_form : ∃ hd tl : List Byte, hd.length = 28 ∧ ∀ c, recordOf c = hd ++ natToBytes 2 c ++ tl := by
  obtain ⟨hd, md, tl, h1, h⟩ : ∃ hd md tl : List Byte, hd.length = 28 ∧ ∀ c, recordOf c = hd ++ natToBytes 2 c ++ md ++ tl :=
    ⟨_, _, _, by decide +kernel, fun c => rfl⟩
  exact ⟨hd, md ++ tl, h1, fun c => by rw [h, List.append_assoc _ md]⟩
theorem record_field (c : Nat) {off n : Nat} (h : off + n ≤ 28 ∨ 30 ≤ off) : recField (recordOf c) off n = recField (recordOf 0) off n := by
  obtain ⟨hd, tl, h1, hf⟩ := record_form
  have l2 : ∀ c, (natToBytes 2 c).length = 2 := fun c => by simp
  rw [recField, recField, hf, hf]
  rcases h with h | h
  · have e : ∀ c, ((hd ++ natToBytes 2 c ++ tl).drop off).take n = (hd.drop off).take n := by
      intro c
      rw [List.append_assoc, List.drop_append_of_le_length (by omega), List.take_append_of_le_length (by simp; omega)]
    rw [e, e]
  · have e : ∀ c, (hd ++ natToBytes 2 c ++ tl).drop off = tl.drop (off - 30) := by
      intro c
      have : (hd ++ natToBytes 2 c).length = 30 := by simp [h1, l2]
      rw [List.drop_append, List.drop_eq_nil_of_le (by omega), this, List.nil_append]
    rw [e, e]
theorem record_rest (c : Nat) : recordRest (recordOf c) = recordRest (recordOf 0) := by
  obtain ⟨hd, tl, h1, hf⟩ := record_form
  have e : ∀ c, recordRest (hd ++ natToBytes 2 c ++ tl) = hd ++ tl := by
    intro c
    have l : (hd ++ natToBytes 2 c).length = 30 := by simp [h1]
    rw [recordRest, List.drop_left' l, List.append_assoc, List.take_left' h1]
  rw [hf, hf, e, e]
def recordCode : Nat := (Config.recordCheck 0 (recordRest (recordOf 0))).toNat
theorem record_ok : recordOk 0 (recordOf recordCode) 1 0 0 = true := by
  have hc : recordCode < 65536 := BitVec.isLt _
  have hk : (Config.recordCheck 0 (recordRest (recordOf recordCode))).toNat = recordCode := by rw [record_rest]; rfl
  have h1C : recField (recordOf recordCode) 0x1C 2 = recordCode := by
    obtain ⟨hd, tl, h1, hf⟩ := record_form
    rw [recField, hf, List.append_assoc, List.drop_left' h1, List.take_left' (natToBytes_length _ _), bytesToNat_natToBytes]
    omega
  have f : ∀ off n, off + n ≤ 28 ∨ 30 ≤ off → recField (recordOf recordCode) off n = recField (recordOf 0) off n :=
    fun _ _ h => record_field _ h
  have g : ∀ l, recField (recordOf recordCode) (0x20 + 15 * l) 15 = recField (recordOf 0) (0x20 + 15 * l) 15 :=
    fun l => record_field _ (.inr (by omega))
  simp only [recordOk, hk, h1C, g, f 2 1 (by decide), f 0 2 (by decide), f 3 1 (by decide), f 9 1 (by decide), f 7 1 (by decide), f 8 1 (by decide),
    f 0x0E 2 (by decide), f 0x17 1 (by decide), f 0x1E 2 (by decide), f 0x14 2 (by decide), f 0x16 1 (by decide), f 0x18 4 (by decide), beq_self_eq_true]
  decide +kernel
/-- The record of a chain, saved with its check, stands where flrestore reads it. -/
def remembering (m : Memory) : State := { trapped with mem := m }
theorem remembering_mem (m : Memory) : (remembering m).mem = m := rfl
theorem remembering_crew (m : Memory) : (remembering m).crewOf 0 = trapped.crewOf 0 := rfl
theorem remembering_warp (m : Memory) : (remembering m).curWarp = trapped.curWarp := rfl
theorem remembering_key (m : Memory) : (remembering m).key = 0 := rfl
def goodRecord : State := remembering (Memory.write [] ((trapped.crewOf 0).phys 0) (recordOf recordCode))
theorem witness_FlumeRecords_valid : goodRecord.curWarp.handler.isSome = true ∧ goodRecord.curWarp.parked 1 = none
    ∧ recField (goodRecord.mem.read ((goodRecord.crewOf 0).phys 0) 512) 2 1 % 2 = 1
    ∧ recordOk goodRecord.key (goodRecord.mem.read ((goodRecord.crewOf 0).phys 0) 512) 1 0 0 = true := by
  have l : (recordOf recordCode).length = 512 := by
    obtain ⟨hd, tl, h1, hf⟩ := record_form
    have e : (recordOf 0).length = 512 := by decide +kernel
    rw [hf] at e ⊢
    simpa using e
  have e : goodRecord.mem.read ((goodRecord.crewOf 0).phys 0) 512 = recordOf recordCode := by
    have h := Memory.read_write (m := []) rfl ((trapped.crewOf 0).phys 0) (recordOf recordCode)
    rw [l] at h
    rw [goodRecord, remembering_mem, remembering_crew, h]
  have k : goodRecord.key = 0 := remembering_key _
  have w : goodRecord.curWarp = trapped.curWarp := remembering_warp _
  rw [e, k, w]
  refine ⟨by decide, by decide, ?_, record_ok⟩
  rw [record_field _ (by decide)]
  decide +kernel

/-! ### The scheduler -/

/-- A launch of one crew, not yet placed, alone on the machine. -/
def placing (scratch : Nat) : State :=
  let spec : LaunchRec := { (default : LaunchRec) with crews := 1, entry := 0x6000, regs := 64, warps := 2, gang := 1, scratch := scratch }
  { State.reset with launches := [(0, { (default : Launch) with live := true, spec := spec, ctx := 1, uid := 1 })] }
theorem witness_Placement_place : (let s := placing 8192
    (0, s.launch 0) ∈ s.launches ∧ (∀ p ∈ s.launches, p.1 ≠ 0 → s.nextOf p.1 = none) ∧ (s.launch 0).live = true ∧ (s.launch 0).held = false ∧ (s.launch 0).cancelled = false
      ∧ s.nextBack 0 = none ∧ (s.launch 0).spec.gang = 1 ∧ (s.launch 0).spec.warps ≤ 64 ∧ (s.launch 0).next + 1 = (s.launch 0).spec.crews
      ∧ ((s.placeFor 0 (.new 0) [] []).map List.length) = some 1) := by decide +kernel
theorem witness_Placement_block : (let s := placing 0x400000
    (s.launch 0).next < (s.launch 0).spec.crews ∧ s.placeFor 0 (.new 0) [] [] = none ∧ (s.launch 0).blockedSince = none
      ∧ s.chooseVictims 0 (.new 0) [] (s.leavingFor (s.launch 0).uid) = none) := by decide +kernel
/-- All cores but core 0 offline; crew 0, of a launch of level 0, stands on core 0, which a launch of level 5 wants whole. -/
def crowded : State :=
  let spec : LaunchRec := { (default : LaunchRec) with crews := 1, entry := 0x6000, regs := 64, warps := 2, gang := 1, scratch := 0x180000 }
  { two with
    cores := (0, two.core 0) :: (List.range 255).map fun k => (k + 1, { (default : Core) with offline := true })
    launches := [(0, two.launch 0), (1, { (default : Launch) with live := true, spec := spec, ctx := 1, uid := 2, level := 5, eff := 5 })] }
theorem witness_Placement_victims : (1, crowded.launch 1) ∈ crowded.launches ∧ (∀ p ∈ crowded.launches, p.1 ≠ 1 → crowded.nextOf p.1 = none)
    ∧ crowded.nextBack 1 = none ∧ crowded.placeFor 1 (.new 0) [] [] = none ∧ crowded.leavingFor 2 = []
    ∧ (crowded.chooseVictims 1 (.new 0) [] []).isSome = true ∧ (crowded.crew 0).resident = true ∧ (crowded.crew 0).gang = 0 := by decide +kernel
def aging (since : Nat) (blocked : Option Nat) : State := { placing 8192 with
  cycle := 400000, launches := [(0, { (placing 8192).launch 0 with levelSince := since, blockedSince := blocked })] }
theorem witness_Placement_age : (let s := aging 0 none
    (s.nextOf 0).isSome = true ∧ (s.launch 0).level < 31
      ∧ (s.launch 0).eff < max (s.launch 0).level (min ((s.launch 0).level + 4) 30) ∧ (s.launch 0).levelSince + 400000 ≤ s.cycle) := by decide +kernel
theorem witness_Placement_early : ¬ ((aging 1 none).launch 0).levelSince + 400000 ≤ (aging 1 none).cycle := by decide +kernel
theorem witness_Placement_reserve : (let s := aging 0 (some 320000)
    (s.launch 0).reserved = none ∧ (s.launch 0).blockedSince = some 320000 ∧ 320000 + 80000 ≤ s.cycle ∧ (s.reservable 0).isSome = true) := by decide +kernel

/-- Crew 0 asked to leave for a hint of peer 9 at landing 2. -/
def leaving : State := two.setCrew 0 { two.crew 0 with saving := true, hint := some (2, 9) }
theorem witness_CrewsLeaveAndEnd_save : leaving.crews.find 0 = some (leaving.crew 0) ∧ (leaving.crew 0).live = true ∧ (leaving.crew 0).saving = true
    ∧ (leaving.crew 0).gang = 0 ∧ leaving.crewDrained 0 = true ∧ (leaving.warp 0).parked 0 = none ∧ (leaving.warp 0).parked 1 = none := by
  decide +kernel
/-- Port A's chain is parked in the crew that leaves. -/
theorem witness_CrewsLeaveAndEnd_records : (let s := leaving.setWarp 0 { leaving.warp 0 with recA := some (chainOf 0) }
    s.crewDrained 0 = true ∧ (s.warp 0).parked 0 = some (chainOf 0) ∧ (chainOf 0).counting = false ∧ 0 ∈ s.warpsOf 0) := by decide +kernel
theorem witness_CrewsLeaveAndEnd_hinted : (let s := two.setCrew 0 { two.crew 0 with saving := true, hinted := true, hint := some (2, 9), savingAt := 0 }
    s.crewDrained 0 = true ∧ (s.crew 0).hinted = true ∧ ¬ (s.crew 0).savingAt < s.cycle ∧ (s.crew 0).savingAt < ({ s with cycle := 1 } : State).cycle) := by
  decide +kernel
theorem witness_CrewsLeaveAndEnd_stay : (let s := linked.setCrew 0 { linked.crew 0 with saving := true }
    (s.crew 0).saving = true ∧ s.crewDrained 0 = false) := by decide +kernel
def ended : State := { two.setWarp 0 { two.warp 0 with live := false } with
  launches := [(0, { two.launch 0 with spec := { (two.launch 0).spec with crews := 2 } })] }
theorem witness_CrewsLeaveAndEnd_over : ended.crewOver 0 = true ∧ (ended.crew 0).gang = 0
    ∧ (ended.launch (ended.crew 0).launch).next < (ended.launch (ended.crew 0).launch).spec.crews := by decide +kernel
theorem witness_CrewsLeaveAndEnd_return : (let s := two.setCrew 0 { two.crew 0 with returnAt := some 0 }
    (s.crew 0).returnAt = some 0 ∧ 0 ≤ s.cycle) := by decide +kernel

/-- A warp of one live lane, which waits at a barrier for a second thread. -/
def stuck : State :=
  let e : DeadEntry := ⟨0, 2, 3, [1]⟩
  { ((handled two).setCrew 0 { two.crew 0 with barriers := [(3, ⟨2, 1⟩)] }).setWarp 0 { two.warp 0 with
      lanes := [(0, (two.warp 0).lane 0)], waits := [⟨1, 0x1800, 1, 0, .bar false 3⟩] } with
    sched := { two.sched with dead := [e] } }
theorem witness_DeadlockReports : (let e := stuck.waitTable.getD 0 default
    stuck.waitTable = [e] ∧ stuck.sigsOf [e] e = [.entry 0] ∧ stuck.sched.dead = [e.kept] ∧ e.who < 2 ^ 40 ∧ e.kind = 2
      ∧ (stuck.job (stuck.launchOf e.who).job).reports = 0 ∧ (stuck.warp e.who).live = true ∧ (stuck.warp e.who).handler = none
      ∧ (stuck.warp e.who).chainA = none ∧ (stuck.warp e.who).chainB = none ∧ (stuck.ctx (stuck.ctxOf e.who)).trapbase ≠ 0 ∧ stuck.cur.pairs = false) := by decide +kernel
theorem witness_DeadlockReports_live : (let s := masked.setWarp 0 { masked.warp 0 with waits := [⟨3, 0x1800, 1, 0, .mask 3⟩] }
    let e := s.waitTable.getD 0 default
    s.waitTable = [e] ∧ s.sigsOf [e] e = [.live] ∧ two.sched.dead = []) := by decide +kernel

/-! ### Commands of the host -/

/-- Queue pair 1 holds a session with every right; its commands for context 1, and for a context 2 that does not exist. -/
def hosted : State := { two with mgr := { two.mgr with qps := [(1, ⟨some 31, 5, none, 0⟩)] } }
def hd (ctx : Nat) : Hdr := ⟨1, 7, ctx⟩
theorem may_command (s : State) (h : s.mgr.qps.get 1 = ⟨some 31, 5, none, 0⟩) (c right : Nat) (hr : 31 / 2 ^ right % 2 = 1) :
    mayCommand s (hd c) right := ⟨by simp [hd], by simp [hd], 31, by simp [hd, h], hr⟩
theorem witness_mayCommand : mayCommand hosted (hd 1) 0 ∧ mayCommand hosted (hd 1) 1 ∧ mayCommand hosted (hd 1) 2 ∧ mayCommand hosted (hd 1) 3 :=
  ⟨may_command _ rfl _ _ (by decide), may_command _ rfl _ _ (by decide), may_command _ rfl _ _ (by decide), may_command _ rfl _ _ (by decide)⟩
theorem witness_ContextCommands_create : (hosted.ctx 2).live = false ∧ 0x2000 % 8192 = 0 ∧ 0x2000 < 0x60_0000_0000 ∧ (hosted.ctx 1).live = true
    ∧ (hosted.ctx 1).dying = false ∧ hosted.mgr.pending = [] ∧ (∀ p ∈ hosted.jobs, p.2.ctx ≠ 1) := by decide
/-- Port 0 up, with a landing on which context 1 has a quota and an allocation. -/
def hostLinked : State := { linked with reqs := [], mgr := hosted.mgr }
theorem witness_ContextCommands_quota : mayCommand hostLinked (hd 1) 0 ∧ (hostLinked.ctx 1).live = true ∧ (hostLinked.ports.get 0).attached = true
    ∧ (hostLinked.ports.get 0).state = 2 ∧ (hostLinked.ports.get 0).lost = false ∧ (hostLinked.ports.get 0).up = true :=
  ⟨may_command _ rfl _ _ (by decide), by decide⟩
/-- A job record at 0x6040 and its phase table of one entry at 0x6080; job 5 of context 1 runs. -/
def jobHosted : State := { jobbed with
  mgr := hosted.mgr
  mem := two.mem ++ cells 0x20040 ([1, 0, 0, 1] ++ List.replicate 4 0 ++ natToBytes 8 0x6080)
    ++ cells 0x20080 (natToBytes 8 0x6100 ++ natToBytes 4 1) }
theorem witness_ContextCommands_submit : (match jobHosted.sysRead 1 0x6040 64 with
    | (.ok bs, u) => (match parseJob bs with
      | some r => (match u.sysRead 1 r.2.2.1 (32 * r.2.1) with
        | (.ok tb, _) => (parsePhases tb r.2.1).isSome
        | _ => false)
      | none => false)
    | _ => false) = true := by decide +kernel
theorem witness_ContextCommands_over : ((jobHosted.crews.map (·.1)).foldl State.completeCrew jobHosted).jobs = jobHosted.jobs := by decide
theorem witness_ContextCommands_cancel : mayCommand jobHosted (hd 1) 0 ∧ (140754668244993 : Nat) = 2 ^ 47 + 2 ^ 34 + 5 * 2 ^ 12 + 1
    ∧ 140754668244993 / 2 ^ 46 = 2 ∧ 140754668244993 / 2 ^ 34 % 2 ^ 12 = 1 ∧ (jobHosted.job 5).live = true ∧ (jobHosted.job 5).ctx = 1
    ∧ (jobHosted.job 5).phase < 1 ∧ 1 < (jobHosted.job 5).table.length := ⟨may_command _ rfl _ _ (by decide), by decide⟩
def destroying : State := { hosted with crews := [], warps := [], mgr := { hosted.mgr with pending := [(.ctxDestroy (hd 1), [])] } }
theorem witness_ContextCommands_end : mayCommand destroying (hd 1) 0 ∧ destroying.mgr.pending = [(.ctxDestroy (hd 1), [])]
    ∧ destroying.ctxDrained 1 = true ∧ (∀ p ∈ destroying.warps, destroying.ctxOf p.1 = 1 → p.2.waits = []) :=
  ⟨may_command _ rfl _ _ (by decide), rfl, by decide⟩

/-- A physical window of 8 KiB at 0x100000 under key 5, a window of context 1's code page under key 6 and one of a page not present under key 9. -/
def windowed : State := { hosted with mgr := { hosted.mgr with
  windows := [(0, ⟨5, 0, 0x100000, 8192, 11⟩), (1, ⟨6, 1, 0x6000, 8192, 3⟩), (2, ⟨9, 1, 0x8000, 8192, 3⟩)] } }
theorem witness_WindowsAndRdma_register : mayCommand windowed (hd 1) 0 ∧ mayCommand windowed (hd 1) 1 ∧ (11 : Nat) < 16 ∧ 11 / 8 % 2 = 1
    ∧ 0x200000 % 8192 = 0 ∧ 0x200000 + 8192 ≤ 0x60_0000_0000 ∧ windowed.mgr.windows.find 3 = none
    ∧ (∀ k, k < 3 → (windowed.mgr.windows.find k).isSome = true) ∧ windowed.mgr.windows.length < 256 :=
  ⟨may_command _ rfl _ _ (by decide), may_command _ rfl _ _ (by decide), by decide⟩
def pageOk (s : State) (va access : Nat) (bit : Nat) : Bool :=
  match s.winPage 1 va access with
  | .ok x e => e / bit % 2 == 1 && !x.mig && s.chanFailed x.pa == false && s.readBad x.pa 4 == false
  | _ => false
theorem witness_WindowsAndRdma_pages : pageOk windowed 0x6010 3 64 = true ∧ pageOk windowed 0x6010 3 32 = true
    ∧ windowed.winPage 1 0x8000 3 = .absent ∧ (windowed.ctx (hd 1).ctx).dying = false := by decide
theorem witness_WindowsAndRdma_keys : (∀ p ∈ windowed.mgr.windows, p.2.rkey ≠ 7)
    ∧ (∀ p ∈ windowed.mgr.windows, p.2.rkey = 5 → p = (0, ⟨5, 0, 0x100000, 8192, 11⟩))
    ∧ (∀ p ∈ windowed.mgr.windows, p.2.rkey = 6 → p = (1, ⟨6, 1, 0x6000, 8192, 3⟩)) ∧ windowed.mgr.pending = []
    ∧ windowed.closing 7 = false ∧ windowed.closing 5 = false ∧ windowed.keyBusy 5 = false := by decide
/-- A READ of key 5 waits behind another request of its queue pair. -/
def windowBusy : State := { windowed with inbox := [(9, .kept (.rdmaRead 9 5 0x100000 4))] }
theorem witness_WindowsAndRdma_busy : windowBusy.closing 5 = false ∧ windowBusy.keyBusy 5 = true := by decide
theorem witness_WindowsAndRdma_pairs : 1024 ≤ 1024 ∧ 1023 < 1024 ∧ windowed.mgr.pending = [] := by decide
theorem witness_WindowsAndRdma_free : Good windowed ∧ (∀ a, 0x100010 ≤ a → a < 0x100010 + 4 → windowed.chanFailed a = false)
    ∧ ∀ a k, 0 < k → 0x100010 ≤ a → a + k ≤ 0x100010 + 4 → windowed.readBad a k = false := by
  refine ⟨by unfold Good; decide, fun a h1 h2 => ?_, fun a k h0 h1 h2 => ?_⟩
  · have : ∀ a < 4, windowed.chanFailed (0x100010 + a) = false := by decide
    have := this (a - 0x100010) (by omega)
    rwa [show 0x100010 + (a - 0x100010) = a by omega] at this
  · have : ∀ a < 4, ∀ k < 5, windowed.readBad (0x100010 + a) k = false := by decide
    have := this (a - 0x100010) (by omega) k (by omega)
    rwa [show 0x100010 + (a - 0x100010) = a by omega] at this

theorem witness_CommandRights : commandOf (.health (hd 1)) = some (hd 1, 0x80, 3) ∧ two.mgr.pending = [] ∧ (∀ c, hd 1 ∉ (two.core c).leaving)
    ∧ (two.mgr.qps.get 1).session = none := ⟨rfl, by decide,
    onAll (P := fun c : Core => hd 1 ∉ c.leaving) two.cores (by decide) (by decide), by decide⟩
theorem witness_CommandRights_lacks : (let s := { two with mgr := { two.mgr with qps := [(1, ⟨some 7, 5, none, 0⟩)] } }
    (s.mgr.qps.get 1).session = some 7 ∧ 7 / 2 ^ 3 % 2 = 0 ∧ s.mgr.pending = []) := by decide
theorem witness_EthernetFrames : (hosted.mgr.qps.get 1).session ≠ none
    ∧ (let s := { hosted with mgr := { hosted.mgr with events := [⟨0, 2, 0xC3, 2, 0, 0, 0, []⟩, ⟨0, 1, 0xC6, 2, 0, 0, 0, []⟩] } }
      s.mgr.events = [⟨0, 2, 0xC3, 2, 0, 0, 0, []⟩] ++ ⟨0, 1, 0xC6, 2, 0, 0, 0, []⟩ :: []
        ∧ ∀ x ∈ [(⟨0, 2, 0xC3, 2, 0, 0, 0, []⟩ : Message)], x.qp ≠ 1) := by decide

theorem witness_EthernetFrames_identity : (false = false ∧ 0xA0 ≤ 0xA8 ∧ 0xA8 ≤ 0xAF ∧ 1 ≤ (⟨2, 7, 1⟩ : Hdr).qp ∧ (⟨2, 7, 1⟩ : Hdr).qp ≤ 15)
    ∧ (hosted.mgr.qps.get 2).session = none ∧ ¬ 0xB0 ≤ 0xAF := by decide
/-- Core 0 has one pending miss of context 1, and warp 0 waits for its page. -/
def walking (va : Nat) : State := (two.setCore 0 { two.core 0 with misses := [⟨1, va / 8192, 1, va⟩] }).setWarp 0 { two.warp 0 with
  waits := [⟨3, 0x1800, 1, 0, .tlb [va / 8192]⟩] }
theorem witness_Translations_walk : ((walking 0x6010).core 0).misses = [⟨1, 3, 1, 0x6010⟩] ∧ (∃ e size, ((walking 0x6010).walk 1 0x6010).1 = .leaf e size)
    ∧ ((walking 0x8000).walk 1 0x8000).1 = .notPresent false ∧ ((walking 0x6010).warp 0).waits = [⟨3, 0x1800, 1, 0, .tlb [3]⟩] :=
  ⟨by decide, ⟨_, _, rfl⟩, by decide, by decide⟩
/-- A leaf not present but held, a malformed leaf, a poisoned table. -/
def walkingTo (leaf : Nat) (poison : FMap Bool) : State := { walking 0x8000 with mem := (walking 0x8000).mem.write 0x16020 (natToBytes 8 leaf), poison := poison }
theorem witness_Translations_waited : (let s := walkingTo 2 []
      s.coreOf 0 = 0 ∧ s.ctxOf 0 = 1 ∧ (s.warp 0).waiting (Wait.onPage 4) ≠ 0)
    ∧ (∀ p ∈ ((walkingTo 2 []).setWarp 0 { two.warp 0 with waits := [] }).warps, p.2.waiting (Wait.onPage 4) = 0) := by decide
/-- Lanes 0 and 1 wait for room in table 8 with a translation of page 0x6000; entry 0 of it is pending on that page. -/
def gathering : State :=
  let o : LaneOp := ⟨0, 0x6010, 0x20010, 0, 0, false⟩
  { hosted.setWarp 0 { two.warp 0 with waits := [⟨3, 0x1800, 2, 0, .room (some ⟨8, false, .w32, 4, [⟨0x6010, 0x20010, 4, 0, [o]⟩], .v 2⟩)⟩] } with
    tickets := [(8 * 4096, { (default : TicketEntry) with state := 1, ctx := 1, parts := [o] })] }
theorem witness_Translations_ldt : (gathering.warp 0).waits = [⟨3, 0x1800, 2, 0, .room (some ⟨8, false, .w32, 4,
      [⟨0x6010, 0x20010, 4, 0, [⟨0, 0x6010, 0x20010, 0, 0, false⟩]⟩], .v 2⟩)⟩] ∧ gathering.ctxOf 0 = 1 ∧ mayCommand gathering (hd 1) 1
    ∧ 0x6010 / 2 ^ 13 * 2 ^ 13 < 0x6000 + 1 ∧ 0x6000 < (0x6010 / 2 ^ 13 + 1) * 2 ^ 13 := ⟨rfl, by decide, may_command _ rfl _ _ (by decide), by decide⟩
theorem witness_Translations_pending : (let e := gathering.tickets.get (8 * 4096)
    e.state = 1 ∧ e.reqs = [] ∧ e.ctx = 1 ∧ (⟨0, 0x6010, 0x20010, 0, 0, false⟩ : LaneOp) ∈ e.parts) := by decide
theorem witness_Translations_ends : ((walkingTo 2 []).walk 1 0x8000).1 = .notPresent true ∧ ((walkingTo 0x100000001 []).walk 1 0x8000).1 = .bad
    ∧ (match ((walkingTo 2 [(0x16020 / 32, false)]).walk 1 0x8000).1 with
        | .poisoned _ => true
        | _ => false) = true
    ∧ (∀ p ∈ (walkingTo 2 []).held, p.2.ctx ≠ 1 ∨ p.2.vpn ≠ 4) ∧ (walkingTo 2 []).held.length < 64 := by decide
def heldFault : State := { hosted with cycle := 80000000, held := [(3, ⟨1, 4, 1, false, 0x8000, 0, 0⟩)] }
theorem witness_Translations_held : heldFault.held.find 3 = some ⟨1, 4, 1, false, 0x8000, 0, 0⟩ ∧ mayCommand heldFault (hd 1) 1
    ∧ (heldFault.ctx 1).live = true ∧ (heldFault.ctx 1).dying = false ∧ 0 + 80000000 ≤ heldFault.cycle :=
  ⟨rfl, may_command _ rfl _ _ (by decide), by decide⟩
/-- Lanes 0 and 1 are held with it. -/
theorem witness_Translations_heldLanes : (let s := heldFault.setWarp 0 { two.warp 0 with waits := [⟨3, 0x1800, 1, 0, .held 3⟩] }
    (s.warp 0).waits = [⟨3, 0x1800, 1, 0, .held 3⟩] ∧ (3 : LaneSet) ≠ 0 ∧ s.held.find 3 = some ⟨1, 4, 1, false, 0x8000, 0, 0⟩) := by decide
def invalidating (after : After) : State := { hosted with invals := [(4, ⟨1, false, 0, 0, after⟩)] }
theorem witness_Translations_complete (after : After) : (invalidating after).invals.find 4 = some ⟨1, false, 0, 0, after⟩ ∧ (invalidating after).reqs = [] :=
  ⟨rfl, rfl⟩
theorem witness_Translations_waits : (let s := { linked with invals := [(4, ⟨1, false, 0, 0, .nothing⟩)] }
    ∃ r ∈ s.reqs, r.2.ctx = 1) := ⟨_, List.mem_singleton.2 rfl, rfl⟩

/-- Migration slot 2 in this state, from frame 0x40000 to 0x60000; slots 0 and 1 in use. -/
def migrating (state : Nat) (poison : FMap Bool) : State := { hosted with
  migs := [(0, ⟨1, 3, 0, 0x80000, 8192, [], [], 0, 0, false⟩), (1, ⟨1, 3, 0, 0xA0000, 8192, [], [], 0, 0, false⟩),
    (2, ⟨state, 1, 0x40000, 0x60000, 8192, [], [], 0, 0, false⟩)], poison := poison }
theorem witness_Migration_arm : mayCommand (migrating 0 []) (hd 1) 1 ∧ ((migrating 0 []).migs.get 2).state = 0
    ∧ (∀ k, k < 2 → ((migrating 0 []).migs.get k).state ≠ 0) ∧ ((migrating 0 []).ctx 1).live = true ∧ ((migrating 0 []).ctx 1).dying = false :=
  ⟨may_command _ rfl _ _ (by decide), by decide⟩
theorem witness_Migration_states (n : Nat) : ((migrating n []).migs.get 2).state = n ∧ ((migrating n []).migs.get 2).ctx = (hd 1).ctx
    ∧ ((migrating n []).migs.get 2).started = false := ⟨rfl, rfl, rfl⟩
theorem witness_Migration_swing : (let e : TicketEntry := { (default : TicketEntry) with state := 1, ctx := 1, parts := [⟨0, 0x6010, 0x40010, 0, 0, false⟩] }
    let s := { migrating 1 [] with invals := [(4, ⟨1, false, 0, 0, .swing (hd 1) 2⟩)], tickets := [(5, e)] }
    s.invals.find 4 = some ⟨1, false, 0, 0, .swing (hd 1) 2⟩ ∧ s.reqs = [] ∧ (s.migs.get 2).state = 1 ∧ s.tickets.find 5 = some e
      ∧ (s.migs.get 2).old ≤ 0x40010 ∧ 0x40010 < (s.migs.get 2).old + (s.migs.get 2).size) := by decide
def pulling (poison : FMap Bool) : State := { hosted with migs := [(2, ⟨2, 1, 0x40000, 0x60000, 8192, [], [], 0, 0, false⟩)], poison := poison }
theorem witness_Migration_pull : (let s := pulling []
    let m := s.migs.get 2
    s.migs = [(2, m)] ∧ m.state = 2 ∧ (s.chans.get (chanOf 0x40000)).failed = false ∧ m.wants (chanOf 0x40000) 0 = true ∧ 256 ≤ m.size
      ∧ s.chanFailed m.new = false ∧ s.readBad m.old 256 = false ∧ Memory.wf s.mem = true
      ∧ (pulling [(0x40000 / 32, false)]).readBad m.old 256 = true) := by decide

theorem witness_PoolCommands_alloc : mayCommand hostLinked (hd 1) 0 ∧ attrOk 9000 (0 : Word).toNat = true ∧ hostLinked.attached 0 = true
    ∧ hostLinked.portLost 0 = false ∧ attrOk 9000 (0x10 : Word).toNat = false := ⟨may_command _ rfl _ _ (by decide), by decide⟩
def allocating : State := { hostLinked with reqs := [(7, ⟨.alloc 9000 0 (some (hd 1)), 0, 1, 0, 0, 0, 0, 0, [], 0, some 3, 9000, false⟩)] }
theorem witness_PoolCommands_answer : ∃ r, allocating.reqs.find 7 = some r ∧ r.open_ allocating = true ∧ r.kind = .alloc 9000 0 (some (hd 1))
    ∧ (allocating.ports.get r.port).state = 2 := ⟨_, rfl, by decide, rfl, by decide⟩
/-- Context 2 as a target whose table levels stand, with a grant of the allocation's first page. -/
def granting (g : List PoolGrant) : State := { hostLinked with
  ctxs := hostLinked.ctxs.set 2 { (default : Context) with live := true, root := 0x10000 }
  landings := [(0, { hostLinked.landings.get 0 with grants := g })], mem := hostLinked.mem.write 0x11000 (natToBytes 8 0x12001) }
theorem witness_PoolCommands_grant : ((granting []).ctx 2).live = true ∧ ((granting []).landings.get 0).owns 1 0 8192 = some ⟨1, 0, 0x2000, 0, false, none⟩
    ∧ ((granting []).installGrant 2 0 0 8192 0 3).isSome = true ∧ ((granting []).landings.get 0).owns 1 0x8000 8192 = none
    ∧ (granting []).grantBad 2 0 0 8192 0 3 = false ∧ (granting []).module_ < 64 ∧ ((granting []).ports.get 0).since = none ∧ (let g : PoolGrant := ⟨0, 1, 0, 2, 0, 8192, 3, 0⟩
      g ∈ ((granting [g]).landings.get 0).grants ∧ (granting [g]).removeBad 2 (attrPage g.attr) (2 ^ 51) (8192 / 2 ^ pageBits (attrPage g.attr)) = none) := by
  decide +kernel
/-- The table entry on the way is poisoned; the tables are missing and there is no frame for them. -/
theorem witness_PoolCommands_refused : ({ granting [] with poison := [(0x11000 / 32, true)] } : State).grantBad 2 0 0 8192 0 3 = true
    ∧ ({ granting [] with mem := linked.mem } : State).grantBad 2 0 0 8192 0 3 = false
    ∧ ({ granting [] with mem := linked.mem } : State).installGrant 2 0 0 8192 0 3 = none := by decide +kernel

def portIs (p : Port) : State := { hosted with ports := [(3, p)] }
theorem witness_Links : (portIs { (default : Port) with attached := true, state := 2, up := true }).reqs = []
    ∧ ((portIs { (default : Port) with attached := true, state := 2, up := true }).ports.get 3).drain = none
    ∧ mayCommand (portIs { (default : Port) with attached := true, state := 4, up := true }) (hd 1) 3
    ∧ (∀ q ∈ (portIs { (default : Port) with attached := true, state := 1 }).ports, q.2.up = false)
    ∧ ((portIs { (default : Port) with attached := true, state := 0, since := some 0 }).ports.get 3).since = some 0
    ∧ (portIs { (default : Port) with attached := true, state := 1 }).late = [] := ⟨rfl, rfl, may_command _ rfl _ _ (by decide), by decide⟩

theorem witness_Extents_forced : hostLinked.reqs = [] ∧ (∀ r ∈ (hostLinked.warp 0).waits, r.lanes ≠ 0 ∧ ∀ g, r.wait ≠ .room (some g))
    ∧ (∃ a ∈ (hostLinked.landings.get 0).allocs, a.off < 0 + 0x1000 ∧ 0 < a.off + a.size) := by
  refine ⟨rfl, fun r hr => ?_, by decide⟩
  rw [show (hostLinked.warp 0).waits = [] from rfl] at hr
  cases hr
theorem witness_Extents : (∃ a ∈ (hostLinked.landings.get 0).allocs, a.revoked = false ∧ 0 < a.off + a.size ∧ a.off < 0 + 0x4000)
    ∧ (∀ a ∈ (hostLinked.landings.get 0).allocs, a.revoked = true ∨ a.off + a.size ≤ 0x4000 ∨ 0x4000 + 0x2000 ≤ a.off) ∧ hostLinked.reqs = []
    ∧ hostLinked.mgr.events.length < 1024 ∧ hostLinked.mgr.waiting = [] := by decide
theorem witness_RemoteRequests : two.readBad 0x40000 16 = false ∧ (pulling [(0x40000 / 32, false)]).readBad 0x40000 16 = true
    ∧ two.chanFailed 0x40000 = false ∧ AtomOp.cas.tyOk .w128 = true := by decide
/-- A block update of an entry of zeros at 0x40000, with a stream of 32 bytes at 0x40100. -/
theorem witness_RemoteRequests_update : two.readBad 0x40000 16 = false ∧ two.mem.read 0x40000 16 = List.replicate 16 0
    ∧ two.mem.read 0x40000 16 ≠ List.replicate 16 1 ∧ Good two ∧ (List.replicate 16 (7 : Byte)).length = 16
    ∧ (∀ p ∈ [(0x40100, List.replicate 32 (9 : Byte))], p.1 + p.2.length ≤ 0x60_0000_0000 ∧ two.chanFailed p.1 = false ∧ 0x40000 + 16 ≤ p.1) :=
  ⟨by decide, by decide, by decide, by unfold Good; decide, by decide, by decide⟩

def stopped : State := hosted.setWarp 0 { two.warp 0 with stopped := true }
theorem witness_Debug : (stopped.ctx (hd 1).ctx).live = true ∧ (stopped.ctx (hd 1).ctx).dying = false ∧ mayCommand stopped (hd 1) 2
    ∧ stopped.stoppedWarp (hd 1) 0 0 = some 0 ∧ stopped.stoppedWarp (hd 1) 1 0 = none ∧ 5 < (stopped.warp 0).quota :=
  ⟨by decide, by decide, may_command _ rfl _ _ (by decide), by decide⟩
def auditing (s : State) (ops : List Nat) : State := { s with mgr := { hosted.mgr with pending := [(.indexAudit (hd 1) 0x6080, ops)] } }
theorem witness_IndexAudit : hosted.mgr.pending = [] ∧ (auditing two [4]).mgr.pending = [(.indexAudit (hd 1) 0x6080, [4])]
    ∧ (∀ n ∈ [4], n ∉ (auditing two [4]).opsInProgress)
    ∧ (∃ n ∈ [1], n ∈ (auditing (decked true none) [1]).opsInProgress) := by
  refine ⟨rfl, rfl, by decide, 1, by simp, ?_⟩
  decide +kernel
/-- A descriptor at 0x6080 whose pool has one class of no free slot, so that the audit answers. -/
theorem witness_IndexAudit_answers : (match ({ recorded with mem := recorded.mem.write 0x16020 (natToBytes 8 0x400E5) } : State).unitRun 1 (auditPool 0x8100) with
    | (.ok _, _) => true
    | _ => false) = true := by decide +kernel
theorem witness_IndexAudit_refused : (match ({ recorded with mem := recorded.mem.write 0x16020 (natToBytes 8 0x400E5) } : State).unitRun 1 (auditPool 0x8000) with
    | (.error _, _) => true
    | _ => false) = true := by decide +kernel

/-! ### Identity, resets, power, fleet -/

def owned (nonce : Option (List Byte)) : State := { hosted with mgr := { hosted.mgr with qps := [(1, ⟨some 31, 5, nonce, 500⟩)], owner := some 5 } }
theorem witness_Identity : ((owned (some [1])).mgr.qps.get 1).nonce = some [1] ∧ (owned (some [1])).cycle < 500
    ∧ ((owned none).mgr.qps.get 1).session = some 31 ∧ (31 : Nat) / 16 % 2 = 1 ∧ ¬ (∃ n, ((owned none).mgr.qps.get 1).nonce = some n) := by
  refine ⟨rfl, by decide, rfl, by decide, fun h => ?_⟩
  obtain ⟨n, h⟩ := h
  have e : ((owned none).mgr.qps.get 1).nonce = none := rfl
  rw [e] at h
  cases h
/-- A configuration blob of power cap 700 W for any module, that keeps the rules of its fields. -/
def blob : List Byte := natToBytes 4 0x3146435A ++ natToBytes 2 1 ++ natToBytes 2 0 ++ natToBytes 8 3 ++ natToBytes 8 0 ++ natToBytes 2 700
  ++ natToBytes 1 0x23 ++ List.replicate 101 0
theorem witness_Identity_config : (let f := fun (off n : Nat) => bytesToNat ((blob.drop off).take n)
    blob.length = 128 ∧ f 0 4 = 0x3146435A ∧ f 4 2 = 1 ∧ f 6 2 = 0 ∧ (owned none).mgr.sequence ≤ f 8 8 ∧ f 0x10 8 = 0 ∧ 600 ≤ f 0x18 2
      ∧ f 0x18 2 ≤ 1800 ∧ f 0x1A 1 < 64 ∧ f 0x1B 37 = 0) := by decide +kernel
theorem witness_Identity_lacks : (hosted.mgr.qps.get 2).session = none ∧ hosted.mgr.owner = none := by decide
/-- A point all of whose multiples are the neutral point: its code is 1, a key under which one signature holds for every message. -/
def Flat (p : EdPoint) : Prop := p.x = 0 ∧ p.t = 0 ∧ p.y = p.z

theorem edSub_self (a : Nat) : edSub a a = 0 := by
  have h := Nat.div_add_mod a edPrime
  have h1 := Nat.mod_lt a (show 0 < edPrime by decide)
  have e : a + (edPrime - a % edPrime) = edPrime * (a / edPrime + 1) := by rw [Nat.mul_add]; omega
  rw [edSub, e, Nat.mul_mod_right]

theorem Flat.add {p q : EdPoint} (hp : Flat p) (hq : Flat q) : Flat (p.add q) := by
  obtain ⟨px, py, pz, pt⟩ := p
  obtain ⟨qx, qy, qz, qt⟩ := q
  simp only [Flat] at hp hq
  obtain ⟨rfl, rfl, rfl⟩ := hp
  obtain ⟨rfl, rfl, rfl⟩ := hq
  have sub0 : ∀ y, edSub y 0 = y % edPrime := fun y => by simp [edSub]
  refine ⟨?_, ?_, ?_⟩ <;> simp [EdPoint.add, sub0, edSub_self]
  rw [Nat.mul_mod, ← Nat.add_mod, ← Nat.mul_mod]
  congr 1
  ring

theorem Flat.mul {p : EdPoint} (hp : Flat p) (n : Nat) : Flat (p.mul n) := by
  unfold EdPoint.mul
  generalize (List.range 256).reverse = l
  have : Flat ⟨0, 1, 1, 0⟩ := ⟨rfl, rfl, rfl⟩
  revert this
  generalize (⟨0, 1, 1, 0⟩ : EdPoint) = acc
  intro h
  induction l generalizing acc with
  | nil => exact h
  | cons i l ih =>
    rw [List.foldl_cons]
    split
    · exact ih _ ((h.add h).add hp)
    · exact ih _ (h.add h)

theorem mul_zero_flat (p : EdPoint) : Flat (p.mul 0) := by
  unfold EdPoint.mul
  generalize (List.range 256).reverse = l
  have : Flat ⟨0, 1, 1, 0⟩ := ⟨rfl, rfl, rfl⟩
  revert this
  generalize (⟨0, 1, 1, 0⟩ : EdPoint) = acc
  intro h
  induction l generalizing acc with
  | nil => exact h
  | cons i l ih => rw [List.foldl_cons, Nat.zero_testBit]; exact ih _ (h.add h)

theorem edDecode_neutral : edDecode 1 = some ⟨0, 1, 1, 0⟩ := by decide +kernel

theorem edVerify_neutral (m : List Byte) : edVerify 1 m 1 = true := by
  have h1 : (1 : Nat) % 2 ^ 256 = 1 := by decide
  have h2 : (1 : Nat) / 2 ^ 256 = 0 := by decide
  have h3 : 0 < edOrder := by decide
  have f : Flat ⟨0, 1, 1, 0⟩ := ⟨rfl, rfl, rfl⟩
  simp only [edVerify, h1, h2, edDecode_neutral, h3, decide_true, Bool.true_and]
  obtain ⟨ax, -, ay⟩ := (mul_zero_flat edBase).mul 8
  obtain ⟨bx, -, by_⟩ := (f.add (f.mul (edBind 1 1 m))).mul 8
  simp [EdPoint.same, ax, bx, ay, by_, Nat.mul_comm]
/-- A machine whose owner key is the neutral point's code, under which `edVerify_neutral` gives a signature of every message. -/
def ownedNeutral : State := { hosted with mgr := { hosted.mgr with qps := [(1, ⟨some 31, 1, some [1], 500⟩)], owner := some 1 } }
theorem witness_Identity_open : ∃ n, (ownedNeutral.mgr.qps.get 1).nonce = some n
    ∧ edVerify 1 (n ++ natToBytes 4 1 ++ natToBytes 8 Config.serialNo) 1 = true
    ∧ ∀ k, ownedNeutral.mgr.owner = some k →
      edVerify k (natToBytes 32 1 ++ natToBytes 4 31 ++ natToBytes 8 Config.serialNo) 1 = true := by
  refine ⟨[1], rfl, edVerify_neutral _, fun k h => ?_⟩
  obtain rfl : (1 : Nat) = k := Option.some.inj h
  exact edVerify_neutral _
def signedBlob : List Byte := blob.take 64 ++ natToBytes 64 1
theorem witness_Identity_signed : (let f := fun (off n : Nat) => bytesToNat ((signedBlob.drop off).take n)
    (signedBlob.length = 128 ∧ f 0 4 = 0x3146435A ∧ f 4 2 = 1 ∧ f 6 2 = 0 ∧ ownedNeutral.mgr.sequence ≤ f 8 8 ∧ f 0x10 8 = 0 ∧ 600 ≤ f 0x18 2
      ∧ f 0x18 2 ≤ 1800 ∧ f 0x1A 1 < 64 ∧ f 0x1B 37 = 0)
    ∧ ∃ k, ownedNeutral.mgr.owner = some k ∧ edVerify k (signedBlob.take 64) (f 0x40 64) = true) := by
  refine ⟨by decide +kernel, 1, rfl, ?_⟩
  have e : bytesToNat ((signedBlob.drop 0x40).take 64) = 1 := by decide +kernel
  show edVerify 1 _ (bytesToNat ((signedBlob.drop 0x40).take 64)) = true
  rw [e]
  exact edVerify_neutral _
/-- FIPS 180-4's own example: SHA-512 of "abc". -/
theorem test_sha512 : (sha512 [0x61, 0x62, 0x63]).take 8 = [0xdd, 0xaf, 0x35, 0xa1, 0x93, 0x61, 0x7a, 0xba] := by decide +kernel
theorem witness_Resets : (hosted.mgr.qps.get 1).session = some 31 ∧ (∀ p ∈ hosted.chans, p.2.badMirror = []) ∧ Good hosted :=
  ⟨rfl, by decide, by unfold Good; decide⟩
/-- One port that trains gives the module number 5; granule 2 of memory has written bytes that stand in a slice. -/
theorem witness_Resets_kept : (let s := { hosted with
      ports := [(3, { (default : Port) with attached := true, gives := some 5 })], dirty := [(2, List.replicate 32 1)] }
    (s.ports.get 3).attached = true ∧ (s.ports.get 3).gives = some 5 ∧ (s.ports.get 4).attached = false
      ∧ (∀ p ∈ s.ports, p.2.gives = none ∨ p.2.gives = some 5) ∧ (∃ p ∈ s.dirty, 32 * p.1 ≤ 70 ∧ 70 < 32 * p.1 + p.2.length)
      ∧ (∀ p ∈ s.dirty, ∀ q ∈ s.dirty, q = p) ∧ ¬ ∃ p ∈ s.dirty, 32 * p.1 ≤ 100 ∧ 100 < 32 * p.1 + p.2.length) := by decide
def dark (a : List Input) : State := { hosted with power := 0, agenda := a }
theorem witness_Power_off : (dark []).power = 0 ∧ (dark [.event .powerOn]).agenda = .event .powerOn :: []
    ∧ (dark [.evictL1 0 0]).agenda = .evictL1 0 0 :: [] ∧ Input.evictL1 0 0 ≠ .event .powerOn := ⟨rfl, rfl, rfl, by decide⟩
def heated (issue : Nat) (cool : Option Nat) : State := { two with
  cycle := 900000, mgr := { two.mgr with temps := [106], issue := issue, stepped := 100, coolSince := cool } }
theorem witness_PowerSteps : (∃ t ∈ (heated 8 none).mgr.temps, (105 : Int) < t) ∧ (heated 6 none).mgr.stepped + 80000 ≤ (heated 6 none).cycle
    ∧ ¬ ((∃ t ∈ two.mgr.temps, (105 : Int) < t) ∨ two.mgr.powercap < two.mgr.watts) ∧ (heated 6 (some 5)).mgr.coolSince = some 5
    ∧ 5 + 800000 ≤ (heated 6 (some 5)).cycle ∧ (1700 * 100 ≤ two.mgr.powercap * 97 ∧ ∀ t ∈ [(102 : Int)], t ≤ (102 : Int)) := by decide
/-- Cool under the cap, and no longer so under a lower one. -/
theorem witness_PowerSteps_exit : (let g : Manager := { (heated 6 (some 5)).mgr with temps := [100], watts := 1000 }
    (g.watts * 100 ≤ g.powercap * 97 ∧ ∀ x ∈ g.temps, x ≤ (102 : Int)) ∧ ¬ (g.watts * 100 ≤ ({ g with powercap := 700 } : Manager).powercap * 97)) := by decide
theorem witness_Health : mayCommand hosted (hd 1) 3 ∧ (0x80000205 : Word).toNat % 2 ^ 16 = 0x0205 ∧ (0x80000205 : Word).toNat / 2 ^ 30 % 2 = 0 :=
  ⟨may_command _ rfl _ _ (by decide), by decide⟩
def crewless (c : Core) : State := { hosted with crews := [], launches := [], cores := [(7, c)] }
theorem witness_Cores : mayCommand (crewless default) (hd 1) 3 ∧ (hosted.core 7).leaving = [] ∧ (hosted.core 7).pins = 0
    ∧ (crewless default).spareable 7 = true ∧ (crewless { (default : Core) with leaving := [hd 1] }).coreClear 7 = true
    ∧ (hosted.setCore 0 { hosted.core 0 with leaving := [hd 1] }).coreClear 0 = false
    ∧ ((crewless { (default : Core) with offline := true }).core 7).offline = true ∧ hosted.overlapsPins 7 3 = false
    ∧ hosted.overlapsPins 0 192 = true ∧ hd 1 ∉ [(⟨2, 9, 1⟩ : Hdr)]
    ∧ (crewless { (default : Core) with offline := true, leaving := [⟨2, 9, 1⟩] }).spareable 7 = true := ⟨may_command _ rfl _ _ (by decide), by decide +kernel⟩
theorem witness_Cores_unpin : (let s := { crewless { (default : Core) with pins := 5 } with invals := [(4, ⟨0, true, 0, 0, .pin (hd 1) false 7 2⟩)] }
    s.invals.find 4 = some ⟨0, true, 0, 0, .pin (hd 1) false 7 2⟩ ∧ s.reqs = [] ∧ (∀ p ∈ s.tickets, p.2.state ≠ 1 ∨ p.2.reqs ≠ []) ∧ 2 ≤ (s.core 7).pins ∧ (s.core 7).pins ≤ 192) := by decide
def channelled (c : Chan) : State := { hosted with chans := [(33, c)] }
theorem witness_Channels : (channelled default).chans.get 33 = default ∧ (channelled { (default : Chan) with failed := true }).chans.get 33
      = { (default : Chan) with failed := true } ∧ (default : Chan).badMirror = [] ∧ (default : Chan).mirror.find 0 = none
    ∧ (channelled { (default : Chan) with table := [(0, 5)] }).chans.get 33 ≠ default
    ∧ mayCommand (channelled default) (hd 1) 3 := ⟨rfl, rfl, rfl, rfl, by decide, may_command _ rfl _ _ (by decide)⟩
/-- A row with an entry in the mirror, one without, the lowest entry that is free, an entry marked bad. -/
theorem witness_Channels_repair : (let e : DWord := BitVec.ofNat 64 (2 ^ 63 + 2 * 2 ^ 42 + 9 * 2 ^ 24)
    let c : Chan := { (default : Chan) with mirror := [(0, e)], table := [(0, e)], badTable := [1] }
    (∃ e ∈ c.mirror, e.2.toNat / 2 ^ 63 = 1 ∧ e.2.toNat / 2 ^ 42 % 2 ^ 6 = 2 ∧ e.2.toNat / 2 ^ 24 % 2 ^ 18 = 9)
      ∧ (∀ e ∈ c.mirror, ¬ (e.2.toNat / 2 ^ 63 = 1 ∧ e.2.toNat / 2 ^ 42 % 2 ^ 6 = 3 ∧ e.2.toNat / 2 ^ 24 % 2 ^ 18 = 9))
      ∧ c.mirror.find 1 = none ∧ (∀ j, j < 1 → c.mirror.find j ≠ none) ∧ c.badTable ≠ [] ∧ c.check ∉ c.badTable) := by decide

/-! ### Fetch and the whole machine -/

theorem witness_QuotaFault : (let s := two.setWarp 0 { two.warp 0 with quota := 64 }
    (Instr.add (.v 64) (.v 1) (.v 2)).isWord = true ∧ s.cur.tail = []
      ∧ (Instr.add (.v 64) (.v 1) (.v 2)).positions.any (fun p => p.2 == .v 64 && decide (0 < p.1.vregs)) = true ∧ s.curWarp.quota ≤ 64 + 0) := by decide
theorem witness_QuotaFault_chain : (let s := two.setWarp 0 { two.warp 0 with quota := 64 }
    let i := Instr.faddF32 true (.v 1) (.v 2) (.v 3)
    let j := Instr.fmulF32 false (.v 1) .z (.v 64)
    (flumeOf i).isSome = true ∧ i.positions.all (fun p => !overQuota s.curWarp.quota p) = true
      ∧ j.positions.any (fun p => p.2 == .v 64 && decide (0 < p.1.vregs)) = true ∧ s.curWarp.quota ≤ 64 + 0) := by decide
theorem witness_QuotaFault_named : (let s := two.setWarp 0 { two.warp 0 with quota := 64 }
    63 < s.curWarp.quota ∧ 0 < s.curWarp.quota ∧ s.curWarp.badRegs = []) := by decide
/-- The step after reset with nop at 0x1800: the cycle's one group is warp 0's, on port A. -/
def started : State := State.reset.withFetchWord 32 0x5D000000
theorem witness_StepRunsDecoded_run : started.power ≠ 0 ∧ started.agenda = [] ∧ started.promptEvent = none ∧ started.slotWaits = false
    ∧ started.turns ≠ [] ∧ started.cancels = []
    ∧ (match started.takeTurns.issues with
      | (_, x) :: rest =>
        let u := { started.takeTurns with issues := rest }
        u.stillEligible x && !u.paired x.warp && u.fetchGroup x.warp x.pc == .run .nop []
      | [] => false) = true := by decide
theorem witness_StepRunsDecoded_bad : (let s := State.reset.withFetchWord 32 0x5D000001
    match s.takeTurns.issues with
      | (_, x) :: rest =>
        let u := { s.takeTurns with issues := rest }
        u.stillEligible x && u.fetchGroup x.warp x.pc == .bad 0
      | [] => false) = true := by decide
theorem witness_NopWord : (let s := State.reset.withFetchWord 32 0x5D000001
    s.fetchWord 0 0x1800 = .word 0x5D000001 ∧ 0x5D000001 < 2 ^ 32 ∧ 0x5D000001 / 2 ^ 24 % 2 ^ 7 = 0x5D ∧ 0x5D000001 ≠ 0x5D000000
      ∧ s.fetchGroup 0 0x1800 = .bad 0) := by decide
/-- Two groups of warp 0 in one cycle, port B's still to come. -/
theorem witness_StepRunsDecoded_pair : (let u := { started with turns := [], issues := [(3, ⟨0, 2, 0x1800, 1, [], 0, false⟩)] }
    u.stillEligible ⟨0, 1, 0x1800, 0, [], 0, false⟩ = true ∧ u.paired 0 = true ∧ u.fetchGroup 0 0x1800 = .run .nop []) := by decide
theorem witness_StepRunsDecoded_gone : (let u := { two with turns := [] }
    u.stillEligible ⟨0, 1, 0x1801, 0, [], 0, false⟩ = false) := by decide
theorem witness_StepRunsDecoded_words : (let s := State.reset.withFetchWord 64 0xFC0442001B0A0CC3
    let i := Instr.intTyped .add .i64 true (.v 10) (.v 12) (.s 3) .z
    let ws := [0x1B0A0CC3, 0xFC044200]
    ws.length = i.len ∧ i.len ≤ 3 - (0x1800 : DWord).toNat % 3 ∧ s.fetchWord 0 0x1800 = .word 0x1B0A0CC3 ∧ s.fetchWord 0 0x1801 = .word 0xFC044200
      ∧ isFXMajor (wMajor (ws.headD 0)) = true ∧ decode (ws ++ [0]) = .ok i ∧ i.chain = false ∧ isFlumeMajor (wMajor (ws.headD 0)) = false) :=
  ⟨by decide, by decide, by decide, by decide, by decide, rfl, by decide⟩
theorem witness_DecodeEncode : (Instr.intTyped .mad .i64 true (.v 10) (.v 12) (.lit32 7) (.v 14)).wf = true ∧ Instr.halt.wf = true
    ∧ (Instr.atomG .cas .w128 .acqrel .device (.v 4) (.s 5) (.v 8) (.v 12)).wf = true := by decide
theorem witness_MemoryCanonical : Good (State.reset.withFetchWord 32 0x5D000000)
    ∧ (match step (State.reset.withFetchWord 32 0x5D000000) with
      | .next _ => true
      | _ => false) = true := ⟨by unfold Good; decide, by decide⟩

/-! ### Single steps, with results worked out from the spec -/

/-- A predicate of the next state. -/
def nextIs (o : Host.Outcome State Fault Refusal) (p : State → Bool) : Bool :=
  match o with
  | .next t => p t
  | _ => false
def regs : State := two.setWarp 0 { two.warp 0 with
  vregs := [(vkey 1 0, 0x7FFFFFFF), (vkey 2 0, 0x80000000), (vkey 3 0, 0xFFFFFFFF), (vkey 4 0, 0x12345678)] }

-- R213: the sum wraps; a source is the destination.
theorem test_add_wraps : nextIs (exec (.add (.v 1) (.v 1) (.k 1)) regs) (fun t => (t.curWarp.v 1 0 == 0x80000000)
    && ((t.curWarp.lane 0).pc == 0x1801) && ((t.curWarp.lane 2).pc == 0x1800)) = true := by decide
-- R213: −2^31 / −1 wraps to −2^31 and leaves remainder 0; x / 0 = −1.
theorem test_div_corner : nextIs (exec (.div (.v 5) (.v 2) (.v 3)) regs) (fun t => t.curWarp.v 5 0 == 0x80000000) = true := by decide
theorem test_rem_corner : nextIs (exec (.rem (.v 5) (.v 2) (.v 3)) regs) (fun t => t.curWarp.v 5 0 == 0) = true := by decide
theorem test_div_zero : nextIs (exec (.div (.v 5) (.v 4) .z) regs) (fun t => t.curWarp.v 5 0 == 0xFFFFFFFF) = true := by decide
-- R214: a shift by 32 gives 0; sar gives the sign.
theorem test_shl_full : nextIs (exec (.shl (.v 5) (.v 4) (.k 7)) regs) (fun t => t.curWarp.v 5 0 == 0) = true := by decide
theorem test_sar_full : nextIs (exec (.sar (.v 5) (.v 2) (.k 7)) regs) (fun t => t.curWarp.v 5 0 == 0xFFFFFFFF) = true := by decide
-- R218: saturation of .i32.
theorem test_sat : nextIs (exec (.intTyped .add .i32 true (.v 5) (.v 1) (.k 1) .z) regs) (fun t => t.curWarp.v 5 0 == 0x7FFFFFFF) = true := by decide
-- R228: an offset counts words from the branch itself.
theorem test_bra_back : nextIs (exec (.bra 0xFFFF) regs) (fun t => (t.curWarp.lane 0).pc == 0x17FF) = true := by decide
-- R18: v192 of a warp with quota 64 faults.
theorem test_quota : nextIs (exec (.add (.v 64) (.v 1) (.v 2)) ((handled two).setWarp 0 { two.warp 0 with quota := 64 }))
    (fun t => (t.curWarp.trapcause == 2) && ((t.curWarp.lane 1).pc == 0x1800) && t.curWarp.handler.isSome) = true := by decide
-- R326, R337: trap 5 saves the next word as return point, and its own byte address.
theorem test_trap : nextIs (exec (.trap 5) (handled two)) (fun t => (t.curWarp.trapcause == 0x11) && (t.curWarp.trapaddr == 0x6000)
    && (t.curWarp.traplanes == 3) && (t.curWarp.trapinfo == 0x5000080)) = true := by decide
-- R57, R268: a byte stored to scratchpad at 8, and a sign-extended load of it.
theorem test_scratch_store : nextIs (exec (.stX .i8 .none .warp (.v 3) (.k 5)) regs) (fun t => t.mem.readNat 0x100_1000_0008 1 == 0) = true := by decide
theorem test_scratch_load : nextIs (exec (.ldX .i8 .none .warp (.v 6) (.k 5)) { regs with mem := [(0x100_1000_0008, 0x80)] })
    (fun t => t.curWarp.v 6 1 == 0xFFFFFF80) = true := by decide

/-- A launch table whose slots are all taken. -/
def fill (a : Launch) : Nat → FMap Launch
  | 0 => []
  | n + 1 => (n, a) :: fill a n
theorem find_fill (a : Launch) (k n : Nat) (h : k < n) : (fill a n).find k = some a := by
  induction n with
  | zero => omega
  | succ n ih =>
    rw [fill, FMap.find_cons]
    split
    · rfl
    · exact ih (by omega)
/-- `recorded` on such a machine. -/
def recordedFull : State := { recorded with launches := fill { (default : Launch) with live := true } 4096 }
theorem witness_SpawnAndCancel_full : recordedFull.freeLaunch = none := by
  unfold State.freeLaunch
  rw [List.find?_eq_none]
  intro n hn
  have h := find_fill { (default : Launch) with live := true } n 4096 (List.mem_range.1 hn)
  simp [recordedFull, State.launch, FMap.get, h]
theorem witness_SpawnAndCancel_full_held : recordedFull.lead64 (.s 8) % 256 = 0 ∧ recordHeld recordedFull (recordedFull.lead64 (.s 8)) 256 launchBytes
    ∧ clear (.spawn false (.v 2) (.s 8) .z) recordedFull = true ∧ recordedFull.placeable (theLaunch false) = true ∧ (theLaunch false).done = 0 :=
  ⟨by decide +kernel, held_of_ok (by decide +kernel), by decide +kernel, by decide +kernel, by decide +kernel⟩
theorem witness_Translations_full :
    64 ≤ ({ walkingTo 2 [] with held := (List.range 64).map fun n => (n, ⟨2, n, 1, false, 0, 0, 0⟩) } : State).held.length := by decide

end Sys2Proof.Tests
end

/-! ## O59: every step keeps the memory canonical

Only stores, the clearing of a range and a restart change the memory's list of bytes; every other operation of the machine is
built of these and of updates of other fields (`Good.keep`). One lemma per function of the model that answers a state, in the
order of the definitions and with a proof that follows the function's own text, leads up to `Good.exec` and `Good.step`. -/

namespace Sys2Proof

open Sys2Proof.Machine

-- Some 600 small lemmas: elaborated one after another, they need one thread and not one each.
set_option Elab.async false

/-- The outcome is no next state, or one whose memory is canonical. -/
inductive GoodNext : Host.Outcome State Fault Refusal → Prop
  | next {t} (h : Good t) : GoodNext (.next t)
  | fault {f} : GoodNext (.fault f)
  | refused {r} : GoodNext (.refused r)

/-- The result is a trap, or a state whose memory is canonical. -/
inductive GoodOk : Except Trap State → Prop
  | ok {t} (h : Good t) : GoodOk (.ok t)
  | error {e} : GoodOk (.error e)

/-- The result is nothing, or a state whose memory is canonical. -/
inductive GoodSome : Option State → Prop
  | some {t} (h : Good t) : GoodSome (.some t)
  | none : GoodSome .none

/-- An engine operation keeps the memory canonical, whether it finishes or stops. -/
def EngGood {α : Type} (x : EngM α) : Prop := ∀ s : State, Good s → Good (runEng x s).2

section
variable {α β : Type} {s t : State} {c : Prop} [Decidable c]

/-- What leaves the memory's list of bytes as it is keeps its form. -/
theorem Good.keep (h : Good s) (e : t.mem = s.mem := by (try dsimp only) <;> rfl) : Good t := by
  rw [Good, e]
  exact h

/-! ### A branch, a fold -/

theorem Good.ite {a b : State} (ha : Good a) (hb : Good b) : Good (if c then a else b) := by
  split <;> assumption
theorem Good.ite_fst {a b : State × α} (ha : Good a.1) (hb : Good b.1) : Good (if c then a else b).1 := by
  split <;> assumption
theorem Good.ite_snd {a b : α × State} (ha : Good a.2) (hb : Good b.2) : Good (if c then a else b).2 := by
  split <;> assumption
theorem GoodNext.ite {a b : Host.Outcome State Fault Refusal} (ha : GoodNext a) (hb : GoodNext b) : GoodNext (if c then a else b) := by
  split <;> assumption
theorem GoodOk.ite {a b : Except Trap State} (ha : GoodOk a) (hb : GoodOk b) : GoodOk (if c then a else b) := by
  split <;> assumption
theorem GoodSome.ite {a b : Option State} (ha : GoodSome a) (hb : GoodSome b) : GoodSome (if c then a else b) := by
  split <;> assumption
theorem EngGood.ite {a b : EngM α} (ha : EngGood a) (hb : EngGood b) : EngGood (if c then a else b) := by
  split <;> assumption

theorem Good.foldl {f : State → α → State} {l : List α} (h : Good s) (hf : ∀ {s : State} {a : α}, Good s → Good (f s a)) :
    Good (l.foldl f s) := by
  induction l generalizing s with
  | nil => exact h
  | cons a l ih => exact ih (hf h)
theorem Good.foldl_fst {f : State × β → α → State × β} {p : State × β} {l : List α} (h : Good p.1)
    (hf : ∀ {p : State × β} {a : α}, Good p.1 → Good (f p a).1) : Good (l.foldl f p).1 := by
  induction l generalizing p with
  | nil => exact h
  | cons a l ih => exact ih (hf h)

/-! ### The state that a result named by an equation holds -/

theorem Good.of_fst {p : State × α} {a : α} (h : Good p.1) (e : p = (t, a)) : Good t := by
  rw [e] at h
  exact h
theorem Good.of_snd {p : α × State} {a : α} (h : Good p.2) (e : p = (a, t)) : Good t := by
  rw [e] at h
  exact h
theorem GoodNext.of_next {o : Host.Outcome State Fault Refusal} (h : GoodNext o) (e : o = .next t) : Good t := by
  cases h <;> cases e
  assumption
theorem GoodOk.of_ok {o : Except Trap State} (h : GoodOk o) (e : o = .ok t) : Good t := by
  cases h <;> cases e
  assumption
theorem GoodSome.of_eq {o : Option State} (h : GoodSome o) (e : o = Option.some t) : Good t := by
  cases h <;> cases e
  assumption
theorem GoodSome.of_pair {o : Option (State × α)} {a : α} (h : GoodSome (o.map Prod.fst)) (e : o = Option.some (t, a)) : Good t := by
  subst e
  exact h.of_eq rfl
theorem GoodSome.map_some {a : α} (h : Good s) : GoodSome ((Option.some (s, a)).map Prod.fst) := .some h

/-! ### Engine operations -/

theorem Good.runEng {x : EngM α} (h : Good s) (hx : EngGood x) : Good (runEng x s).2 := hx s h

theorem EngGood.pure {a : α} : EngGood (pure a : EngM α) := fun _ h => h
theorem EngGood.throw {e : EngStop} : EngGood (throw e : EngM α) := fun _ h => h
theorem EngGood.throw_bind {e : EngStop} {f : α → EngM β} : EngGood (MonadExcept.throw e >>= f) := fun _ h => h
theorem EngGood.set (h : Good t) : EngGood (set t : EngM PUnit) := fun _ _ => h
theorem EngGood.modify {f : State → State} (hf : ∀ {s}, Good s → Good (f s)) : EngGood (modify f : EngM PUnit) := fun _ h => hf h
theorem EngGood.get_bind {f : State → EngM β} (hf : ∀ {s}, Good s → EngGood (f s)) : EngGood (get >>= f) := fun s h => hf h s h
/-- The second operation starts where the first one finishes; a stop of the first is the stop of both. -/
theorem EngGood.bind {x : EngM α} {f : α → EngM β} (hx : EngGood x) (hf : ∀ {a}, EngGood (f a)) : EngGood (x >>= f) := by
  intro s h
  have hr : Machine.runEng (x >>= f) s = match Machine.runEng x s with
    | (.ok a, t) => Machine.runEng (f a) t
    | (.error e, t) => (.error e, t) := by
    simp only [Machine.runEng, ExceptT.run_bind, StateT.run_bind]
    rcases (ExceptT.run x).run s with ⟨_ | _, t⟩ <;> rfl
  rw [hr]
  split
  · exact hf _ ((h.runEng hx).of_snd ‹_›)
  · exact (h.runEng hx).of_snd ‹_›

end

/-! ### What a restart keeps of the memory -/

theorem wf_foldl_write {dirty : List (Nat × List Byte)} {m : Memory} (h : m.wf = true) :
    (dirty.foldl (fun m p => m.write (32 * p.1) p.2) m).wf = true := by
  induction dirty generalizing m with
  | nil => exact h
  | cons p ps ih => exact ih (Memory.wf_write h _ _)
/-- A restart writes the kept blocks into what it keeps of the memory. -/
theorem keptMemory_wf {m : Memory} {dirty retain} (h : m.wf = true) : (keptMemory m dirty retain).wf = true := by
  unfold keptMemory
  split
  exacts [wf_foldl_write (Memory.wf_filter h _), Memory.wf_filter h _]

section
variable {s : State}

/-! ### Sys2Proof/Machine/Ops.lean -/

theorem Good.setWarp {w x} (h : Good s) : Good (s.setWarp w x) := h.keep
theorem Good.setCrew {t x} (h : Good s) : Good (s.setCrew t x) := h.keep
theorem Good.setGang {g x} (h : Good s) : Good (s.setGang g x) := h.keep
theorem Good.setCore {c x} (h : Good s) : Good (s.setCore c x) := h.keep
theorem Good.setCtx {c x} (h : Good s) : Good (s.setCtx c x) := h.keep
theorem Good.setLaunch {n x} (h : Good s) : Good (s.setLaunch n x) := h.keep
theorem Good.upCur {f} (h : Good s) : Good (s.upCur f) := h.setWarp
theorem Good.advance {n} (h : Good s) : Good (s.advance n) := h.upCur
theorem Good.writeRes {nw d f} (h : Good s) : Good (s.writeRes nw d f) := h.upCur
theorem Good.block {len x} (h : Good s) : Good (s.block len x) := h.upCur
theorem Good.orphan {w} (h : Good s) : Good (s.orphan w) := h.keep
theorem Good.endWarp {w} (h : Good s) : Good (s.endWarp w) := h.orphan.setWarp.setCrew
theorem Good.dropSpawns {tok} (h : Good s) : Good (s.dropSpawns tok) := h.keep.foldl fun k => k.setLaunch
theorem Good.stopCrew {tok} (h : Good s) : Good (s.stopCrew tok) := (h.foldl fun k => k.endWarp).keep.dropSpawns
theorem Good.failCrew {tok f} (h : Good s) : Good (s.failCrew tok f) := h.setLaunch.foldl fun k => k.setCrew.stopCrew
theorem Good.post {m} (h : Good s) : Good (s.post m) := by
  simp only [State.post]
  repeat' split
  all_goals exact h.keep
theorem Good.logError {kind storage ctx loc pa va} (h : Good s) : Good (s.logError kind storage ctx loc pa va) := h.keep.post
theorem Good.reply {hdr opcode status body} (h : Good s) : Good (s.reply hdr opcode status body) := h.keep
theorem Good.enterTrap {w t sup} (h : Good s) : Good (s.enterTrap w t sup) :=
  .ite h.setWarp (.ite (.ite h.post.setWarp h.setWarp.failCrew) h.setWarp)
theorem Good.takeTrap {w t sup} (h : Good s) : Good (s.takeTrap w t sup) := by
  simp only [State.takeTrap]
  repeat' split
  exacts [h.keep, h.setWarp, h.failCrew, h.enterTrap]
theorem Good.takeResponse {w t sup} (h : Good s) : Good (s.takeResponse w t sup) := .ite h.setWarp h.takeTrap
theorem Good.issueTrap {t sup} (h : Good s) : Good (s.issueTrap t sup) := h.takeTrap
theorem Good.groupOp {is} {body : State → Except Trap State} (h : Good s) (hf : ∀ {s}, Good s → GoodOk (body s)) :
    GoodNext (groupOp is s body) := by
  simp only [Machine.groupOp]
  repeat' split
  exacts [.next h.issueTrap, .next h.upCur.issueTrap, .next h.logError.issueTrap, .next h.issueTrap, .next ((hf h).of_ok ‹_›)]
theorem Good.runOp {i} {body : State → Except Trap State} (h : Good s) (hf : ∀ {s}, Good s → GoodOk (body s)) : GoodNext (runOp i s body) :=
  h.groupOp hf
theorem Good.plainOp {i} {f : State → State} (h : Good s) (hf : ∀ {s}, Good s → Good (f s)) : GoodNext (plainOp i s f) :=
  h.runOp fun k => .ok (hf k).advance
theorem Good.checkedOp {i} {f : State → Except Trap State} (h : Good s) (hf : ∀ {s}, Good s → GoodOk (f s)) : GoodNext (checkedOp i s f) :=
  h.runOp fun k => by
    repeat' split
    exacts [.ok ((hf k).of_ok ‹_›).advance, .error]

/-! ### Sys2Proof/Machine/Memory.lean -/

theorem Good.countCore {core ctx source n} (h : Good s) : Good (s.countCore core ctx source n) := .ite h h.setCore
theorem Good.countSlice {slice source n} (h : Good s) : Good (s.countSlice slice source n) := .ite h h.keep
theorem Good.countLink {port source n} (h : Good s) : Good (s.countLink port source n) := .ite h h.keep
theorem Good.emptyL1 {core} (h : Good s) : Good (s.emptyL1 core) := .ite h h.setCore
theorem Good.store {a bs} (h : Good s) : Good (s.store a bs) := State.store_wf h a bs
theorem Good.storeX {a bs} (h : Good s) : Good (s.storeX a bs) := State.storeX_wf h a bs

/-! ### Sys2Proof/Machine/Translate.lean -/

theorem Good.cacheWalk {es} (h : Good s) : Good (s.cacheWalk es) := h.keep
theorem Good.addMiss {core ctx va a} (h : Good s) : Good (s.addMiss core ctx va a) := .ite h h.setCore

/-! ### Sys2Proof/Machine/Access.lean -/

theorem Good.countServed {pa} (h : Good s) : Good (s.countServed pa) := by
  simp only [State.countServed]
  repeat' split
  exacts [h.countSlice, h.countSlice, h]
theorem Good.countWalk {ctx va} (h : Good s) : Good (s.countWalk ctx va) := .ite h (h.foldl fun k => k.countServed)
theorem Good.countPoisoned {a} (h : Good s) : Good (s.countPoisoned a) := by
  simp only [State.countPoisoned]
  repeat' split
  exacts [h.keep.countSlice, h.keep.countSlice, h.keep]
theorem Good.countCorrected {row place} (h : Good s) : Good (s.countCorrected row place) := .ite h.keep.countCore (.ite h.keep.countSlice h.keep)
theorem Good.findPoison {a ctx va} (h : Good s) : Good (s.findPoison a ctx va) := .ite (.ite h.keep.logError.countPoisoned h.keep.logError) h
theorem Good.logRead {ctx pa n va} (h : Good s) : Good (s.logRead ctx pa n va) := h.findPoison.logError
theorem Good.logScratch {ctx core ops} (h : Good s) : Good (s.logScratch ctx core ops) := h.foldl fun k => k.logError
theorem Good.logReads {ctx w ops} (h : Good s) : Good (s.logReads ctx w ops) := h.foldl fun k => k.logRead
theorem Good.logWalk {ctx pa va} (h : Good s) : Good (s.logWalk ctx pa va) := h.findPoison.logError
theorem Good.storePhys {ctx pa va bs} (h : Good s) : Good (s.storePhys ctx pa va bs) := .ite h.logError h.store
theorem Good.wroteWhole {ops w} (h : Good s) : Good (s.wroteWhole ops w) := h.foldl fun k => .ite k k.store
theorem Good.dropL1 {core pa n} (h : Good s) : Good (s.dropL1 core pa n) := .ite h h.setCore
theorem Good.dropEveryL1 {pa n} (h : Good s) : Good (s.dropEveryL1 pa n) := h.keep
theorem Good.migSettle {n} (h : Good s) : Good (s.migSettle n) := .ite h.keep.post h
theorem Good.pull {n line bg} (h : Good s) : Good (s.pull n line bg) := by
  simp only [State.pull]
  repeat' split
  exacts [h, (h.keep.foldl fun k => k.findPoison).logError.migSettle, h.keep.countServed.countServed.dropEveryL1.storePhys.migSettle,
    h.keep.countServed.countServed.dropEveryL1.storePhys.migSettle]
theorem Good.touch {x n} (h : Good s) : Good (s.touch x n) := by
  simp only [State.touch]
  repeat' split
  exacts [h.foldl fun k => k.pull, h, h]
theorem Good.clearLine {x} (h : Good s) : Good (s.clearLine x) := by
  simp only [State.clearLine]
  repeat' split
  exacts [h, h.keep.migSettle, h, h]
theorem Good.fillL1 {core pa n fresh} (h : Good s) : Good (s.fillL1 core pa n fresh) := h.setCore
theorem Good.storeL1 {core pa bs} (h : Good s) : Good (s.storeL1 core pa bs) := by
  simp only [State.storeL1]
  repeat' split
  exacts [h, h.setCore]

/-! ### Sys2Proof/Machine/Waits.lean -/

theorem Good.settleStage {w} (h : Good s) : Good (s.settleStage w) := .ite (.ite h.setCrew.setWarp h) h
theorem Good.resumeChain {w port} (h : Good s) : Good (s.resumeChain w port) := by
  simp only [State.resumeChain]
  repeat' split
  exacts [h.setWarp.takeTrap, h, h.setWarp, h.setWarp, h]
theorem Good.takePending {w} (h : Good s) : Good (s.takePending w) := by
  simp only [State.takePending]
  repeat' split
  exacts [h, h, h.setWarp.takeTrap]
theorem Good.resumeChains {w} (h : Good s) : Good (s.resumeChains w) := .ite h.resumeChain h.resumeChain.resumeChain
theorem Good.settleTrapret {w} (h : Good s) : Good (s.settleTrapret w) := by
  simp only [State.settleTrapret]
  repeat' split
  exacts [h, h.setWarp.resumeChains.takePending, h]
theorem Good.settle {w} (h : Good s) : Good (s.settle w) := h.setWarp.settleStage.settleTrapret
theorem Good.leave {w m} (h : Good s) : Good (s.leave w m) := by
  simp only [State.leave]
  repeat' split
  exacts [h.setWarp.failCrew, h.setWarp.endWarp, h.setWarp.settle]
theorem Good.setBarrier {tok gang id b} (h : Good s) : Good (s.setBarrier tok gang id b) := .ite h.setCrew (.ite h.setCrew h.setGang)
theorem Good.releaseBar {tok gang id} (h : Good s) : Good (s.releaseBar tok gang id) :=
  .ite ((h.foldl fun k => k.setWarp).foldl fun k => k.emptyL1) (h.foldl fun k => k.setWarp)
theorem Good.arriveBar {w l gang id count block len} (h : Good s) : Good (s.arriveBar w l gang id count block len) :=
  .ite (.ite h.setBarrier.setWarp h.setBarrier) (Good.ite h.setBarrier.setWarp h.setBarrier).setBarrier.releaseBar
theorem Good.buildBin {core bin} (h : Good s) : Good (s.buildBin core bin) := by
  simp only [State.buildBin]
  repeat' split
  exacts [h, h, h.setCore.setWarp.countCore]
theorem Good.fileInto {core bin k t} (h : Good s) : Good (s.fileInto core bin k t) := h.countCore.setCore
theorem Good.fileYard {core k t} (h : Good s) : Good (s.fileYard core k t) := by
  simp only [State.fileYard]
  repeat' split
  exacts [h.fileInto, h.fileInto, h.buildBin.fileInto, h.buildBin.setCore, h.fileInto, h.setCore]
theorem Good.enterYard {core k t} (h : Good s) : Good (s.enterYard core k t) := .ite h.fileYard h.setCore
theorem Good.refileYard {core} (h : Good s) : Good (s.refileYard core) := by
  simp only [State.refileYard]
  repeat' split
  exacts [h, h.setCore.fileYard, h]
theorem Good.refileAll {core n} (h : Good s) : Good (s.refileAll core n) := by
  induction n generalizing s with
  | zero => exact h
  | succ n ih => exact .ite h (ih h.refileYard)

/-! ### Sys2Proof/Machine/Traps.lean -/

theorem Good.breakOp {i software code} (h : Good s) : GoodNext (breakOp i software code s) := h.runOp fun _ => .error
theorem Good.execTrap {code} (h : Good s) : GoodNext (execTrap code s) := h.breakOp
theorem Good.execBrk {code} (h : Good s) : GoodNext (execBrk code s) := h.breakOp
theorem Good.execHalt (h : Good s) : GoodNext (execHalt s) := h.runOp fun k => .ok k.failCrew
theorem Good.execTrapret (h : Good s) : GoodNext (execTrapret s) := h.runOp fun k => .ite .error (.ok k.block.settleTrapret)
theorem Good.execIllegalInstruction (h : Good s) : GoodNext (execIllegalInstruction s) := .next h.issueTrap
theorem Good.execTrapsupply {a} (h : Good s) : GoodNext (execTrapsupply a s) :=
  h.checkedOp fun k => by
    dsimp only
    repeat' split
    exacts [.error, .error, .error, .ok k.setWarp, .ok k.setWarp]
theorem Good.execCsrr {d r} (h : Good s) : GoodNext (execCsrr d r s) := h.checkedOp fun k => .ite .error (.ok k.writeRes)
theorem Good.setCsr {w r x} (h : Good s) : Good (s.setCsr w r x) := .ite h.setWarp (.ite h.setWarp (.ite h.setCore h.setCore))
theorem Good.setCtxCsr {ctx r x} (h : Good s) : Good (s.setCtxCsr ctx r x) := h.setCtx
theorem Good.execCsrw {a r} (h : Good s) : GoodNext (execCsrw a r s) :=
  h.runOp fun k => .ite .error (.ite .error (.ite (.ok k.block) (.ok k.setCsr.advance)))
theorem Good.execCsrContextCommit {w} (h : Good s) : GoodNext (execCsrContextCommit w s) := by
  simp only [Machine.execCsrContextCommit]
  repeat' split
  exacts [.next h, .next h.setWarp.setCtxCsr, .next h]
theorem Good.execFlsave {a port} (h : Good s) : GoodNext (execFlsave a port s) :=
  h.checkedOp fun k => by
    dsimp only
    repeat' split
    exacts [.error, .error, .ok k.storeX.setWarp]
theorem Good.execFlrestore {a port} (h : Good s) : GoodNext (execFlrestore a port s) :=
  h.checkedOp fun k => by
    dsimp only
    repeat' split
    exacts [.error, .error, .ok k, .ok k.setWarp, .error]

/-! ### Sys2Proof/Machine/LoadStore.lean -/

theorem Good.stall (h : Good s) : Good s.stall := h.upCur
theorem Good.noteMisses {core ctx acc vas} (h : Good s) : Good (s.noteMisses core ctx acc vas) := h.foldl fun k => .ite k.addMiss k
theorem Good.waitWalk {len vas acc} (h : Good s) : Good (s.waitWalk len vas acc) := .ite h.block (.ite h.stall h.noteMisses.countCore.block)
theorem Good.spendWalk (h : Good s) : Good s.spendWalk := h.upCur
theorem Good.globalAccess {len w acc ops} {f : State → List Part → Except Trap State} (h : Good s) (hf : ∀ {s} {b}, Good s → GoodOk (f s b)) :
    GoodOk (s.globalAccess len w acc ops f) := by
  simp only [State.globalAccess]
  repeat' split
  exacts [.error, .error, .error, .ok h.waitWalk, hf h.spendWalk]
theorem Good.scratchAccess {w ops} {f : State → List LaneOp → Except Trap State} (h : Good s) (hf : ∀ {s} {b}, Good s → GoodOk (f s b)) :
    GoodOk (s.scratchAccess w ops f) := by
  simp only [State.scratchAccess]
  repeat' split
  exacts [.error, hf h, .error]
theorem Good.acquire {on} (h : Good s) : Good (s.acquire on) := .ite h.emptyL1 h
theorem Good.release {on len} {f : State → Except Trap State} (h : Good s) (hf : ∀ {s}, Good s → GoodOk (f s)) :
    GoodOk (s.release on len f) := by
  simp only [State.release]
  repeat' split
  exacts [.ok h.block, .ok h.upCur.issueTrap, hf h, hf h]
theorem Good.send {r} (h : Good s) : Good (s.send r) := h.keep
theorem Good.sendWaiting (h : Good s) : Good s.sendWaiting :=
  h.foldl fun k => by
    repeat' split
    exacts [k.keep, k.keep, k, k]
theorem Good.dropStore {p} (h : Good s) : Good (s.dropStore p) := h.logError
theorem Good.sendStore {kind w p rs} (h : Good s) : Good (s.sendStore kind w p rs).1 := by
  simp only [State.sendStore]
  repeat' split
  exacts [h.dropL1.dropStore, h.dropL1.send, h.dropL1.upCur]
theorem Good.withRoom {len remote} {f : State → Except Trap State} (h : Good s) (hf : ∀ {s}, Good s → GoodOk (f s)) :
    GoodOk (s.withRoom len remote f) :=
  .ite (.ok h.block) (hf h)
theorem Good.finishMem {w r m} (h : Good s) : Good (s.finishMem w r m) :=
  .ite (Good.ite h.emptyL1 h).setWarp (Good.ite h.emptyL1 h).setWarp.takeResponse
theorem Good.afterLocal {len m} (h : Good s) : Good (s.afterLocal len m) := .ite (.ite h.upCur.advance h.issueTrap) h.block
theorem Good.loadLocal {w g p} (h : Good s) : Good (s.loadLocal w g p).1 := by
  simp only [State.loadLocal]
  repeat' split
  exacts [h.touch, h.touch.fillL1.countServed.logReads, h.touch.countServed.logReads]
theorem Good.touchPart {p} (h : Good s) : Good (s.touchPart p) := h.touch
theorem Good.askRemote {kind w p g rs} (h : Good s) : Good (s.askRemote kind w p g rs).1 := by
  simp only [State.askRemote]
  repeat' split
  exacts [h, h.send, h]
theorem Good.askHere {kind w p g rs} (h : Good s) : Good (s.askHere kind w p g rs).1 := by
  simp only [State.askHere]
  repeat' split
  exacts [h, h.keep]
theorem Good.loadPart {w p g rs} (h : Good s) : Good (s.loadPart w p g rs).1 := by
  simp only [State.loadPart]
  repeat' split
  exacts [h, h.touchPart.askRemote, h.touchPart.askHere, h.loadLocal]
theorem Good.loadParts {w ps g rs} (h : Good s) : Good (s.loadParts w ps g rs).1 := by
  induction ps generalizing s g rs with
  | nil => exact h
  | cons p ps ih => exact ih h.loadPart
theorem Good.loadG {len w ord sc d a off} (h : Good s) : GoodOk (s.loadG len w ord sc d a off) := by
  unfold State.loadG
  exact h.globalAccess fun k => .ok k.acquire.loadParts.afterLocal
theorem Good.loadX {len w ord sc d a off} (h : Good s) : GoodOk (s.loadX len w ord sc d a off) := by
  unfold State.loadX
  exact h.scratchAccess fun k => .ok k.acquire.logScratch.afterLocal
theorem Good.storeLane {ctx core w home o} (h : Good s) : Good (s.storeLane ctx core w home o) := .ite h.storePhys.storeL1 h.storePhys
theorem Good.storeTouch {w all p} (h : Good s) : Good (s.storeTouch w all p) := .ite h.clearLine h.touchPart
theorem Good.storePart {w all p} (h : Good s) : Good (s.storePart w all p) := by
  simp only [State.storePart]
  repeat' split
  exacts [h.storeTouch.sendStore, h.storeTouch.dropStore, (h.storeTouch.foldl fun k => k.storeLane).wroteWhole.countServed]
theorem Good.storeG {len w ord sc d a off} (h : Good s) : GoodOk (s.storeG len w ord sc d a off) := by
  unfold State.storeG
  exact h.globalAccess fun k => k.release fun q => q.withRoom fun r => .ok (r.foldl fun u => u.storePart).advance
theorem Good.storeXs {len w ord sc d a off} (h : Good s) : GoodOk (s.storeXs len w ord sc d a off) := by
  unfold State.storeXs
  exact h.scratchAccess fun k => k.release fun q => .ok (q.foldl fun r => r.storeX).advance
theorem Good.execLdG {w ord sc d a} (h : Good s) : GoodNext (execLdG w ord sc d a s) := h.runOp fun k => k.loadG
theorem Good.execLdX {w ord sc d a} (h : Good s) : GoodNext (execLdX w ord sc d a s) := h.runOp fun k => k.loadX
theorem Good.execStG {w ord sc d a} (h : Good s) : GoodNext (execStG w ord sc d a s) := h.runOp fun k => k.storeG
theorem Good.execStX {w ord sc d a} (h : Good s) : GoodNext (execStX w ord sc d a s) := h.runOp fun k => k.storeXs
theorem Good.execLdOffset {x w ord sc d a b} (h : Good s) : GoodNext (execLdOffset x w ord sc d a b s) := h.runOp fun k => .ite k.loadX k.loadG
theorem Good.execStOffset {x w ord sc d a b} (h : Good s) : GoodNext (execStOffset x w ord sc d a b s) := h.runOp fun k => .ite k.storeXs k.storeG
theorem Good.prefetch {w o} (h : Good s) : Good (s.prefetch w o) := by
  simp only [State.prefetch]
  repeat' split
  exacts [h, h, h, h.fillL1, h, h]
theorem Good.execPrf {w a} (h : Good s) : GoodNext (execPrf w a s) := h.plainOp fun k => k.foldl fun q => q.prefetch

/-! ### Sys2Proof/Machine/Atomics.lean -/

theorem Good.atomLane {op ty w ctx o} (h : Good s) : Good (s.atomLane op ty w ctx o).1 := .ite_fst h (.ite h.storePhys h)
theorem Good.atomLanes {op ty w ctx g ops} (h : Good s) : Good (s.atomLanes op ty w ctx g ops).1 :=
  .foldl_fst (h.foldl fun k => k.logRead) fun k => by
    split
    all_goals exact k.atomLane.of_fst ‹_›
theorem Good.atomLocal {op ty w ret g p} (h : Good s) : Good (s.atomLocal op ty w ret g p).1 := by
  simp only [State.atomLocal]
  repeat' split
  exacts [h, h.dropStore, h.countServed.atomLanes]
theorem Good.atomPart {op ty w ret p g rs} (h : Good s) : Good (s.atomPart op ty w ret p g rs).1 := by
  simp only [State.atomPart]
  repeat' split
  exacts [h.dropL1.touchPart.askRemote, h.dropL1.touchPart.sendStore, h.dropL1.touchPart.askHere, h.dropL1.touchPart.atomLocal]
theorem Good.atomParts {op ty w ret ps g rs} (h : Good s) : Good (s.atomParts op ty w ret ps g rs).1 := by
  induction ps generalizing s g rs with
  | nil => exact h
  | cons p ps ih => exact ih h.atomPart
theorem Good.atomDone {len ty d g rs acq} (h : Good s) : Good (s.atomDone len ty d g rs acq) := .ite h.advance h.afterLocal
theorem Good.execAtomG {op t ord sc d a b c} (h : Good s) : GoodNext (execAtomG op t ord sc d a b c s) :=
  h.runOp fun k => k.globalAccess fun q => q.release fun r => r.withRoom fun u => .ok u.atomParts.acquire.atomDone
theorem Good.atomLaneX {op ty w acc o} (h : Good s) : Good (s.atomLaneX op ty w acc o).1 := .ite_fst h.logError (.ite h.storeX h)
theorem Good.execAtomX {op t ord sc d a b c} (h : Good s) : GoodNext (execAtomX op t ord sc d a b c s) :=
  h.runOp fun k => k.scratchAccess fun q => q.release fun {v} r =>
    have u := Good.foldl_fst (p := (v, _)) r fun u => u.atomLaneX
    .ok u.acquire.atomDone
theorem Good.execFence {sc} (h : Good s) : GoodNext (execFence sc s) := h.runOp fun k => k.release fun q => .ok q.acquire.advance

/-! ### Sys2Proof/Machine/Control.lean -/

theorem Good.jump {f} (h : Good s) : Good (s.jump f) := h.upCur
theorem Good.execBra {off} (h : Good s) : GoodNext (execBra off s) := h.runOp fun k => .ok k.jump
theorem Good.execBrc {c off} (h : Good s) : GoodNext (execBrc c off s) := h.runOp fun k => .ok k.jump
theorem Good.execBrcZ {c off} (h : Good s) : GoodNext (execBrcZ c off s) := h.runOp fun k => .ok k.jump
theorem Good.execCall {c off} (h : Good s) : GoodNext (execCall c off s) := h.runOp fun k => .ok k.writeRes.jump
theorem Good.execRet {a} (h : Good s) : GoodNext (execRet a s) := h.runOp fun k => .ite (.ok k.jump) .error
theorem Good.execExit (h : Good s) : GoodNext (execExit s) := h.runOp fun k => .ok k.leave
theorem Good.execReform {a k} (h : Good s) : GoodNext (execReform a k s) :=
  h.runOp fun k => .ite .error (.ite (.ok k.upCur.leave) (.ok (k.upCur.leave.foldl fun q => q.enterYard)))
theorem Good.execReformageExpiry {core bin} (h : Good s) : GoodNext (execReformageExpiry core bin s) := by
  simp only [Machine.execReformageExpiry]
  repeat' split
  exacts [.next h, .next h.buildBin.refileYard, .next h]
theorem Good.execBinBuildOnFreeSlot {core bin} (h : Good s) : GoodNext (execBinBuildOnFreeSlot core bin s) :=
  .ite (.next h.buildBin.refileYard) (.next h)
theorem Good.execStagenext {d} (h : Good s) : GoodNext (execStagenext d s) := h.runOp fun k => .ite .error (.ok k.block.settleStage)
theorem Good.putItem {w lanes st src d} (h : Good s) : Good (s.putItem w lanes st src d) := h.storeX.setCrew.setWarp
theorem Good.takeItem {w lanes st dst d} (h : Good s) : Good (s.takeItem w lanes st dst d) := h.storeX.setCrew.setWarp
theorem Good.settleQueue {tok st n} (h : Good s) : Good (s.settleQueue tok st n) := by
  induction n generalizing s with
  | zero => exact h
  | succ n ih =>
    simp only [State.settleQueue]
    repeat' split
    exacts [h, ih h.takeItem.setWarp, h, h, ih h.putItem.setWarp, h, h]
theorem Good.execQput {d a b} (h : Good s) : GoodNext (execQput d a b s) :=
  h.runOp fun k => by
    dsimp only
    repeat' split
    exacts [.error, .error, .ok k.block, .ok k.putItem.advance.settleQueue]
theorem Good.execQtake {d b} (h : Good s) : GoodNext (execQtake d b s) :=
  h.runOp fun k => by
    dsimp only
    repeat' split
    exacts [.error, .error, .ok k.block, .ok k.takeItem.advance.settleQueue]
theorem Good.barOp {i gang block a id} (h : Good s) : GoodNext (barOp i gang block a id s) :=
  h.runOp fun k => .ite .error (.ite .error (.ok (Good.ite (k.foldl fun q => q.arriveBar) (k.foldl fun q => q.arriveBar).advance)))
theorem Good.execYield (h : Good s) : GoodNext (execYield s) := h.plainOp fun k => k.upCur
theorem Good.execSleep {a} (h : Good s) : GoodNext (execSleep a s) := h.runOp fun k => .ok k.block
theorem Good.execSleepExpiry {w l} (h : Good s) : GoodNext (execSleepExpiry w l s) := by
  simp only [Machine.execSleepExpiry]
  repeat' split
  exacts [.next h, .next h, .next h.setWarp, .next h]
theorem Good.execNop (h : Good s) : GoodNext (execNop s) := h.plainOp fun k => k

/-! ### Sys2Proof/Machine/EngineMem.lean -/

theorem Good.hold {ctx va kind core engine} (h : Good s) : GoodSome ((s.hold ctx va kind core engine).map Prod.fst) := by
  simp only [State.hold]
  repeat' split
  exacts [GoodSome.some h, GoodSome.none, GoodSome.some h.keep.post]
theorem EngGood.engWalk {g va a} : EngGood (engWalk g va a) :=
  .get_bind fun k => .ite .throw_bind (.bind (.modify fun q => .ite q.countWalk q) (.get_bind fun q => by
      repeat' split
      exacts [.bind (.set q.cacheWalk.setCore) .pure, .bind (.set q.cacheWalk.setCore) .throw, .throw, .throw, .throw,
        .bind (.set q.logWalk) .throw]))
theorem EngGood.engXlate {g va a packed} : EngGood (engXlate g va a packed) :=
  .ite .throw_bind (.ite .throw_bind (.get_bind fun k => by
    dsimp only
    repeat' split
    exacts [.bind .pure (.ite .throw_bind (.get_bind fun q => .ite .throw_bind .pure)), .throw_bind,
      .bind .engWalk (.ite .throw_bind (.get_bind fun q => .ite .throw_bind .pure))]))
theorem EngGood.engCarry {g x n write} : EngGood (engCarry g x n write) :=
  .get_bind fun k => by
    repeat' split
    exacts [.throw, .throw_bind, .throw_bind, .throw_bind, .throw_bind, .throw_bind, .throw, .throw_bind, .throw_bind, .throw_bind, .throw_bind,
      .throw_bind, .pure, .pure]
theorem EngGood.engReadLine {g va n packed} : EngGood (engReadLine g va n packed) :=
  .bind .engXlate (.bind .engCarry (.get_bind fun k => .ite .throw_bind (.bind (.modify fun q => q.touch.countServed) (.get_bind fun q => by
      repeat' split
      exacts [.throw, .bind (.set q.logRead) .throw_bind, .pure]))))
theorem EngGood.engReadFrom {g packed fuel va n} : EngGood (engReadFrom g packed fuel va n) := by
  induction fuel generalizing va n with
  | zero => exact .pure
  | succ fuel ih => exact .ite .pure (.bind .engReadLine (.bind ih .pure))
theorem EngGood.engRead {g va n packed} : EngGood (engRead g va n packed) := .engReadFrom
theorem EngGood.engWriteLine {g va bs packed a} : EngGood (engWriteLine g va bs packed a) :=
  .bind .engXlate (.bind .engCarry (.get_bind fun k => .ite .throw_bind (.bind (.modify fun q => (Good.ite q.clearLine q.touch).countServed)
    (.get_bind fun q => by
      repeat' split
      exacts [.set q.logError, .set q.storePhys]))))
theorem EngGood.engWriteFrom {g packed fuel va bs} : EngGood (engWriteFrom g packed fuel va bs) := by
  induction fuel generalizing va bs with
  | zero => exact .pure
  | succ fuel ih => exact .ite .pure (.bind .engWriteLine ih)
theorem EngGood.engWrite {g va bs packed} : EngGood (engWrite g va bs packed) := .engWriteFrom
theorem Good.setCrewBytes {tok off bs} (h : Good s) : Good (s.setCrewBytes tok off bs) := .ite h.storeX h.setCrew
theorem EngGood.engSpad {g tok off n} : EngGood (engSpad g tok off n) := .get_bind fun k => .ite (.bind (.set k.logError) .throw_bind) .pure
theorem EngGood.engSpadWrite {tok off bs} : EngGood (engSpadWrite tok off bs) := .modify fun k => k.setCrewBytes
theorem Good.tagsDone {all now later} (h : Good s) : Good (s.tagsDone all now later) := h.foldl fun k => k.setCrew
theorem Good.settleAwait {w} (h : Good s) : Good (s.settleAwait w) :=
  h.foldl fun k => by
    repeat' split
    exacts [k.setWarp.emptyL1, k]
theorem Good.settleAwaits (h : Good s) : Good s.settleAwaits := h.foldl fun k => k.settleAwait
theorem Good.changeCounter {tok off f} (h : Good s) : Good (s.changeCounter tok off f) := h.setCrewBytes
theorem Good.readRecord {len va n before} {f : State → List Byte → Except Trap State} (h : Good s)
    (hf : ∀ {s bs}, Good s → GoodOk (f s bs)) : GoodOk (s.readRecord len va n before f) := by
  unfold State.readRecord
  extract_lets fail
  have hfail : ∀ {t cause landing off}, GoodOk (fail t cause landing off) := by
    cases before <;> exact .error
  refine .ite hfail ?_
  split
  · exact .ok h.waitWalk
  · exact hfail
  refine .ite hfail (.ite (.ok h.waitWalk) (.ite (.ok h.stall) ?_))
  extract_lets q sectors go
  have hq : Good q := h.spendWalk.touch
  have hgo : ∀ {t}, Good t → GoodOk (go t) := by
    intro t k
    unfold go
    split
    · exact hfail
    · exact .ite (hf (Good.ite k.fillL1 k).countServed) (.ite hfail (hf (Good.ite k.fillL1 k).countServed))
  clear_value go fail q
  split
  · split
    · exact hfail
    · refine .ite (.ite hfail (.ok hq.upCur.stall)) (.ite hfail ?_)
      split
      exacts [hfail, hgo hq.upCur]
  · exact hgo hq

/-! ### Sys2Proof/Machine/SystemMem.lean -/

theorem Good.unitRun {α : Type} {ctx} {f : Agent → EngM α} (h : Good s) (hf : ∀ {g}, EngGood (f g)) :
    Good (s.unitRun ctx f).2 := by
  simp only [State.unitRun]
  repeat' split
  all_goals exact ((h.runEng hf).of_snd ‹_›).keep
theorem Good.sysRead {ctx va n} (h : Good s) : Good (s.sysRead ctx va n).2 := h.unitRun .engRead
theorem Good.sysWrite {ctx va bs} (h : Good s) : Good (s.sysWrite ctx va bs).2 := h.unitRun .engWrite

/-! ### Sys2Proof/Machine/Jobs.lean -/

theorem Good.writeDone {ctx done c} (h : Good s) : Good (s.writeDone ctx done c) := by
  simp only [State.writeDone]
  exact h.sysWrite.sysWrite
theorem Good.launchDone {ctx done c} (h : Good s) : Good (s.launchDone ctx done c) := .ite h h.writeDone
theorem Good.setJob {n j} (h : Good s) : Good (s.setJob n j) := h.keep
theorem Good.setNode {n i x} (h : Good s) : Good (s.setNode n i x) := h.setJob
theorem Good.readLaunch {ctx va} (h : Good s) : Good (s.readLaunch ctx va).2 := by
  simp only [State.readLaunch]
  repeat' split
  all_goals exact h.sysRead.of_snd ‹_›
theorem Good.dropNode {n i outcome} (h : Good s) : Good (s.dropNode n i outcome) := by
  simp only [State.dropNode]
  repeat' split
  exacts [h.setJob.setNode, (h.setJob.setNode.readLaunch.of_snd ‹_›).launchDone, h.setJob.setNode.readLaunch.of_snd ‹_›,
    h.setJob.setNode.readLaunch.of_snd ‹_›]
theorem Good.refuseNode {n i bs} (h : Good s) : Good (s.refuseNode n i bs) := by
  simp only [State.refuseNode]
  repeat' split
  exacts [h.setJob.setNode.launchDone, h.setJob.setNode, h.setJob.setNode]
theorem Good.scanNode {n i} (h : Good s) : Good (s.scanNode n i) := by
  simp only [State.scanNode]
  repeat' split
  exacts [h, h.refuseNode, h, h.dropNode, h.dropNode, h.dropNode, (h.readLaunch.of_snd ‹_›).refuseNode, (h.readLaunch.of_snd ‹_›).refuseNode,
    (h.readLaunch.of_snd ‹_›).keep]
theorem Good.scanNodes {n} (h : Good s) : Good (s.scanNodes n) := h.foldl fun k => k.scanNode
theorem Good.startLaunch {slot r n node parent held since} (h : Good s) : Good (s.startLaunch slot r n node parent held since) := h.keep
theorem Good.unplaceable {ctx done} (h : Good s) : Good (s.unplaceable ctx done) := h.launchDone
theorem Good.acceptNode {slot n i} (h : Good s) : Good (s.acceptNode slot n i) := .ite h.setNode.startLaunch h.setJob.setNode.unplaceable
theorem Good.endJob {n outcome} (h : Good s) : Good (s.endJob n outcome) := by
  unfold State.endJob
  exact h.writeDone.keep.post
theorem Good.startPhase {n phase} (h : Good s) : Good (s.startPhase n phase) := by
  simp only [State.startPhase]
  repeat' split
  exacts [h.endJob, h.sysRead.setJob, h.sysRead.setJob]
theorem Good.endPhase {n outcome} (h : Good s) : Good (s.endPhase n outcome) := .ite h.writeDone.setJob.startPhase h.writeDone.setJob.endJob
theorem Good.jobStep (h : Good s) : GoodSome s.jobStep := by
  simp only [State.jobStep]
  repeat' split
  exacts [.some h.scanNodes, .some h.acceptNode, .some h.endPhase, .none]
theorem Good.progress {n} (h : Good s) : Good (s.progress n) := by
  induction n generalizing s with
  | zero => exact h
  | succ n ih =>
    simp only [State.progress]
    split
    exacts [ih (h.jobStep.of_eq ‹_›), h]
theorem Good.resultWord {l} (h : Good s) : Good (s.resultWord l).2.2 := by
  simp only [State.resultWord]
  repeat' split
  exacts [h.sysRead.of_snd ‹_›, h.sysRead.of_snd ‹_›, h, h]
theorem Good.endLaunch {slot} (h : Good s) : Good (s.endLaunch slot) := by
  simp only [State.endLaunch]
  refine .ite h.resultWord.launchDone.setLaunch ?_
  cases (s.launch slot).node with
  | none => exact h.resultWord.launchDone.setLaunch.setJob.setJob
  | some i => exact h.resultWord.launchDone.setLaunch.setJob.setNode
theorem Good.settleLaunch {slot} (h : Good s) : Good (s.settleLaunch slot) := .ite h.endLaunch.progress h
theorem Good.cancelCrew {tok} (h : Good s) : Good (s.cancelCrew tok) := h.setCrew.stopCrew
theorem Good.killLaunch {slot} (h : Good s) : Good (s.killLaunch slot) := .ite h (h.keep.foldl fun k => k.cancelCrew)
theorem Good.killAll {slots} (h : Good s) : Good (s.killAll slots) := (h.foldl fun k => k.killLaunch).foldl fun k => .ite k.endLaunch k
theorem Good.cancelNodes {n} (h : Good s) : Good (s.cancelNodes n) :=
  h.foldl fun k => by
    repeat' split
    exacts [k.dropNode, k.dropNode, k]
theorem Good.cancelPhase {n} (h : Good s) : Good (s.cancelPhase n) := by
  unfold State.cancelPhase
  exact (h.killAll.cancelNodes.foldl fun k => k.setJob).endPhase
theorem Good.cancelUnit {ctx hdr} (h : Good s) : Good (s.cancelUnit ctx hdr).1 := by
  simp only [State.cancelUnit]
  repeat' split
  all_goals dsimp only
  exacts [h, h.killAll.progress, h, h, h.cancelPhase.progress, h.cancelPhase.progress, h.setJob.killAll.cancelNodes.progress,
    h.setJob, h.setJob, h]
theorem Good.submitJob {ctx rec_} (h : Good s) : Good (s.submitJob ctx rec_).2 := by
  simp only [State.submitJob]
  repeat' split
  exacts [h, h.sysRead.of_snd ‹_›, h.sysRead.of_snd ‹_›, (h.sysRead.of_snd ‹_›).sysRead.of_snd ‹_›, (h.sysRead.of_snd ‹_›).sysRead.of_snd ‹_›,
    ((h.sysRead.of_snd ‹_›).sysRead.of_snd ‹_›).keep.setJob.startPhase.progress]

/-! ### Sys2Proof/Machine/Engines.lean -/

theorem Good.setEngs {core e} (h : Good s) : Good (s.setEngs core e) := h.keep
theorem Good.pushOp {q st patch op} (h : Good s) : Good (s.pushOp q st patch op) := h.keep.upCur
theorem Good.engineOp {i} {body : State → Except Trap State} (h : Good s) (hf : ∀ {s}, Good s → GoodOk (body s)) :
    GoodNext (engineOp i s body) :=
  h.runOp fun k => .ite (hf k) (.ok k.stall)
theorem Good.illegal (_h : Good s) : GoodOk s.illegal := .error
theorem Good.queueCpy {i a bytes size} (h : Good s) : GoodOk (s.queueCpy i a bytes size) := by
  simp only [State.queueCpy]
  split
  exacts [.error, .ok h.pushOp.advance]
theorem Good.issueCpy {i a} (h : Good s) : GoodOk (s.issueCpy i a) := by
  simp only [State.issueCpy]
  repeat' split
  exacts [h.illegal, .error, h.readRecord fun k => by
    repeat' split
    exacts [k.illegal, k.illegal, k.readRecord fun q => by
      repeat' split
      exacts [q.illegal, q.queueCpy, q.illegal], k.illegal, k.queueCpy]]
theorem Good.execCpyLd {t q m arr d a b c} (h : Good s) : GoodNext (execCpyLd t q m arr d a b c s) := h.engineOp fun k => k.issueCpy
theorem Good.execCpySt {addF q m arr d a b c} (h : Good s) : GoodNext (execCpySt addF q m arr d a b c s) := h.engineOp fun k => k.issueCpy
theorem Good.bulkSource {len src} {f : State → Except Trap State} (h : Good s) (hf : ∀ {s}, Good s → GoodOk (f s)) :
    GoodOk (s.bulkSource len src f) := by
  simp only [State.bulkSource]
  repeat' split
  exacts [.error, .ok h.waitWalk, .error, .error, hf h.spendWalk]
theorem Good.execBulk {xs xd arr held d a} (h : Good s) : GoodNext (execBulk xs xd arr held d a s) :=
  h.engineOp fun k => by
    dsimp only
    repeat' split
    exacts [k.illegal, .error, .ok k.pushOp.advance, k.bulkSource fun q => .ok q.pushOp.advance, k.illegal, .error, .ok k.pushOp.advance,
      k.bulkSource fun q => .ok q.pushOp.advance]
theorem Good.execArminit {d a b} (h : Good s) : GoodNext (execArminit d a b s) :=
  h.checkedOp fun k => by
    dsimp only
    repeat' split
    exacts [k.illegal, .error, .ok k.setCrewBytes.writeRes, .ok k.setCrewBytes.setCrew.writeRes]
theorem Good.execArrive {a b} (h : Good s) : GoodNext (execArrive a b s) :=
  h.checkedOp fun k => by
    repeat' split
    exacts [.error, .ok k.changeCounter]
theorem Good.execAwait {d a} (h : Good s) : GoodNext (execAwait d a s) :=
  h.runOp fun k => by
    repeat' split
    exacts [.error, .ite k.illegal (.ite (.ok k.writeRes.emptyL1.advance) (.ok k.block))]
theorem Good.settleFences {core} (h : Good s) : Good (s.settleFences core) := h.setEngs
theorem Good.execQfence {m} (h : Good s) : GoodNext (execQfence m s) := h.engineOp fun k => .ok k.keep.settleFences.advance
theorem Good.execTagset {d a b} (h : Good s) : GoodNext (execTagset d a b s) :=
  h.checkedOp fun k => by
    dsimp only
    repeat' split
    exacts [k.illegal, k.illegal, .error, .ok k.setCrew.writeRes, .ok k.writeRes, k.illegal, .ok k.setCrew.writeRes]
theorem Good.execCtload {x slot d a} (h : Good s) : GoodNext (execCtload x slot d a s) :=
  h.engineOp fun k => by
    repeat' split
    exacts [.error, .ok k.pushOp.advance]
theorem Good.execCtsave {x slot d a} (h : Good s) : GoodNext (execCtsave x slot d a s) :=
  h.engineOp fun k => by
    repeat' split
    exacts [.error, .ok k.pushOp.advance]
theorem Good.readHeader {off} {f : State → List Byte → Except Trap State} (h : Good s) (hf : ∀ {s} {b}, Good s → GoodOk (f s b)) :
    GoodOk (s.readHeader off f) := by
  simp only [State.readHeader]
  repeat' split
  exacts [.error, .ok h.logError.issueTrap, hf h]
theorem Good.execKvput {t d a b c} (h : Good s) : GoodNext (execKvput t d a b c s) :=
  h.engineOp fun k => .ite k.illegal (k.readRecord fun q => by
      repeat' split
      exacts [q.illegal, q.illegal, q.readHeader fun r => by
        dsimp only
        repeat' split
        exacts [r.illegal, .error, .ok r.pushOp.advance]])
theorem Good.execBin {x d a b c} (h : Good s) : GoodNext (execBin x d a b c s) :=
  h.engineOp fun k => by
    dsimp only
    repeat' split
    exacts [k.illegal, .error, k.readHeader fun q => by
      repeat' split
      exacts [q.illegal, .error, .ok q.pushOp.advance]]

/-! ### Sys2Proof/Machine/Perform.lean -/

theorem Good.setHead {core q e} (h : Good s) : Good (s.setHead core q e) := h.setEngs
theorem Good.writeEngStatus {w st num status} (h : Good s) : Good (s.writeEngStatus w st num status) := .ite h.setWarp h
theorem Good.finishOp {core q e status ok} (h : Good s) : Good (s.finishOp core q e status ok) :=
  (Good.ite h.setEngs.tagsDone h.setEngs).writeEngStatus.emptyL1.settleFences
theorem Good.engMiss {core ctx va kind} (h : Good s) : Good (s.engMiss core ctx va kind).1 := .ite_fst h (.ite_fst h h.setCore)
theorem Good.holdOp {core q e x} (h : Good s) : Good (s.holdOp core q e x) := by
  simp only [State.holdOp]
  repeat' split
  exacts [(h.hold.of_pair ‹_›).setHead, h.setHead, h.engMiss.setHead, h.engMiss.setHead, h.setHead]
theorem EngGood.loadElem {g r c tok off te} : EngGood (loadElem g r c tok off te) :=
  .ite (.bind .engRead (.bind .engSpadWrite .pure)) (.bind .pure (.bind .engSpadWrite .pure))
theorem Good.loadElems {g r c tok off tes acc} (h : Good s) : Good (loadElems g r c tok off tes acc s).2 := by
  induction tes generalizing acc s with
  | nil => exact h
  | cons te tes ih =>
    simp only [Machine.loadElems]
    split
    exacts [ih ((h.runEng .loadElem).of_snd ‹_›), (h.runEng .loadElem).of_snd ‹_›]
theorem EngGood.engAdd {g va bs} : EngGood (engAdd g va bs) :=
  .bind .engXlate (.bind .engCarry (.get_bind fun k => .ite .throw_bind (.bind (.modify fun q => q.touch.countServed) (.get_bind fun q => by
      repeat' split
      exacts [.throw, .bind (.set q.logRead) .throw_bind, .set q.storePhys]))))
theorem EngGood.storeElem {g r add x bs} : EngGood (storeElem g r add x bs) := .ite .engAdd .engWrite
theorem Good.storeElems {g r c add} {src : Nat → EngM (List Byte)} {tes acc} (h : Good s) (hsrc : ∀ {te}, EngGood (src te)) :
    Good (storeElems g r c add src tes acc s).2 := by
  induction tes generalizing acc s with
  | nil => exact h
  | cons te tes ih =>
    simp only [Machine.storeElems]
    repeat' split
    · exact ih h
    · exact (h.runEng hsrc).of_snd ‹_›
    · exact ih ((((h.runEng hsrc).of_snd ‹_›).runEng .storeElem).of_snd ‹_›)
    · exact (((h.runEng hsrc).of_snd ‹_›).runEng .storeElem).of_snd ‹_›
theorem EngGood.writePadding {g r xs} : EngGood (writePadding g r xs) := by
  induction xs with
  | nil => exact .pure
  | cons x xs ih => exact .bind .engWrite ih
theorem Good.storePlain {g r c add} {src : Nat → EngM (List Byte)} {tes} (hf : ∀ {a}, EngGood (src a)) (h : Good s) :
    Good (storePlain g r c add src tes s).2 := by
  simp only [Machine.storePlain]
  repeat' split
  exacts [h.storeElems hf, ((h.storeElems hf).runEng .writePadding).of_snd ‹_›, ((h.storeElems hf).runEng .writePadding).of_snd ‹_›]
theorem EngGood.engDesc {g hdr} : EngGood (engDesc g hdr) :=
  .bind .engRead fun {_} => by
    repeat' split
    exacts [.pure, .throw]
theorem EngGood.engEntry {g d ord} : EngGood (engEntry g d ord) := .bind .engRead .pure
theorem EngGood.engStream {g e} : EngGood (engStream g e) := .ite .engRead .pure
theorem EngGood.engSlot {g e} : EngGood (engSlot g e) := .ite (.bind .engRead .pure) .pure
theorem EngGood.countBlock {g good} : EngGood (countBlock g good) := .modify fun k => k.countCore
theorem EngGood.engBlock {g d ord} : EngGood (engBlock g d ord) := .bind .engEntry (.bind .engSlot (.get_bind fun _ => .bind .countBlock .pure))
theorem Good.expandBlocks {g t d c tok off n i acc sc} (h : Good s) : Good (expandBlocks g t d c tok off n i acc sc s).2 := by
  induction n generalizing i acc sc s with
  | zero => exact h
  | succ n ih =>
    simp only [Machine.expandBlocks]
    split
    · exact (h.runEng .engBlock).of_snd ‹_›
    · exact (h.runEng .engBlock).of_snd ‹_›
    · have k := ((h.runEng .engBlock).of_snd ‹_›)
      exact ih (.ite k.setCrewBytes k.setCrewBytes.setCrewBytes)
theorem EngGood.engEntries {g d first n i} : EngGood (engEntries g d first n i) := by
  induction n generalizing i with
  | zero => exact .pure
  | succ n ih => exact .bind .engEntry (.bind ih .pure)
theorem Good.imageStreams {g d tok es i acc} (h : Good s) : Good (imageStreams g d tok es i acc s).2 := by
  induction es generalizing i acc s with
  | nil => exact h
  | cons e es ih =>
    simp only [Machine.imageStreams]
    repeat' split
    · exact h
    · exact ih h
    · exact (h.runEng .engStream).of_snd ‹_›
    · exact (h.runEng .engStream).of_snd ‹_›
    · exact ih ((h.runEng .engStream).of_snd ‹_›).setCrewBytes
theorem Good.loadImage {g d hdr c tok off} (h : Good s) : Good (loadImage g d hdr c tok off s).2 := by
  simp only [Machine.loadImage]
  repeat' split
  exacts [(h.runEng .engEntries).of_snd ‹_›, ((h.runEng .engEntries).of_snd ‹_›).setCrewBytes.imageStreams,
    ((h.runEng .engEntries).of_snd ‹_›).setCrewBytes.imageStreams]
theorem Good.loadPacked {g t hdr c tok off size} (h : Good s) : Good (loadPacked g t hdr c tok off size s).2 := by
  simp only [Machine.loadPacked]
  repeat' split
  exacts [(h.runEng .engDesc).of_snd ‹_›, (h.runEng .engDesc).of_snd ‹_›, ((h.runEng .engDesc).of_snd ‹_›).loadImage,
    ((h.runEng .engDesc).of_snd ‹_›).expandBlocks]
theorem Good.endCopy {core q e out arr crc} (h : Good s) : Good (s.endCopy core q e out arr crc) := by
  simp only [State.endCopy]
  cases arr with
  | none => exact h.finishOp
  | some off => exact h.changeCounter.finishOp
theorem Good.afterCopy {core q e} {r : CopyOut × State} {arr crc} (h : Good s) (hr : Good r.2) :
    Good (s.afterCopy core q e r arr crc) := by
  simp only [State.afterCopy]
  split
  exacts [hr.endCopy, hr.endCopy, h.holdOp]
theorem Good.performDrain {core q e add recd coord rows task} (h : Good s) : Good (s.performDrain core q e add recd coord rows task) := by
  unfold State.performDrain
  extract_lets r t0 tes src
  split
  next out t eq =>
    have k : Good t := (h.storePlain .pure).of_snd eq
    split
    exacts [k.finishOp.setEngs.settleFences, k.finishOp.setEngs.settleFences, h.holdOp]
theorem Good.execCopyPerform {core q} (h : Good s) : GoodNext (execCopyPerform core q s) := by
  simp only [Machine.execCopyPerform]
  split
  · exact .next h
  split
  · exact .next h
  split
  · exact .next (h.afterCopy (.ite_snd h.loadPacked h.loadElems))
  · exact .next (h.afterCopy (h.storePlain .engSpad))
  · exact .next h.performDrain
  · exact .next h
theorem EngGood.bulkRead {g xs tok src n} : EngGood (bulkRead g xs tok src n) := .ite .engSpad .engRead
theorem EngGood.engSend {g m dst n} : EngGood (engSend g m dst n) := .engCarry
theorem EngGood.bulkWrite {g xd target dst bs} : EngGood (bulkWrite g xd target dst bs) := by
  simp only [Machine.bulkWrite]
  repeat' split
  exacts [.engSpadWrite, .engSend, .pure, .engWrite]
theorem Good.bulkPieces {g xs xd tok target fuel src dst n done} (h : Good s) :
    Good (bulkPieces g xs xd tok target fuel src dst n done s).2 := by
  induction fuel generalizing src dst n done s with
  | zero => exact h
  | succ fuel ih =>
    simp only [Machine.bulkPieces]
    repeat' split
    · exact h
    · exact (h.runEng .bulkRead).of_snd ‹_›
    · exact (((h.runEng .bulkRead).of_snd ‹_›).runEng .bulkWrite).of_snd ‹_›
    · exact ih ((((h.runEng .bulkRead).of_snd ‹_›).runEng .bulkWrite).of_snd ‹_›)
theorem Good.bulkCounter {t f} (h : Good s) : Good (s.bulkCounter t f) := by
  simp only [State.bulkCounter]
  repeat' split
  exacts [h.changeCounter, h]
theorem Good.execBulkPerform {core} (h : Good s) : GoodNext (execBulkPerform core s) := by
  unfold Machine.execBulkPerform
  split
  · exact .next h
  split
  · refine .ite (.next h.finishOp) (.ite (.next h.finishOp) (.ite (.next h.finishOp) ?_))
    split
    next out t eq =>
      have k : Good t := h.bulkPieces.of_snd eq
      split
      exacts [.next k.bulkCounter.finishOp, .next (Good.ite k.bulkCounter.finishOp k.bulkCounter.finishOp), .next h.holdOp]
  · exact .next h
theorem Good.execBulkPieceArrival {handle xd bytes count} (h : Good s) : GoodNext (execBulkPieceArrival handle xd bytes count s) := by
  simp only [Machine.execBulkPieceArrival]
  repeat' split
  exacts [.next h, .next h.changeCounter, .next h, .next h.setCrewBytes.changeCounter]
theorem Good.execEncoderTableOp {core} (h : Good s) : GoodNext (execEncoderTableOp core s) := by
  unfold Machine.execEncoderTableOp
  split
  · exact .next h
  extract_lets g tok after lens
  have hafter : ∀ {act f}, EngGood act → Good (after (Machine.runEng act s) f) := by
    intro act f hact
    unfold after
    split
    exacts [((h.runEng hact).of_snd ‹_›).finishOp, ((h.runEng hact).of_snd ‹_›).finishOp, h.holdOp]
  split
  · exact .next (hafter (.ite (.bind .engSpad (.modify fun k => k.setCtx)) (.bind .engRead (.modify fun k => k.setCtx))))
  · exact .next (hafter (.ite .engSpadWrite .engWrite))
  · exact .next h
theorem EngGood.poolWrite {g pool off x} : EngGood (poolWrite g pool off x) := .engWrite
theorem EngGood.allocateSlot {g pool len} : EngGood (allocateSlot g pool len) :=
  .bind .engRead fun {_} => by
    repeat' split
    exacts [.bind .poolWrite .pure,
      .ite (.bind .engRead (.bind .poolWrite (.bind .pure (.bind .poolWrite .pure)))) (.bind .poolWrite (.bind .pure (.bind .poolWrite .pure)))]
theorem EngGood.chooseSlot {g d old len} : EngGood (chooseSlot g d old len) :=
  .ite .pure (.bind .allocateSlot fun {_} => by
    repeat' split
    all_goals exact .pure)
theorem EngGood.storeBlock {g d ord old b} : EngGood (storeBlock g d ord old b) := by
  refine .get_bind fun k => .bind .engXlate (.ite (.bind .engWrite (.bind (.modify fun q => q.countSlice) .pure)) (.bind .chooseSlot fun {_} => ?_))
  split
  · exact .pure
  · exact .bind .engWrite (.bind .engWrite (.bind (.modify fun q => q.countSlice.countSlice) .pure))
theorem EngGood.updateBlock {g t hdr c tok off first n} : EngGood (updateBlock g t hdr c tok off first n) :=
  .bind .engDesc (.ite .throw_bind (.bind .engSpad (.bind .engEntry (.ite .storeBlock (.bind .engSlot (.get_bind fun k => by
    repeat' split
    exacts [.bind .countBlock .pure, .bind .countBlock .storeBlock]))))))
theorem Good.execBlockUpdate {core} (h : Good s) : GoodNext (execBlockUpdate core s) := by
  simp only [Machine.execBlockUpdate]
  repeat' split
  exacts [.next h, .next ((h.runEng .updateBlock).of_snd ‹_›).finishOp, .next ((h.runEng .updateBlock).of_snd ‹_›).finishOp, .next h.holdOp,
    .next h]

/-! ### Sys2Proof/Machine/Matrix.lean -/

theorem Good.addStep {i x} (h : Good s) : GoodOk (s.addStep i x) := .ok h.upCur.advance
theorem Good.addSpan {i off n x} (h : Good s) : GoodOk (s.addSpan i off n x) := by
  simp only [State.addSpan]
  repeat' split
  exacts [.error, h.addStep]
theorem Good.execMload {f a b} (h : Good s) : GoodNext (execMload f a b s) :=
  h.runOp fun k => by
    repeat' split
    exacts [k.illegal, .ite k.illegal (k.readRecord fun q => by
      repeat' split
      exacts [q.illegal, q.addStep, q.illegal]), k.addSpan, k.addSpan, k.addSpan]
theorem Good.execMswap (h : Good s) : GoodNext (execMswap s) := h.runOp fun k => .ite k.illegal k.addStep
theorem Good.execMmul {m zero t j a} (h : Good s) : GoodNext (execMmul m zero t j a s) := h.runOp fun k => .ite k.illegal k.addSpan
theorem Good.execMdrain {f j d a b} (h : Good s) : GoodNext (execMdrain f j d a b s) :=
  h.runOp fun k => by
    dsimp only
    repeat' split
    exacts [k.illegal, k.addSpan, k.addSpan, k.illegal, k.addStep, .error, k.readRecord fun q => by
      repeat' split
      exacts [q.illegal, q.addStep, q.illegal], .error, k.readRecord fun q => by
      repeat' split
      exacts [q.illegal, q.addStep, q.illegal]]
theorem Good.execMtask {d a} (h : Good s) : GoodNext (execMtask d a s) := h.engineOp fun k => .ite k.illegal (.ok k.keep.upCur.advance)
theorem EngGood.deckBlocks {g d hd c n i codes scales} : EngGood (deckBlocks g d hd c n i codes scales) := by
  induction n generalizing i codes scales with
  | zero => exact .pure
  | succ n ih =>
    refine .bind .engBlock ?_
    intro r
    cases r
    exacts [.pure, ih]
theorem EngGood.loadTensor {g t hdr c} : EngGood (loadTensor g t hdr c) :=
  .bind .engDesc (.ite .throw_bind (.bind .deckBlocks fun {_} => by
    repeat' split
    all_goals exact .pure))
theorem EngGood.imageDesc {g hdr n} : EngGood (imageDesc g hdr n) :=
  .get_bind fun k => by
    repeat' split
    all_goals exact .pure
theorem EngGood.imageDecode {g tok off permit crc d hd c n i codes scales} :
    EngGood (imageDecode g tok off permit crc d hd c n i codes scales) := by
  induction n generalizing i codes scales with
  | zero => exact .pure
  | succ n ih =>
    refine .bind .engSpad (.get_bind fun _ => .ite .throw_bind (.ite (.bind .engSpad ?_) (.bind .pure ?_)))
    all_goals
      refine .get_bind fun _ => .bind .countBlock ?_
      intro
      split
      exacts [.pure, ih]
theorem EngGood.loadImagePlane {g t tok off c} : EngGood (loadImagePlane g t tok off c) :=
  .bind .engSpad (.get_bind fun k => .ite .throw_bind (.bind .imageDesc (.bind .imageDecode fun {_} => by
      repeat' split
      all_goals exact .pure)))
theorem Good.drainV {w num rb d a} (h : Good s) : Good (s.drainV w num rb d a) := by
  simp only [State.drainV]
  repeat' split
  exacts [h.setWarp, h, h]
theorem EngGood.deckStep {g t x} : EngGood (deckStep g t x) := by
  simp only [Machine.deckStep]
  repeat' split
  exacts [.bind .loadTensor .pure, .bind .engSpad .pure, .bind .loadImagePlane .pure, .bind .engSpad .pure, .pure, .bind .engSpad .pure,
    .bind .engSpadWrite .pure, .bind .engSpadWrite .pure, .bind (.modify fun k => k.drainV) .pure, .pure, .pure]
theorem Good.setTask {core t} (h : Good s) : Good (s.setTask core t) := h.setEngs
theorem Good.pushDrain {core t op} (h : Good s) : GoodSome (s.pushDrain core t op) := .ite (.some h.keep) .none
theorem Good.stepTask {core t} (h : Good s) : Good (s.stepTask core t).1 := by
  have k := h.runEng (.deckStep (g := ⟨core, t.ctx, t.failed, some t.walked, s.lateSince t.ctx t.linkSince⟩) (t := t)
    (x := t.steps.getD t.at_ .swap))
  simp only [State.stepTask]
  refine .ite_fst h.setTask ?_
  split
  · exact (k.of_snd ‹_›).tagsDone.setTask
  · split
    exacts [((k.of_snd ‹_›).pushDrain.of_eq ‹_›).setTask, h.setTask]
  · exact (k.of_snd ‹_›).setTask
  · exact (k.of_snd ‹_›).setTask
  · split
    exacts [(h.hold.of_pair ‹_›).setTask, h.setTask]
  · exact h.engMiss.setTask
  · exact h.setTask
theorem Good.runTask {core t n} (h : Good s) : Good (s.runTask core t n) := by
  induction n generalizing s t with
  | zero => exact h
  | succ n ih =>
    simp only [State.runTask]
    repeat' split
    exacts [ih (h.stepTask.of_fst ‹_›), h.stepTask.of_fst ‹_›, h]
theorem Good.execDeckTaskStart {core idx} (h : Good s) : GoodNext (execDeckTaskStart core idx s) := by
  simp only [Machine.execDeckTaskStart]
  repeat' split
  exacts [.next h, .next h.setTask.runTask, .next h.runTask, .next h]
theorem Good.execDeckTaskComplete {core idx} (h : Good s) : GoodNext (execDeckTaskComplete core idx s) := by
  simp only [Machine.execDeckTaskComplete]
  repeat' split
  exacts [.next h, .next h, .next h.setEngs.writeEngStatus.setWarp.emptyL1.settleFences,
    .next h.setEngs.writeEngStatus.setWarp.failCrew.emptyL1.settleFences, .next h.setEngs.writeEngStatus.setWarp.emptyL1.settleFences]

/-! ### Sys2Proof/Machine/Responses.lean -/

theorem Good.drainCheck {port} (h : Good s) : Good (s.drainCheck port) := by
  simp only [State.drainCheck]
  repeat' split
  exacts [h.keep.post.reply, h.keep.post, h]
theorem Good.settleStores {w} (h : Good s) : Good (s.settleStores w) := h.setWarp
theorem Good.dropReq {id} (h : Good s) : Good (s.dropReq id) := h.keep.drainCheck.settleStores
theorem Good.performReq {r} (h : Good s) : Good (s.performReq r).1 := by
  simp only [State.performReq]
  repeat' split
  exacts [h.countServed.logReads, (h.countServed.foldl fun k => k.storePhys).wroteWhole, h.countServed.atomLanes, h.countServed]
theorem Good.deliver {id r g} (h : Good s) : Good (s.deliver id r g) := by
  simp only [State.deliver]
  repeat' split
  exacts [h, h.finishMem, h.setWarp]
theorem Good.lateResponse {id} (h : Good s) : Good (s.lateResponse id) := by
  simp only [State.lateResponse]
  repeat' split
  exacts [h, h.keep.countLink]
theorem Good.execMemoryResponse {id} (h : Good s) : GoodNext (execMemoryResponse id s) := by
  unfold Machine.execMemoryResponse
  split
  · exact .next h.lateResponse
  refine .ite (.next h) ?_
  split
  · exact .next h.deliver.dropReq
  · exact .next (Good.ite h.performReq.fillL1 h.performReq).deliver.dropReq
theorem Good.recordStore {r cause} (h : Good s) : Good (s.recordStore r cause) := .ite h.setWarp h
theorem Good.endStore {id r} (h : Good s) : Good (s.endStore id r) := h.dropL1.deliver.dropReq
theorem Good.execRemoteStoreAck {id} (h : Good s) : GoodNext (execRemoteStoreAck id s) := by
  unfold Machine.execRemoteStoreAck
  split
  · exact .next h.lateResponse
  refine .ite (.next h) ?_
  split
  exacts [.next h.recordStore.endStore, .next h.performReq.endStore]
theorem Good.timedOut {id r performed} (h : Good s) : Good (s.timedOut id r performed) := (Good.ite h.performReq h).keep.countLink
theorem Good.execRemoteStoreTimeout {id performed} (h : Good s) : GoodNext (execRemoteStoreTimeout id performed s) := by
  unfold Machine.execRemoteStoreTimeout
  split
  · exact .next h
  refine .ite (.next h) (.ite ?_ (.next h.timedOut.recordStore.endStore))
  split
  exacts [.next h.recordStore.endStore, .next h.performReq.endStore]
theorem Good.execRequestDeadlineExpiry {id} (h : Good s) : GoodNext (execRequestDeadlineExpiry id s) := by
  simp only [Machine.execRequestDeadlineExpiry]
  repeat' split
  exacts [.next h, .next h, .next h.keep]
theorem Good.execRetiredTagReuse {port tag} (h : Good s) : GoodNext (execRetiredTagReuse port tag s) := by
  simp only [Machine.execRetiredTagReuse]
  repeat' split
  exacts [.next h, .next h, .next h.keep.sendWaiting]

/-! ### Sys2Proof/Machine/Tickets.lean -/

theorem Good.sendGather {ctx key ps} (h : Good s) : GoodSome (s.sendGather ctx key ps) := by
  induction ps generalizing s with
  | nil => exact .some h
  | cons p ps ih =>
    simp only [State.sendGather]
    repeat' split
    exacts [.none, ih h.keep.send, ih h]
theorem Good.dropReqs {ids} (h : Good s) : Good (s.dropReqs ids) := h.foldl fun k => k.dropReq
theorem Good.endTicket {key spent} (h : Good s) : Good (s.endTicket key spent) := .ite h.keep.dropReqs h.keep.dropReqs.countSlice
theorem Good.issueTicket {w lanes entry g} (h : Good s) : Good (s.issueTicket w lanes entry g) := by
  simp only [State.issueTicket]
  split
  next e => exact h.setWarp.countSlice.keep.sendGather.of_eq e
  · exact h.setWarp.countSlice.keep.endTicket
theorem Good.wakeRoom {table} (h : Good s) : Good (s.wakeRoom table) :=
  h.foldl fun k => by
    repeat' split
    exacts [k.issueTicket.setWarp, k, k]
theorem Good.ldtOn {len try_ g} (h : Good s) : Good (s.ldtOn len try_ g) := by
  simp only [State.ldtOn]
  repeat' split
  exacts [h.issueTicket.advance, h.writeRes.advance, h.block]
theorem Good.execLdt {try_ w d a} (h : Good s) : GoodNext (execLdt try_ w d a s) :=
  h.runOp fun k => k.globalAccess fun q => by
      repeat' split
      exacts [.ok q.ldtOn, .error]
theorem Good.execLdtBlock {try_ d a b} (h : Good s) : GoodNext (execLdtBlock try_ d a b s) :=
  h.runOp fun k => by
    dsimp only
    repeat' split
    exacts [.error, .error, .error, .ok k.waitWalk, .error, .ok k, .ok k, .ok k.spendWalk.waitWalk, .error, .ok k.spendWalk.ldtOn]
theorem Good.stageParts {key ops} (h : Good s) : Good (s.stageParts key ops) :=
  ((h.foldl fun k => k.touch).logReads.foldl fun k => k.countServed.dropEveryL1).keep
theorem Good.readied {key} (h : Good s) : Good (s.readied key) := .ite h.keep h
theorem Good.answeredPart {key id} (h : Good s) : Good (s.answeredPart key id) := h.keep.dropReq
theorem Good.giveTicket {e w lanes d off} (h : Good s) : Good (s.giveTicket e w lanes d off) := .ite h.storeX h.setWarp
theorem Good.redeemAgain {w r} (h : Good s) : Good (s.redeemAgain w r) := by
  simp only [State.redeemAgain]
  repeat' split
  exacts [h, h.setWarp, h.endTicket.giveTicket.setWarp, h.endTicket.setWarp.takeResponse, h]
theorem Good.wakeRedeems {key} (h : Good s) : Good (s.wakeRedeems key) := h.foldl fun k => k.redeemAgain
theorem Good.settleTicket {key} (h : Good s) : Good (s.settleTicket key) := h.wakeRedeems.wakeRoom
theorem Good.freeTicket {key spent} (h : Good s) : Good (s.freeTicket key spent) := h.endTicket.settleTicket
theorem Good.execTicketReady {table entry} (h : Good s) : GoodNext (execTicketReady table entry s) := by
  simp only [Machine.execTicketReady]
  repeat' split
  exacts [.next h, .next h.stageParts.readied.settleTicket, .next h, .next h.stageParts.answeredPart.readied.settleTicket, .next h.freeTicket,
    .next h.keep.answeredPart.readied.settleTicket]
theorem Good.execTicketDeadline {table entry} (h : Good s) : GoodNext (execTicketDeadline table entry s) := .ite (.next h.freeTicket) (.next h)
theorem Good.writeStatus {d x} (h : Good s) : Good (s.writeStatus d x) := h.writeRes
theorem Good.redeemStep {len try_ t d off st} (h : Good s) : GoodOk (s.redeemStep len try_ t d off st) := by
  simp only [State.redeemStep]
  repeat' split
  exacts [.error, .ok h.writeStatus.advance, .ok h.writeStatus.advance, .ok h.block, .ok h.block, .ok h.freeTicket.giveTicket.writeStatus.advance,
    .ok h.freeTicket.issueTrap]
theorem Good.execRedeem {try_ d a c} (h : Good s) : GoodNext (execRedeem try_ d a c s) := h.runOp fun k => .ite .error (.ite .error k.redeemStep)
theorem Good.execRedeemX {try_ a b c} (h : Good s) : GoodNext (execRedeemX try_ a b c s) :=
  h.runOp fun k => .ite .error (.ite .error (.ite .error k.redeemStep))
theorem Good.tkOp {i d a} {f : State → Nat → TicketEntry → State × Nat} (hf : ∀ {s} {b} {c}, Good s → Good (f s b c).1) (h : Good s) :
    GoodNext (tkOp i d a f s) :=
  h.checkedOp fun k => .ite .error (.ite .error (.ok (hf k).writeStatus))
theorem Good.execTkdrop {d a} (h : Good s) : GoodNext (execTkdrop d a s) :=
  h.tkOp fun k => by
    split <;> dsimp only
    exacts [k.freeTicket, k]
theorem Good.execTkstat {d a} (h : Good s) : GoodNext (execTkstat d a s) :=
  h.tkOp fun k => by
    repeat' split
    all_goals exact k

/-! ### Sys2Proof/Machine/Placement.lean -/

theorem Good.startWarps {tok r} (h : Good s) : Good (s.startWarps tok r) := h.keep.foldl fun k => k.setWarp
theorem Good.placeNew {slot index gang rank p} (h : Good s) : Good (s.placeNew slot index gang rank p).1 := h.keep.setCrew.startWarps.emptyL1
theorem Good.placeGang {slot index ps} (h : Good s) : Good (s.placeGang slot index ps) := by
  simp only [State.placeGang]
  split
  · exact h.placeNew
  · exact (Good.foldl_fst (p := (s, [])) h fun k => k.placeNew).setGang
theorem Good.resendTickets {w} (h : Good s) : Good (s.resendTickets w) :=
  h.foldl fun k => by
    repeat' split
    exacts [k.redeemAgain, k.wakeRoom, k]
theorem Good.saveCrew {tok} (h : Good s) : Good (s.saveCrew tok) := (h.foldl fun k => k.setWarp).keep.setCore.setCrew.settleFences
theorem Good.restartWait {slot} (h : Good s) : Good (s.restartWait slot) := .ite h.setLaunch h
theorem Good.execContextSave {tok} (h : Good s) : GoodNext (execContextSave tok s) :=
  .ite (.next (h.restartWait.foldl fun k => k.saveCrew)) (.next h)
theorem Good.swapOut {hint tok} (h : Good s) : Good (s.swapOut hint tok) := h.foldl fun k => .ite k.setCrew k
theorem Good.restoreBin {core b} (h : Good s) : Good (s.restoreBin core b) := .ite h.setCore (h.foldl fun k => k.enterYard)
theorem Good.restoreYard {core bins waiting} (h : Good s) : Good (s.restoreYard core bins waiting) :=
  (h.foldl fun k => k.restoreBin).foldl fun k => k.enterYard
theorem Good.handlerPending {w} (h : Good s) : Good (s.handlerPending w) := by
  simp only [State.handlerPending]
  repeat' split
  exacts [h, h.takeTrap, h]
theorem Good.resumeMarked {w} (h : Good s) : Good (s.resumeMarked w) := h.foldl fun k => .ite k.resumeChain k
theorem Good.wakeWarp {w} (h : Good s) : Good (s.wakeWarp w) :=
  .ite h.setWarp.handlerPending.takePending.resumeMarked h.setWarp.handlerPending.takePending.resumeChains
theorem Good.resumeCrew {tok p} (h : Good s) : Good (s.resumeCrew tok p) :=
  ((h.keep.setCrew.storeX.setEngs.restoreYard.emptyL1.foldl fun k => k.wakeWarp).foldl fun k => k.resendTickets).foldl fun k => k.settleAwait
theorem Good.placeNext {slot x ps} (h : Good s) : Good (s.placeNext slot x ps) := by
  simp only [State.placeNext]
  cases x with
  | new i => exact h.placeGang.keep
  | back ts => exact (h.foldl fun k => k.resumeCrew).keep
theorem Good.preempt {slot x blockers} (h : Good s) : Good (s.preempt slot x blockers) := by
  simp only [State.preempt]
  repeat' split
  exacts [h, h, h.foldl fun k => k.swapOut.setCrew]
theorem Good.passTurns {stuck n} (h : Good s) : Good (s.passTurns stuck n).1 := by
  induction n generalizing s stuck with
  | zero => exact h
  | succ n ih =>
    simp only [State.passTurns]
    repeat' split
    exacts [h, h, ih h.placeNext, ih h.preempt]
theorem Good.noteBlocked {slot} (h : Good s) : Good (s.noteBlocked slot) := .ite h.setLaunch h
theorem Good.execPlacementPass (h : Good s) : GoodNext (execPlacementPass s) := by
  simp only [Machine.execPlacementPass]
  exact .next (h.passTurns.foldl fun k => k.noteBlocked)
theorem Good.execLevelAging {slot} (h : Good s) : GoodNext (execLevelAging slot s) := .ite (.next h.setLaunch) (.next h)
theorem Good.execDrainReservation {slot} (h : Good s) : GoodNext (execDrainReservation slot s) := by
  simp only [Machine.execDrainReservation]
  repeat' split
  exacts [.next h.setLaunch, .next h, .next h]
theorem Good.retire {tok} (h : Good s) : Good (s.retire tok) := h.keep.setGang
theorem Good.dropGang {n} (h : Good s) : Good (s.dropGang n) := .ite h.keep h
theorem Good.completeCrew {tok} (h : Good s) : Good (s.completeCrew tok) := .ite h (Good.ite h.keep h.setLaunch.retire.dropGang).settleLaunch
theorem Good.execCrewComplete {tok} (h : Good s) : GoodNext (execCrewComplete tok s) := .next h.completeCrew
theorem Good.cancelNow {ctx hdr} (h : Good s) : Good (s.cancelNow ctx hdr).1 := (h.foldl fun k => k.completeCrew).cancelUnit
theorem Good.settleHints (h : Good s) : Good s.settleHints := h.keep
theorem Good.execStallHint {landing peer} (h : Good s) : GoodNext (execStallHint landing peer s) :=
  .next (h.countLink.keep.foldl fun k => k.swapOut)
theorem Good.execHintReturnTimeout {tok} (h : Good s) : GoodNext (execHintReturnTimeout tok s) := by
  simp only [Machine.execHintReturnTimeout]
  repeat' split
  exacts [.next h.setCrew, .next h, .next h]

/-! ### Sys2Proof/Machine/Launching.lean -/

theorem Good.releaseSpawn {counts hdr} (h : Good s) : Good (s.releaseSpawn counts hdr) :=
  .ite h.keep.setLaunch.writeEngStatus.settleLaunch h.keep.setLaunch.setJob.unplaceable.writeEngStatus.progress
theorem Good.releaseHeld {core tok tab counts} (h : Good s) : Good (s.releaseHeld core tok tab counts) := h.setEngs.foldl fun k => k.releaseSpawn
theorem Good.execBinPerform {core} (h : Good s) : GoodNext (execBinPerform core s) := by
  unfold Machine.execBinPerform
  split
  · exact .next h
  split
  · extract_lets g tok table act
    have k : EngGood act := .ite (.bind .engSpad (.bind .engSpadWrite .pure)) (.bind .engRead (.bind .engSpadWrite .pure))
    split
    · exact .next ((h.runEng k).of_snd ‹_›).finishOp.releaseHeld
    · exact .next ((h.runEng k).of_snd ‹_›).finishOp.releaseHeld
    · exact .next h.holdOp
  · exact .next h
theorem Good.noSlot {r} (h : Good s) : Good (s.noSlot r) := h.launchDone
theorem Good.spawnLaunch {r} (h : Good s) : Good (s.spawnLaunch r).1 := by
  simp only [State.spawnLaunch]
  repeat' split
  exacts [h.setJob.unplaceable, h.noSlot, h.startLaunch]
theorem Good.spawnHeld {r d patch} (h : Good s) : Good (s.spawnHeld r d patch) := by
  unfold State.spawnHeld
  split
  · exact h.noSlot.writeRes
  · exact h.startLaunch.keep.upCur
theorem Good.execSpawn {held d a b} (h : Good s) : GoodNext (execSpawn held d a b s) :=
  h.engineOp fun k => by
    dsimp only
    repeat' split
    exacts [k.illegal, .error, k.readRecord fun q => by
      repeat' split
      exacts [q.illegal, .ok q.spawnHeld.advance], k.readRecord fun q => by
      repeat' split
      exacts [q.illegal, .ok q.spawnLaunch.writeRes.advance]]
theorem Good.execCancel {d a} (h : Good s) : GoodNext (execCancel d a s) :=
  h.engineOp fun k => by
    dsimp only
    repeat' split
    exacts [k.illegal, .ok k.cancelNow.writeRes.advance, .ok k.cancelNow]

/-! ### Sys2Proof/Machine/Invalidate.lean -/

theorem Good.dropTranslations {i} (h : Good s) : Good (s.dropTranslations i) := h.keep
theorem Good.invalidate {i} (h : Good s) : Good (s.invalidate i) := h.keep
theorem Good.finishPool {w r d x nw st status} (h : Good s) : Good (s.finishPool w r d x nw st status) := h.setWarp
theorem Good.retryWalks {of_} (h : Good s) : Good (s.retryWalks of_) := h.keep
theorem Good.swing {slot} (h : Good s) : Good (s.swing slot) := h.keep.retryWalks
theorem Good.clearRange {a n} (h : Good s) : Good (s.clearRange a n) := Memory.wf_filter h _
theorem Good.releasePins {slice unit frames} (h : Good s) : Good (s.releasePins slice unit frames) := .ite h.clearRange.keep h.clearRange.setCore
theorem Good.afterInval {id i} (h : Good s) : Good (s.afterInval id i) := by
  simp only [State.afterInval]
  repeat' split
  exacts [h, h.reply, h.swing.reply, h.releasePins.reply, h.keep.reply, h.finishPool, h.finishPool, h]
theorem Good.execInvalidationComplete {id} (h : Good s) : GoodNext (execInvalidationComplete id s) := by
  simp only [Machine.execInvalidationComplete]
  repeat' split
  exacts [.next h, .next h.keep.dropTranslations.afterInval, .next h]
theorem Good.write8 {ctx a x} (h : Good s) : Good (s.write8 ctx a x) := h.storePhys
theorem Good.zeroFrame {ctx f} (h : Good s) : Good (s.zeroFrame ctx f) := h.foldl fun k => k.storePhys
theorem Good.popFrame {ctx} (h : Good s) : GoodSome ((s.popFrame ctx).map Prod.fst) := by
  simp only [State.popFrame]
  split
  · exact .none
  · exact .map_some h.write8.zeroFrame
theorem Good.entryFor {ctx va frame depth n} (h : Good s) : GoodSome ((s.entryFor ctx va frame depth n).map Prod.fst) := by
  induction n generalizing s frame depth with
  | zero => exact .some h
  | succ n ih =>
    simp only [State.entryFor]
    split
    · exact ih h
    split
    · exact .none
    next e =>
      have k := h.popFrame.of_pair e
      exact ih k.write8
theorem Good.installLeaf {ctx va level e} (h : Good s) : GoodSome (s.installLeaf ctx va level e) := by
  simp only [State.installLeaf]
  repeat' split
  exacts [.none, .some (h.entryFor.of_pair ‹_›).write8]
theorem Good.installPages {ctx attr write pa n} (h : Good s) : GoodSome (s.installPages ctx attr write pa n) := by
  induction n generalizing s pa with
  | zero => exact .some h
  | succ n ih =>
    simp only [State.installPages]
    split
    exacts [.none, ih (h.installLeaf.of_eq ‹_›)]
theorem Good.pushFrame {ctx va} (h : Good s) : Good (s.pushFrame ctx va) := by
  simp only [State.pushFrame]
  repeat' split
  exacts [h, h.write8.write8.write8, h]
theorem Good.removePages {ctx code pa n} (h : Good s) : Good (s.removePages ctx code pa n) := by
  induction n generalizing s pa with
  | zero => exact h
  | succ n ih =>
    simp only [State.removePages]
    apply ih
    repeat' split
    exacts [h.write8.pushFrame, h.pushFrame, h.write8, h]
theorem Good.removeFound {ctx hi fuel va} (h : Good s) : GoodSome (s.removeFound ctx hi fuel va) := by
  induction fuel generalizing s va with
  | zero => exact .some h
  | succ fuel ih =>
    unfold State.removeFound
    split
    · exact .some h
    extract_lets root
    obtain ⟨a | a, depth⟩ := s.leafOn va root 0 4
    · exact .ite .none (ih (.ite h.pushFrame h))
    · exact .ite .none (ih (.ite h.write8.pushFrame h.write8))

/-! ### Sys2Proof/Machine/Pool.lean -/

theorem Good.poolTrap {w r t} (h : Good s) : Good (s.poolTrap w r t) := h.setWarp.takeResponse
theorem Good.poolStop {id r t} (h : Good s) : Good (s.poolStop id r t) := by
  simp only [State.poolStop]
  repeat' split
  exacts [h.keep.drainCheck.reply, h.keep.drainCheck.poolTrap, h.keep.drainCheck]
theorem Good.poolFault {id r cause} (h : Good s) : Good (s.poolFault id r cause) := h.poolStop
theorem Good.poolPoisoned {id r va} (h : Good s) : Good (s.poolPoisoned id r va) := h.poolStop
theorem Good.poolDone {id r x status} (h : Good s) : Good (s.poolDone id r x status) := by
  simp only [State.poolDone]
  repeat' split
  exacts [h.keep.drainCheck.reply, h.keep.drainCheck.finishPool, h.keep.drainCheck, h.keep.drainCheck]
theorem Good.rewait {w rec_ n} (h : Good s) : Good (s.rewait w rec_ n) := by
  simp only [State.rewait]
  repeat' split
  exacts [h.setWarp, h]
theorem Good.poolInval {id r va len x status} (h : Good s) : Good (s.poolInval id r va len x status) := by
  simp only [State.poolInval]
  repeat' split
  exacts [h.keep.drainCheck.invalidate, h.keep.drainCheck.rewait.invalidate, h.keep.drainCheck, h.keep.drainCheck.invalidate]
theorem Good.granted {id r size attr off} (h : Good s) : Good (s.granted id r size attr off) := by
  simp only [State.granted]
  repeat' split
  exacts [h.poolPoisoned, h.keep.drainCheck.reply, h.poolDone, (h.installPages.of_eq ‹_›).keep.poolInval]
theorem Good.expireRange {pa n} (h : Good s) : Good (s.expireRange pa n) := h.foldl fun k => .ite k.freeTicket k
theorem Good.endAlloc {r a} (h : Good s) : Good (s.endAlloc r a) := h.keep.removePages.expireRange
theorem Good.freed {id r off a} (h : Good s) : Good (s.freed id r off a) := by
  simp only [State.freed]
  repeat' split
  exacts [h.poolPoisoned, h.endAlloc.poolInval, h.endAlloc.poolInval]
theorem Good.freeLost {id r va} (h : Good s) : Good (s.freeLost id r va) := by
  simp only [State.freeLost]
  repeat' split
  exacts [h.keep.freed, h.poolFault]
theorem Good.freeUnknown {id r va performed} (h : Good s) : Good (s.freeUnknown id r va performed) := by
  unfold State.freeUnknown
  extract_lets noted
  have k : Good noted := .ite h.setWarp h
  split
  · exact .ite k.poolDone h.poolFault
  refine .ite k.poolDone ?_
  split
  exacts [h.poolPoisoned, k.removePages.expireRange.poolInval]
theorem Good.answered {id r} (h : Good s) : Good (s.answered id r) := h.keep
theorem Good.poolLost {id r} (h : Good s) : Good (s.poolLost id r) := by
  simp only [State.poolLost]
  repeat' split
  exacts [h.keep, h.answered, h.answered.endAlloc.invalidate, h.answered, h.answered]
theorem Good.revokeGrants (h : Good s) : Good s.revokeGrants := .ite h h.keep
theorem Good.execLandingPoolResponse {id answer} (h : Good s) : GoodNext (execLandingPoolResponse id answer s) := by
  simp only [Machine.execLandingPoolResponse]
  repeat' split
  exacts [.next h.lateResponse, .next h, .next h.freeLost, .next h.poolFault, .next h.poolLost, .next h.granted, .next h, .next h.poolDone,
    .next h.poolFault, .next h.freed, .next h.poolFault, .next h.poolDone, .next h]
theorem Good.askLanding {len landing kind va d st} (h : Good s) : GoodOk (s.askLanding len landing kind va d st) := .ite .error (.ok h.block.send)
theorem Good.execLalloc {d a b c} (h : Good s) : GoodNext (execLalloc d a b c s) := h.runOp fun k => .ite .error k.askLanding
theorem Good.execLfree {d a} (h : Good s) : GoodNext (execLfree d a s) :=
  h.runOp fun k => by
    dsimp only
    repeat' split
    exacts [.error, k.release fun _ => .error, k.release fun q => by
      repeat' split
      exacts [.error, .ok q.keep.freed, q.askLanding]]
theorem Good.execLquota {d a} (h : Good s) : GoodNext (execLquota d a s) := h.runOp fun k => .ite .error k.askLanding
theorem Good.execFabricTimeout {id performed} (h : Good s) : GoodNext (execFabricTimeout id performed s) := by
  simp only [Machine.execFabricTimeout]
  repeat' split
  exacts [.next h, .next h, .next h.timedOut.deliver.dropReq, .next h.timedOut.deliver.dropReq, .next h.timedOut.freeTicket,
    .next h.timedOut.freeUnknown, .next h.timedOut.poolFault, .next h.timedOut.poolFault, .next h]

/-! ### Sys2Proof/Machine/Pages.lean -/

theorem Good.holdPage {of_ vpn n} (h : Good s) : Good (s.holdPage of_ vpn n) := h.keep
theorem Good.wakePage {of_ vpn fault} (h : Good s) : Good (s.wakePage of_ vpn fault) := h.keep
theorem Good.endMiss {core m} (h : Good s) : Good (s.endMiss core m) := h.keep
theorem Good.execPageWalk {core idx} (h : Good s) : GoodNext (execPageWalk core idx s) := by
  simp only [Machine.execPageWalk]
  repeat' split
  exacts [.next h, .next h.endMiss.countWalk.cacheWalk.setCore.wakePage, .next (h.endMiss.countWalk.cacheWalk.hold.of_pair ‹_›).holdPage,
    .next h.endMiss.countWalk.cacheWalk.wakePage, .next h.endMiss.countWalk.cacheWalk.wakePage, .next h.endMiss.countWalk.cacheWalk.wakePage,
    .next h.endMiss.countWalk.cacheWalk.logWalk.wakePage]
theorem Good.endHeld {n hdr retry} (h : Good s) : Good (s.endHeld n hdr retry) := h.keep
theorem Good.execHeldFaultTimeout {number} (h : Good s) : GoodNext (execHeldFaultTimeout number s) := by
  simp only [Machine.execHeldFaultTimeout]
  repeat' split
  exacts [.next h, .next h, .next h.endHeld]
theorem Good.logChannel {kind ch} (h : Good s) : Good (s.logChannel kind ch) := h.logError
theorem Good.failChannel {ch} (h : Good s) : Good (s.failChannel ch) := h.keep.logChannel
theorem Good.scrubGranule {a} (h : Good s) : Good (s.scrubGranule a) := .ite h.findPoison (.ite h.keep.countCorrected h)
theorem Good.execScrubSlot {ch} (h : Good s) : GoodNext (execScrubSlot ch s) := by
  unfold Machine.execScrubSlot
  exact .ite (.next h) (.next (Good.ite (h.foldl fun k => k.scrubGranule).keep (h.foldl fun k => k.scrubGranule).keep))
theorem Good.execRemapReload {ch} (h : Good s) : GoodNext (execRemapReload ch s) :=
  .ite (.next h) (.next (Good.ite h.keep.logChannel h.keep.logChannel.failChannel))
theorem Good.execBackgroundPullSlot {ch} (h : Good s) : GoodNext (execBackgroundPullSlot ch s) := by
  simp only [Machine.execBackgroundPullSlot]
  repeat' split
  exacts [.next h, .next h.pull, .next h]

/-! ### Sys2Proof/Machine/Links.lean -/

theorem Good.loseReq {id r} (h : Good s) : Good (s.loseReq id r) := by
  simp only [State.loseReq]
  repeat' split
  exacts [h.deliver.dropReq, h.deliver.dropReq, h.recordStore.endStore, h.recordStore.endStore, h.freeTicket, h.freed, h.poolFault, h.poolFault,
    h.poolFault]
theorem Good.loseReqs {p} (h : Good s) : Good (s.loseReqs p) :=
  h.foldl fun k => by
    repeat' split
    exacts [k.loseReq, k, k]
theorem Good.loseUnsent (h : Good s) : Good s.loseUnsent := h.loseReqs
theorem Good.setLink {port p module_} (h : Good s) : Good (s.setLink port p module_) := h.keep.post
theorem Good.answerLink {port status} (h : Good s) : Good (s.answerLink port status) := by
  simp only [State.answerLink]
  repeat' split
  exacts [h.keep.reply, h]
theorem Good.linkUp {port module_} (h : Good s) : Good (s.linkUp port module_) :=
  .ite h (.ite h.setLink (Good.ite h.keep.countLink h.keep).setLink.answerLink.sendWaiting)
theorem Good.execLinkUp {port module_} (h : Good s) : GoodNext (execLinkUp port module_ s) := .next h.linkUp
theorem Good.linkDown {port} (h : Good s) : Good (s.linkDown port) := .ite h.setLink.answerLink.loseUnsent h
theorem Good.execLinkDown {port} (h : Good s) : GoodNext (execLinkDown port s) := .next h.linkDown
theorem Good.loseLanding {port} (h : Good s) : Good (s.loseLanding port) := h.setLink.keep.logError.answerLink.loseReqs.loseUnsent
theorem Good.execLandingLost {port} (h : Good s) : GoodNext (execLandingLost port s) := by
  simp only [Machine.execLandingLost]
  repeat' split
  exacts [.next h.loseLanding, .next h, .next h]
theorem Good.execLandingFailureReport {port} (h : Good s) : GoodNext (execLandingFailureReport port s) := .ite (.next h.loseLanding) (.next h)
theorem Good.reportExtent {landing kind off len} (h : Good s) : Good (s.reportExtent landing kind off len) := h.post
theorem Good.execExtentAdd {landing off len} (h : Good s) : GoodNext (execExtentAdd landing off len s) := .next h.keep.reportExtent
theorem Good.execExtentRelease {landing off len} (h : Good s) : GoodNext (execExtentRelease landing off len s) :=
  .ite (.next h) (.next h.keep.reportExtent)
theorem Good.invalPool {landing off len} (h : Good s) : Good (s.invalPool landing off len) := h.foldl fun k => k.invalidate
theorem Good.execExtentForcedRelease {landing off len} (h : Good s) : GoodNext (execExtentForcedRelease landing off len s) :=
  .next h.invalPool.keep.loseReqs.reportExtent
theorem Good.respond {sender status body} (h : Good s) : Good (s.respond sender status body) := h.keep
theorem Good.updateFrom {sender pa old slot new} (h : Good s) : Good (s.updateFrom sender pa old slot new) :=
  .ite h.logRead.respond (.ite (h.foldl fun k => k.storePhys).storePhys.countSlice.respond h.respond)
theorem Good.execRemoteRequest {sender pa req} (h : Good s) : GoodNext (execRemoteRequest sender pa req s) := by
  unfold Machine.execRemoteRequest
  extract_lets n t
  have k : Good t := h.countSlice
  refine .ite (.next h) (.ite (.next h.respond) ?_)
  split
  · exact .ite (.next k.logRead.respond) (.next k.respond)
  · exact .next k.storePhys.respond
  · exact .next k.updateFrom
  · split
    exacts [.next (k.atomLane.of_fst ‹_›).respond, .next (k.atomLane.of_fst ‹_›).logRead.respond]

/-! ### Sys2Proof/Machine/Commands.lean -/

theorem Good.nak {qp syndrome} (h : Good s) : Good (s.nak qp syndrome) := h.keep
theorem Good.command {hdr op right} {f : State → State} (h : Good s) (hf : ∀ {s}, Good s → Good (f s)) : GoodNext (command hdr op right s f) :=
  .ite (.next h.nak) (.ite (.next h.reply) (.next (hf h)))
theorem Good.ctxCommand {hdr op right} {f : State → State} (h : Good s) (hf : ∀ {s}, Good s → Good (f s)) :
    GoodNext (ctxCommand hdr op right s f) :=
  h.command fun k => .ite (hf k) k.reply
theorem Good.execCtxCreate {hdr root stack save savesize} (h : Good s) : GoodNext (execCtxCreate hdr root stack save savesize s) :=
  h.command fun k => .ite k.reply (.ite k.reply k.setCtx.reply)
theorem Good.reclaimTickets {c} (h : Good s) : Good (s.reclaimTickets c) := h.foldl fun k => .ite k.freeTicket k
theorem Good.unmapAlloc {c landing a} (h : Good s) : Good (s.unmapAlloc c landing a) := .ite h h.removePages
theorem Good.unmapAllocs {c} (h : Good s) : Good (s.unmapAllocs c) := h.foldl fun k => k.foldl fun q => q.unmapAlloc
theorem Good.teardown {hdr} (h : Good s) : Good (s.teardown hdr) := h.reclaimTickets.unmapAllocs.keep.invalidate
theorem Good.cancelJobs {c} (h : Good s) : Good (s.cancelJobs c) := h.foldl fun k => .ite k.cancelUnit k
theorem Good.execCtxDestroy {hdr} (h : Good s) : GoodNext (execCtxDestroy hdr s) :=
  .ite (.ite (.next h.keep.teardown) (.next h)) (h.ctxCommand fun k => k.setCtx.cancelJobs.keep)
theorem Good.execCtxQuota {hdr landing bytes} (h : Good s) : GoodNext (execCtxQuota hdr landing bytes s) :=
  h.ctxCommand fun k => .ite k.reply (.ite k.reply k.keep.reply)
theorem Good.execJobSubmit {hdr job} (h : Good s) : GoodNext (execJobSubmit hdr job s) :=
  h.ctxCommand fun k => by
    repeat' split
    all_goals exact (k.submitJob.of_snd ‹_›).reply
theorem Good.execUnitCancel {hdr handle} (h : Good s) : GoodNext (execUnitCancel hdr handle s) :=
  h.ctxCommand fun k => by
    repeat' split
    exacts [k.reply, (k.cancelNow.of_fst ‹_›).reply]
theorem Good.execTlbInval {hdr va length} (h : Good s) : GoodNext (execTlbInval hdr va length s) := h.ctxCommand fun k => .ite k.reply k.invalidate
theorem Good.execFaultResolve {hdr number answer} (h : Good s) : GoodNext (execFaultResolve hdr number answer s) :=
  h.command fun k => by
    repeat' split
    exacts [k.reply, k.reply, k.endHeld.reply, k.reply, k.reply]
theorem Good.execMigrateArm {hdr size old new} (h : Good s) : GoodNext (execMigrateArm hdr size old new s) :=
  h.ctxCommand fun k => by
    dsimp only
    repeat' split
    exacts [k.reply, k.reply, k.keep.reply, k.reply, k.reply, k.keep.reply]
theorem Good.slotCommand {hdr slot ok} {f : State → MigSlot → State} (h : Good s) (hf : ∀ {s} {b}, Good s → Good (f s b)) :
    GoodNext (slotCommand hdr slot s ok f) :=
  h.ctxCommand fun k => .ite k.reply (.ite k.reply (.ite k.reply (hf k)))
theorem Good.execMigrateStart {hdr slot} (h : Good s) : GoodNext (execMigrateStart hdr slot s) := h.slotCommand fun k => k.keep.invalidate
theorem Good.execMigrateAbort {hdr slot} (h : Good s) : GoodNext (execMigrateAbort hdr slot s) := h.slotCommand fun k => k.keep.retryWalks.reply
theorem Good.execMigrateRelease {hdr slot} (h : Good s) : GoodNext (execMigrateRelease hdr slot s) := h.slotCommand fun k => k.keep.reply
theorem EngGood.freeList {g n a} : EngGood (freeList g n a) := by
  induction n generalizing a with
  | zero => exact .pure
  | succ n ih => exact .ite .pure (.bind .engRead (.bind ih .pure))
theorem EngGood.pushSlots {g pool c as} : EngGood (pushSlots g pool c as) := by
  induction as with
  | nil => exact .pure
  | cons a as ih => exact .bind .engRead (.bind .engWrite (.bind .poolWrite ih))
theorem EngGood.auditClass {g pool used c} : EngGood (auditClass g pool used c) :=
  .bind .engRead (.ite .pure (.bind .freeList (.bind .pushSlots .pure)))
theorem EngGood.auditClasses {g pool used cs} : EngGood (auditClasses g pool used cs) := by
  induction cs with
  | nil => exact .pure
  | cons c cs ih => exact .bind .auditClass (.bind ih .pure)
theorem EngGood.allEntries {g d ks} : EngGood (allEntries g d ks) := by
  induction ks with
  | nil => exact .pure
  | cons k ks ih => exact .bind .engEntry (.bind ih .pure)
theorem EngGood.auditPool {handle g} : EngGood (auditPool handle g) := .bind .engDesc (.bind .allEntries .auditClasses)
theorem Good.execIndexAudit {hdr handle} (h : Good s) : GoodNext (execIndexAudit hdr handle s) := by
  simp only [Machine.execIndexAudit]
  repeat' split
  · exact .next h
  next e => exact .next ((h.keep.unitRun .auditPool).of_snd e).reply
  · exact .next h.keep.reply
  · exact h.ctxCommand fun k => k.reply
  · exact h.ctxCommand fun k => k.keep
theorem Good.execDebugRead {hdr cls lane crew warp number} (h : Good s) : GoodNext (execDebugRead hdr cls lane crew warp number s) :=
  h.ctxCommand fun k => by
    repeat' split
    all_goals exact k.reply
theorem Good.debugSet {w cls lane number v} (h : Good s) : Good (s.debugSet w cls lane number v) :=
  .ite h.setWarp (.ite h.setWarp (.ite h (.ite (.ite h.setCtxCsr h.setCsr) h.setWarp)))
theorem Good.execDebugWrite {hdr cls lane crew warp number value} (h : Good s) : GoodNext (execDebugWrite hdr cls lane crew warp number value s) :=
  h.ctxCommand fun k => by
    repeat' split
    exacts [k.reply, k.reply, k.debugSet.reply]
theorem Good.execDebugResume {hdr crew warp} (h : Good s) : GoodNext (execDebugResume hdr crew warp s) :=
  h.ctxCommand fun k => by
    repeat' split
    exacts [k.reply, k.setWarp.reply]

/-! ### Sys2Proof/Machine/Flume.lean -/

theorem Good.countMembers {is} (h : Good s) : Good (s.countMembers is) := .ite h h.countCore.countCore
theorem Good.flumeOp {i} (h : Good s) : GoodNext (flumeOp i s) := by
  unfold Machine.flumeOp
  exact h.groupOp fun k => .ok (Good.ite k.countMembers.upCur.advance k.countMembers.upCur.advance.upCur)
theorem Good.execFlumeWriteback {w port} (h : Good s) : GoodNext (execFlumeWriteback w port s) := by
  simp only [Machine.execFlumeWriteback]
  repeat' split
  exacts [.next h, .next h.setWarp, .next h.takeTrap, .next h.setWarp.takePending]

/-! ### Sys2Proof/Machine/Fetch.lean -/

theorem Good.fetchTouch {w pc n} (h : Good s) : Good (s.fetchTouch w pc n) := by
  induction n generalizing s pc with
  | zero => exact h
  | succ n ih =>
    simp only [State.fetchTouch]
    apply ih
    repeat' split
    exacts [h, h.touch, h]

/-! ### Sys2Proof/Machine/Schedule.lean -/

theorem Good.clearAges {i} (h : Good s) : Good (s.clearAges i) := h.setWarp
theorem Good.takeTurn {w} (h : Good s) : Good (s.takeTurn w).1 := by
  simp only [State.takeTurn]
  split
  exacts [h.setWarp.countCore, h.setWarp]
theorem Good.takeTurns (h : Good s) : Good s.takeTurns := by
  unfold State.takeTurns
  extract_lets t
  have k : Good t.1 := .foldl_fst h.keep fun k => by
    split
    exact k.takeTurn.of_fst ‹_›
  exact k.keep
theorem Good.takeRaised {w} (h : Good s) : Good (s.takeRaised w) := by
  simp only [State.takeRaised]
  repeat' split
  exacts [h.keep.takeTrap, h.keep, h.keep]
theorem Good.afterPair {t : State} {w} (h : Good s) (ht : Good t) : Good (s.afterPair t w) :=
  .ite ht.keep (.ite (.ite h.takeRaised ht.keep.takeRaised) ht.takeRaised)
theorem Good.selectCore {core} (h : Good s) : Good (s.selectCore core) :=
  h.foldl fun k => by
    repeat' split
    exacts [k, k.keep]
theorem Good.selectTurns (h : Good s) : Good s.selectTurns := .ite (h.keep.foldl fun k => k.countCore.selectCore) h.keep
theorem Good.logFetch {n cause} (h : Good s) : Good (s.logFetch n cause) := by
  simp only [State.logFetch]
  repeat' split
  exacts [h.logRead, h, h]
theorem Good.countScalar {t : State} {s i} (h : Good t) : Good (t.countScalar s i) := .ite h h.countCore
theorem GoodNext.noteScalar {i o} (ho : GoodNext o) : GoodNext (s.noteScalar i o) := by
  cases ho with
  | next h => exact .next h.countScalar
  | fault => exact .fault
  | refused => exact .refused
theorem Good.prepare {i} (h : Good s) : Good (s.prepare i).1 := by
  simp only [State.prepare]
  repeat' split
  exacts [h.fetchTouch.countCore.keep.clearAges, h.fetchTouch.countCore.keep.clearAges, h.fetchTouch.keep.clearAges.logFetch.issueTrap.spendWalk,
    h.keep.waitWalk, h.keep.stall]
theorem Good.noteLinks {w} (h : Good s) : Good (s.noteLinks w) := h.setWarp
theorem Good.settleLinks (h : Good s) : Good s.settleLinks := .ite (h.foldl fun k => k.noteLinks) h

/-! ### Sys2Proof/Machine/Deadlock.lean -/

theorem Good.withdraw {e} (h : Good s) : Good (s.withdraw e) := (Good.ite h.setBarrier (.ite h.setBarrier h)).setWarp
theorem Good.report {members} (h : Good s) : Good (s.report members) :=
  (((h.keep.foldl fun k => .ite k.sysWrite k).foldl fun k => k.post).foldl fun k => k.withdraw).foldl fun k => .ite k.takeTrap k
theorem Good.forget {cycles} (h : Good s) : Good (s.forget cycles) := .ite h h.keep
theorem Good.execDeadlockWalk (h : Good s) : GoodNext (execDeadlockWalk s) := .next (h.keep.foldl fun k => k.report).forget

/-! ### Sys2Proof/Machine/Rdma.lean -/

theorem Good.execWinReg {hdr va length access} (h : Good s) : GoodNext (execWinReg hdr va length access s) :=
  h.command fun k => by
    dsimp only
    repeat' split
    exacts [k.reply, k.reply, k.reply, k.reply, k.reply, k.keep.reply, k.reply, k.reply, k.keep.reply]
theorem Good.execWinDereg {hdr rkey} (h : Good s) : GoodNext (execWinDereg hdr rkey s) :=
  .ite (.ite (.next h) (.next h.keep.reply)) (h.command fun k => by
    repeat' split
    exacts [k.reply, k.reply, k.keep, k.keep.reply])
theorem Good.refuseRdma {qp rkey r} (h : Good s) : Good (s.refuseRdma qp rkey r) := by
  simp only [State.refuseRdma]
  repeat' split
  exacts [h.logWalk.nak, h.logError.nak, h.nak]
theorem Good.rdmaDone {qp body} (h : Good s) : Good (s.rdmaDone qp body) := h.keep
theorem Good.writePiece {w p bs} (h : Good s) : Good (s.writePiece w p bs) := by
  simp only [State.writePiece]
  repeat' split
  exacts [h.clearLine.countServed.logError, h.touch.countServed.logError, h.clearLine.countServed.storePhys, h.touch.countServed.storePhys]
theorem Good.writePieces {w ps bs} (h : Good s) : Good (s.writePieces w ps bs) := by
  induction ps generalizing s bs with
  | nil => exact h
  | cons p ps ih => exact ih h.writePiece
theorem Good.readPieces {w ps} (h : Good s) : Good (s.readPieces w ps).1 := by
  induction ps generalizing s with
  | nil => exact h
  | cons p ps ih =>
    have k := (h.touch (x := p.x) (n := p.n)).countServed (pa := p.x.pa)
    simp only [State.readPieces]
    repeat' split
    exacts [k.logError, k.logRead, (ih k).of_fst ‹_›, (ih k).of_fst ‹_›]
theorem Good.keepRdma {i on} (h : Good s) : Good (s.keepRdma i on) := h.keep
theorem Good.dropFrame (h : Good s) : Good s.dropFrame := h.keep
theorem Good.execRdmaWrite {qp rkey addr bytes} (h : Good s) : GoodNext (execRdmaWrite qp rkey addr bytes s) := by
  simp only [Machine.execRdmaWrite]
  repeat' split
  exacts [.next h.dropFrame, .next h.keepRdma.refuseRdma, .next h.keepRdma, .next h.keepRdma.writePieces.rdmaDone]
theorem Good.execRdmaRead {qp rkey addr n} (h : Good s) : GoodNext (execRdmaRead qp rkey addr n s) := by
  simp only [Machine.execRdmaRead]
  repeat' split
  exacts [.next h.dropFrame, .next h.keepRdma.refuseRdma, .next h.keepRdma, .next (h.keepRdma.readPieces.of_fst ‹_›).rdmaDone,
    .next (h.keepRdma.readPieces.of_fst ‹_›).nak]
theorem Good.execUnsupportedFrame {roce qp} (h : Good s) : GoodNext (execUnsupportedFrame roce qp s) := .next (Good.ite h.dropFrame.nak h.dropFrame)
theorem Good.execSendOnNonManagementQp {qp} (h : Good s) : GoodNext (execSendOnNonManagementQp qp s) := .next (Good.ite h.dropFrame h.nak)
theorem Good.execUnknownOpcode {hdr opcode badHeader} (h : Good s) : GoodNext (execUnknownOpcode hdr opcode badHeader s) :=
  .ite (.next h.nak) (.next h.reply)
theorem Good.execPriorityFlowControlFrame {prio pause} (h : Good s) : GoodNext (execPriorityFlowControlFrame prio pause s) :=
  .ite (.next h.keep) (.next h.keep)
theorem Good.execEventDelivery {qp} (h : Good s) : GoodNext (execEventDelivery qp s) := by
  simp only [Machine.execEventDelivery]
  repeat' split
  exacts [.next h, .next h.keep]

/-! ### Sys2Proof/Machine/Identity.lean -/

theorem Good.identity {hdr} {f : State → State} (h : Good s) (hf : ∀ {s}, Good s → Good (f s)) : GoodNext (identity hdr s f) :=
  .ite (.next (hf h)) (.next h.nak)
theorem Good.ownerCommand {hdr op} {f : State → State} (h : Good s) (hf : ∀ {s}, Good s → Good (f s)) : GoodNext (ownerCommand hdr op s f) :=
  h.identity fun k => .ite k.reply (hf k)
theorem Good.setQp {qp q} (h : Good s) : Good (s.setQp qp q) := h.keep
theorem Good.execIdGet {hdr} (h : Good s) : GoodNext (execIdGet hdr s) := h.identity fun k => k.reply
theorem Good.execSessionChallenge {hdr} (h : Good s) : GoodNext (execSessionChallenge hdr s) := h.identity fun k => k.keep.reply
theorem Good.execNonceExpiry {qp} (h : Good s) : GoodNext (execNonceExpiry qp s) := .ite (.next h.setQp) (.next h)
theorem Good.execSessionOpen {hdr operator rights endorsement proof} (h : Good s) :
    GoodNext (execSessionOpen hdr operator rights endorsement proof s) :=
  h.identity fun k => .ite k.reply (.ite k.setQp.reply k.setQp.reply)
theorem Good.execSessionClose {hdr} (h : Good s) : GoodNext (execSessionClose hdr s) := h.identity fun k => k.keep.reply
theorem Good.execQuote {hdr nonce} (h : Good s) : GoodNext (execQuote hdr nonce s) := h.identity fun k => k.reply
theorem Good.execOwnerSet {hdr key} (h : Good s) : GoodNext (execOwnerSet hdr key s) := h.ownerCommand fun k => .ite k.reply k.keep.reply
theorem Good.execConfigApply {hdr blob} (h : Good s) : GoodNext (execConfigApply hdr blob s) :=
  h.ownerCommand fun k => .ite k.reply (.ite k.keep.reply k.reply)
theorem Good.trainLinks (h : Good s) : Good s.trainLinks :=
  h.foldl fun k => by
    repeat' split
    exacts [k.linkUp, k.linkDown, k]
theorem Good.logFailed (h : Good s) : Good s.logFailed := h.foldl fun k => .ite k.logChannel k
theorem Good.restart {last warm retain} (h : Good s) : Good (s.restart last warm retain) :=
  Good.trainLinks (Good.logFailed (keptMemory_wf h))
theorem Good.execResetWarm {hdr retain} (h : Good s) : GoodNext (execResetWarm hdr retain s) := h.ownerCommand fun k => k.reply.restart
theorem Good.execResetCold {hdr} (h : Good s) : GoodNext (execResetCold hdr s) := h.ownerCommand fun k => k.reply.restart
theorem Good.execPowerOn (h : Good s) : GoodNext (execPowerOn s) := .next h.restart

/-! ### Sys2Proof/Machine/PoolCommands.lean -/

theorem Good.execPoolAlloc {hdr size attr} (h : Good s) : GoodNext (execPoolAlloc hdr size attr s) :=
  h.ctxCommand fun k => .ite k.reply (.ite k.reply k.send)
theorem Good.installGrant {target attr off len landing access} (h : Good s) : GoodSome (s.installGrant target attr off len landing access) :=
  h.installPages
theorem Good.grantTarget {hdr target attr va len access} (h : Good s) : Good (s.grantTarget hdr target attr va len access) := by
  simp only [State.grantTarget]
  repeat' split
  exacts [h.reply, h.reply, h.reply, (h.installGrant.of_eq ‹_›).invalidate]
theorem Good.execPoolGrant {hdr va length target access tmod omod} (h : Good s) :
    GoodNext (execPoolGrant hdr va length target access tmod omod s) :=
  h.command fun k => by
    refine .ite k.reply (.ite k.reply (.ite k.reply (.ite k.reply (.ite ?_ ?_))))
    · split
      · exact k.reply
      refine .ite k.reply (.ite k.reply (.ite ?_ k.keep.reply))
      split
      exacts [k.reply, (k.installGrant.of_eq ‹_›).keep.invalidate]
    · split
      exacts [k.reply, k.grantTarget]
theorem Good.revokeTarget {hdr target va length} (h : Good s) : Good (s.revokeTarget hdr target va length) := by
  simp only [State.revokeTarget]
  repeat' split
  exacts [h.reply, (h.removeFound.of_eq ‹_›).invalidate]
theorem Good.execPoolRevoke {hdr va length target tmod omod} (h : Good s) : GoodNext (execPoolRevoke hdr va length target tmod omod s) :=
  h.command fun k => by
    refine .ite k.reply (.ite k.reply (.ite k.reply ?_))
    extract_lets x isIt
    split
    · exact .ite k.reply k.revokeTarget
    · exact .ite k.reply (.ite (Good.ite k.keep k).removePages.invalidate (Good.ite k.keep k).reply)
theorem Good.linkCommand {hdr port} {f : State → Port → State} (h : Good s) (hf : ∀ {s} {b}, Good s → Good (f s b)) :
    GoodNext (linkCommand hdr port s f) :=
  h.command fun k => .ite k.reply (.ite k.reply (.ite k.reply (hf k)))
theorem Good.execLinkDrain {hdr port} (h : Good s) : GoodNext (execLinkDrain hdr port s) :=
  h.linkCommand fun k => .ite k.reply (.ite k.reply k.setLink.drainCheck.loseUnsent)
theorem Good.execLinkRetrain {hdr port} (h : Good s) : GoodNext (execLinkRetrain hdr port s) := h.linkCommand fun k => .ite k.reply k.setLink
theorem Good.execLinkRestore {hdr port} (h : Good s) : GoodNext (execLinkRestore hdr port s) :=
  h.linkCommand fun k => .ite k.reply k.keep.loseReqs.setLink

/-! ### Sys2Proof/Machine/Fleet.lean -/

theorem Good.execHealth {hdr} (h : Good s) : GoodNext (execHealth hdr s) := h.command fun k => k.reply
theorem Good.execCounterSet {hdr cls unit counter select count} (h : Good s) : GoodNext (execCounterSet hdr cls unit counter select count s) :=
  h.command fun k => .ite k.reply (.ite k.setCore.reply (.ite k.keep.reply k.keep.reply))
theorem Good.execCounterRead {hdr cls unit} (h : Good s) : GoodNext (execCounterRead hdr cls unit s) := h.command fun k => .ite k.reply k.reply
theorem Good.setOffline {core on hdr} (h : Good s) : Good (s.setOffline core on hdr) := h.setCore
theorem Good.execCoreOffline {hdr core} (h : Good s) : GoodNext (execCoreOffline hdr core s) :=
  .ite (.ite (.next h.setOffline.reply) (.next h)) (h.command fun k => .ite k.reply (.ite k.reply (k.setOffline.foldl fun q => q.swapOut)))
theorem Good.execCoreOnline {hdr core} (h : Good s) : GoodNext (execCoreOnline hdr core s) :=
  h.command fun k => .ite k.reply (.ite k.reply k.setOffline.reply)
theorem Good.execCoreReset {hdr core} (h : Good s) : GoodNext (execCoreReset hdr core s) :=
  h.command fun k => .ite k.reply (.ite k.reply k.clearRange.keep.reply)
theorem Good.execPinSet {hdr cls unit frames} (h : Good s) : GoodNext (execPinSet hdr cls unit frames s) :=
  h.command fun k => .ite k.reply (.ite (.ite k.keep.reply (.ite k.reply k.setCore.reply)) (.ite k.reply k.invalidate))
theorem Good.failPull {ch} (h : Good s) : Good (s.failPull ch) := by
  simp only [State.failPull]
  repeat' split
  exacts [h.keep.logError.migSettle, h, h]
theorem Good.poisonChannel {ch} (h : Good s) : Good (s.poisonChannel ch) := h.keep.foldl fun k => k.countSlice
theorem Good.execChannelRetrain {hdr stack channel passed} (h : Good s) : GoodNext (execChannelRetrain hdr stack channel passed s) :=
  h.command fun k => .ite k.reply (.ite k.failPull.failChannel.reply (Good.ite k.keep.poisonChannel k.keep).reply)
theorem Good.copyRow {ch bank row} (h : Good s) : Good (s.copyRow ch bank row) := .ite h (h.foldl fun k => k.scrubGranule)
theorem Good.execRepair {hdr stack channel bank row} (h : Good s) : GoodNext (execRepair hdr stack channel bank row s) :=
  h.command fun k => by
    dsimp only
    repeat' split
    exacts [k.reply, k.reply, k.reply, k.copyRow.keep.reply]
theorem Good.execLogRead {hdr kind from_} (h : Good s) : GoodNext (execLogRead hdr kind from_ s) := h.command fun k => .ite k.reply k.reply

/-! ### Sys2Proof/Machine/Integer.lean -/

theorem Good.intOp {i op t sat d a b c} (h : Good s) : GoodNext (intOp i op t sat d a b c s) := h.plainOp fun k => k.writeRes
theorem Good.execMovi {d n} (h : Good s) : GoodNext (execMovi d n s) := h.plainOp fun k => k.writeRes
theorem Good.execCmp {cc t d a b} (h : Good s) : GoodNext (execCmp cc t d a b s) := h.plainOp fun k => k.writeRes
theorem Good.execSel {t d c a b} (h : Good s) : GoodNext (execSel t d c a b s) := h.plainOp fun k => k.writeRes
theorem Good.execLea {t sh d a b c} (h : Good s) : GoodNext (execLea t sh d a b c s) := h.plainOp fun k => k.writeRes

/-! ### Sys2Proof/Machine/Lanes.lean -/

theorem Good.maskedOp {i m} {f : State → State} (h : Good s) (hf : ∀ {s}, Good s → Good (f s)) : GoodNext (maskedOp i m s f) :=
  h.checkedOp fun k => .ite (.ok (hf k)) .error
theorem Good.execVshfl {d a b} (h : Good s) : GoodNext (execVshfl d a b s) := h.checkedOp fun k => .ok k.writeRes
theorem Good.execVbcast {d a n} (h : Good s) : GoodNext (execVbcast d a n s) := h.checkedOp fun k => .ok k.writeRes
theorem Good.execVvote {kind d a} (h : Good s) : GoodNext (execVvote kind d a s) := h.checkedOp fun k => .ok k.writeRes
theorem Good.execVshflMasked {d a b m} (h : Good s) : GoodNext (execVshflMasked d a b m s) := h.maskedOp fun k => k.writeRes
theorem Good.execVbcastMasked {d a n m} (h : Good s) : GoodNext (execVbcastMasked d a n m s) := h.maskedOp fun k => k.writeRes
theorem Good.execVvoteMasked {kind d a m} (h : Good s) : GoodNext (execVvoteMasked kind d a m s) := h.maskedOp fun k => k.writeRes
theorem Good.execMjoin {k} (h : Good s) : GoodNext (execMjoin k s) := h.plainOp fun k => k.upCur
theorem Good.execMleave {k} (h : Good s) : GoodNext (execMleave k s) := h.plainOp fun k => k.upCur
theorem Good.arrive {i k x} (h : Good s) : GoodNext (arrive i k x s) := h.runOp fun k => .ite .error (.ok k.block.upCur)
theorem Good.execMwait {k} (h : Good s) : GoodNext (execMwait k s) := h.arrive
theorem Good.execMwaitt {d a k} (h : Good s) : GoodNext (execMwaitt d a k s) := h.arrive
theorem Good.execMwaittDeadline {w l} (h : Good s) : GoodNext (execMwaittDeadline w l s) := by
  simp only [Machine.execMwaittDeadline]
  repeat' split
  exacts [.next h, .next h, .next h.setWarp, .next h]

/-! ### Sys2Proof/Machine/Reduce.lean -/

theorem Good.reduceOp {i op t sat rm d a m pick} (h : Good s) : GoodNext (reduceOp i op t sat rm d a m pick s) :=
  h.checkedOp fun k => .ite (.ite (.ok k.writeRes.upCur) .error) .error

/-! ### Sys2Proof/Machine/Dispatch.lean -/

theorem Good.exec {i} (h : Good s) : GoodNext (exec i s) := by
  cases i with
  | add | sub | mul | mulh | mad | div | rem | min | max | and | or | xor | not | shl | shr | sar | rot | shlImm | shrImm | sarImm
    | rotImm | clz | ctz | popc | bfx | bfi | addImm | intTyped => exact h.intOp
  | movi => exact h.execMovi
  | sel => exact h.execSel
  | cmp => exact h.execCmp
  | lea => exact h.execLea
  | faddF32 | faddF16 | faddBf16 | fsubF32 | fsubF16 | fsubBf16 | fmulF32 | fmulF16 | fmulBf16 | ffmaF32 | ffmaF16 | ffmaBf16
    | fmaxF32 | fmaxF16 | fmaxBf16 | fminF32 | fminF16 | fminBf16 | fgateF32 | fgateF16 | fgateBf16 | fclampF32 | fclampF16
    | fclampBf16 | fdivF32 | fsqrt | frsq | frcp | fexp2 | flog2 | fround | fcvt | fscaleF32 | fcmp | fquant | fdequant
    | floatTyped => exact h.flumeOp
  | flumeWriteback => exact h.execFlumeWriteback
  | vshfl => exact h.execVshfl
  | vbcast => exact h.execVbcast
  | vvote => exact h.execVvote
  | vshflMasked => exact h.execVshflMasked
  | vbcastMasked => exact h.execVbcastMasked
  | vvoteMasked => exact h.execVvoteMasked
  | vred | vscan => exact h.reduceOp
  | mjoin => exact h.execMjoin
  | mleave => exact h.execMleave
  | mwait => exact h.execMwait
  | mwaitt => exact h.execMwaitt
  | mwaittDeadline => exact h.execMwaittDeadline
  | bra => exact h.execBra
  | brc => exact h.execBrc
  | brcZ => exact h.execBrcZ
  | call => exact h.execCall
  | ret => exact h.execRet
  | exit => exact h.execExit
  | reform => exact h.execReform
  | reformageExpiry => exact h.execReformageExpiry
  | binBuildOnFreeSlot => exact h.execBinBuildOnFreeSlot
  | stagenext => exact h.execStagenext
  | qput => exact h.execQput
  | qtake => exact h.execQtake
  | bar | barArrive | barGang | barGangArrive => exact h.barOp
  | yieldOp => exact h.execYield
  | sleep => exact h.execSleep
  | sleepExpiry => exact h.execSleepExpiry
  | nop => exact h.execNop
  | ldG => exact h.execLdG
  | ldX => exact h.execLdX
  | stG => exact h.execStG
  | stX => exact h.execStX
  | prf => exact h.execPrf
  | ldOffset => exact h.execLdOffset
  | stOffset => exact h.execStOffset
  | atomG => exact h.execAtomG
  | atomX => exact h.execAtomX
  | fence => exact h.execFence
  | ldt => exact h.execLdt
  | ldtBlock => exact h.execLdtBlock
  | redeem => exact h.execRedeem
  | redeemX => exact h.execRedeemX
  | tkdrop => exact h.execTkdrop
  | tkstat => exact h.execTkstat
  | ticketReady => exact h.execTicketReady
  | ticketDeadline => exact h.execTicketDeadline
  | lalloc => exact h.execLalloc
  | lfree => exact h.execLfree
  | lquota => exact h.execLquota
  | memoryResponse => exact h.execMemoryResponse
  | remoteStoreAck => exact h.execRemoteStoreAck
  | remoteStoreTimeout => exact h.execRemoteStoreTimeout
  | fabricTimeout => exact h.execFabricTimeout
  | cpyLd => exact h.execCpyLd
  | cpySt => exact h.execCpySt
  | copyPerform => exact h.execCopyPerform
  | bulk => exact h.execBulk
  | bulkPerform => exact h.execBulkPerform
  | bulkPieceArrival => exact h.execBulkPieceArrival
  | arminit => exact h.execArminit
  | arrive => exact h.execArrive
  | await => exact h.execAwait
  | qfence => exact h.execQfence
  | tagset => exact h.execTagset
  | mload => exact h.execMload
  | mswap => exact h.execMswap
  | mmul => exact h.execMmul
  | mdrain => exact h.execMdrain
  | mtask => exact h.execMtask
  | deckTaskStart => exact h.execDeckTaskStart
  | deckTaskComplete => exact h.execDeckTaskComplete
  | ctload => exact h.execCtload
  | ctsave => exact h.execCtsave
  | encoderTableOp => exact h.execEncoderTableOp
  | kvput => exact h.execKvput
  | blockUpdate => exact h.execBlockUpdate
  | bin => exact h.execBin
  | binPerform => exact h.execBinPerform
  | spawn => exact h.execSpawn
  | cancel => exact h.execCancel
  | trap => exact h.execTrap
  | trapret => exact h.execTrapret
  | trapsupply => exact h.execTrapsupply
  | csrr => exact h.execCsrr
  | csrw => exact h.execCsrw
  | csrContextCommit => exact h.execCsrContextCommit
  | flsave => exact h.execFlsave
  | flrestore => exact h.execFlrestore
  | brk => exact h.execBrk
  | halt => exact h.execHalt
  | contextSave => exact h.execContextSave
  | levelAging => exact h.execLevelAging
  | drainReservation => exact h.execDrainReservation
  | crewComplete => exact h.execCrewComplete
  | stallHint => exact h.execStallHint
  | stallHintWithdraw | powerSample | congestionNotificationPacket | thermalShutdown | powerRemoved => exact .next h.keep
  | hintReturnTimeout => exact h.execHintReturnTimeout
  | pageWalk => exact h.execPageWalk
  | heldFaultTimeout => exact h.execHeldFaultTimeout
  | invalidationComplete => exact h.execInvalidationComplete
  | backgroundPullSlot => exact h.execBackgroundPullSlot
  | refreshSlot => exact .next h
  | scrubSlot => exact h.execScrubSlot
  | remapReload => exact h.execRemapReload
  | remoteRequest => exact h.execRemoteRequest
  | requestDeadlineExpiry => exact h.execRequestDeadlineExpiry
  | linkUp => exact h.execLinkUp
  | linkDown => exact h.execLinkDown
  | landingLost => exact h.execLandingLost
  | landingFailureReport => exact h.execLandingFailureReport
  | extentAdd => exact h.execExtentAdd
  | extentRelease => exact h.execExtentRelease
  | extentForcedRelease => exact h.execExtentForcedRelease
  | rdmaWrite => exact h.execRdmaWrite
  | rdmaRead => exact h.execRdmaRead
  | unsupportedFrame => exact h.execUnsupportedFrame
  | eventDelivery => exact h.execEventDelivery
  | ctxCreate => exact h.execCtxCreate
  | ctxDestroy => exact h.execCtxDestroy
  | ctxQuota => exact h.execCtxQuota
  | jobSubmit => exact h.execJobSubmit
  | unitCancel => exact h.execUnitCancel
  | winReg => exact h.execWinReg
  | winDereg => exact h.execWinDereg
  | tlbInval => exact h.execTlbInval
  | faultResolve => exact h.execFaultResolve
  | migrateArm => exact h.execMigrateArm
  | migrateStart => exact h.execMigrateStart
  | migrateAbort => exact h.execMigrateAbort
  | migrateRelease => exact h.execMigrateRelease
  | indexAudit => exact h.execIndexAudit
  | poolAlloc => exact h.execPoolAlloc
  | poolGrant => exact h.execPoolGrant
  | poolRevoke => exact h.execPoolRevoke
  | debugRead => exact h.execDebugRead
  | debugWrite => exact h.execDebugWrite
  | debugResume => exact h.execDebugResume
  | linkDrain => exact h.execLinkDrain
  | linkRetrain => exact h.execLinkRetrain
  | linkRestore => exact h.execLinkRestore
  | idGet => exact h.execIdGet
  | sessionChallenge => exact h.execSessionChallenge
  | nonceExpiry => exact h.execNonceExpiry
  | sessionOpen => exact h.execSessionOpen
  | sessionClose => exact h.execSessionClose
  | quote => exact h.execQuote
  | ownerSet => exact h.execOwnerSet
  | configApply => exact h.execConfigApply
  | resetWarm => exact h.execResetWarm
  | resetCold => exact h.execResetCold
  | health => exact h.execHealth
  | counterSet => exact h.execCounterSet
  | counterRead => exact h.execCounterRead
  | coreOffline => exact h.execCoreOffline
  | coreOnline => exact h.execCoreOnline
  | coreReset => exact h.execCoreReset
  | pinSet => exact h.execPinSet
  | channelRetrain => exact h.execChannelRetrain
  | repair => exact h.execRepair
  | logRead => exact h.execLogRead
  | unknownOpcode => exact h.execUnknownOpcode
  | sendOnNonManagementQp => exact h.execSendOnNonManagementQp
  | landingPoolResponse => exact h.execLandingPoolResponse
  | retiredTagReuse => exact h.execRetiredTagReuse
  | priorityFlowControlFrame => exact h.execPriorityFlowControlFrame
  | placementPass => exact h.execPlacementPass
  | deadlockWalk => exact h.execDeadlockWalk
  | powerOn => exact h.execPowerOn
  | throttleStep | throttleExit => exact .ite (.next h.keep) (.next h)
  | illegalInstruction => exact h.execIllegalInstruction

/-! ### Sys2Proof/Machine/Messages.lean -/

theorem Good.refuseBody {hdr op} (h : Good s) : Good (s.refuseBody hdr op) := by
  simp only [State.refuseBody]
  repeat' split
  exacts [h.nak, h.reply, h.reply, h.reply]
theorem Good.receive {qp m passed} (h : Good s) : Good (s.receive qp m passed).1 := by
  simp only [State.receive]
  repeat' split
  exacts [h, h, h.refuseBody]

/-! ### Sys2Proof/Machine/Timers.lean -/

theorem Good.strikeRemap {ch entry mirror} (h : Good s) : Good (s.strikeRemap ch entry mirror) := .ite h.keep h.keep
theorem Good.writeOutside {pa bs} (h : Good s) : Good (s.writeOutside pa bs) := .ite h.store h
theorem Good.strikeCopy {g} (h : Good s) : Good (s.strikeCopy g) := .ite h.keep.logError.countPoisoned h
theorem Good.strikeStaging {key lane} (h : Good s) : Good (s.strikeStaging key lane) := .ite h.keep.logError h
theorem Good.remoteFailure {hdr count cause} (h : Good s) : Good (s.remoteFailure hdr count cause) := by
  simp only [State.remoteFailure]
  repeat' split
  exacts [h.changeCounter, h]
theorem Good.takeInput {x} (h : Good s) : Good (s.takeInput x).1 := by
  simp only [State.takeInput]
  repeat' split
  exacts [h, h, h, h, h.setCore, h.keep, h.strikeCopy, h.keep, h.keep, h.strikeStaging, h.remoteFailure, h.setCore, h.setWarp, h.keep, h.keep, h,
    h.keep, h.countCorrected, h, h.failChannel, h.receive, h.strikeRemap, h.writeOutside, h.keep, h.keep, h.keep, h.keep, h.keep, h.keep, h.keep]
theorem Good.turnAway {a} (h : Good s) : GoodSome (s.turnAway a) := by
  simp only [State.turnAway]
  repeat' split
  exacts [.some h.dropFrame, .none, .some h.dropFrame, .some h.refuseRdma, .none, .some h.dropFrame, .some h.refuseRdma, .some h.nak, .none, .none]
theorem Good.input {x} (h : Good s) : Good (s.input x).1 := by
  simp only [State.input]
  repeat' split
  exacts [h.turnAway.of_eq ‹_›, h.keep, h.keep, h.keep, h.keep, h.keep, h.takeInput]
theorem Good.takeSnaps (h : Good s) : Good s.takeSnaps := h.keep
theorem Good.freeEngines (h : Good s) : Good s.freeEngines := h.keep.foldl fun k => k.settleFences
theorem Good.stallWarps (h : Good s) : Good s.stallWarps := .ite h h.keep
theorem Good.settleStages (h : Good s) : Good s.settleStages := h.foldl fun k => k.settleStage
theorem Good.fileWaiting (h : Good s) : Good s.fileWaiting := h.foldl fun k => .ite k k.refileAll
theorem Good.countUnstated (h : Good s) : Good s.countUnstated :=
  ((h.foldl fun k => .ite k (k.foldl fun q => q.countCore)).foldl fun k => k.countSlice).foldl fun k => .ite k k.countLink.countLink
theorem Good.tick (h : Good s) : Good s.tick := by
  unfold State.tick
  extract_lets q r u free v
  have hq : Good q := h.settleStages.settleHints.fileWaiting.settleLinks
  have hr : Good r := hq.keep.sendWaiting.freeEngines
  have hu : Good u := hr.stallWarps.takeSnaps.revokeGrants.countUnstated
  exact hu.keep.selectTurns

/-! ### Sys2Proof/Machine/Step.lean -/

theorem Good.issueStep {i} (h : Good s) : GoodNext (issueStep s i) := by
  simp only [Machine.issueStep]
  split
  exacts [.noteScalar (h.prepare.of_fst ‹_›).exec, .next (h.prepare.of_fst ‹_›)]
theorem Good.askedStep {p : State × Option Instr} (h : Good p.1) : GoodNext (askedStep p) := by
  obtain ⟨t, _ | i⟩ := p
  exacts [.next h, Good.exec h]
theorem Good.inputStep {x} (h : Good s) : GoodNext (inputStep s x) := h.input.askedStep
theorem Good.offStep (h : Good s) : GoodNext (offStep s) := by
  simp only [Machine.offStep]
  repeat' split
  exacts [.fault, h.keep.exec, .next h.keep]
theorem Good.groupStep {i} (h : Good s) : GoodNext (groupStep s i) := by
  simp only [Machine.groupStep]
  repeat' split
  exacts [.next (h.afterPair (h.issueStep.of_next ‹_›)), h.issueStep, h.issueStep, .next h.takeRaised]
theorem Good.lateStep (h : Good s) : GoodNext (lateStep s) := by
  simp only [Machine.lateStep]
  repeat' split
  exacts [h.exec, .next h.settleAwaits, h.exec, h.keep.takeInput.askedStep, .next h.tick]
theorem Good.issuesStep (h : Good s) : GoodNext (issuesStep s) := by
  simp only [Machine.issuesStep]
  repeat' split
  exacts [h.keep.groupStep, h.keep.groupStep, h.keep.takeInput.askedStep, h.keep.takeInput.askedStep, h.lateStep]
theorem Good.ownStep (h : Good s) : GoodNext (ownStep s) := by
  simp only [Machine.ownStep]
  repeat' split
  exacts [h.exec, .next h.progress, h.issuesStep, h.takeTurns.issuesStep]
theorem Good.step (h : Good s) : GoodNext (step s) := by
  simp only [Machine.step]
  repeat' split
  exacts [h.offStep, h.keep.inputStep, h.ownStep]

end

/-- Settles O59: `Good` is `Memory.wf` of the state's memory, and every function that `step` is built of keeps it. -/
theorem memoryCanonical : Obligations.MemoryCanonical := by
  unfold Obligations.MemoryCanonical
  intro s t h e
  exact h.step.of_next e

end Sys2Proof

/-! ## Tables, lane sets and waits: what the statements on the execution model share -/

namespace Sys2Proof.Machine

open Sys2Proof

/-! ### Tables -/

@[simp] theorem FMap.set_set {α : Type} (m : FMap α) (k : Nat) (a b : α) : (m.set k a).set k b = m.set k b := by
  induction m with
  | nil => simp [FMap.set]
  | cons p t ih =>
    obtain ⟨j, c⟩ := p
    by_cases h1 : k < j
    · simp [FMap.set, h1]
    · by_cases h2 : k = j
      · simp [FMap.set, h2]
      · simp [FMap.set, h1, h2, ih]

theorem FMap.find_mapVal {α β : Type} (m : FMap α) (f : Nat → α → β) (k : Nat) :
    FMap.find (m.map fun p => (p.1, f p.1 p.2)) k = (m.find k).map (f k) := by
  induction m with
  | nil => rfl
  | cons p t ih =>
    obtain ⟨j, a⟩ := p
    rw [List.map_cons, FMap.find_cons, FMap.find_cons, ih]
    split
    · subst_vars; rfl
    · rfl

theorem FMap.get_mapVal {α β : Type} [Inhabited α] [Inhabited β] (m : FMap α) (f : α → β) (k : Nat) (h : f default = default) :
    FMap.get (m.map fun p => (p.1, f p.2)) k = f (m.get k) := by
  rw [FMap.get, FMap.find_mapVal m (fun _ => f), FMap.get]
  cases m.find k
  · exact h.symm
  · rfl

@[simp] theorem State.setWarp_setWarp (s : State) (w : Nat) (x y : Warp) : (s.setWarp w x).setWarp w y = s.setWarp w y := by
  simp [State.setWarp]

/-! ### Lane sets -/

theorem lanes_ext {m n : LaneSet} (h : ∀ l, l < 32 → m.getLsbD l = n.getLsbD l) : m = n := BitVec.eq_of_getLsbD_eq h

theorem lanes_eq_zero {m : LaneSet} : m = 0 ↔ ∀ l, m.getLsbD l = false := by
  refine ⟨by rintro rfl; simp, fun h => lanes_ext fun l _ => by simp [h l]⟩

theorem lanes_ne_zero {m : LaneSet} : m ≠ 0 ↔ ∃ l, m.getLsbD l = true := by
  rw [ne_eq, lanes_eq_zero, not_forall]
  simp

theorem getLsbD_andNot (m n : LaneSet) (l : Nat) : (m &&& ~~~n).getLsbD l = (m.getLsbD l && !n.getLsbD l) := by
  rw [BitVec.getLsbD_and, BitVec.getLsbD_not]
  cases h : m.getLsbD l
  · rfl
  · simp [BitVec.lt_of_getLsbD h]

/-- No lane of the first set is missing in the second. -/
theorem andNot_eq_zero {m n : LaneSet} : m &&& ~~~n = 0 ↔ ∀ l, m.getLsbD l = true → n.getLsbD l = true := by
  rw [lanes_eq_zero]
  simp only [getLsbD_andNot]
  exact forall_congr' fun l => by cases m.getLsbD l <;> cases n.getLsbD l <;> simp

/-- No lane is in both sets. -/
theorem and_eq_zero {m n : LaneSet} : m &&& n = 0 ↔ ∀ l, m.getLsbD l = true → n.getLsbD l = false := by
  rw [lanes_eq_zero]
  simp only [BitVec.getLsbD_and]
  exact forall_congr' fun l => by cases m.getLsbD l <;> cases n.getLsbD l <;> simp

/-- A set without the lanes of a disjoint one is the set. -/
theorem andNot_of_disjoint {m n : LaneSet} (h : m &&& n = 0) : m &&& ~~~n = m := by
  refine lanes_ext fun l _ => ?_
  rw [getLsbD_andNot]
  cases hm : m.getLsbD l
  · rfl
  · simp [and_eq_zero.1 h l hm]

theorem laneBit_getLsbD_iff {l k : Nat} (hl : l < 32) : (laneBit l).getLsbD k = true ↔ k = l := by
  rw [laneBit_getLsbD]
  simp
  omega

theorem Warp.liveLanes_getLsbD (w : Warp) (l : Nat) : w.liveLanes.getLsbD l = (decide (l < 32) && (w.lane l).live) := by
  rw [Warp.liveLanes, laneSet_getLsbD]
  by_cases h : l < 32 <;> simp [h]

/-! ### What waits -/

theorem foldl_lanes_getLsbD {α : Type} (p : α → Bool) (f : α → LaneSet) (rs : List α) (m : LaneSet) (l : Nat) :
    (rs.foldl (fun m r => if p r then m ||| f r else m) m).getLsbD l = true
      ↔ m.getLsbD l = true ∨ ∃ r ∈ rs, p r = true ∧ (f r).getLsbD l = true := by
  induction rs generalizing m with
  | nil => simp
  | cons r rs ih =>
    rw [List.foldl_cons, ih]
    by_cases h : p r = true
    · simp [h, or_assoc]
    · simp [h]

/-- A lane waits when a record that meets the test holds it. -/
theorem Warp.waiting_getLsbD {w : Warp} {p : Wait → Bool} {l : Nat} :
    (w.waiting p).getLsbD l = true ↔ ∃ r ∈ w.waits, p r.wait = true ∧ r.lanes.getLsbD l = true := by
  simpa [Warp.waiting] using foldl_lanes_getLsbD (fun r : WaitRec => p r.wait) (·.lanes) w.waits 0 l

theorem Warp.waiting_none {w : Warp} {p : Wait → Bool} (h : ∀ r ∈ w.waits, p r.wait = false) : w.waiting p = 0 := by
  refine lanes_eq_zero.2 fun l => Bool.not_eq_true _ ▸ fun hl => ?_
  obtain ⟨r, hr, hp, -⟩ := Warp.waiting_getLsbD.1 hl
  exact absurd hp (by simp [h r hr])

/-- Lanes that begin to wait join those that wait. -/
theorem Warp.waiting_append (w : Warp) (p : Wait → Bool) (r : WaitRec) (h : p r.wait = true) :
    ({ w with waits := w.waits ++ [r] } : Warp).waiting p = w.waiting p ||| r.lanes := by
  simp [Warp.waiting, h]

/-- Waits that no lane is in twice, none of them empty. -/
def Apart (ws : List WaitRec) : Prop := (∀ r ∈ ws, r.lanes ≠ 0) ∧ ws.Pairwise fun r q => r.lanes &&& q.lanes = 0

/-- A further wait, of lanes that are in none. -/
theorem Apart.append {ws : List WaitRec} {r : WaitRec} (h : Apart ws) (h0 : r.lanes ≠ 0) (hr : ∀ q ∈ ws, q.lanes &&& r.lanes = 0) :
    Apart (ws ++ [r]) := by
  refine ⟨fun q hq => ?_, List.pairwise_append.2 ⟨h.2, List.pairwise_singleton .., fun q hq a ha => ?_⟩⟩
  · rcases List.mem_append.1 hq with hq | hq
    · exact h.1 q hq
    · rwa [List.mem_singleton.1 hq]
  · rw [List.mem_singleton.1 ha]
    exact hr q hq

theorem Apart.filter {ws : List WaitRec} (h : Apart ws) (p : WaitRec → Bool) : Apart (ws.filter p) :=
  ⟨fun r hr => h.1 r (List.mem_filter.1 hr).1, h.2.filter p⟩

/-- Of two waits one comes first, or they are one. -/
theorem Apart.eq_of_shared {ws : List WaitRec} (h : Apart ws) {r q : WaitRec} (hr : r ∈ ws) (hq : q ∈ ws) {l : Nat}
    (h1 : r.lanes.getLsbD l = true) (h2 : q.lanes.getLsbD l = true) : r = q := by
  by_contra hne
  have hs : Std.Symm fun r q : WaitRec => r.lanes &&& q.lanes = 0 := ⟨fun a b e => by rwa [BitVec.and_comm]⟩
  have hd := h.2.forall hr hq hne
  exact absurd h2 (by simp [and_eq_zero.1 hd l h1])

/-! ### Taking lanes out of waits -/

theorem Warp.unwait_waits (w : Warp) (m : LaneSet) : (w.unwait m).waits
    = (w.waits.map fun r => { r with lanes := r.lanes &&& ~~~m }).filter fun r => r.lanes != 0 := rfl

/-- No lane that was taken out of the waits waits. -/
theorem Warp.unwait_out {w : Warp} {m : LaneSet} {r : WaitRec} (h : r ∈ (w.unwait m).waits) : r.lanes &&& m = 0 := by
  rw [Warp.unwait_waits] at h
  obtain ⟨q, -, rfl⟩ := List.mem_map.1 (List.mem_filter.1 h).1
  exact and_eq_zero.2 fun l hl => by
    rw [getLsbD_andNot] at hl
    simpa using (Bool.and_eq_true_iff.1 hl).2

/-- One record of waits that are apart taken out leaves the others. -/
theorem unwait_one {ws : List WaitRec} {r : WaitRec} (h : Apart ws) (hr : r ∈ ws) :
    (ws.map fun q => { q with lanes := q.lanes &&& ~~~r.lanes }).filter (fun q => q.lanes != 0) = ws.filter (· != r) := by
  have key : ∀ qs : List WaitRec, (∀ q ∈ qs, q ∈ ws) →
      (qs.map fun q => { q with lanes := q.lanes &&& ~~~r.lanes }).filter (fun q => q.lanes != 0) = qs.filter (· != r) := by
    intro qs hs
    induction qs with
    | nil => rfl
    | cons q qs ih =>
      rw [List.map_cons, List.filter_cons, List.filter_cons, ih fun a ha => hs a (List.mem_cons_of_mem _ ha)]
      have hq := hs q (List.mem_cons_self ..)
      by_cases e : q = r
      · subst e; simp
      · have hd : q.lanes &&& r.lanes = 0 := and_eq_zero.2 fun l hl => by
          by_contra hn
          exact e (h.eq_of_shared hq hr hl (by simpa using hn))
        rw [andNot_of_disjoint hd]
        simpa [e] using h.1 q hq
  exact key ws fun q hq => hq

/-- The waits left when each of some records, in turn, is taken out. -/
theorem foldl_unwait {ws rs : List WaitRec} (h : Apart ws) (hn : rs.Nodup) (hs : ∀ r ∈ rs, r ∈ ws) :
    rs.foldl (fun ws r => (ws.map fun q => { q with lanes := q.lanes &&& ~~~r.lanes }).filter fun q => q.lanes != 0) ws
      = ws.filter fun q => !rs.contains q := by
  induction rs generalizing ws with
  | nil => simp
  | cons r rs ih =>
    obtain ⟨hr, hn⟩ := List.nodup_cons.1 hn
    rw [List.foldl_cons, unwait_one h (hs r (List.mem_cons_self ..)), ih (h.filter _) hn, List.filter_filter]
    · refine List.filter_congr fun q _ => ?_
      by_cases e : q = r <;> simp [e]
    · intro q hq
      refine List.mem_filter.2 ⟨hs q (List.mem_cons_of_mem _ hq), ?_⟩
      simpa using fun e : q = r => hr (e ▸ hq)

theorem Apart.nodup {ws : List WaitRec} (h : Apart ws) : ws.Nodup :=
  h.2.imp_of_mem fun hr _ hd e => h.1 _ hr (by rwa [← e, BitVec.and_self] at hd)

/-! ### Releasing every wait that meets a test -/

/-- The lane past the wait, eligible in the next cycle (R49). -/
def WaitRec.past (r : WaitRec) (cycle : Nat) (x : Lane) : Lane := { x with pc := r.pc + BitVec.ofNat 64 r.len, readyAt := cycle + 1 }

theorem Warp.lane_release_past (w : Warp) (cycle : Nat) (r : WaitRec) (m : LaneSet) (l : Nat) :
    (w.release cycle r m).lane l = if m.getLsbD l then r.past cycle (w.lane l) else w.lane l := Warp.lane_release w cycle r m l

section
variable {cycle : Nat} {g : Warp → WaitRec → Warp}

/-- A step of a release does to lanes and waits what `Warp.release` does. -/
def Releases (cycle : Nat) (g : Warp → WaitRec → Warp) : Prop :=
  ∀ w r, (∀ l, (g w r).lane l = (w.release cycle r r.lanes).lane l) ∧ (g w r).waits = (w.unwait r.lanes).waits

/-- A lane in none of the released records stays. -/
theorem Releases.lane_other (hg : Releases cycle g) {rs : List WaitRec} {l : Nat} (h : ∀ r ∈ rs, r.lanes.getLsbD l = false)
    (w : Warp) : (rs.foldl g w).lane l = w.lane l := by
  induction rs generalizing w with
  | nil => rfl
  | cons r rs ih =>
    rw [List.foldl_cons, ih (fun q hq => h q (List.mem_cons_of_mem _ hq)), (hg w r).1, Warp.lane_release,
      h r (List.mem_cons_self ..)]
    rfl

/-- A lane of a released record goes past its own wait. -/
theorem Releases.lane_mem (hg : Releases cycle g) {rs : List WaitRec} (h : Apart rs) {r : WaitRec} (hr : r ∈ rs) {l : Nat}
    (hl : r.lanes.getLsbD l = true) (w : Warp) : (rs.foldl g w).lane l = r.past cycle (w.lane l) := by
  induction rs generalizing w with
  | nil => cases hr
  | cons q rs ih =>
    have hp := List.pairwise_cons.1 h.2
    rw [List.foldl_cons]
    rcases List.mem_cons.1 hr with rfl | hr
    · rw [hg.lane_other (fun a ha => and_eq_zero.1 (hp.1 a ha) l hl), (hg w r).1, Warp.lane_release_past, if_pos hl]
    · have hq : q.lanes.getLsbD l = false := by
        have := and_eq_zero.1 (hp.1 r hr) l
        cases e : q.lanes.getLsbD l
        · rfl
        · rw [this e] at hl; cases hl
      rw [ih ⟨fun a ha => h.1 a (List.mem_cons_of_mem _ ha), hp.2⟩ hr, (hg w q).1, Warp.lane_release, hq]
      rfl

/-- The waits that meet the test are gone, the others stay. -/
theorem Releases.waits_filter (hg : Releases cycle g) (w : Warp) (h : Apart w.waits) (p : WaitRec → Bool) :
    ((w.waits.filter p).foldl g w).waits = w.waits.filter fun r => !p r := by
  have fold : ∀ (rs : List WaitRec) (w : Warp), (rs.foldl g w).waits
      = rs.foldl (fun ws r => (ws.map fun q => { q with lanes := q.lanes &&& ~~~r.lanes }).filter fun q => q.lanes != 0) w.waits := by
    intro rs
    induction rs with
    | nil => intro w; rfl
    | cons r rs ih => intro w; rw [List.foldl_cons, List.foldl_cons, ih, (hg w r).2, Warp.unwait_waits]
  rw [fold, foldl_unwait h (h.nodup.filter p) fun r hr => (List.mem_filter.1 hr).1]
  refine List.filter_congr fun r hr => ?_
  simp only [List.contains_eq_mem, List.mem_filter, hr, true_and, Bool.decide_eq_true]

end

/-- Releasing itself. -/
theorem Releases.release (cycle : Nat) : Releases cycle fun w r => w.release cycle r r.lanes := fun _ _ => ⟨fun _ => rfl, rfl⟩

end Sys2Proof.Machine

namespace Sys2Proof

open Sys2Proof.Machine

/-- A state that differs in the issuing warp alone. -/
theorem WarpOnly.setCur (s : State) (x : Warp) : WarpOnly s (s.setWarp s.cur.warp x) := WarpOnly.upCur s fun _ => x

/-- The issuing warp changed, then its executing lanes moved on. -/
theorem curWarp_upCur_advance (s : State) (f : Warp → Warp) (n : Nat) :
    ((s.upCur f).advance n).curWarp = (f s.curWarp).advance s.cur.lanes n := by
  simp [State.advance]

/-- A change that keeps the lanes, then the executing lanes moved on. -/
theorem Advanced.upCur (s : State) (f : Warp → Warp) (n : Nat) (h : (f s.curWarp).lanes = s.curWarp.lanes) :
    Advanced s ((s.upCur f).advance n) n := by
  intro l
  rw [curWarp_upCur_advance, Warp.advance, Warp.lane_mapLanes, Warp.lane, h]
  rfl

/-- An instruction whose own description ends in a state. -/
theorem runOp_ok {i : Instr} {s t : State} (h : clear i s = true) {body : State → Except Trap State} (hb : body s = .ok t) :
    runOp i s body = .next t := by
  rw [runOp_clear h, hb]

/-- An instruction whose own description ends in a trap. -/
theorem runOp_error {i : Instr} {s : State} (h : clear i s = true) {body : State → Except Trap State} {f : Trap}
    (hb : body s = .error f) : runOp i s body = .next (s.issueTrap f) := by
  rw [runOp_clear h, hb]

end Sys2Proof

/-! ## O56: what a step of a running machine performs

A step with nothing on the agenda and nothing that ends at once is the next group of the cycle (`step_of_issues`); what that group
does is its preparation followed by `exec` (`issueStep_prepared`, `groupStep_eligible`). A single instruction whose words are all fetched is the group
that its words make (`fetchGroup_single`). -/

namespace Sys2Proof

open Sys2Proof.Machine

/-! ### The step, down to the group it performs -/

section
variable {s u : State} {x : Issue}

/-- The cycle's next group comes before the cancels that the host asks for, or before their turn (R406). -/
theorem issuesStep_group {b : State} {r : Nat} {rest : List (Nat × Issue)} (hi : b.issues = (r, x) :: rest)
    (hc : b.cancels = [] ∨ r < 2) : issuesStep b = groupStep { b with issues := rest } x := by
  unfold issuesStep
  rw [hi]
  cases e : b.cancels with
  | nil => rfl
  | cons y ys => rw [e] at hc; exact if_pos (by simpa using hc)

/-- With nothing on the agenda and nothing that ends at once, a step is the next group of the cycle, whose turns are taken first. -/
theorem step_of_issues {r : Nat} {rest : List (Nat × Issue)} (hp : s.power ≠ 0) (ha : s.agenda = []) (he : s.promptEvent = none)
    (hw : s.slotWaits = false) (hi : (if s.turns = [] then s else s.takeTurns).issues = (r, x) :: rest)
    (hc : (if s.turns = [] then s else s.takeTurns).cancels = [] ∨ r < 2) :
    step s = groupStep { (if s.turns = [] then s else s.takeTurns) with issues := rest } x := by
  unfold step
  rw [if_neg hp, ha]
  simp only [ownStep, he, hw, List.isEmpty_iff, Bool.false_eq_true, if_false]
  exact issuesStep_group hi hc

theorem groupStep_gone (h : u.stillEligible x = false) : groupStep u x = .next (u.takeRaised x.warp) := by
  simp [groupStep, h]

/-- What `prepare` leaves is what `exec` is given, and a next state is counted for the scalar unit. -/
theorem issueStep_prepared {v : State} {i : Instr} (hp : u.prepare x = (v, some i)) :
    issueStep u x = v.noteScalar i (exec i v) := by
  simp only [issueStep, hp]

/-- A group of a warp that issues on both ports notes its traps, and its step ends with the taking of them. -/
theorem groupStep_eligible (h : u.stillEligible x = true) :
    (∀ t, issueStep u { x with pairs := x.pairs || u.paired x.warp } = .next t →
        groupStep u x = .next (if u.paired x.warp then u.afterPair t x.warp else t))
      ∧ (∀ f, issueStep u { x with pairs := x.pairs || u.paired x.warp } = .fault f → groupStep u x = .fault f)
      ∧ ∀ r, issueStep u { x with pairs := x.pairs || u.paired x.warp } = .refused r → groupStep u x = .refused r := by
  unfold groupStep
  rw [if_pos h]
  cases hb : u.paired x.warp <;> simp +contextual

/-- The group at the place of `x` fetched as `i`: what its step is, given what `exec i` answers. -/
theorem groupStep_exec {v : State} {i : Instr} (h : u.stillEligible x = true)
    (hp : u.prepare { x with pairs := x.pairs || u.paired x.warp } = (v, some i)) :
    (∀ t, exec i v = .next t →
        groupStep u x = .next (if u.paired x.warp then u.afterPair (t.countScalar v i) x.warp else t.countScalar v i))
      ∧ (∀ f, exec i v = .fault f → groupStep u x = .fault f) ∧ ∀ r, exec i v = .refused r → groupStep u x = .refused r := by
  obtain ⟨hn, hf, hr⟩ := groupStep_eligible h
  have hs := issueStep_prepared hp
  refine ⟨fun t e => hn _ ?_, fun f e => hf _ ?_, fun r e => hr _ ?_⟩ <;> rw [hs, e] <;> rfl

end

/-! ### Fetching one instruction -/

section
variable {s : State} {w : Nat} {pc : DWord} {ws : List Nat}

/-- Words that are all fetched are what is read from some offset on. -/
theorem fetchMore_words (h : ∀ k x, ws[k]? = some x → s.fetchWord w (pc + BitVec.ofNat 64 k) = .word x) (n k : Nat)
    (hk : n + k ≤ ws.length) : s.fetchMore w pc n k = .ok ((ws.drop n).take k) := by
  induction k generalizing n with
  | zero => simp [State.fetchMore]
  | succ k ih =>
    have hn : n < ws.length := by omega
    rw [State.fetchMore, h n ws[n] (by simp [hn])]
    simp only [ih (n + 1) (by omega)]
    rw [List.drop_eq_getElem_cons hn, List.take_succ_cons]

/-- Words that fill no more than the packet are padded with zero words alone. -/
theorem padWords_eq {room : Nat} (h : ws.length ≤ room) : padWords ws room = ws ++ List.replicate (room - ws.length) 0 := by
  rw [padWords, List.take_of_length_le]
  simp; omega

theorem parse_of_decode {x : Nat} {rest : List Nat} {i : Instr} (h : decode (x :: rest) = .ok i) : parse x rest = some i := by
  simp only [decode] at h
  repeat' split at h
  all_goals simp_all

/-- Known words of an instruction, its extension word among them, tell its length. -/
theorem rawLen_of_decode {known : List Nat} {room : Nat} {j : Instr} (hn : known ≠ []) (hr : known.length ≤ room)
    (hd : decode (known ++ List.replicate (room - known.length) 0) = .ok j) : rawLen known room = j.len := by
  obtain ⟨x, rest, rfl⟩ := List.exists_cons_of_ne_nil hn
  simp only [rawLen, padWords_eq hr, List.cons_append, List.drop_succ_cons, List.drop_zero, List.headD_cons]
  rw [List.cons_append] at hd
  rw [parse_of_decode hd]

/-- How many words of an instruction tell its length: its first, and its extension word where it has one (R182). -/
def knownWords (two : Bool) : Nat := if two then 2 else 1

/-- The words of an instruction are fetched whole: its first word, its extension word where it has one, then the rest. -/
theorem fetchMember_words {room : Nat} {two : Bool}
    (h : ∀ k x, ws[k]? = some x → s.fetchWord w (pc + BitVec.ofNat 64 k) = .word x)
    (htwo : (isFXMajor (wMajor (ws.headD 0)) && decide (2 ≤ room)) = two) (h1 : knownWords two ≤ ws.length) (hr : ws.length ≤ room)
    (hl : rawLen (ws.take (knownWords two)) room = ws.length) : s.fetchMember w pc 0 room = .ok ws := by
  have first : s.fetchMore w pc 0 1 = .ok (ws.take 1) :=
    fetchMore_words h 0 1 (by unfold knownWords at h1; split at h1 <;> omega)
  have head : (ws.take 1).headD 0 = ws.headD 0 := by cases ws <;> rfl
  have more : (if two then s.fetchMore w pc (0 + 1) 1 else .ok []) = .ok ((ws.drop 1).take (knownWords two - 1)) := by
    cases two
    · rfl
    · exact fetchMore_words h 1 1 h1
  have known : ws.take 1 ++ (ws.drop 1).take (knownWords two - 1) = ws.take (knownWords two) := by
    cases two
    · simp [knownWords]
    · rw [← List.take_add]; rfl
  have rest : s.fetchMore w pc (knownWords two) (ws.length - knownWords two) = .ok (ws.drop (knownWords two)) := by
    rw [fetchMore_words h _ _ (by omega), List.take_of_length_le (by simp)]
  simp only [State.fetchMember, first, head, htwo, more, known, hl, List.length_take, Nat.min_eq_left h1, Nat.min_eq_right hr,
    Nat.zero_add, rest, List.take_append_drop]

/-- An instruction without a chain bit is a group of its own. -/
theorem groupOf_single {room : Nat} {i : Instr} (hr : ws.length ≤ room)
    (hd : decode (ws ++ List.replicate (room - ws.length) 0) = .ok i) (hc : i.chain = false) : groupOf ws room = .run i [] := by
  have tail : ∀ m, chainTail ws i 1 m = .ok [] := by
    intro m
    cases m <;> simp [chainTail, hc]
  simp only [groupOf, padWords_eq hr, hd, tail]

/-- The group at a word where a single instruction's words are fetched. -/
theorem fetchGroup_single {room : Nat} {two : Bool} {i : Instr} (hroom : 3 - slotOfPc pc = room)
    (h : ∀ k x, ws[k]? = some x → s.fetchWord w (pc + BitVec.ofNat 64 k) = .word x)
    (htwo : (isFXMajor (wMajor (ws.headD 0)) && decide (2 ≤ room)) = two) (h1 : knownWords two ≤ ws.length) (hr : ws.length ≤ room)
    (hl : rawLen (ws.take (knownWords two)) room = ws.length) (hd : decode (ws ++ List.replicate (room - ws.length) 0) = .ok i)
    (hc : i.chain = false) (hf : wChain (ws.headD 0) = false ∨ isFlumeMajor (wMajor (ws.headD 0)) = false) :
    s.fetchGroup w pc = .run i [] := by
  obtain ⟨r, rfl⟩ : ∃ r, room = r + 1 := ⟨room - 1, by unfold knownWords at h1; split at h1 <;> omega⟩
  have hw : s.fetchWords w pc 0 (r + 1) = .ok ws := by
    rw [State.fetchWords, fetchMember_words h htwo h1 hr hl]
    refine if_neg ?_
    rcases hf with hf | hf <;> rw [hf] <;> simp
  rw [State.fetchGroup, hroom, hw]
  exact groupOf_single hr hd hc

end

/-- Settles O56: the step is `groupStep` of the cycle's next group, whose `prepare` is the state that the statement names; a group of
one instruction is fetched from its known words on. -/
theorem stepRunsDecoded : Obligations.StepRunsDecoded := by
  unfold Obligations.StepRunsDecoded
  refine ⟨?_, ?_⟩
  · intro s u r x rest hp ha he hw hu
    obtain ⟨hi, hc, rfl⟩ := hu
    have hs := step_of_issues hp ha he hw hi hc
    refine ⟨fun h => hs.trans (groupStep_gone h), fun h => ⟨fun i tail hg => ?_, fun n hg => ?_⟩⟩
    all_goals
      rw [hs]
      refine groupStep_exec h ?_
      simp only [State.prepare, hg]
  · intro s w pc ws known i j room zeros hlen hroom hfetch two hknown htwo hj hjlen hi hc hf
    have hpos : 1 ≤ i.len := by unfold Instr.len; omega
    have h1 : knownWords two ≤ ws.length := by
      unfold knownWords
      split
      · exact htwo ‹_›
      · omega
    have hklen : known.length = knownWords two := by rw [hknown]; exact (List.length_take ..).trans (Nat.min_eq_left h1)
    have hkpos : 1 ≤ knownWords two := by unfold knownWords; split <;> decide
    refine fetchGroup_single (room := room) rfl hfetch rfl h1 (by omega) ?_ hi hc hf
    have hl := rawLen_of_decode (by rintro rfl; simp at hklen; omega) (by omega) hj
    rw [hjlen, ← hlen, hknown] at hl
    exact hl

end Sys2Proof

/-! ## O54: the register quota of a group with a reform behind a chain

R18 counts the registers that an instruction names. The statement counts those of its positions, and a reform also carries
registers that no position names (R38, R239); the group's check looks at these too. The statement holds of every `tail`, that of a
reform among them, so there the first member that the check finds is another one. -/

namespace Sys2Proof

open Sys2Proof.Machine

/-- The first word of a group that names a register at or above the quota faults, before any other check (R18, R199). -/
theorem groupOp_overQuota {is : List Instr} {s : State} {g : Nat × Nat × List (Pos × Operand)}
    (h : (groupWords is 0 0).find? (fun g => g.2.2.any (overQuota s.curWarp.quota)) = some g) (body : State → Except Trap State) :
    groupOp is s body = .next (s.issueTrap (s.wordTrap g.1 g.2.1 causeIllegalOperand)) := by
  simp only [groupOp, h]

/-- The first word of a flume group that names such a register faults. -/
theorem flumeOp_overQuota {i : Instr} {s : State} {g : Nat × Nat × List (Pos × Operand)}
    (h : (groupWords (i :: s.cur.tail) 0 0).find? (fun g => g.2.2.any (overQuota s.curWarp.quota)) = some g) :
    flumeOp i s = .next (s.issueTrap (s.wordTrap g.1 g.2.1 causeIllegalOperand)) := by
  rw [flumeOp]
  exact groupOp_overQuota h _

/-- Where the warp issues on its other port too, a trap of the issue is noted as it is (R23, R200). -/
theorem issueTrap_paired {s : State} (h : s.cur.pairs = true) (f : Trap) (sup : Option Supply) :
    s.issueTrap f sup = { s with raised := s.raised
      ++ [(s.cur.warp, { f with group := s.cur.lanes, ret := some (f.ret.getD s.cur.pc), port := s.cur.port }, sup)] } := by
  simp [State.issueTrap, State.takeTrap, h]

/-- Noted traps that leave the same state name the same member. -/
theorem issueTrap_paired_member {s : State} (h : s.cur.pairs = true) {f g : Trap} (e : s.issueTrap f = s.issueTrap g) :
    f.member = g.member := by
  rw [issueTrap_paired h, issueTrap_paired h] at e
  have := congrArg State.raised e
  simp only [List.append_cancel_left_eq, List.cons.injEq, Prod.mk.injEq, Trap.mk.injEq] at this
  tauto

/-- A warp without a vector register whose fadd has a reform of one register and an add into v0 behind it. -/
def reformBehindChain : State :=
  { State.reset with cur := { State.reset.cur with tail := [.reform .z 1, .add (.v 0) .z .z], pairs := true } }

/-- Refutes O54, in its clause on chains: of the group fadd, reform, add under a quota of 0, the positions of fadd and reform name no vector
register and those of add name v0, so the statement's trap is that of member 2; the reform carries v0, and the trap is that of member 1.
(`fetchGroup` makes no such tail, but the statement quantifies over every one.) -/
theorem not_quotaFault : ¬ Obligations.QuotaFault := by
  unfold Obligations.QuotaFault
  rintro ⟨-, chain, -⟩
  have named : ∀ k ∈ [Instr.faddF32 false .z .z .z, .reform .z 1], ∀ p ∈ k.positions, p.2 = .z := by decide
  have claimed := chain reformBehindChain (.faddF32 false .z .z .z) (.add (.v 0) .z .z) [.faddF32 false .z .z .z, .reform .z 1] [] rfl rfl
    (fun k hk ⟨p, n, r, hp, _⟩ => Operand.noConfusion (named k hk _ hp)) ⟨.dst, 0, 0, by decide⟩
  have first : (groupWords (.faddF32 false .z .z .z :: reformBehindChain.cur.tail) 0 0).find?
      (fun g => g.2.2.any (overQuota reformBehindChain.curWarp.quota)) = some (1, 1, Instr.registers (.reform .z 1)) := by decide
  have taken : exec (.faddF32 false .z .z .z) reformBehindChain = .next (reformBehindChain.issueTrap
      (reformBehindChain.wordTrap 1 1 causeIllegalOperand)) := flumeOp_overQuota first
  exact absurd (issueTrap_paired_member rfl (Host.Outcome.next.inj (taken.symm.trans claimed))) (by decide)

end Sys2Proof

/-! ## O9: masks

`settleMask` does nothing while a member is missing (`settleMask_open`); else every wait on the mask is released as
`completeWait` does, each lane past its own wait (`settleMask_completes`). -/

namespace Sys2Proof.Machine

open Sys2Proof

/-! ### mwaitt's result -/

theorem Warp.writeLanes_rest (w : Warp) (lanes : LaneSet) (nw : Nat) (d : Operand) (f : Nat → Nat) :
    ∃ v r b, w.writeLanes lanes nw d f = { w with vregs := v, sregs := r, badRegs := b } := (writeLanes_spec w lanes nw d f).2.2.2

/-- mwaitt's result is a lane-wise result, or a scalar one that other lanes give. -/
theorem Warp.writeMwaitt_or (w : Warp) (d : Operand) (all : List Nat) (m : LaneSet) (x : Nat) :
    w.writeMwaitt d all m x = w.writeLanes m 1 d (fun _ => x) ∨ (∃ n, d = .s n) ∧ w.writeMwaitt d all m x = w := by
  cases d with
  | s n =>
    simp only [Warp.writeMwaitt]
    split
    · exact .inl rfl
    · exact .inr ⟨⟨n, rfl⟩, rfl⟩
  | _ => exact .inl rfl

/-- mwaitt's result changes registers alone. -/
theorem Warp.writeMwaitt_rest (w : Warp) (d : Operand) (all : List Nat) (m : LaneSet) (x : Nat) :
    ∃ v r b, w.writeMwaitt d all m x = { w with vregs := v, sregs := r, badRegs := b } := by
  rcases w.writeMwaitt_or d all m x with e | ⟨-, e⟩
  · rw [e]; exact w.writeLanes_rest ..
  · exact ⟨_, _, _, e⟩

/-- A one-word result of one value in a vector register. -/
theorem Warp.writeLanes_v (w : Warp) (m : LaneSet) (d : Operand) (x n : Nat) {l : Nat} (hl : l < 32) :
    (w.writeLanes m 1 d fun _ => x).v n l = if d = .v n ∧ m.getLsbD l = true then BitVec.ofNat 32 x else w.v n l := by
  rw [(writeLanes_spec w m 1 d fun _ => x).1 n l hl]
  cases d with
  | v k =>
    by_cases h : k = n
    · subst h; simp [vecWritten, firstReg]
    · simp only [vecWritten, Operand.v.injEq, h, false_and, if_false]
      exact if_neg (by simp; omega)
  | _ => simp [vecWritten]

/-- The lanes that leave an mwaitt take its result in a vector destination. -/
theorem Warp.writeMwaitt_v (w : Warp) (d : Operand) (all : List Nat) (m : LaneSet) (x n : Nat) {l : Nat} (hl : l < 32) :
    (w.writeMwaitt d all m x).v n l = if d = .v n ∧ m.getLsbD l = true then BitVec.ofNat 32 x else w.v n l := by
  rcases w.writeMwaitt_or d all m x with e | ⟨⟨k, rfl⟩, e⟩
  · rw [e]; exact w.writeLanes_v m d x n hl
  · rw [e]; simp

/-! ### Completing one wait -/

/-- A completed wait is released, with a result written or none. -/
theorem Warp.completeWait_rest (w : Warp) (cycle : Nat) (r : WaitRec) :
    ∃ v q b, w.completeWait cycle r = ({ w with vregs := v, sregs := q, badRegs := b } : Warp).release cycle r r.lanes := by
  unfold Warp.completeWait
  split
  · obtain ⟨v, q, b, e⟩ := w.writeMwaitt_rest ‹Operand› (FMap.keys ‹_›) r.lanes 1
    exact ⟨v, q, b, by rw [e]⟩
  · exact ⟨_, _, _, rfl⟩

theorem Releases.completeWait (cycle : Nat) : Releases cycle fun w r => w.completeWait cycle r := by
  intro w r
  obtain ⟨v, q, b, e⟩ := w.completeWait_rest cycle r
  simp only [e]
  exact ⟨fun l => by rw [Warp.lane_release, Warp.lane_release]; rfl, rfl⟩

theorem Warp.completeWait_masks (w : Warp) (cycle : Nat) (r : WaitRec) : (w.completeWait cycle r).masks = w.masks := by
  obtain ⟨v, q, b, e⟩ := w.completeWait_rest cycle r
  rw [e]; rfl

theorem Warp.v_release (w : Warp) (cycle : Nat) (r : WaitRec) (m : LaneSet) (n l : Nat) : (w.release cycle r m).v n l = w.v n l := rfl

/-- A completed wait leaves a vector register's lane as it is, or writes 1 to it. -/
theorem Warp.completeWait_v (w : Warp) (cycle : Nat) (r : WaitRec) (n : Nat) {l : Nat} (hl : l < 32) :
    (w.completeWait cycle r).v n l = w.v n l ∨ (w.completeWait cycle r).v n l = 1 := by
  unfold Warp.completeWait
  split
  · rw [Warp.v_release, Warp.writeMwaitt_v _ _ _ _ _ _ hl]
    split
    · exact .inr rfl
    · exact .inl rfl
  · exact .inl rfl

/-- mwaitt gives 1 to the lanes that a completion releases. -/
theorem Warp.completeWait_result (w : Warp) (cycle : Nat) {r : WaitRec} {k n : Nat} {due : FMap Nat} (hr : r.wait = .maskT k (.v n) due)
    {l : Nat} (hl : r.lanes.getLsbD l = true) : (w.completeWait cycle r).v n l = 1 := by
  unfold Warp.completeWait
  rw [hr]
  exact (Warp.writeMwaitt_v w _ _ _ _ _ (BitVec.lt_of_getLsbD hl)).trans (if_pos ⟨rfl, hl⟩)

/-- Of several completed waits, an mwaitt keeps the result it gave. -/
theorem foldl_completeWait_result {cycle : Nat} {rs : List WaitRec} {r : WaitRec} (hr : r ∈ rs) {k n : Nat} {due : FMap Nat}
    (hw : r.wait = .maskT k (.v n) due) {l : Nat} (hl : r.lanes.getLsbD l = true) (w : Warp) :
    (rs.foldl (fun w r => w.completeWait cycle r) w).v n l = 1 := by
  have kept : ∀ (rs : List WaitRec) (w : Warp), w.v n l = 1 → (rs.foldl (fun w r => w.completeWait cycle r) w).v n l = 1 := by
    intro rs
    induction rs with
    | nil => exact fun _ h => h
    | cons q rs ih =>
      intro w h
      exact ih _ ((w.completeWait_v cycle q n (BitVec.lt_of_getLsbD hl)).elim (fun e => e.trans h) id)
  induction rs generalizing w with
  | nil => cases hr
  | cons q rs ih =>
    rcases List.mem_cons.1 hr with rfl | hr
    · exact kept rs _ (w.completeWait_result cycle hw hl)
    · exact ih hr _

theorem foldl_completeWait_masks (cycle : Nat) (rs : List WaitRec) (w : Warp) :
    (rs.foldl (fun w r => w.completeWait cycle r) w).masks = w.masks := by
  induction rs generalizing w with
  | nil => rfl
  | cons r rs ih => exact (ih _).trans (w.completeWait_masks cycle r)

/-! ### A round of a mask: the arrivals up to one completion (R28) -/

/-- A mask without a round, or with a member that has not arrived, is left as it is. -/
theorem Warp.settleMask_open (w : Warp) (cycle k : Nat)
    (h : w.waiting (Wait.onMask k) = 0 ∨ w.masks.get k &&& ~~~w.waiting (Wait.onMask k) ≠ 0) : w.settleMask cycle k = w :=
  if_neg fun ⟨h1, h2⟩ => h.elim h1 fun h => h h2

/-- The waits on the mask, all completed. -/
theorem Warp.settleMask_closed (w : Warp) (cycle k : Nat) (h0 : w.waiting (Wait.onMask k) ≠ 0)
    (h : w.masks.get k &&& ~~~w.waiting (Wait.onMask k) = 0) :
    w.settleMask cycle k = (w.waits.filter fun r => Wait.onMask k r.wait).foldl (fun w r => w.completeWait cycle r) w := if_pos ⟨h0, h⟩

/-- What the completion of mask `k` does, from the warp `w` on which its last members have arrived, or which they have left. -/
structure MaskCompleted (cycle k : Nat) (w z : Warp) : Prop where
  past : ∀ r ∈ w.waits, Wait.onMask k r.wait = true → ∀ l, r.lanes.getLsbD l = true → z.lane l = r.past cycle (w.lane l)
  result : ∀ r ∈ w.waits, ∀ n due, r.wait = .maskT k (.v n) due → ∀ l, r.lanes.getLsbD l = true → z.v n l = 1
  waits : z.waits = w.waits.filter fun r => !Wait.onMask k r.wait
  other : ∀ l, (w.waiting (Wait.onMask k)).getLsbD l = false → z.lane l = w.lane l
  masks : z.masks = w.masks

theorem Warp.settleMask_completes {w : Warp} {cycle k : Nat} (ha : Apart w.waits) (h0 : w.waiting (Wait.onMask k) ≠ 0)
    (h : w.masks.get k &&& ~~~w.waiting (Wait.onMask k) = 0) : MaskCompleted cycle k w (w.settleMask cycle k) := by
  rw [w.settleMask_closed cycle k h0 h]
  have hg := Releases.completeWait cycle
  refine ⟨fun r hr hk l hl => ?_, fun r hr n due hw l hl => ?_, ?_, fun l hl => ?_, ?_⟩
  · exact hg.lane_mem (ha.filter _) (List.mem_filter.2 ⟨hr, hk⟩) hl w
  · exact foldl_completeWait_result (List.mem_filter.2 ⟨hr, by simp [hw, Wait.onMask]⟩) hw hl w
  · exact hg.waits_filter w ha fun r => Wait.onMask k r.wait
  · refine hg.lane_other (fun r hr => ?_) w
    obtain ⟨hr, hk⟩ := List.mem_filter.1 hr
    by_contra hn
    rw [Warp.waiting_getLsbD.2 ⟨r, hr, hk, by simpa using hn⟩] at hl
    cases hl
  · exact foldl_completeWait_masks cycle _ w

/-! ### Arriving -/

/-- The warp with one wait more. -/
def Warp.await (w : Warp) (r : WaitRec) : Warp := { w with waits := w.waits ++ [r] }

/-- Members of a mask that arrive wait, and the round completes if they are the last (R28, R30). -/
theorem arrive_members {i : Instr} {k : Nat} {x : Wait} {s : State} (hc : clear i s = true)
    (h : s.cur.lanes &&& ~~~s.curWarp.masks.get k = 0) :
    ∃ t, arrive i k x s = .next t ∧ WarpOnly s t
      ∧ t.curWarp = (s.curWarp.await ⟨s.cur.lanes, s.cur.pc, i.len, s.cur.port, x⟩).settleMask s.cycle k := by
  refine ⟨_, runOp_ok hc (if_neg (not_not.2 h)), (State.block_spec s _ _).1.trans (WarpOnly.upCur _ _), ?_⟩
  rw [State.curWarp_upCur, (State.block_spec s _ _).2]
  rfl

/-- A lane that is no member faults (R226). -/
theorem arrive_stranger {i : Instr} {k : Nat} {x : Wait} {s : State} (hc : clear i s = true)
    (h : s.cur.lanes &&& ~~~s.curWarp.masks.get k ≠ 0) : arrive i k x s = .next (s.issueTrap (s.mkTrap causeIllegalOperand)) :=
  runOp_error hc (if_pos h)

/-- Members that arrive while others are missing block (R28). -/
theorem arrive_blocks {i : Instr} {k : Nat} {x : Wait} {s : State} (hx : x.onMask k = true) (hc : clear i s = true)
    (h : s.cur.lanes &&& ~~~s.curWarp.masks.get k = 0)
    (ho : s.curWarp.masks.get k &&& ~~~(s.curWarp.waiting (Wait.onMask k) ||| s.cur.lanes) ≠ 0) :
    ∃ t, arrive i k x s = .next t ∧ WarpOnly s t
      ∧ t.curWarp = { s.curWarp with waits := s.curWarp.waits ++ [⟨s.cur.lanes, s.cur.pc, i.len, s.cur.port, x⟩] } := by
  obtain ⟨t, he, hw, ht⟩ := arrive_members (x := x) hc h
  refine ⟨t, he, hw, ht.trans (Warp.settleMask_open _ _ _ (.inr ?_))⟩
  rwa [Warp.await, Warp.waiting_append _ _ _ hx]

/-- The whole mask arrives at once: nobody waits (R28). -/
theorem arrive_whole {i : Instr} {k : Nat} {x : Wait} {s : State} (hx : x.onMask k = true) (hc : clear i s = true)
    (h : s.cur.lanes = s.curWarp.masks.get k) (h0 : s.cur.lanes ≠ 0) (hn : ∀ r ∈ s.curWarp.waits, Wait.onMask k r.wait = false) :
    ∃ t, arrive i k x s = .next t ∧ WarpOnly s t
      ∧ t.curWarp = (s.curWarp.await ⟨s.cur.lanes, s.cur.pc, i.len, s.cur.port, x⟩).completeWait s.cycle
          ⟨s.cur.lanes, s.cur.pc, i.len, s.cur.port, x⟩ := by
  obtain ⟨t, he, hw, ht⟩ := arrive_members (x := x) (k := k) hc (by rw [h]; simp)
  refine ⟨t, he, hw, ht.trans ?_⟩
  have ha : (s.curWarp.await ⟨s.cur.lanes, s.cur.pc, i.len, s.cur.port, x⟩).waiting (Wait.onMask k) = s.cur.lanes := by
    rw [Warp.await, Warp.waiting_append _ _ _ hx, Warp.waiting_none hn]; simp
  rw [Warp.settleMask_closed _ _ _ (by rwa [ha]) (by rw [ha, h]; simp [Warp.await])]
  have : s.curWarp.waits.filter (fun r => Wait.onMask k r.wait) = [] := List.filter_eq_nil_iff.2 fun r hr => by simp [hn r hr]
  simp [Warp.await, List.filter_append, this, hx]

/-- The last members arrive on a round on which others wait (R28, R29). -/
theorem arrive_completes {i : Instr} {k : Nat} {x : Wait} {s : State} (hx : x.onMask k = true) (hc : clear i s = true)
    (ha : Apart s.curWarp.waits) (hd : ∀ r ∈ s.curWarp.waits, r.lanes &&& s.cur.lanes = 0) (h0 : s.cur.lanes ≠ 0)
    (h : s.cur.lanes &&& ~~~s.curWarp.masks.get k = 0)
    (hl : s.curWarp.masks.get k &&& ~~~(s.curWarp.waiting (Wait.onMask k) ||| s.cur.lanes) = 0) :
    ∃ t, arrive i k x s = .next t ∧ WarpOnly s t
      ∧ MaskCompleted s.cycle k (s.curWarp.await ⟨s.cur.lanes, s.cur.pc, i.len, s.cur.port, x⟩) t.curWarp := by
  obtain ⟨t, he, hw, ht⟩ := arrive_members (x := x) hc h
  refine ⟨t, he, hw, ht ▸ Warp.settleMask_completes (ha.append h0 hd) ?_ ?_⟩
  · rw [Warp.await, Warp.waiting_append _ _ _ hx]
    obtain ⟨l, hl⟩ := lanes_ne_zero.1 h0
    exact lanes_ne_zero.2 ⟨l, by simp [hl]⟩
  · rwa [Warp.await, Warp.waiting_append _ _ _ hx]

/-- What MaskCompletion says of the waits before, of an instruction that completes the round with one wait more. -/
theorem MaskCompleted.await {s t : State} {k : Nat} {r : WaitRec} (h : MaskCompleted s.cycle k (s.curWarp.await r) t.curWarp)
    (hr : r.wait.onMask k = true) :
    (∀ q ∈ s.curWarp.waits.filter (fun r => Wait.onMask k r.wait), ∀ l, q.lanes.getLsbD l = true →
        t.curWarp.lane l = q.past s.cycle (s.curWarp.lane l))
      ∧ (∀ q ∈ s.curWarp.waits.filter (fun r => Wait.onMask k r.wait), ∀ e due n, q.wait = .maskT k e due → e = .v n →
          ∀ l, q.lanes.getLsbD l = true → t.curWarp.v n l = 1)
      ∧ t.curWarp.waits = s.curWarp.waits.filter (fun r => !Wait.onMask k r.wait)
      ∧ ∀ l, (s.curWarp.waiting (Wait.onMask k)).getLsbD l = false → r.lanes.getLsbD l = false → t.curWarp.lane l = s.curWarp.lane l := by
  have before : ∀ q ∈ s.curWarp.waits, q ∈ (s.curWarp.await r).waits := fun q hq => List.mem_append_left _ hq
  refine ⟨fun q hq l hl => ?_, fun q hq e due n hw he l hl => ?_, ?_, fun l h1 h2 => h.other l ?_⟩
  · obtain ⟨hq, hk⟩ := List.mem_filter.1 hq
    exact h.past q (before q hq) hk l hl
  · obtain ⟨hq, -⟩ := List.mem_filter.1 hq
    exact h.result q (before q hq) n due (he ▸ hw) l hl
  · rw [h.waits, Warp.await]
    simp [List.filter_append, hr]
  · rw [Warp.await, Warp.waiting_append _ _ _ hr, BitVec.getLsbD_or, h1, h2]
    rfl

/-- The lanes that arrived last go past their own wait too. -/
theorem MaskCompleted.await_past {s t : State} {k : Nat} {r : WaitRec} (h : MaskCompleted s.cycle k (s.curWarp.await r) t.curWarp)
    (hr : r.wait.onMask k = true) {l : Nat} (hl : r.lanes.getLsbD l = true) : t.curWarp.lane l = r.past s.cycle (s.curWarp.lane l) :=
  h.past r (by simp [Warp.await]) hr l hl

theorem MaskCompleted.await_result {s t : State} {k n : Nat} {due : FMap Nat} {r : WaitRec}
    (h : MaskCompleted s.cycle k (s.curWarp.await r) t.curWarp) (hr : r.wait = .maskT k (.v n) due) {l : Nat}
    (hl : r.lanes.getLsbD l = true) : t.curWarp.v n l = 1 := h.result r (by simp [Warp.await]) n due hr l hl

end Sys2Proof.Machine

namespace Sys2Proof

open Sys2Proof.Machine

/-- mjoin and an mleave that completes nothing: one mask of the issuing warp is set, and its lanes move on. -/
theorem setMask_advance (s : State) (k n : Nat) (m : LaneSet) :
    let t := (s.upCur fun w => { w with masks := w.masks.set k m }).advance n
    WarpOnly s t ∧ Advanced s t n ∧ t.curWarp.masks.get k = m ∧ (∀ j, j ≠ k → t.curWarp.masks.get j = s.curWarp.masks.get j)
      ∧ t.curWarp = { s.curWarp with masks := t.curWarp.masks, lanes := t.curWarp.lanes } := by
  refine ⟨(WarpOnly.upCur _ _).trans (WarpOnly.upCur _ _), Advanced.upCur s _ n rfl, ?_⟩
  rw [curWarp_upCur_advance]
  exact ⟨FMap.get_set_self .., fun j hj => FMap.get_set_ne _ _ hj, rfl⟩

/-- An mleave by which no round completes (R27, R29). -/
theorem mleave_open {s : State} {k : Nat} (hc : clear (.mleave k) s = true)
    (h : s.curWarp.waiting (Wait.onMask k) = 0
      ∨ s.curWarp.masks.get k &&& ~~~s.cur.lanes &&& ~~~s.curWarp.waiting (Wait.onMask k) ≠ 0) :
    execMleave k s = .next ((s.upCur fun w => { w with masks := w.masks.set k (w.masks.get k &&& ~~~s.cur.lanes) }).advance 1) := by
  refine (plainOp_clear hc _).trans ?_
  rw [State.upCur_eq, State.upCur_eq, Warp.settleMask_open _ _ _ (by simpa [Warp.waiting] using h)]
  rfl

theorem maskMembership : Part.MaskMembership := by
  unfold Part.MaskMembership
  intro s k plain arrived left
  refine ⟨fun hc => ⟨_, (exec_mjoin s).trans (plainOp_clear hc _), ?_⟩, fun hc ho => ⟨_, (exec_mleave s).trans (mleave_open hc ho), ?_⟩⟩
  all_goals exact setMask_advance s k 1 _

/-- The whole mask arrived at once: the lanes stand past the instruction, and none waits. -/
theorem whole_released {s t : State} {i : Instr} {x : Wait}
    (h : t.curWarp = (s.curWarp.await ⟨s.cur.lanes, s.cur.pc, i.len, s.cur.port, x⟩).completeWait s.cycle
      ⟨s.cur.lanes, s.cur.pc, i.len, s.cur.port, x⟩) :
    (∀ r ∈ t.curWarp.waits, r.lanes &&& s.cur.lanes = 0)
      ∧ ∀ l, t.curWarp.lane l = if s.cur.lanes.getLsbD l then
          { s.curWarp.lane l with pc := s.cur.pc + BitVec.ofNat 64 i.len, readyAt := s.cycle + 1 } else s.curWarp.lane l := by
  obtain ⟨hl, hw⟩ := Releases.completeWait s.cycle (s.curWarp.await ⟨s.cur.lanes, s.cur.pc, i.len, s.cur.port, x⟩)
    ⟨s.cur.lanes, s.cur.pc, i.len, s.cur.port, x⟩
  rw [h]
  refine ⟨fun r hr => Warp.unwait_out (hw ▸ hr), fun l => ?_⟩
  rw [hl, Warp.lane_release]
  rfl

theorem maskWait : Part.MaskWait := by
  unfold Part.MaskWait
  intro s k d a lanes members arrived due blocks released
  refine ⟨fun h => ⟨fun hc => arrive_stranger hc h, fun hc => arrive_stranger hc h⟩, fun h ho => ⟨fun hc => ?_, fun hc => ?_⟩,
    fun h h0 hn => ⟨fun hc => ?_, fun hc => ?_⟩⟩
  · exact arrive_blocks (by simp [Wait.onMask]) hc h ho
  · exact arrive_blocks (by simp [Wait.onMask]) hc h ho
  · obtain ⟨t, he, hw, ht⟩ := arrive_whole (x := .mask k) (by simp [Wait.onMask]) hc h h0 hn
    exact ⟨t, he, hw, whole_released ht⟩
  · obtain ⟨t, he, hw, ht⟩ := arrive_whole (x := .maskT k d due) (by simp [Wait.onMask]) hc h h0 hn
    refine ⟨t, he, ⟨hw, whole_released ht⟩, fun n hd l hl => ?_⟩
    subst hd
    rw [ht]
    exact Warp.completeWait_result _ _ rfl hl

/-- The last member that has not arrived leaves (R29): the round completes, and the leaving lanes move on. -/
theorem mleave_completes {s : State} {k : Nat} (hc : clear (.mleave k) s = true) (ha : Apart s.curWarp.waits)
    (he : s.curWarp.waits.filter (fun r => Wait.onMask k r.wait) ≠ [])
    (h : s.curWarp.masks.get k &&& ~~~s.cur.lanes &&& ~~~s.curWarp.waiting (Wait.onMask k) = 0) :
    ∃ t z, execMleave k s = .next t ∧ WarpOnly s t ∧ t.curWarp = z.advance s.cur.lanes 1
      ∧ MaskCompleted s.cycle k { s.curWarp with masks := s.curWarp.masks.set k (s.curWarp.masks.get k &&& ~~~s.cur.lanes) } z := by
  refine ⟨_, _, plainOp_clear hc _, (WarpOnly.upCur _ _).trans (WarpOnly.upCur _ _), curWarp_upCur_advance .., ?_⟩
  refine Warp.settleMask_completes ha ?_ ?_
  · obtain ⟨r, hr⟩ := List.exists_mem_of_ne_nil _ he
    obtain ⟨hr, hk⟩ := List.mem_filter.1 hr
    obtain ⟨l, hl⟩ := lanes_ne_zero.1 (ha.1 r hr)
    exact lanes_ne_zero.2 ⟨l, Warp.waiting_getLsbD.2 ⟨r, hr, hk, hl⟩⟩
  · rw [FMap.get_set_self]
    exact h

theorem maskCompletion : Part.MaskCompletion := by
  unfold Part.MaskCompletion
  intro s k d a lanes x members earlier arrived freed passes hw hp he
  have ha : Apart x.waits := ⟨fun r hr => (hw r hr).1, hp⟩
  have hd : ∀ r ∈ x.waits, r.lanes &&& lanes = 0 := fun r hr => (hw r hr).2
  refine ⟨fun h0 h hl => ⟨fun hc => ?_, fun hc => ?_⟩, fun hl hc => ?_⟩
  · obtain ⟨t, e, ho, hm⟩ := arrive_completes (x := .mask k) (by simp [Wait.onMask]) hc ha hd h0 h hl
    obtain ⟨h1, h2, h3, h4⟩ := hm.await (by simp [Wait.onMask])
    exact ⟨t, e, ⟨h1, h2, h3, h4, ho⟩, fun l hl => hm.await_past (by simp [Wait.onMask]) hl⟩
  · obtain ⟨t, e, ho, hm⟩ := arrive_completes (i := .mwaitt d a k)
      (x := .maskT k d ((lanesOf lanes).map fun l => (l, s.cycle + s.src32 s.cur.warp l a))) (by simp [Wait.onMask]) hc ha hd h0 h hl
    obtain ⟨h1, h2, h3, h4⟩ := hm.await (by simp [Wait.onMask])
    exact ⟨t, e, ⟨h1, h2, h3, h4, ho⟩, fun l hl => hm.await_past (by simp [Wait.onMask]) hl,
      fun n hn l hl => hm.await_result (by rw [hn]) hl⟩
  · obtain ⟨t, z, e, ho, ht, hm⟩ := mleave_completes hc ha he hl
    have lane : ∀ l, t.curWarp.lane l = if lanes.getLsbD l then { z.lane l with pc := (z.lane l).pc + 1 } else z.lane l :=
      fun l => by rw [ht, Warp.advance, Warp.lane_mapLanes]; rfl
    have stays : ∀ l, lanes.getLsbD l = true → arrived.getLsbD l = false := fun l hl => by
      by_contra hn
      obtain ⟨r, hr, -, hrl⟩ := Warp.waiting_getLsbD.1 (by simpa using hn)
      exact absurd hl (by simp [and_eq_zero.1 (hd r hr) l hrl])
    refine ⟨t, e, ⟨fun r hr l hl => ?_, fun r hr e due n hw he l hl => ?_, ?_, fun l h1 h2 => ?_, ho⟩, ?_, fun l hl => ?_⟩
    · obtain ⟨hr, hk⟩ := List.mem_filter.1 hr
      rw [lane, if_neg (by simp [and_eq_zero.1 (hd r hr) l hl])]
      exact hm.past r hr hk l hl
    · obtain ⟨hr, -⟩ := List.mem_filter.1 hr
      rw [ht]
      exact hm.result r hr n due (he ▸ hw) l hl
    · rw [ht]
      exact hm.waits
    · rw [lane, if_neg (by simp [h2])]
      exact hm.other l h1
    · rw [ht, Warp.advance, Warp.mapLanes, hm.masks]
      exact FMap.get_set_self ..
    · rw [lane, if_pos hl, hm.other l (stays l hl)]
      rfl

/-! ### Deadlines -/

/-- The one wait without one lane: none, if it was the lane's alone. -/
theorem Warp.unwait_laneBit {w : Warp} {r : WaitRec} (h : w.waits = [r]) {l : Nat} (hl : r.lanes.getLsbD l = true) :
    (w.unwait (laneBit l)).waits = if r.lanes = laneBit l then [] else [{ r with lanes := r.lanes &&& ~~~laneBit l }] := by
  have : r.lanes &&& ~~~laneBit l = 0 ↔ r.lanes = laneBit l := by
    refine ⟨fun h => lanes_ext fun k hk => ?_, fun h => by simp [h]⟩
    rw [laneBit_getLsbD]
    by_cases e : k = l
    · subst e; simp [hl, hk]
    · have := (andNot_eq_zero.1 h) k
      rw [laneBit_getLsbD] at this
      simp [e] at this ⊢
      exact this
  rw [Warp.unwait_waits, h]
  by_cases e : r.lanes = laneBit l
  · simp [e]
  · have := mt this.1 e
    simp [e]
    simpa using this

theorem maskDeadline : Part.MaskDeadline := by
  unfold Part.MaskDeadline
  intro s w l r k d due hw hl hr hdue
  have hl32 : l < 32 := BitVec.lt_of_getLsbD hl
  have found : (s.warp w).mwaittOf l = some r := by simp [Warp.mwaittOf, hw, hl, hr]
  obtain ⟨v, q, b, hrest⟩ := (s.warp w).writeMwaitt_rest d due.keys (laneBit l) 0
  have bit : ∀ j, (laneBit l).getLsbD j = true ↔ j = l := fun j => laneBit_getLsbD_iff hl32
  refine ⟨s.setWarp w (((s.warp w).writeMwaitt d due.keys (laneBit l) 0).release s.cycle r (laneBit l)), ?_, ?_, ?_, ?_, ?_, ?_, ?_, rfl⟩
  · simp only [exec_mwaittDeadline, execMwaittDeadline, found, hr]
    exact if_neg (by omega)
  · rw [State.warp_setWarp_self, Warp.lane_release, if_pos ((bit l).2 rfl), hrest]; rfl
  · intro j hj
    rw [State.warp_setWarp_self, Warp.lane_release, if_neg (mt (bit j).1 hj), hrest]; rfl
  · rw [State.warp_setWarp_self, Warp.release_rest]
    exact (congrArg (fun y : Warp => (y.unwait (laneBit l)).waits) hrest).trans (Warp.unwait_laneBit (by exact hw) hl)
  · intro n hn
    rw [State.warp_setWarp_self, Warp.v_release, Warp.writeMwaitt_v _ _ _ _ _ _ hl32, if_pos ⟨hn, (bit l).2 rfl⟩]; rfl
  · intro n j hj hne
    rw [State.warp_setWarp_self, Warp.v_release, Warp.writeMwaitt_v _ _ _ _ _ _ hj, if_neg]
    rw [bit]; tauto
  · exact fun u hu => State.warp_setWarp_ne _ _ hu

/-- Settles O9: an arrival waits (`arrive_members`), and a round completes when every member has arrived (`Warp.settleMask_completes`). -/
theorem masks : Obligations.Masks := ⟨maskMembership, maskWait, maskCompletion, maskDeadline⟩

end Sys2Proof

/-! ## O12: exit

Lanes that leave a warp where others stay change its lanes and masks alone (`State.leave_others`); the last lanes end it
(`State.leave_last`). -/

namespace Sys2Proof.Machine

open Sys2Proof

/-! ### What a change of lanes completes, where nobody waits -/

theorem Warp.settleMasks_idle (w : Warp) (cycle : Nat) (h : w.waits = []) : w.settleMasks cycle = w := by
  have mask : ∀ k, w.settleMask cycle k = w := fun k => if_neg fun ⟨h0, _⟩ => h0 (Warp.waiting_none (by simp [h]))
  have fold : ∀ ks : List Nat, ks.foldl (fun w k => w.settleMask cycle k) w = w := fun ks => by
    induction ks with
    | nil => rfl
    | cons k ks ih => rw [List.foldl_cons, mask, ih]
  exact fold _

/-- A live lane that has not reached stagenext keeps its warp where it is (R46). -/
theorem State.settleStage_short {s : State} {w : Nat} (h : (s.warp w).liveLanes &&& ~~~(s.warp w).waiting Wait.isStage ≠ 0) :
    s.settleStage w = s := if_neg fun ⟨_, _, _, h0⟩ => h h0

theorem State.settleTrapret_none {s : State} {w : Nat} (h : (s.warp w).handler = none) : s.settleTrapret w = s := by
  simp [State.settleTrapret, h]

/-- A warp without a wait or a handler, in which a lane lives, is settled as it is. -/
theorem State.settle_idle {s : State} {w : Nat} {x : Warp} (hw : x.waits = []) (hh : x.handler = none) (hl : x.liveLanes ≠ 0) :
    (s.setWarp w x).settle w = s.setWarp w x := by
  unfold State.settle
  rw [State.warp_setWarp_self, x.settleMasks_idle _ hw, State.setWarp_setWarp, State.settleStage_short, State.settleTrapret_none]
  · rw [State.warp_setWarp_self, hh]
  · rw [State.warp_setWarp_self, Warp.waiting_none (by simp [hw])]
    rwa [andNot_of_disjoint (n := (0 : LaneSet)) BitVec.and_zero]

/-! ### Leaving -/

/-- The warp without the lanes of a set: they are dead, and members of no mask (R14, R27). -/
def Warp.without (x : Warp) (m : LaneSet) : Warp := (x.mapLanes m fun _ => default).dropMasks m

theorem Warp.lane_without (x : Warp) (m : LaneSet) (l : Nat) : (x.without m).lane l = if m.getLsbD l then default else x.lane l :=
  Warp.lane_mapLanes x m (fun _ => default) l

theorem Warp.masks_without (x : Warp) (m : LaneSet) (k : Nat) : (x.without m).masks.get k = x.masks.get k &&& ~~~m :=
  FMap.get_mapVal x.masks (· &&& ~~~m) k BitVec.zero_and

theorem Warp.live_without (x : Warp) (m : LaneSet) (l : Nat) : ((x.without m).lane l).live = ((x.lane l).live && !m.getLsbD l) := by
  rw [Warp.lane_without]
  cases m.getLsbD l
  · simp
  · simp; rfl

theorem Warp.liveLanes_without (x : Warp) (m : LaneSet) : (x.without m).liveLanes = x.liveLanes &&& ~~~m := by
  refine lanes_ext fun l _ => ?_
  rw [getLsbD_andNot, Warp.liveLanes_getLsbD, Warp.liveLanes_getLsbD, Warp.live_without, Bool.and_assoc]

/-- Leaving changes lanes and masks alone. -/
theorem Warp.without_rest (x : Warp) (m : LaneSet) :
    x.without m = { x with lanes := (x.without m).lanes, masks := (x.without m).masks } := rfl

/-- Lanes that leave a warp where others stay, and nobody waits or handles a trap, change nothing else. -/
theorem State.leave_others {s : State} {w : Nat} {m : LaneSet} (hw : (s.warp w).waits = []) (hh : (s.warp w).handler = none)
    (hl : (s.warp w).liveLanes &&& ~~~m ≠ 0) : s.leave w m = s.setWarp w ((s.warp w).without m) := by
  have live : ((s.warp w).without m).liveLanes ≠ 0 := by rwa [Warp.liveLanes_without]
  exact (if_neg live).trans (State.settle_idle hw hh live)

theorem State.lastFault_none {s : State} {w : Nat} (he : (s.warp w).remoteErr = none) (hd : (s.warp w).deckFaults = []) :
    s.lastFault w = none := by
  simp [State.lastFault, he, hd]

/-- The last lanes that leave end their warp, if it has no fault to report (R14, R390). -/
theorem State.leave_last {s : State} {w : Nat} {m : LaneSet} (hl : (s.warp w).liveLanes &&& ~~~m = 0)
    (he : (s.warp w).remoteErr = none) (hd : (s.warp w).deckFaults = []) :
    s.leave w m = (s.setWarp w ((s.warp w).without m)).endWarp w := by
  have well : (s.setWarp w (((s.warp w).mapLanes m fun _ => default).dropMasks m)).lastFault w = none :=
    State.lastFault_none (by rw [State.warp_setWarp_self]; exact he) (by rw [State.warp_setWarp_self]; exact hd)
  refine (if_pos ((Warp.liveLanes_without ..).trans hl)).trans ?_
  rw [well]
  rfl

/-! ### The end of a warp -/

theorem State.endWarp_warp_ne (s : State) {w v : Nat} (h : v ≠ w) : (s.endWarp w).warp v = s.warp v :=
  FMap.get_set_ne _ _ h

theorem State.endWarp_ended (s : State) (w : Nat) :
    ((s.endWarp w).warp w).live = false ∧ ((s.endWarp w).warp w).pending = [] ∧ ((s.endWarp w).warp w).chainA = none
      ∧ ((s.endWarp w).warp w).chainB = none := by
  have : (s.endWarp w).warp w = _ := FMap.get_set_self _ w _
  rw [this]
  exact ⟨rfl, rfl, rfl, rfl⟩

/-- An ended warp's flags go to its crew (R132). -/
theorem State.endWarp_flags (s : State) (w : Nat) :
    ((s.endWarp w).crewOf w).flags = (s.crewOf w).flags ||| ((s.warp w).fpflags.toNat % 32) := by
  have : (s.endWarp w).crewOf w = _ := FMap.get_set_self _ (crewTok w) _
  rw [this]
  rfl


end Sys2Proof.Machine

namespace Sys2Proof

open Sys2Proof.Machine

theorem exitLeaves : Part.ExitLeaves := by
  unfold Part.ExitLeaves
  intro s hc hw hh hl
  refine ⟨s.setWarp s.cur.warp (s.curWarp.without s.cur.lanes), ?_, WarpOnly.setCur _ _, ?_⟩
  · rw [exec_exit]
    exact runOp_ok hc (congrArg Except.ok (State.leave_others hw hh hl))
  · rw [State.curWarp_setWarp_self]
    refine ⟨Warp.live_without _ _, fun l h => ?_, Warp.masks_without _ _, Warp.without_rest _ _⟩
    rw [Warp.lane_without, h]
    rfl

theorem lastExitEndsWarp : Part.LastExitEndsWarp := by
  unfold Part.LastExitEndsWarp
  intro s hc hl he hd
  rw [exec_exit]
  refine ⟨_, runOp_ok hc (congrArg Except.ok (State.leave_last hl he hd)), ?_⟩
  obtain ⟨h1, h2, h3, h4⟩ := State.endWarp_ended (s.setWarp s.cur.warp (s.curWarp.without s.cur.lanes)) s.cur.warp
  refine ⟨h1, h2, h3, h4, ?_, fun w hw => ?_, fun _ => rfl⟩
  · refine (State.endWarp_flags _ _).trans ?_
    rw [State.warp_setWarp_self]
    rfl
  · exact (State.endWarp_warp_ne _ hw).trans (State.warp_setWarp_ne _ _ hw)

/-- Settles O12: exit is `State.leave`, of some lanes (`State.leave_others`) or of the last ones (`State.leave_last`). -/
theorem exits : Obligations.Exits := ⟨exitLeaves, lastExitEndsWarp⟩

end Sys2Proof

/-! ## The stage and queue instructions past their checks, and a crew's warps -/

namespace Sys2Proof.Machine

open Sys2Proof

/-- The crew's warps are those that live. -/
theorem State.warpsOf_congr {s t : State} (h : ∀ w, (t.warp w).live = (s.warp w).live) (tok : Nat) : t.warpsOf tok = s.warpsOf tok := by
  simp only [State.warpsOf, h]

theorem State.live_setWarp {s : State} {w : Nat} {x : Warp} (h : x.live = (s.warp w).live) (v : Nat) :
    ((s.setWarp w x).warp v).live = (s.warp v).live := by
  by_cases e : v = w
  · rw [e, State.warp_setWarp_self, h]
  · rw [State.warp_setWarp_ne _ _ e]

/-- A queue offset that is a multiple of 8, its item inside the crew's own allocation (R235). -/
theorem State.checkItem_none {s : State} {off n : Nat} (h8 : off % 8 = 0) (h : off + n ≤ (s.crew (crewTok s.cur.warp)).size) :
    s.checkItem off n = none := by
  have own : s.ownPhys (crewTok s.cur.warp) off n = some ((s.crew (crewTok s.cur.warp)).phys off) := if_pos h
  rw [State.checkItem, if_neg (by simpa using h8), own]
  rfl

/-- qput of an item that fits its crew's allocation: a full queue blocks, else the item is put (R235). -/
theorem exec_qput_checked {s : State} {d a b : Operand} (hc : clear (.qput d a b) s = true) (ha : s.same32 a = true)
    (hb : s.same32 b = true) (hst : s.lead32 a < s.stageCount (crewTok s.cur.warp)) (h8 : s.lead32 b % 8 = 0)
    (hsz : s.lead32 b + (s.stageDecl (crewTok s.cur.warp) (s.lead32 a)).item ≤ (s.crew (crewTok s.cur.warp)).size) :
    exec (.qput d a b) s = .next
      (if s.queueFull (crewTok s.cur.warp) (s.lead32 a) then
        s.block (Instr.qput d a b).len (.qput (s.lead32 a) (s.lead32 b) d)
      else ((s.putItem s.cur.warp s.cur.lanes (s.lead32 a) (s.lead32 b) d).advance (Instr.qput d a b).len).settleQueue
        (crewTok s.cur.warp) (s.lead32 a) 256) := by
  refine (exec_qput s).trans (runOp_ok hc ?_)
  simp only [ha, hb, Nat.not_le.2 hst, Bool.true_eq_false, or_self, if_false, State.checkItem_none h8 hsz]
  split <;> rfl

/-- qtake of an item that fits its crew's allocation: an empty queue blocks, else the item is taken (R235). -/
theorem exec_qtake_checked {s : State} {d b : Operand} (hc : clear (.qtake d b) s = true) (hb : s.same32 b = true)
    (hst : 0 < s.stageCount (crewTok s.cur.warp)) (h8 : s.lead32 b % 8 = 0)
    (hsz : s.lead32 b + (s.stageDecl (crewTok s.cur.warp) s.curWarp.stage).item ≤ (s.crew (crewTok s.cur.warp)).size) :
    exec (.qtake d b) s = .next
      (if (s.crew (crewTok s.cur.warp)).items s.curWarp.stage = 0 then
        s.block (Instr.qtake d b).len (.qtake (s.lead32 b) d)
      else ((s.takeItem s.cur.warp s.cur.lanes s.curWarp.stage (s.lead32 b) d).advance (Instr.qtake d b).len).settleQueue
        (crewTok s.cur.warp) s.curWarp.stage 256) := by
  refine (exec_qtake s).trans (runOp_ok hc ?_)
  simp only [hb, Nat.pos_iff_ne_zero.1 hst, Bool.true_eq_false, or_self, if_false, State.checkItem_none h8 hsz]
  split <;> rfl

/-- stagenext in a crew with stages: the lanes wait, and the warp starts over if all of them do (R234). -/
theorem exec_stagenext_checked {s : State} {d : Operand} (hc : clear (.stagenext d) s = true)
    (hst : 0 < s.stageCount (crewTok s.cur.warp)) :
    exec (.stagenext d) s = .next ((s.block (Instr.stagenext d).len (.stage d)).settleStage s.cur.warp) :=
  (exec_stagenext s).trans (runOp_ok hc (if_neg (Nat.pos_iff_ne_zero.1 hst)))

end Sys2Proof.Machine

/-! ## O16: waits at stages and queues, and the restart

Each blocking form ends in `State.block`. The restart is `State.settleStage_restarts`: what it reads of the state (the move, the
quota, the room) is not changed by the wait that stagenext adds. -/

namespace Sys2Proof.Machine

open Sys2Proof

/-! ### Room and demand do not depend on the waits -/

/-- A table's other entries. -/
theorem FMap.filter_set {α : Type} (m : FMap α) (k : Nat) (a : α) :
    (m.set k a).filter (fun p => p.1 != k) = m.filter fun p => p.1 != k := by
  induction m with
  | nil => simp [FMap.set]
  | cons p m ih =>
    obtain ⟨j, b⟩ := p
    by_cases h1 : k < j
    · simp [FMap.set, h1]
    · by_cases h2 : k = j
      · simp [FMap.set, h2]
      · simp [FMap.set, h1, h2, List.filter_cons, ih]

/-- The other warps of a quadrant do not depend on a warp (R17). -/
theorem State.quadWarps_others (s : State) (w : Nat) (x : Warp) (core q : Nat) :
    ((s.setWarp w x).quadWarps core q).filter (fun v => !([w].contains v)) = (s.quadWarps core q).filter fun v => !([w].contains v) := by
  have others : ∀ (ws : FMap Warp) (p : Nat × Warp → Bool), (((ws.filter p).map (·.1)).filter fun v => !([w].contains v))
      = ((ws.filter fun e => e.1 != w).filter p).map (·.1) := fun ws p => by
    rw [List.filter_map, List.filter_filter, List.filter_filter]
    congr 1
    refine List.filter_congr fun e _ => ?_
    by_cases h : e.1 = w <;> simp [h]
  exact (others _ _).trans (.trans (by rw [← FMap.filter_set s.warps w x]; rfl) (others _ _).symm)

theorem State.quadRoom_setWarp (s : State) (w : Nat) (x : Warp) (core q quota : Nat) :
    (s.setWarp w x).quadRoom core q quota [w] = s.quadRoom core q quota [w] := by
  have quotas : ((s.quadWarps core q).filter fun v => !([w].contains v)).map (fun v => ((s.setWarp w x).warp v).quota)
      = ((s.quadWarps core q).filter fun v => !([w].contains v)).map fun v => (s.warp v).quota :=
    List.map_congr_left fun v hv => by
      rw [State.warp_setWarp_ne]
      simpa using (List.mem_filter.1 hv).2
  simp only [State.quadRoom, State.quadWarps_others, quotas]

section
variable {s : State} {w : Nat} {x : Warp} (hl : x.live = (s.warp w).live) (hs : x.stage = (s.warp w).stage)
include hl hs

theorem State.stageWarps_setWarp (tok st : Nat) : (s.setWarp w x).stageWarps tok st = s.stageWarps tok st := by
  have stage : ∀ v, ((s.setWarp w x).warp v).stage = (s.warp v).stage := fun v => by
    by_cases e : v = w
    · rw [e, State.warp_setWarp_self, hs]
    · rw [State.warp_setWarp_ne _ _ e]
  simp only [State.stageWarps, State.warpsOf_congr (State.live_setWarp hl), stage]

/-- Which stage a warp moves to is the queues' and the other warps' stages' (R400). -/
theorem State.moveTo_setWarp (tok st : Nat) : (s.setWarp w x).moveTo tok st = s.moveTo tok st := by
  simp only [State.moveTo, State.stageWarps_setWarp hl hs]
  rfl

end

/-! ### The restart -/

/-- Stage and quota that a warp of a stage starts over with (R400). -/
def State.NextStage (s : State) (tok old st q : Nat) : Prop :=
  s.moveTo tok old = some st ∧ q = (s.crew tok).quotas.get st ∨ s.moveTo tok old = none ∧ st = old ∧ q = s.stayQuota tok old

/-- Every live lane stands in stagenext and the quota fits: the warp starts over (R46). -/
theorem State.settleStage_restarts {s : State} {w st q : Nat} (hl : (s.warp w).live = true)
    (hr : (s.crew (crewTok w)).resident = true) (h0 : (s.warp w).liveLanes ≠ 0)
    (hall : (s.warp w).liveLanes &&& ~~~(s.warp w).waiting Wait.isStage = 0) (hn : s.NextStage (crewTok w) (s.warp w).stage st q)
    (hq : s.quadRoom (s.crew (crewTok w)).core (s.quadrantOf w) q [w] = true) :
    s.settleStage w = (s.setCrew (crewTok w) { s.crew (crewTok w) with quotas := (s.crew (crewTok w)).quotas.set st q }).setWarp w
      ((s.warp w).restart s.cycle st q (s.stageDecl (crewTok w) st).entry) := by
  refine (if_pos ⟨hl, hr, h0, hall⟩).trans ?_
  obtain ⟨hm, rfl⟩ | ⟨hm, rfl, rfl⟩ := hn
  · simp only [hm]
    exact if_pos hq
  · simp only [hm]
    exact if_pos hq

/-- A warp whose one wait is a stagenext reports stage and quota, then starts over (R46). -/
theorem Warp.restart_one {x : Warp} {r : WaitRec} {d : Operand} (hw : x.waits = [r]) (hr : r.wait = .stage d) (cycle st q : Nat)
    (entry : DWord) :
    let y := x.writeLanes r.lanes 1 d fun _ => st % 256 + q % 256 * 256
    x.restart cycle st q entry = ({ y with
        waits := [], vregs := [], masks := [], taskBuf := [], stage := st, quota := q,
        badRegs := y.badRegs.filter (100000 ≤ ·) } : Warp).mapLanes x.liveLanes
      fun z => { z with pc := BitVec.ofNat 64 (entry.toNat / 4), readyAt := cycle + 1 } := by
  unfold Warp.restart
  rw [hw]
  simp only [List.foldl_cons, List.foldl_nil, hr]

section
variable {x : Warp} {r : WaitRec} {d : Operand} (hw : x.waits = [r]) (hr : r.wait = .stage d)
include hw hr

/-- Lanes that start over stand at the entry word, eligible in the next cycle. -/
theorem Warp.lane_restart_one (cycle st q : Nat) (entry : DWord) {l : Nat} (hl : x.liveLanes.getLsbD l = true) :
    (x.restart cycle st q entry).lane l
      = { x.lane l with pc := BitVec.ofNat 64 (entry.toNat / 4), readyAt := cycle + 1 } := by
  obtain ⟨v, sr, b, hrest⟩ := x.writeLanes_rest r.lanes 1 d fun _ => st % 256 + q % 256 * 256
  rw [Warp.restart_one hw hr, Warp.lane_mapLanes, if_pos hl, hrest]
  rfl

/-- The scalar destination of stagenext takes the stage and the quota (R46). -/
theorem Warp.s_restart_one (cycle st q : Nat) (entry : DWord) (h0 : r.lanes ≠ 0) {n : Nat} (hd : d = .s n) :
    (x.restart cycle st q entry).s n = BitVec.ofNat 64 (st % 256 + q % 256 * 256) := by
  rw [Warp.restart_one hw hr]
  refine ((writeLanes_spec x r.lanes 1 d _).2.1 n).trans (if_pos ?_)
  simpa [hd, scaWritten] using h0

end

/-- The last live lanes reach stagenext and the quota fits: the warp starts over, from its one wait (R46, R234). -/
theorem exec_stagenext_last {s : State} {d : Operand} {st q : Nat} (hc : clear (.stagenext d) s = true)
    (hst : 0 < s.stageCount (crewTok s.cur.warp)) (hl : s.curWarp.live = true) (hw : s.curWarp.waits = [])
    (hall : s.cur.lanes = s.curWarp.liveLanes) (h0 : s.cur.lanes ≠ 0) (hr : (s.crew (crewTok s.cur.warp)).resident = true)
    (hn : s.NextStage (crewTok s.cur.warp) s.curWarp.stage st q)
    (hq : s.quadRoom (s.crew (crewTok s.cur.warp)).core (s.quadrantOf s.cur.warp) q [s.cur.warp] = true) :
    let x := s.curWarp.await ⟨s.cur.lanes, s.cur.pc, (Instr.stagenext d).len, s.cur.port, .stage d⟩
    ∃ t, exec (.stagenext d) s = .next t ∧ t.curWarp = x.restart s.cycle st q (s.stageDecl (crewTok s.cur.warp) st).entry
      ∧ (∀ w, w ≠ s.cur.warp → t.warp w = s.warp w) ∧ t.mem = s.mem := by
  intro x
  have hx : (s.setWarp s.cur.warp x).warp s.cur.warp = x := State.warp_setWarp_self ..
  have waiting : x.waiting Wait.isStage = s.cur.lanes := by
    refine (Warp.waiting_append s.curWarp _ _ rfl).trans ?_
    rw [Warp.waiting_none (by simp [hw])]
    exact BitVec.zero_or
  have live : x.liveLanes = s.cur.lanes := hall.symm
  have next : (s.setWarp s.cur.warp x).NextStage (crewTok s.cur.warp) x.stage st q := by
    rw [State.NextStage, State.moveTo_setWarp (x := x) (w := s.cur.warp) rfl rfl]
    exact hn
  have room : (s.setWarp s.cur.warp x).quadRoom (s.crew (crewTok s.cur.warp)).core (s.quadrantOf s.cur.warp) q [s.cur.warp] = true := by
    rwa [State.quadRoom_setWarp]
  have restarts := State.settleStage_restarts (s := s.setWarp s.cur.warp x) (hx.symm ▸ hl) hr (by rwa [hx, live])
    (by rw [hx, live, waiting, BitVec.and_not_self]) (by rwa [hx]) room
  rw [hx] at restarts
  exact ⟨_, (exec_stagenext_checked hc hst).trans (congrArg Host.Outcome.next restarts), State.warp_setWarp_self ..,
    fun w h => (State.warp_setWarp_ne _ _ h).trans (State.warp_setWarp_ne _ _ h), rfl⟩

end Sys2Proof.Machine

namespace Sys2Proof

open Sys2Proof.Machine

theorem stageBlocking : Part.StageBlocking := by
  unfold Part.StageBlocking
  intro s d a b tok c blocks
  have blocked : ∀ (i : Instr) (x : Wait), (clear i s = true → exec i s = .next (s.block i.len x)) → blocks i x :=
    fun i x he hc => ⟨_, he hc, State.block_spec s i.len x⟩
  refine ⟨?_, ?_, ?_⟩
  · rintro _ ha hb rfl hst h8 hsz hfull
    refine blocked _ _ fun hc => (exec_qput_checked hc ha hb hst h8 hsz).trans (congrArg _ ?_)
    exact if_pos (decide_eq_true hfull)
  · intro hb hst h8 hsz hempty
    exact blocked _ _ fun hc => (exec_qtake_checked hc hb hst h8 hsz).trans (congrArg _ (if_pos hempty))
  · intro hst hmiss
    refine blocked _ _ fun hc => (exec_stagenext_checked hc hst).trans (congrArg _ (State.settleStage_short ?_))
    show (s.block _ (.stage d)).curWarp.liveLanes &&& ~~~(s.block _ (.stage d)).curWarp.waiting Wait.isStage ≠ 0
    rw [(State.block_spec ..).2, Warp.waiting_append _ _ _ rfl]
    exact hmiss

theorem stageRestart : Part.StageRestart := by
  unfold Part.StageRestart
  intro s d hc hl hw hall h0 tok hr hst st q hn hq
  have hn : s.NextStage (crewTok s.cur.warp) s.curWarp.stage st q := by
    cases hm : s.moveTo tok s.curWarp.stage with
    | some x => 
      simp only [hm] at hn
      exact .inl ⟨hn.1 ▸ hm, hn.1 ▸ hn.2⟩
    | none =>
      simp only [hm] at hn
      exact .inr ⟨hm, hn⟩
  have waits : (s.curWarp.await ⟨s.cur.lanes, s.cur.pc, (Instr.stagenext d).len, s.cur.port, .stage d⟩).waits
      = [⟨s.cur.lanes, s.cur.pc, (Instr.stagenext d).len, s.cur.port, .stage d⟩] := by rw [Warp.await, hw]; rfl
  obtain ⟨t, he, ht, hother, hmem⟩ := exec_stagenext_last hc hst hl hw hall h0 hr hn hq
  refine ⟨t, he, ?_⟩
  rw [ht]
  refine ⟨rfl, rfl, rfl, fun _ => rfl, fun _ _ => rfl, fun l hl => ?_, fun n hd => Warp.s_restart_one waits rfl _ _ _ _ h0 hd,
    hother, fun _ => hmem ▸ rfl⟩
  rw [Warp.lane_restart_one waits rfl _ _ _ _ (hall ▸ hl)]
  exact ⟨rfl, rfl, rfl⟩

/-- Settles O16: the blocking forms end in `State.block`, the last stagenext in `Warp.restart`. -/
theorem stages : Obligations.Stages := ⟨stageBlocking, stageRestart⟩

end Sys2Proof

/-! ## O15: queue transfer

Both instructions copy an item (`State.moveItem`), give its number and move on; no queue wait is there to be served
(`State.settleQueue_idle`). -/

namespace Sys2Proof.Machine

open Sys2Proof

/-! ### No queue wait, nobody is served -/

def Wait.isQueue : Wait → Bool
  | .qput .. | .qtake .. => true
  | _ => false

theorem Wait.isQueue_eq_false {x : Wait} (h : ∀ n m d, x ≠ .qput n m d ∧ x ≠ .qtake m d) : x.isQueue = false := by
  cases x with
  | qput n m d => exact absurd rfl (h n m d).1
  | qtake m d => exact absurd rfl (h 0 m d).2
  | _ => rfl

theorem State.firstWait_none {s : State} {tok : Nat} {p : Nat → Wait → Bool}
    (h : ∀ w ∈ s.warpsOf tok, ∀ r ∈ (s.warp w).waits, p (s.warp w).stage r.wait = false) : s.firstWait tok p = none := by
  refine List.findSome?_eq_none_iff.2 fun w hw => ?_
  rw [Option.map_eq_none_iff, List.find?_eq_none]
  exact fun r hr => by simp [h w hw r hr]

theorem State.settleQueue_idle {s : State} {tok : Nat}
    (h : ∀ w ∈ s.warpsOf tok, ∀ r ∈ (s.warp w).waits, r.wait.isQueue = false) (st n : Nat) : s.settleQueue tok st n = s := by
  have idle : ∀ p : Nat → Wait → Bool, (∀ own x, x.isQueue = false → p own x = false) → s.firstWait tok p = none :=
    fun p hp => State.firstWait_none fun w hw r hr => hp _ _ (h w hw r hr)
  cases n with
  | zero => rfl
  | succ n =>
    rw [State.settleQueue, idle, idle]
    · intro own x hx
      cases x with
      | qput => cases hx
      | _ => rfl
    · intro own x hx
      cases x with
      | qtake => cases hx
      | _ => rfl

/-! ### An item moved -/

/-- An item copied in the scratchpad, and its crew's counters with it. -/
def State.moveItem (s : State) (tok src dst n : Nat) (c : Crew) : State := (s.storeX dst (s.mem.read src n)).setCrew tok c

/-- qput and qtake past their checks: an item is copied, its number written, and the executing lanes move on. -/
def State.transfer (s : State) (src dst n seq : Nat) (c : Crew) (d : Operand) (len : Nat) : State :=
  ((s.moveItem (crewTok s.cur.warp) src dst n c).writeRes 1 d fun _ => seq % 2 ^ 32).advance len

theorem State.putItem_transfer (s : State) (st src : Nat) (d : Operand) (len : Nat) :
    let c := s.crew (crewTok s.cur.warp)
    (s.putItem s.cur.warp s.cur.lanes st src d).advance len = s.transfer (c.phys src)
      (s.queueSlot (crewTok s.cur.warp) st (c.puts.get st)) (s.stageDecl (crewTok s.cur.warp) st).item (c.puts.get st)
      { c with puts := c.puts.set st (c.puts.get st + 1) } d len := rfl

theorem State.takeItem_transfer (s : State) (st dst : Nat) (d : Operand) (len : Nat) :
    let c := s.crew (crewTok s.cur.warp)
    (s.takeItem s.cur.warp s.cur.lanes st dst d).advance len = s.transfer
      (s.queueSlot (crewTok s.cur.warp) st (c.takes.get st)) (c.phys dst) (s.stageDecl (crewTok s.cur.warp) st).item (c.takes.get st)
      { c with takes := c.takes.set st (c.takes.get st + 1) } d len := rfl

section
variable (s : State) (src dst n seq : Nat) (c : Crew) (d : Operand) (len : Nat)

/-- Registers and lanes are those of a lane-wise result. -/
theorem State.transfer_result :
    LaneResult (s.moveItem (crewTok s.cur.warp) src dst n c) (s.transfer src dst n seq c d len) len 1 d fun _ => seq % 2 ^ 32 :=
  LaneResult.of_writeRes _ _ _ _ _

theorem State.transfer_crew : (s.transfer src dst n seq c d len).crew (crewTok s.cur.warp) = c := FMap.get_set_self ..

theorem State.transfer_other {w : Nat} (h : w ≠ s.cur.warp) : (s.transfer src dst n seq c d len).warp w = s.warp w :=
  (s.transfer_result src dst n seq c d len).only.other w h

/-- No warp begins or ends a wait. -/
theorem State.transfer_waits (w : Nat) : ((s.transfer src dst n seq c d len).warp w).waits = (s.warp w).waits
    ∧ ((s.transfer src dst n seq c d len).warp w).live = (s.warp w).live := by
  by_cases h : w = s.cur.warp
  · subst h
    have := (s.transfer_result src dst n seq c d len).warp
    exact ⟨(congrArg Warp.waits this :), (congrArg Warp.live this :)⟩
  · rw [s.transfer_other src dst n seq c d len h]
    exact ⟨rfl, rfl⟩

/-- A transfer leaves no queue wait to serve, where there was none. -/
theorem State.transfer_idle {tok : Nat} (h : ∀ w ∈ s.warpsOf tok, ∀ r ∈ (s.warp w).waits, r.wait.isQueue = false) (st k : Nat) :
    (s.transfer src dst n seq c d len).settleQueue tok st k = s.transfer src dst n seq c d len := by
  refine State.settleQueue_idle (fun w hw r hr => ?_) st k
  rw [(s.transfer_waits src dst n seq c d len w).1] at hr
  rw [State.warpsOf_congr fun w => (s.transfer_waits src dst n seq c d len w).2] at hw
  exact h w hw r hr

end

end Sys2Proof.Machine

namespace Sys2Proof

open Sys2Proof.Machine

/-- Settles O15: what a transfer leaves is `State.transfer`'s, and no queue wait is there to go on. -/
theorem queueTransfer : Obligations.QueueTransfer := by
  unfold Obligations.QueueTransfer
  intro s d a b tok c off hb h8 hnone moved slot
  have idle : ∀ w ∈ s.warpsOf (crewTok s.cur.warp), ∀ r ∈ (s.warp w).waits, r.wait.isQueue = false :=
    fun w hw r hr => Wait.isQueue_eq_false (hnone w hw r hr)
  have transferred : ∀ len stage seq src dst k, moved (s.transfer src dst (s.stageDecl tok stage).item seq k d len) len stage seq src dst :=
    fun len stage seq src dst k => by
      have result := s.transfer_result src dst (s.stageDecl tok stage).item seq k d len
      refine ⟨rfl, fun x hx => ?_, ⟨result.regs.vec, result.regs.sca, result.regs.bad⟩, result.lanes,
        fun w => State.transfer_other _ _ _ _ _ _ _ _⟩
      exact Memory.get_write_ne _ _ _ (by simpa using hx)
  refine ⟨?_, ?_⟩
  · rintro _ ha rfl hst hsz hroom hc
    have put := exec_qput_checked hc ha hb hst h8 hsz
    have room : ¬ s.queueFull (crewTok s.cur.warp) (s.lead32 a) = true :=
      fun full => absurd hroom (Nat.not_lt.2 (of_decide_eq_true full))
    rw [if_neg room, State.putItem_transfer, State.transfer_idle s _ _ _ _ _ _ _ idle] at put
    refine ⟨_, put, transferred _ _ _ _ _ _, ?_⟩
    rw [State.transfer_crew]
    exact ⟨FMap.get_set_self .., rfl⟩
  · rintro _ rfl hst hsz hitem hc
    have take := exec_qtake_checked hc hb hst h8 hsz
    have item : ¬ (s.crew (crewTok s.cur.warp)).items s.curWarp.stage = 0 := hitem
    rw [if_neg item, State.takeItem_transfer, State.transfer_idle s _ _ _ _ _ _ _ idle] at take
    refine ⟨_, take, transferred _ _ _ _ _ _, ?_⟩
    rw [State.transfer_crew]
    exact ⟨FMap.get_set_self .., rfl⟩

end Sys2Proof

/-! ## O17: reform and the building of a bin

A bin that is built gives its threads to the lanes in order (`putThreads_lane`). Threads of one key that enter an empty yard
stand in one bin, in the order in which they come. -/

namespace Sys2Proof.Machine

open Sys2Proof

theorem State.countCore_idle {s : State} {core : Nat} (h : (s.core core).evsel = []) (ctx source n : Nat) :
    s.countCore core ctx source n = s := if_pos (.inl (by rw [h]; rfl))

/-! ### The warp built from a bin -/

/-- One thread of a bin put into the next lane: its word, its number and what it carries (R40). -/
def putThread (key : BinKey) (cycle : Nat) (acc : Nat × Warp) (t : YardThread) : Nat × Warp :=
  let w := acc.2.setLane acc.1 { live := true, pc := key.pc, tid := t.tid, age := 0, readyAt := cycle + 1 }
  (acc.1 + 1, (List.range key.k).foldl (fun w r => w.setV r acc.1 (t.regs.get r)) w)

theorem builtWarp_eq (b : Bin) (quota fpmode cycle : Nat) :
    builtWarp b quota fpmode cycle = { (b.threads.foldl (putThread b.key cycle) (0, default)).2 with
      live := true, quota := quota, stage := b.key.stage, fpmode := fpmodeOf fpmode,
      sregs := [(0, b.key.key.setWidth 64), (1, BitVec.ofNat 64 b.threads.length)] } := rfl

/-- The first registers of a lane written. -/
theorem foldl_setV_v (f : Nat → Word) (l : Nat) (hl : l < 32) (k : Nat) (w : Warp) (r j : Nat) (hj : j < 32) :
    ((List.range k).foldl (fun w r => w.setV r l (f r)) w).v r j = if r < k ∧ j = l then f r else w.v r j := by
  induction k with
  | zero => simp
  | succ k ih =>
    rw [List.range_succ, List.foldl_append, List.foldl_cons, List.foldl_nil, Warp.v_setV _ _ _ _ _ _ hl hj, ih]
    by_cases h : r = k ∧ j = l
    · rw [if_pos h, if_pos (by omega), h.1]
    · rw [if_neg h]
      exact if_congr (by omega) rfl rfl

theorem foldl_setV_lane (f : Nat → Word) (l k : Nat) (w : Warp) (j : Nat) :
    ((List.range k).foldl (fun w r => w.setV r l (f r)) w).lane j = w.lane j := by
  induction k with
  | zero => rfl
  | succ k ih => rw [List.range_succ, List.foldl_append, List.foldl_cons, List.foldl_nil, ← ih]; rfl

section
variable (key : BinKey) (cycle : Nat)

/-- What a lane of a built warp holds of its thread (R40). -/
def HoldsThread (w : Warp) (l : Nat) (t : YardThread) : Prop :=
  w.lane l = { live := true, pc := key.pc, tid := t.tid, age := 0, readyAt := cycle + 1 } ∧ ∀ r, r < key.k → w.v r l = t.regs.get r

theorem putThread_self {n : Nat} (hn : n < 32) (w : Warp) (t : YardThread) :
    HoldsThread key cycle (putThread key cycle (n, w) t).2 n t := by
  refine ⟨?_, fun r hr => ?_⟩
  · exact (foldl_setV_lane ..).trans (FMap.get_set_self ..)
  · exact (foldl_setV_v _ _ hn _ _ _ _ hn).trans (if_pos ⟨hr, rfl⟩)

theorem putThread_ne {n l : Nat} (hn : n < 32) (hl : l < 32) (h : l ≠ n) (w : Warp) (t u : YardThread)
    (hold : HoldsThread key cycle w l u) : HoldsThread key cycle (putThread key cycle (n, w) t).2 l u := by
  refine ⟨?_, fun r hr => ?_⟩
  · refine (foldl_setV_lane ..).trans ?_
    exact (FMap.get_set_ne _ _ h).trans hold.1
  · exact ((foldl_setV_v _ _ hn _ _ _ _ hl).trans (if_neg fun e => h e.2)).trans (hold.2 r hr)

/-- Further threads do not touch the lanes below. -/
theorem putThreads_below {ts : List YardThread} {n l : Nat} (hn : n + ts.length ≤ 32) (hl : l < n) {w : Warp} {u : YardThread}
    (hold : HoldsThread key cycle w l u) : HoldsThread key cycle (ts.foldl (putThread key cycle) (n, w)).2 l u := by
  induction ts generalizing n w with
  | nil => exact hold
  | cons t ts ih =>
    rw [List.length_cons] at hn
    exact ih (n := n + 1) (by omega) (by omega) (putThread_ne key cycle (by omega) (by omega) (by omega) w t u hold)

/-- The threads stand in the lanes in order. -/
theorem putThreads_lane {ts : List YardThread} {n : Nat} (hn : n + ts.length ≤ 32) (w : Warp) {j : Nat} {t : YardThread}
    (hj : ts[j]? = some t) : HoldsThread key cycle (ts.foldl (putThread key cycle) (n, w)).2 (n + j) t := by
  induction ts generalizing n w j with
  | nil => simp at hj
  | cons u ts ih =>
    rw [List.length_cons] at hn
    cases j with
    | zero =>
      obtain rfl : u = t := by simpa using hj
      exact putThreads_below key cycle (n := n + 1) (by omega) (by omega) (putThread_self key cycle (by omega) w u)
    | succ j =>
      rw [List.foldl_cons, show n + (j + 1) = n + 1 + j by omega]
      exact ih (n := n + 1) (by omega) _ (by simpa using hj)

end

/-! ### A bin built -/

/-- A bin whose crew has a slot is gone from the yard, its warp in that slot (R40). -/
theorem State.buildBin_slot {s : State} {core bin slot : Nat} {b : Bin} (hb : (s.core core).bins.find bin = some b)
    (hs : s.freeSlot b.key = some slot) (he : (s.core core).evsel = []) :
    s.buildBin core bin = (s.setCore core { s.core core with bins := (s.core core).bins.del bin }).setWarp (warpNo b.key.crew slot)
      (builtWarp b (s.builtQuota b.key) (s.launch (s.crew b.key.crew).launch).spec.fpmode s.cycle) := by
  rw [State.buildBin, hb]
  simp only [hs]
  refine State.countCore_idle ?_ _ _ _
  exact (congrArg Core.evsel (FMap.get_set_self _ core _)).trans he

theorem State.refileYard_nobody {s : State} {core : Nat} (h : (s.core core).yardWait = []) : s.refileYard core = s := by
  rw [State.refileYard, h]

/-! ### Threads of one key enter an empty yard -/

/-- A bin's order: by cycle, old lane, old warp slot (R40). -/
def YardThread.order (t : YardThread) : Nat := (t.filed * 32 + t.oldLane) * 64 + t.oldWarp

/-- A thread that comes after all of a bin is filed behind them. -/
theorem fileThread_last {t : YardThread} {ts : List YardThread} (h : ∀ u ∈ ts, u.order ≤ t.order) : fileThread t ts = ts ++ [t] := by
  induction ts with
  | nil => rfl
  | cons u ts ih =>
    refine (if_neg (Nat.not_lt.2 (h u (List.mem_cons_self ..)))).trans ?_
    exact congrArg (u :: ·) (ih fun v hv => h v (List.mem_cons_of_mem _ hv))

/-- A yard in which nobody waits, no event is counted, and the bins are these. -/
structure YardHolds (s : State) (core : Nat) (bins : FMap Bin) : Prop where
  bins : (s.core core).bins = bins
  nobody : (s.core core).yardWait = []
  uncounted : (s.core core).evsel = []

/-- What filing changes: the bins of one core. -/
def State.withBins (s : State) (core : Nat) (bins : FMap Bin) : State := s.setCore core { s.core core with bins := bins }

theorem YardHolds.withBins {s : State} {core : Nat} {old : FMap Bin} (h : YardHolds s core old) (bins : FMap Bin) :
    YardHolds (s.withBins core bins) core bins := by
  have e : (s.withBins core bins).core core = { s.core core with bins := bins } := FMap.get_set_self ..
  exact ⟨by rw [e], by rw [e]; exact h.nobody, by rw [e]; exact h.uncounted⟩

theorem State.withBins_withBins (s : State) (core : Nat) (a b : FMap Bin) : (s.withBins core a).withBins core b = s.withBins core b := by
  have e : (s.withBins core a).core core = { s.core core with bins := a } := FMap.get_set_self ..
  rw [State.withBins, e]
  simp only [State.withBins, State.setCore, FMap.set_set]

section
variable {s : State} {core : Nat} {key : BinKey} {t : YardThread}

theorem YardHolds.enterYard_file {bins : FMap Bin} (h : YardHolds s core bins) : s.enterYard core key t = s.fileYard core key t :=
  if_pos (by rw [h.nobody]; rfl)

theorem YardHolds.fileInto {bins : FMap Bin} (h : YardHolds s core bins) (bin : Nat) :
    s.fileInto core bin key t = s.withBins core (bins.set bin
      { (bins.find bin).getD { key := key, threads := [], since := s.cycle } with
        threads := fileThread t ((bins.find bin).getD { key := key, threads := [], since := s.cycle }).threads }) := by
  rw [State.fileInto, State.countCore_idle h.uncounted, ← h.bins]
  rfl

/-- The first thread opens bin 0 (R39). -/
theorem YardHolds.enterYard_first (h : YardHolds s core []) :
    s.enterYard core key t = s.withBins core [(0, { key := key, threads := [t], since := s.cycle })] := by
  have none : s.openBin core key = none := by rw [State.openBin, h.bins]; rfl
  have free : (s.core core).bins.fresh 0 = 0 := by rw [h.bins]; rfl
  rw [h.enterYard_file, State.fileYard, none]
  simp only [free, Nat.zero_lt_succ, if_true, h.fileInto]
  rfl

/-- A further one of the cycle joins them in the bin (R39). -/
theorem YardHolds.enterYard_join {ts : List YardThread} (h : YardHolds s core [(0, { key := key, threads := ts, since := s.cycle })])
    (hlen : ts.length < 32) (ho : ∀ u ∈ ts, u.order ≤ t.order) :
    s.enterYard core key t = s.withBins core [(0, { key := key, threads := ts ++ [t], since := s.cycle })] := by
  have found : s.openBin core key = some 0 := by rw [State.openBin, h.bins]; simp [hlen]
  rw [h.enterYard_file, State.fileYard, found]
  refine (h.fileInto 0).trans ?_
  rw [← fileThread_last ho]
  rfl

/-- Threads of one key that come in order stand in bin 0 in that order. -/
theorem YardHolds.enterYard_further (h : YardHolds s core []) {us ts : List YardThread} (hlen : us.length + ts.length ≤ 32)
    (ho : (us ++ ts).Pairwise fun u v => u.order ≤ v.order) :
    ts.foldl (fun s t => s.enterYard core key t) (s.withBins core [(0, { key := key, threads := us, since := s.cycle })])
      = s.withBins core [(0, { key := key, threads := us ++ ts, since := s.cycle })] := by
  induction ts generalizing us with
  | nil => rw [List.append_nil, List.foldl_nil]
  | cons t ts ih =>
    rw [List.length_cons] at hlen
    have join := (h.withBins [(0, { key := key, threads := us, since := s.cycle })]).enterYard_join (t := t) (by omega)
      fun u hu => (List.pairwise_append.1 ho).2.2 u hu t (List.mem_cons_self ..)
    rw [State.withBins_withBins] at join
    have e : us ++ t :: ts = (us ++ [t]) ++ ts := by simp
    rw [List.foldl_cons, join, e]
    exact ih (by simpa using by omega) (e ▸ ho)

/-- The whole of it, for threads that enter an empty yard in one cycle. -/
theorem YardHolds.enterYard_all (h : YardHolds s core []) {ts : List YardThread} (h0 : ts ≠ []) (hlen : ts.length ≤ 32)
    (ho : ts.Pairwise fun u v => u.order ≤ v.order) :
    ts.foldl (fun s t => s.enterYard core key t) s = s.withBins core [(0, { key := key, threads := ts, since := s.cycle })] := by
  cases ts with
  | nil => exact absurd rfl h0
  | cons t ts =>
    rw [List.foldl_cons, h.enterYard_first]
    exact h.enterYard_further (us := [t]) (by simpa [Nat.add_comm] using hlen) ho

end

end Sys2Proof.Machine

namespace Sys2Proof

open Sys2Proof.Machine

/-- The reforming threads come in the yard's order. -/
theorem yardThreads_ordered (s : State) (k : Nat) (m : LaneSet) :
    ((lanesOf m).map (s.yardThread k)).Pairwise fun u v => u.order ≤ v.order := by
  refine List.pairwise_map.2 (List.Pairwise.imp ?_ (List.pairwise_lt_range.filter _))
  intro a b hab
  simp only [YardThread.order, State.yardThread]
  omega

theorem reformFiles : Part.ReformFiles := by
  unfold Part.ReformFiles
  intro s a k key hc hk hw hh hl hf h0 core hbins hwait hev hkey
  let s0 := s.upCur fun w => { w with taskBuf := [] }
  let s' := s0.setWarp s.cur.warp ((s0.warp s.cur.warp).without s.cur.lanes)
  have hs0 : s0.warp s.cur.warp = { s.curWarp with taskBuf := [] } := State.warp_setWarp_self ..
  let K : BinKey := ⟨crewTok s.cur.warp, s.curWarp.stage, s.cur.pc + BitVec.ofNat 64 (Instr.reform a k).len, BitVec.ofNat 32 key, k⟩
  have left : s0.leave s.cur.warp s.cur.lanes = s' :=
    State.leave_others (by rw [hs0]; exact hw) (by rw [hs0]; exact hh) (by rw [hs0]; exact hl)
  have yard : YardHolds s' core [] := ⟨hbins, hwait, hev⟩
  have threads : (lanesOf s.cur.lanes).map (fun l => (s.binKey a k (Instr.reform a k).len l, s.yardThread k l))
      = ((lanesOf s.cur.lanes).map (s.yardThread k)).map fun t => (K, t) := by
    rw [List.map_map]
    refine List.map_congr_left fun l hl => ?_
    rw [State.binKey, hkey l (mem_lanesOf.1 hl)]
    rfl
  have filed := yard.enterYard_all (key := K) (ts := (lanesOf s.cur.lanes).map (s.yardThread k))
    (by simpa [lanesOf_eq_nil] using h0) ((List.length_map _).trans_le (List.length_filter_le _ (List.range 32))) (yardThreads_ordered ..)
  have reformed : exec (.reform a k) s = .next (s'.withBins core
      [(0, { key := K, threads := (lanesOf s.cur.lanes).map (s.yardThread k), since := s'.cycle })]) := by
    refine (exec_reform s).trans (runOp_ok hc ?_)
    have lives : ¬ ((s0.leave s.cur.warp s.cur.lanes).crewOf s.cur.warp).failed = true := by
      rw [left]
      exact ne_true_of_eq_false hf
    refine (if_neg (Nat.not_lt.2 hk)).trans ((if_neg lives).trans (congrArg Except.ok ?_))
    rw [threads, List.foldl_map, ← filed, ← left]
  have curWarp : s'.warp s.cur.warp = (s0.warp s.cur.warp).without s.cur.lanes := State.warp_setWarp_self ..
  refine ⟨_, reformed, fun l => ?_, ⟨_, (yard.withBins _).bins, rfl, rfl, rfl⟩, fun w hw => ?_, fun _ => rfl⟩
  · refine (congrArg (fun w : Warp => (w.lane l).live) curWarp).trans ?_
    rw [Warp.live_without, hs0]
    rfl
  · exact (State.warp_setWarp_ne _ _ hw).trans (State.warp_setWarp_ne _ _ hw)

theorem binBuilt : Part.BinBuilt := by
  unfold Part.BinBuilt
  intro s core bin slot b hb hwait hev hlen hage hslot i hi
  have due : s.binDue core bin = true := by
    rw [State.binDue, hb]
    simp [hage]
  have core_built : (s.buildBin core bin).core core = { s.core core with bins := (s.core core).bins.del bin } := by
    rw [State.buildBin_slot hb hslot hev]
    exact FMap.get_set_self ..
  have built : exec i s = .next (s.buildBin core bin) := by
    have refile : (s.buildBin core bin).refileYard core = s.buildBin core bin :=
      State.refileYard_nobody (by rw [core_built]; exact hwait)
    rcases hi with rfl | rfl
    · rw [exec_reformageExpiry, execReformageExpiry, hb]
      exact (if_pos hage).trans (congrArg _ refile)
    · rw [exec_binBuildOnFreeSlot, execBinBuildOnFreeSlot, if_pos due, refile]
  refine ⟨_, built, ?_, ?_, fun w hw => ?_, fun a => ?_⟩
  · rw [core_built]
    exact (FMap.find_del ..).trans (if_pos rfl)
  · have warp : (s.buildBin core bin).warp (b.key.crew * 64 + slot) = builtWarp b (s.builtQuota b.key)
        (s.launch (s.crew b.key.crew).launch).spec.fpmode s.cycle := by
      rw [State.buildBin_slot hb hslot hev]
      exact State.warp_setWarp_self ..
    rw [warp, builtWarp_eq]
    refine ⟨rfl, rfl, rfl, rfl, rfl, fun j x hx => ?_⟩
    have := putThreads_lane b.key s.cycle (n := 0) (by omega) default hx
    rwa [Nat.zero_add] at this
  · rw [State.buildBin_slot hb hslot hev]
    exact State.warp_setWarp_ne _ _ hw
  · rw [State.buildBin_slot hb hslot hev]
    rfl

/-- Settles O17: reform leaves its warp and files into bin 0 (`YardHolds.enterYard_all`); a bin due becomes the warp that
`putThreads_lane` describes. -/
theorem reform : Obligations.Reform := ⟨reformFiles, binBuilt⟩

end Sys2Proof

/-! ## O14: barriers

An arrival sets the barrier and may add a wait (`State.joinBar`); one that reaches the count also releases (`State.releaseBar`).
A round of a barrier is the arrivals up to one completion. While it stays open the arrivals add up (`BarJoined`); over completions,
the lanes that arrived so far are those that went on, `done`, and those of the open round, `open_` (`Arriving`). -/

namespace Sys2Proof.Machine

open Sys2Proof

/-! ### Reading and setting a barrier -/

section
variable (s : State) (tok : Nat) (gang : Bool) (id : Nat) (b : Barrier)

/-- A barrier stands in its crew or in its gang (R34). -/
theorem State.setBarrier_or :
    (∃ bs, s.setBarrier tok gang id b = s.setCrew tok { s.crew tok with barriers := bs })
      ∨ ∃ g bs, s.setBarrier tok gang id b = s.setGang g { s.gang g with barriers := bs } := by
  unfold State.setBarrier
  dsimp only
  split
  · exact .inl ⟨_, rfl⟩
  · split
    · exact .inl ⟨_, rfl⟩
    · exact .inr ⟨_, _, rfl⟩

/-- Setting a barrier changes crews and gangs alone. -/
theorem State.setBarrier_frame :
    s.setBarrier tok gang id b = { s with crews := (s.setBarrier tok gang id b).crews, gangs := (s.setBarrier tok gang id b).gangs } := by
  rcases s.setBarrier_or tok gang id b with ⟨bs, e⟩ | ⟨g, bs, e⟩ <;> rw [e] <;> rfl

@[simp] theorem State.setBarrier_cur : (s.setBarrier tok gang id b).cur = s.cur := by rw [State.setBarrier_frame]
@[simp] theorem State.setBarrier_warp (w : Nat) : (s.setBarrier tok gang id b).warp w = s.warp w := by rw [State.setBarrier_frame]; rfl
@[simp] theorem State.setBarrier_cores : (s.setBarrier tok gang id b).cores = s.cores := by rw [State.setBarrier_frame]

theorem State.setBarrier_crew_ne {c : Nat} (h : c ≠ tok) : (s.setBarrier tok gang id b).crew c = s.crew c := by
  rcases s.setBarrier_or tok gang id b with ⟨bs, e⟩ | ⟨g, bs, e⟩
  · rw [e]; exact FMap.get_set_ne _ _ h
  · rw [e]; rfl

/-- Of a crew, its barriers alone. -/
theorem State.setBarrier_crew (c : Nat) :
    (s.setBarrier tok gang id b).crew c = { s.crew c with barriers := ((s.setBarrier tok gang id b).crew c).barriers } := by
  rcases s.setBarrier_or tok gang id b with ⟨bs, e⟩ | ⟨g, bs, e⟩
  · by_cases h : c = tok
    · subst h; simp only [e, State.setCrew, State.crew, FMap.get_set_self]
    · rw [State.setBarrier_crew_ne _ _ _ _ _ h]
  · rw [e]; rfl

/-- Of a gang, its barriers alone. -/
theorem State.setBarrier_gang (k : Nat) :
    (s.setBarrier tok gang id b).gang k = { s.gang k with barriers := ((s.setBarrier tok gang id b).gang k).barriers } := by
  rcases s.setBarrier_or tok gang id b with ⟨bs, e⟩ | ⟨g, bs, e⟩
  · rw [e]; rfl
  · by_cases h : k = g
    · subst h; simp only [e, State.setGang, State.gang, FMap.get_set_self]
    · simp only [e, State.setGang, State.gang, FMap.get_set_ne _ _ h]

theorem State.barrier_setBarrier (j : Nat) :
    (s.setBarrier tok gang id b).barrier tok gang j = if j = id then b else s.barrier tok gang j := by
  unfold State.setBarrier
  by_cases h : gang = false
  · simp only [if_pos h, State.barrier, State.setCrew, State.crew, FMap.get_set_self]
    exact FMap.get_set ..
  · by_cases h0 : (s.crew tok).gang = 0
    · simp only [State.crew] at h0
      simp only [if_neg h, State.barrier, State.setCrew, State.crew, FMap.get_set_self, h0, if_true, ownGangBarrier, FMap.get_set]
      simp
    · simp only [State.crew] at h0
      simp only [if_neg h, State.barrier, State.setGang, State.crew, State.gang, FMap.get_set_self, h0, if_false]
      exact FMap.get_set ..

end

/-- A barrier is where crews and gangs are. -/
theorem State.barrier_congr {s t : State} (hc : t.crews = s.crews) (hg : t.gangs = s.gangs) (tok : Nat) (gang : Bool) (id : Nat) :
    t.barrier tok gang id = s.barrier tok gang id := by
  unfold State.barrier State.crew State.gang
  rw [hc, hg]

/-! ### What arrivals and releases keep -/

/-- Everything but waits, lanes, barriers and L1 lines. -/
structure BarKept (s t : State) : Prop where
  frame : t = { s with warps := t.warps, crews := t.crews, gangs := t.gangs, cores := t.cores }
  crew : ∀ c, t.crew c = { s.crew c with barriers := (t.crew c).barriers }
  gang : ∀ g, t.gang g = { s.gang g with barriers := (t.gang g).barriers }
  core : ∀ c, t.core c = { s.core c with l1 := (t.core c).l1 }
  live : ∀ w, (t.warp w).live = (s.warp w).live

namespace BarKept
variable {s t u : State}

theorem refl (s : State) : BarKept s s := ⟨rfl, fun _ => rfl, fun _ => rfl, fun _ => rfl, fun _ => rfl⟩

theorem trans (h : BarKept s t) (k : BarKept t u) : BarKept s u where
  frame := by rw [k.frame]; rw [h.frame]
  crew c := by rw [k.crew, h.crew]
  gang g := by rw [k.gang, h.gang]
  core c := by rw [k.core, h.core]
  live w := (k.live w).trans (h.live w)

theorem cur (h : BarKept s t) : t.cur = s.cur := by rw [h.frame]
theorem cycle (h : BarKept s t) : t.cycle = s.cycle := by rw [h.frame]

theorem gangOf (h : BarKept s t) (tok : Nat) : t.gangOf tok = s.gangOf tok := by
  have member : (t.crew tok).gang = (s.crew tok).gang := by rw [h.crew]
  have crews : ∀ g, (t.gang g).crews = (s.gang g).crews := fun g => by rw [h.gang]
  simp only [State.gangOf, member, crews]

theorem barrierWarps (h : BarKept s t) (tok : Nat) (gang : Bool) : t.barrierWarps tok gang = s.barrierWarps tok gang := by
  have warps : t.warpsOf = s.warpsOf := funext (State.warpsOf_congr h.live)
  rw [State.barrierWarps, h.gangOf, warps]
  rfl

theorem setBarrier (s : State) (tok : Nat) (gang : Bool) (id : Nat) (b : Barrier) : BarKept s (s.setBarrier tok gang id b) where
  frame := by rw [State.setBarrier_frame]
  crew := s.setBarrier_crew tok gang id b
  gang := s.setBarrier_gang tok gang id b
  core c := by rw [State.core, State.setBarrier_cores]; rfl
  live w := by rw [State.setBarrier_warp]

theorem setWarp (s : State) (w : Nat) {x : Warp} (h : x.live = (s.warp w).live) : BarKept s (s.setWarp w x) :=
  ⟨rfl, fun _ => rfl, fun _ => rfl, fun _ => rfl, State.live_setWarp h⟩

end BarKept

/-! ### Emptying the L1 of a gang's cores (R101) -/

theorem State.emptyL1_frame (s : State) (c : Nat) : s.emptyL1 c = { s with cores := (s.emptyL1 c).cores } := by
  unfold State.emptyL1
  dsimp only
  split <;> rfl

theorem State.emptyL1_core (s : State) (c j : Nat) :
    (s.emptyL1 c).core j = { s.core j with l1 := if j = c then [] else (s.core j).l1 } := by
  unfold State.emptyL1
  dsimp only
  split
  case isTrue h =>
    by_cases e : j = c
    · subst e; rw [if_pos rfl, ← List.isEmpty_iff.1 h]
    · rw [if_neg e]
  case isFalse h =>
    by_cases e : j = c
    · subst e; rw [if_pos rfl]; exact FMap.get_set_self ..
    · rw [if_neg e]; exact FMap.get_set_ne _ _ e

/-- The L1 of each listed crew's core emptied: nothing else changes. -/
theorem foldl_emptyL1 (cs : List Nat) (s : State) :
    let t := cs.foldl (fun s c => s.emptyL1 (s.crew c).core) s
    t = { s with cores := t.cores } ∧ (∀ j, t.core j = { s.core j with l1 := (t.core j).l1 })
      ∧ (∀ j, (s.core j).l1 = [] → (t.core j).l1 = []) ∧ ∀ c ∈ cs, (t.core (s.crew c).core).l1 = [] := by
  induction cs generalizing s with
  | nil => exact ⟨rfl, fun _ => rfl, fun _ h => h, by simp⟩
  | cons c cs ih =>
    obtain ⟨h1, h2, h3, h4⟩ := ih (s.emptyL1 (s.crew c).core)
    have crew : ∀ k, (s.emptyL1 (s.crew c).core).crew k = s.crew k := fun k => by rw [State.emptyL1_frame]; rfl
    rw [List.foldl_cons]
    refine ⟨?_, fun j => ?_, fun j hj => h3 j ?_, fun k hk => ?_⟩
    · rw [h1, State.emptyL1_frame]
    · rw [h2, State.emptyL1_core]
    · rw [State.emptyL1_core, hj]
      exact ite_self _
    · rcases List.mem_cons.1 hk with rfl | hk
      · exact h3 _ (by rw [State.emptyL1_core, if_pos rfl])
      · have := h4 k hk
        rwa [crew] at this

/-! ### One warp while lanes arrive -/

/-- Every wait of a warp on a barrier released (R31). -/
def Warp.freeBar (x : Warp) (cycle : Nat) (gang : Bool) (id : Nat) : Warp :=
  (x.waits.filter fun r => r.wait == .bar gang id).foldl (fun x r => x.release cycle r r.lanes) x

theorem Releases.rest (cycle : Nat) (rs : List WaitRec) (x : Warp) :
    ∃ l ws, rs.foldl (fun x r => x.release cycle r r.lanes) x = { x with lanes := l, waits := ws } := by
  induction rs generalizing x with
  | nil => exact ⟨_, _, rfl⟩
  | cons r rs ih =>
    obtain ⟨l, ws, e⟩ := ih (x.release cycle r r.lanes)
    exact ⟨l, ws, by rw [List.foldl_cons, e, Warp.release_rest]⟩

/-- The waits of lanes that arrive by an instruction at `pc` (R31). -/
structure Arrival where
  pc : DWord
  len : Nat
  port : Nat
  gang : Bool
  id : Nat

def Arrival.wait (a : Arrival) (l : Nat) : WaitRec := ⟨laneBit l, a.pc, a.len, a.port, .bar a.gang a.id⟩

/-- The waits on the same barrier. -/
def Arrival.mine (a : Arrival) (r : WaitRec) : Bool := r.wait == .bar a.gang a.id

@[simp] theorem Arrival.mine_wait (a : Arrival) (l : Nat) : a.mine (a.wait l) = true := by simp [Arrival.mine, Arrival.wait]

/-- A warp `y` that was `x`: lanes `done` of it arrived and went on, `open_` wait; and every wait of before is released, if an
round was completed. -/
structure Passed (a : Arrival) (cycle : Nat) (x y : Warp) (done open_ : List Nat) (completed : Bool) : Prop where
  waits : y.waits = (if completed then x.waits.filter (fun r => !a.mine r) else x.waits) ++ open_.map a.wait
  rest : y = { x with lanes := y.lanes, waits := y.waits }
  before : completed = true → ∀ r ∈ x.waits, a.mine r = true → ∀ l, r.lanes.getLsbD l = true → y.lane l = r.past cycle (x.lane l)
  after : ∀ l ∈ done, y.lane l = (a.wait l).past cycle (x.lane l)
  stay : ∀ l, (completed = true → ∀ r ∈ x.waits, a.mine r = true → r.lanes.getLsbD l = false) → l ∉ done → y.lane l = x.lane l

section
variable {a : Arrival} {cycle : Nat} {x y : Warp} {done open_ : List Nat} {completed : Bool}

theorem Passed.refl (a : Arrival) (cycle : Nat) (x : Warp) : Passed a cycle x x [] [] false where
  waits := by simp
  rest := rfl
  before := by simp
  after := by simp
  stay _ _ _ := rfl

/-- One more lane waits. -/
theorem Passed.await (h : Passed a cycle x y done open_ completed) (l : Nat) :
    Passed a cycle x (y.await (a.wait l)) done (open_ ++ [l]) completed where
  waits := by rw [Warp.await, h.waits]; simp
  rest := by rw [h.rest]; rfl
  before := h.before
  after := h.after
  stay := h.stay

/-- The lanes that waited before, and those that arrive, are apart, each lane below 32. -/
structure Arrivers (a : Arrival) (x : Warp) (ls : List Nat) : Prop where
  apart : Apart (x.waits ++ ls.map a.wait)
  bound : ∀ l ∈ ls, l < 32

theorem Arrivers.wait_lane {ls : List Nat} (h : Arrivers a x ls) {l : Nat} (hl : l ∈ ls) : (a.wait l).lanes.getLsbD l = true :=
  (laneBit_getLsbD_iff (h.bound l hl)).2 rfl

theorem Arrivers.wait_lane_eq {ls : List Nat} (h : Arrivers a x ls) {k l : Nat} (hk : k ∈ ls) (hl : (a.wait k).lanes.getLsbD l = true) :
    l = k := (laneBit_getLsbD_iff (h.bound k hk)).1 hl

/-- A lane that arrives waited for nothing. -/
theorem Arrivers.before {ls : List Nat} (h : Arrivers a x ls) {l : Nat} (hl : l ∈ ls) {r : WaitRec} (hr : r ∈ x.waits) :
    r.lanes.getLsbD l = false := by
  have := (List.pairwise_append.1 h.apart.2).2.2 r hr _ (List.mem_map_of_mem hl)
  cases e : r.lanes.getLsbD l
  · rfl
  · exact absurd (h.wait_lane hl) (by simp [and_eq_zero.1 this l e])

theorem Arrivers.waits {ls : List Nat} (h : Arrivers a x ls) : Apart x.waits :=
  ⟨fun r hr => h.apart.1 r (List.mem_append_left _ hr), (List.pairwise_append.1 h.apart.2).1⟩

/-- The waits are of before or of the open round. -/
theorem Passed.mem_waits (h : Passed a cycle x y done open_ completed) {r : WaitRec} (hr : r ∈ y.waits) :
    (r ∈ x.waits ∧ (completed = true → a.mine r = false)) ∨ ∃ k ∈ open_, r = a.wait k := by
  rw [h.waits, List.mem_append, List.mem_map] at hr
  refine hr.imp (fun hr => ?_) fun ⟨k, hk, e⟩ => ⟨k, hk, e.symm⟩
  cases completed
  · exact ⟨hr, fun hc => absurd hc Bool.false_ne_true⟩
  · exact ⟨(List.mem_filter.1 hr).1, fun _ => by simpa using (List.mem_filter.1 hr).2⟩

theorem Passed.apart (h : Passed a cycle x y done open_ completed) (ha : Arrivers a x (done ++ open_)) : Apart y.waits := by
  have sub : y.waits.Sublist (x.waits ++ (done ++ open_).map a.wait) := by
    rw [h.waits, List.map_append]
    refine List.Sublist.append ?_ (List.sublist_append_right _ _)
    split
    · exact List.filter_sublist
    · exact List.Sublist.refl _
  exact ⟨fun r hr => ha.apart.1 r (sub.subset hr), ha.apart.2.sublist sub⟩

/-- The round completes: everyone of it goes on. -/
theorem Passed.free (h : Passed a cycle x y done open_ completed) (ha : Arrivers a x (done ++ open_)) (hn : done.Disjoint open_) :
    Passed a cycle x (y.freeBar cycle a.gang a.id) (done ++ open_) [] true := by
  have apart := h.apart ha
  have mine : ∀ r, r ∈ y.waits.filter (fun r => r.wait == Wait.bar a.gang a.id) ↔ r ∈ y.waits ∧ a.mine r = true := fun r => List.mem_filter
  have kept : ∀ l, (∀ r ∈ y.waits, a.mine r = true → r.lanes.getLsbD l = false) → (y.freeBar cycle a.gang a.id).lane l = y.lane l :=
    fun l hl => (Releases.release cycle).lane_other (fun r hr => hl r ((mine r).1 hr).1 ((mine r).1 hr).2) y
  have past : ∀ r ∈ y.waits, a.mine r = true → ∀ l, r.lanes.getLsbD l = true →
      (y.freeBar cycle a.gang a.id).lane l = r.past cycle (y.lane l) :=
    fun r hr hm l hl => (Releases.release cycle).lane_mem (apart.filter _) ((mine r).2 ⟨hr, hm⟩) hl y
  have open_only : ∀ l, (∀ r ∈ x.waits, completed = false → a.mine r = true → r.lanes.getLsbD l = false) → l ∉ open_ →
      (y.freeBar cycle a.gang a.id).lane l = y.lane l := fun l hx ho => kept l fun r hr hm => by
    rcases h.mem_waits hr with ⟨hb, hc⟩ | ⟨k, hk, rfl⟩
    · exact hx r hb (Bool.eq_false_iff.2 fun c => by simp [hc c] at hm) hm
    · refine Bool.eq_false_iff.2 fun hl => ho ?_
      rwa [ha.wait_lane_eq (List.mem_append_right _ hk) hl]
  have arrived : ∀ l ∈ done ++ open_, ∀ r ∈ x.waits, r.lanes.getLsbD l = false := fun l hl r hr => ha.before hl hr
  refine ⟨?_, ?_, fun _ r hr hm l hl => ?_, fun l hl => ?_, fun l hb hl => ?_⟩
  · refine ((Releases.release cycle).waits_filter y apart _).trans ?_
    rw [h.waits, List.filter_append]
    have gone : (open_.map a.wait).filter (fun r => !a.mine r) = [] := by simp [List.filter_eq_nil_iff]
    have once : (if completed then x.waits.filter (fun r => !a.mine r) else x.waits).filter (fun r => !a.mine r)
        = x.waits.filter fun r => !a.mine r := by
      cases completed
      · rfl
      · simp [List.filter_filter]
    exact congrArg₂ (· ++ ·) once gone
  · obtain ⟨ls, ws, e⟩ := Releases.rest cycle (y.waits.filter fun r => r.wait == .bar a.gang a.id) y
    rw [Warp.freeBar, e, h.rest]
  · have away : l ∉ done ++ open_ := fun hd => by simp [arrived l hd r hr] at hl
    cases completed with
    | true =>
      exact (open_only l (fun _ _ hc => absurd hc (Bool.false_ne_true ∘ Eq.symm)) fun ho => away (List.mem_append_right _ ho)).trans
        (h.before rfl r hr hm l hl)
    | false =>
      rw [past r (h.waits ▸ List.mem_append_left _ hr) hm l hl,
        h.stay l (fun hc => absurd hc Bool.false_ne_true) fun hd => away (List.mem_append_left _ hd)]
  · rcases List.mem_append.1 hl with hd | ho
    · rw [open_only l (fun r hr _ _ => arrived l hl r hr) (hn hd)]
      exact h.after l hd
    · rw [past (a.wait l) (h.waits ▸ List.mem_append_right _ (List.mem_map_of_mem ho)) (a.mine_wait l) l (ha.wait_lane hl),
        h.stay l (fun _ r hr _ => arrived l hl r hr) fun hd => hn hd ho]
  · rw [List.mem_append, not_or] at hl
    rw [open_only l (fun r hr _ hm => hb rfl r hr hm) hl.2, h.stay l (fun _ => hb rfl) hl.1]

end

/-! ### One lane arrives -/

/-- An arrival before it is looked at whether it completes the round: the barrier counts it, and in the blocking forms it waits. -/
def State.joinBar (s : State) (w l : Nat) (gang : Bool) (id : Nat) (b : Barrier) (block : Bool) (len : Nat) : State :=
  let s := s.setBarrier (crewTok w) gang id b
  if block then s.setWarp w ((s.warp w).await ⟨laneBit l, s.cur.pc, len, s.cur.port, .bar gang id⟩) else s

theorem State.arriveBar_eq (s : State) (w l : Nat) (gang : Bool) (id count : Nat) (block : Bool) (len : Nat) :
    let n := (s.barrier (crewTok w) gang id).arrived + 1
    s.arriveBar w l gang id count block len =
      if n < count then s.joinBar w l gang id ⟨count, n⟩ block len
      else ((s.joinBar w l gang id ⟨count, n⟩ block len).setBarrier (crewTok w) gang id ⟨0, 0⟩).releaseBar (crewTok w) gang id := rfl

section
variable (s : State) (w l : Nat) (gang : Bool) (id : Nat) (b : Barrier) (block : Bool) (len : Nat)

theorem State.joinBar_or :
    (block = true ∧ s.joinBar w l gang id b block len = (s.setBarrier (crewTok w) gang id b).setWarp w
        ((s.warp w).await ⟨laneBit l, s.cur.pc, len, s.cur.port, .bar gang id⟩))
      ∨ block = false ∧ s.joinBar w l gang id b block len = s.setBarrier (crewTok w) gang id b := by
  cases block with
  | true => exact .inl ⟨rfl, by simp [State.joinBar]⟩
  | false => exact .inr ⟨rfl, rfl⟩

theorem State.joinBar_kept : BarKept s (s.joinBar w l gang id b block len) := by
  have set := BarKept.setBarrier s (crewTok w) gang id b
  rcases s.joinBar_or w l gang id b block len with ⟨-, e⟩ | ⟨-, e⟩ <;> rw [e]
  · exact set.trans (.setWarp _ _ (by rw [State.setBarrier_warp]; rfl))
  · exact set

theorem State.joinBar_cores : (s.joinBar w l gang id b block len).cores = s.cores := by
  rcases s.joinBar_or w l gang id b block len with ⟨-, e⟩ | ⟨-, e⟩ <;> rw [e]
  · exact State.setBarrier_cores ..
  · exact State.setBarrier_cores ..

theorem State.joinBar_crew_ne {c : Nat} (h : c ≠ crewTok w) : (s.joinBar w l gang id b block len).crew c = s.crew c := by
  rcases s.joinBar_or w l gang id b block len with ⟨-, e⟩ | ⟨-, e⟩ <;> rw [e]
  · exact State.setBarrier_crew_ne _ _ _ _ _ h
  · exact State.setBarrier_crew_ne _ _ _ _ _ h

theorem State.joinBar_barrier (j : Nat) : (s.joinBar w l gang id b block len).barrier (crewTok w) gang j
    = if j = id then b else s.barrier (crewTok w) gang j := by
  rw [← State.barrier_setBarrier]
  rcases s.joinBar_or w l gang id b block len with ⟨-, e⟩ | ⟨-, e⟩ <;> rw [e]
  rfl

theorem State.joinBar_warp (v : Nat) : (s.joinBar w l gang id b block len).warp v =
    if block = true ∧ v = w then (s.warp w).await ⟨laneBit l, s.cur.pc, len, s.cur.port, .bar gang id⟩ else s.warp v := by
  rcases s.joinBar_or w l gang id b block len with ⟨hb, e⟩ | ⟨hb, e⟩ <;> rw [e]
  · by_cases h : v = w
    · rw [if_pos ⟨hb, h⟩, h, State.warp_setWarp_self]
    · rw [if_neg fun e => h e.2, State.warp_setWarp_ne _ _ h, State.setBarrier_warp]
  · rw [if_neg fun e => by simp [hb] at e, State.setBarrier_warp]

end

/-! ### Releasing (R31, R101) -/

/-- Every wait of the listed warps on a barrier released. -/
def State.freeBars (s : State) (ws : List Nat) (gang : Bool) (id : Nat) : State :=
  ws.foldl (fun s w => s.setWarp w ((s.warp w).freeBar s.cycle gang id)) s

theorem State.releaseBar_eq (s : State) (tok : Nat) (gang : Bool) (id : Nat) :
    let t := s.freeBars (s.barrierWarps tok gang) gang id
    s.releaseBar tok gang id = if gang then (t.gangOf tok).foldl (fun s c => s.emptyL1 (s.crew c).core) t else t := rfl

theorem Warp.freeBar_live (x : Warp) (cycle : Nat) (gang : Bool) (id : Nat) : (x.freeBar cycle gang id).live = x.live := by
  obtain ⟨l, ws, e⟩ := Releases.rest cycle (x.waits.filter fun r => r.wait == .bar gang id) x
  rw [Warp.freeBar, e]

section
variable (gang : Bool) (id : Nat)

theorem State.freeBars_frame (ws : List Nat) (s : State) : s.freeBars ws gang id = { s with warps := (s.freeBars ws gang id).warps } := by
  induction ws generalizing s with
  | nil => rfl
  | cons w ws ih => rw [State.freeBars, List.foldl_cons]; exact ih (s.setWarp w _)

theorem State.freeBars_live (ws : List Nat) (s : State) (v : Nat) : ((s.freeBars ws gang id).warp v).live = (s.warp v).live := by
  induction ws generalizing s with
  | nil => rfl
  | cons w ws ih => exact (ih (s.setWarp w _)).trans (State.live_setWarp (Warp.freeBar_live ..) v)

theorem State.freeBars_kept (ws : List Nat) (s : State) : BarKept s (s.freeBars ws gang id) where
  frame := by rw [State.freeBars_frame]
  crew _ := by rw [State.freeBars_frame]; rfl
  gang _ := by rw [State.freeBars_frame]; rfl
  core _ := by rw [State.freeBars_frame]; rfl
  live := State.freeBars_live gang id ws s

theorem State.freeBars_warp_ne {ws : List Nat} {v : Nat} (h : v ∉ ws) (s : State) : (s.freeBars ws gang id).warp v = s.warp v := by
  induction ws generalizing s with
  | nil => rfl
  | cons w ws ih =>
    rw [List.mem_cons, not_or] at h
    exact (ih h.2 (s.setWarp w _)).trans (State.warp_setWarp_ne _ _ h.1)

/-- What one release gives a listed warp and a further one keeps holds of it in the end. -/
theorem State.freeBars_warp {ws : List Nat} {v : Nat} (hv : v ∈ ws) {s : State} {P : Warp → Prop}
    (hkeep : ∀ x, P x → P (x.freeBar s.cycle gang id)) (hone : P ((s.warp v).freeBar s.cycle gang id)) :
    P ((s.freeBars ws gang id).warp v) := by
  have keep : ∀ (ws : List Nat) (t : State), t.cycle = s.cycle → P (t.warp v) → P ((t.freeBars ws gang id).warp v) := by
    intro ws
    induction ws with
    | nil => exact fun _ _ h => h
    | cons w ws ih =>
      intro t ht h
      refine ih (t.setWarp w _) ht ?_
      by_cases e : v = w
      · subst e; rw [State.warp_setWarp_self, ht]; exact hkeep _ h
      · rwa [State.warp_setWarp_ne _ _ e]
  induction ws generalizing s with
  | nil => cases hv
  | cons w ws ih =>
    by_cases e : v = w
    · subst e
      refine keep ws (s.setWarp v _) rfl ?_
      rwa [State.warp_setWarp_self]
    · refine ih ((List.mem_cons.1 hv).resolve_left e) (s := s.setWarp w _) hkeep ?_ keep
      rwa [State.warp_setWarp_ne _ _ e]

end

/-- What a release leaves and what it empties. -/
structure Released (s t : State) (tok : Nat) (gang : Bool) (id : Nat) : Prop where
  kept : BarKept s t
  crews : t.crews = s.crews
  gangs : t.gangs = s.gangs
  warp : ∀ w, t.warp w = (s.freeBars (s.barrierWarps tok gang) gang id).warp w
  cores : gang = false → t.cores = s.cores
  emptied : gang = true → ∀ c ∈ s.gangOf tok, (t.core (s.crew c).core).l1 = []

theorem State.releaseBar_spec (s : State) (tok : Nat) (gang : Bool) (id : Nat) :
    Released s (s.releaseBar tok gang id) tok gang id := by
  have kept := s.freeBars_kept gang id (s.barrierWarps tok gang)
  have frame := s.freeBars_frame gang id (s.barrierWarps tok gang)
  rw [State.releaseBar_eq]
  cases gang with
  | false => exact ⟨kept, by rw [frame]; rfl, by rw [frame]; rfl, fun _ => rfl, fun _ => by rw [frame]; rfl, by simp⟩
  | true =>
    obtain ⟨h1, h2, -, h4⟩ := foldl_emptyL1 ((s.freeBars (s.barrierWarps tok true) true id).gangOf tok)
      (s.freeBars (s.barrierWarps tok true) true id)
    have empty : BarKept (s.freeBars (s.barrierWarps tok true) true id) _ :=
      ⟨by rw [h1], fun _ => by rw [h1]; rfl, fun _ => by rw [h1]; rfl, h2, fun _ => by rw [h1]; rfl⟩
    refine ⟨kept.trans empty, ?_, ?_, fun _ => ?_, by simp, fun _ c hc => ?_⟩
    · rw [if_pos rfl, h1, frame]
    · rw [if_pos rfl, h1, frame]
    · rw [if_pos rfl, h1]; rfl
    · rw [← kept.gangOf] at hc
      have := h4 c hc
      rwa [kept.crew] at this

/-! ### Arrivals that leave the round open -/

section
variable (s : State) (gang block : Bool) (id count len : Nat)

/-- The barrier that the issuing warp arrives on, before. -/
def State.oldBar : Barrier := s.barrier (crewTok s.cur.warp) gang id

/-- The waits of the issuing lanes on it. -/
def State.arrival : Arrival := ⟨s.cur.pc, len, s.cur.port, gang, id⟩

/-- Lanes `ls` have arrived, and the round is open. -/
structure BarJoined (t : State) (ls : List Nat) : Prop where
  kept : BarKept s t
  cores : t.cores = s.cores
  barrier : t.oldBar gang id = if ls = [] then s.oldBar gang id else ⟨count, (s.oldBar gang id).arrived + ls.length⟩
  other : ∀ j, j ≠ id → t.oldBar gang j = s.oldBar gang j
  curWarp : t.curWarp = if block then { s.curWarp with waits := s.curWarp.waits ++ ls.map (s.arrival gang id len).wait } else s.curWarp
  warp : ∀ w, w ≠ s.cur.warp → t.warp w = s.warp w
  crew : ∀ c, c ≠ crewTok s.cur.warp → t.crew c = s.crew c

variable {s gang block id count len} {t : State} {ls : List Nat}

theorem BarJoined.refl : BarJoined s gang block id count len s [] :=
  ⟨.refl s, rfl, rfl, fun _ _ => rfl, by simp, fun _ _ => rfl, fun _ _ => rfl⟩

theorem BarJoined.arrived (h : BarJoined s gang block id count len t ls) :
    (t.oldBar gang id).arrived = (s.oldBar gang id).arrived + ls.length := by
  rw [h.barrier]
  split
  case isTrue e => rw [e]; rfl
  case isFalse => rfl

/-- Joining sets the one barrier. -/
theorem BarKept.oldBar_joinBar (h : BarKept s t) (l : Nat) (b : Barrier) (j : Nat) :
    (t.joinBar s.cur.warp l gang id b block len).oldBar gang j = if j = id then b else t.oldBar gang j := by
  rw [State.oldBar, State.oldBar, (State.joinBar_kept ..).cur, h.cur]
  exact State.joinBar_barrier ..

/-- One more lane arrives, and the count is not reached (R31, R32). -/
theorem BarJoined.step (h : BarJoined s gang block id count len t ls) (hn : (s.oldBar gang id).arrived + ls.length + 1 < count) (l : Nat) :
    BarJoined s gang block id count len (t.arriveBar s.cur.warp l gang id count block len) (ls ++ [l]) := by
  have cur := h.kept.cur
  have arrived := h.arrived
  rw [State.oldBar, cur] at arrived
  rw [State.arriveBar_eq, if_pos (by rw [arrived]; exact hn), arrived]
  let b : Barrier := ⟨count, (s.oldBar gang id).arrived + ls.length + 1⟩
  let j := t.joinBar s.cur.warp l gang id b block len
  have kept : BarKept t j := State.joinBar_kept ..
  have bar : ∀ k, j.oldBar gang k = if k = id then b else t.oldBar gang k := h.kept.oldBar_joinBar l b
  have warp : ∀ v, j.warp v = if block = true ∧ v = s.cur.warp then (t.warp s.cur.warp).await ((s.arrival gang id len).wait l) else t.warp v :=
    fun v => by
      refine (State.joinBar_warp ..).trans ?_
      rw [cur]
      rfl
  refine ⟨h.kept.trans kept, (State.joinBar_cores ..).trans h.cores, ?_, fun k hk => ?_, ?_, fun w hw => ?_, fun c hc => ?_⟩
  · rw [bar, if_pos rfl, if_neg (by simp), List.length_append]
    rfl
  · rw [bar, if_neg hk, h.other k hk]
  · have cw : t.warp s.cur.warp = t.curWarp := by rw [State.curWarp, cur]
    rw [State.curWarp, kept.cur, cur, warp, cw, h.curWarp]
    cases block
    · rfl
    · simp [Warp.await]
  · rw [warp, if_neg fun e => hw e.2, h.warp w hw]
  · exact (State.joinBar_crew_ne _ _ _ _ _ _ _ _ hc).trans (h.crew c hc)

theorem BarJoined.all (h : BarJoined s gang block id count len t ls) {ks : List Nat}
    (hn : (s.oldBar gang id).arrived + ls.length + ks.length < count) :
    BarJoined s gang block id count len (ks.foldl (fun t l => t.arriveBar s.cur.warp l gang id count block len) t) (ls ++ ks) := by
  induction ks generalizing t ls with
  | nil => rwa [List.append_nil]
  | cons k ks ih =>
    rw [List.length_cons] at hn
    rw [List.foldl_cons, show ls ++ k :: ks = (ls ++ [k]) ++ ks by simp]
    exact ih (h.step (by omega) k) (by rw [List.length_append]; simp; omega)

end

/-! ### Arrivals that may complete it -/

section
variable (s : State) (gang block : Bool) (id count len : Nat)

/-- Of arrived lanes, those that a warp holds: all of them the issuing warp, in the blocking forms. -/
def State.ownArrivals (w : Nat) (ls : List Nat) : List Nat := if block = true ∧ w = s.cur.warp then ls else []

/-- The arrivals that the open round had before the lanes of this instruction that it holds. -/
def State.arrivedBefore (completed : Bool) : Nat := if completed then 0 else (s.oldBar gang id).arrived

/-- The warps that share the barrier. -/
def State.sharing : List Nat := s.barrierWarps (crewTok s.cur.warp) gang

/-- Lanes `done` and then lanes `open_` have arrived: the first went on, or would have, with rounds that completed, the
second stand in the open one. -/
structure Arriving (t : State) (done open_ : List Nat) (completed : Bool) : Prop where
  kept : BarKept s t
  barrier : t.oldBar gang id =
    if open_ = [] then (if completed then ⟨0, 0⟩ else s.oldBar gang id) else ⟨count, s.arrivedBefore gang id completed + open_.length⟩
  other : ∀ j, j ≠ id → t.oldBar gang j = s.oldBar gang j
  short : s.arrivedBefore gang id completed + open_.length < count
  whole : if completed then count ∣ (s.oldBar gang id).arrived + done.length else done = []
  warps : ∀ w ∈ s.sharing gang, Passed (s.arrival gang id len) s.cycle (s.warp w) (t.warp w) (s.ownArrivals block w done)
    (s.ownArrivals block w open_) completed
  apart : ∀ w, w ∉ s.sharing gang → t.warp w = s.warp w
  cores : gang = false → t.cores = s.cores
  emptied : gang = true → completed = true → ∀ c ∈ s.gangOf (crewTok s.cur.warp), (t.core (s.crew c).core).l1 = []

variable {s gang block id count len} {t : State} {done open_ : List Nat} {completed : Bool}

theorem State.ownArrivals_append (w : Nat) (ls ks : List Nat) :
    s.ownArrivals block w (ls ++ ks) = s.ownArrivals block w ls ++ s.ownArrivals block w ks := by
  unfold State.ownArrivals
  split <;> rfl

theorem Arriving.refl (h : (s.oldBar gang id).arrived < count) : Arriving s gang block id count len s [] [] false where
  kept := .refl s
  barrier := rfl
  other _ _ := rfl
  short := h
  whole := rfl
  warps w _ := by
    have none : s.ownArrivals block w [] = [] := ite_self _
    rw [none]
    exact Passed.refl ..
  apart _ _ := rfl
  cores _ := rfl
  emptied _ h := absurd h Bool.false_ne_true

theorem Arriving.arrived (h : Arriving s gang block id count len t done open_ completed) :
    (t.oldBar gang id).arrived = s.arrivedBefore gang id completed + open_.length := by
  rw [h.barrier]
  split
  case isTrue e => rw [e]; cases completed <;> rfl
  case isFalse => rfl

/-- The lane joined: it waits with the open ones. -/
theorem Arriving.joined_warp (h : Arriving s gang block id count len t done open_ completed) (l : Nat) (b : Barrier) {w : Nat}
    (hw : w ∈ s.sharing gang) :
    Passed (s.arrival gang id len) s.cycle (s.warp w) ((t.joinBar s.cur.warp l gang id b block len).warp w) (s.ownArrivals block w done)
      (s.ownArrivals block w (open_ ++ [l])) completed := by
  rw [State.joinBar_warp, State.ownArrivals_append]
  have kept := h.warps w hw
  by_cases e : block = true ∧ w = s.cur.warp
  · have all : ∀ ls, s.ownArrivals block w ls = ls := fun _ => if_pos e
    rw [if_pos e, ← e.2, h.kept.cur, all, all, all]
    rw [all, all] at kept
    exact kept.await l
  · have none : s.ownArrivals block w [l] = [] := if_neg e
    rwa [if_neg e, none, List.append_nil]

/-- One more lane arrives, and the count is not reached (R31). -/
theorem Arriving.join (h : Arriving s gang block id count len t done open_ completed) (hc : s.cur.warp ∈ s.sharing gang)
    (hn : s.arrivedBefore gang id completed + open_.length + 1 < count) (l : Nat) :
    Arriving s gang block id count len (t.arriveBar s.cur.warp l gang id count block len) done (open_ ++ [l]) completed := by
  have arrived := h.arrived
  rw [State.oldBar, h.kept.cur] at arrived
  rw [State.arriveBar_eq, if_pos (by rw [arrived]; exact hn), arrived]
  have apart : ∀ w, w ∉ s.sharing gang → ¬ (block = true ∧ w = s.cur.warp) := fun w hw e => hw (e.2 ▸ hc)
  refine ⟨h.kept.trans (State.joinBar_kept ..), ?_, fun j hj => ?_, ?_, h.whole, fun w => h.joined_warp l _, fun w hw => ?_,
    fun hg => (State.joinBar_cores ..).trans (h.cores hg), fun hg hd c hm => ?_⟩
  · rw [h.kept.oldBar_joinBar, if_pos rfl, if_neg (by simp), List.length_append]
    rfl
  · rw [h.kept.oldBar_joinBar, if_neg hj, h.other j hj]
  · rw [List.length_append]
    exact hn
  · rw [State.joinBar_warp, if_neg (apart w hw), h.apart w hw]
  · rw [State.core, State.joinBar_cores]
    exact h.emptied hg hd c hm

/-- One more lane arrives, and the count is reached: all of the round go on (R31). -/
theorem Arriving.complete (h : Arriving s gang block id count len t done open_ completed) (hc : s.cur.warp ∈ s.sharing gang)
    (hn : s.arrivedBefore gang id completed + open_.length + 1 = count) (l : Nat)
    (ha : ∀ w ∈ s.sharing gang, Arrivers (s.arrival gang id len) (s.warp w) (s.ownArrivals block w (done ++ (open_ ++ [l]))))
    (hd : done.Disjoint (open_ ++ [l])) :
    Arriving s gang block id count len (t.arriveBar s.cur.warp l gang id count block len) (done ++ (open_ ++ [l])) [] true := by
  have arrived := h.arrived
  rw [State.oldBar, h.kept.cur] at arrived
  rw [State.arriveBar_eq, if_neg (by rw [arrived]; omega), arrived]
  let j := t.joinBar s.cur.warp l gang id ⟨count, s.arrivedBefore gang id completed + open_.length + 1⟩ block len
  let u := j.setBarrier (crewTok s.cur.warp) gang id ⟨0, 0⟩
  have keptj : BarKept s j := h.kept.trans (State.joinBar_kept ..)
  have keptu : BarKept s u := keptj.trans (.setBarrier ..)
  have apart : ∀ w, w ∉ s.sharing gang → ¬ (block = true ∧ w = s.cur.warp) := fun w hw e => hw (e.2 ▸ hc)
  have released := u.releaseBar_spec (crewTok s.cur.warp) gang id
  have kept := keptu.trans released.kept
  have bar : ∀ k, (u.releaseBar (crewTok s.cur.warp) gang id).oldBar gang k = if k = id then ⟨0, 0⟩ else t.oldBar gang k := fun k => by
    rw [State.oldBar, kept.cur, State.barrier_congr released.crews released.gangs, State.barrier_setBarrier]
    by_cases e : k = id
    · rw [if_pos e, if_pos e]
    · have := h.kept.oldBar_joinBar (gang := gang) (id := id) (block := block) (len := len) l
        ⟨count, s.arrivedBefore gang id completed + open_.length + 1⟩ k
      rw [if_neg e] at this
      rw [if_neg e, if_neg e, ← this, State.oldBar, keptj.cur]
  refine ⟨kept, ?_, fun k hk => ?_, ?_, ?_, fun w hw => ?_, fun w hw => ?_, fun hg => ?_, fun hg _ c hm => ?_⟩
  · rw [bar, if_pos rfl]
    rfl
  · rw [bar, if_neg hk, h.other k hk]
  · exact Nat.lt_of_lt_of_le (Nat.succ_pos _) hn.le
  · have whole := h.whole
    rw [List.length_append, List.length_append]
    cases completed with
    | true =>
      obtain ⟨k, hk⟩ := whole
      exact ⟨k + 1, by rw [Nat.mul_add, ← hk, Nat.mul_one, ← hn]; simp [State.arrivedBefore]; omega⟩
    | false =>
      rw [show done = [] from whole]
      exact ⟨1, by rw [Nat.mul_one, ← hn]; simp [State.arrivedBefore]; omega⟩
  · have joined := h.joined_warp l ⟨count, s.arrivedBefore gang id completed + open_.length + 1⟩ hw
    have arrivers := ha w hw
    have disjoint : (s.ownArrivals block w done).Disjoint (s.ownArrivals block w (open_ ++ [l])) := by
      unfold State.ownArrivals
      split
      · exact hd
      · exact List.disjoint_nil_left _
    rw [State.ownArrivals_append] at arrivers
    have none : s.ownArrivals block w [] = [] := ite_self _
    rw [none, released.warp, keptu.barrierWarps, State.ownArrivals_append]
    refine State.freeBars_warp gang id hw (P := fun x => Passed _ _ _ x _ _ true) (fun x hx => ?_) ?_
    · have := hx.free (a := s.arrival gang id len) (by rwa [List.append_nil]) (List.disjoint_nil_right _)
      rw [List.append_nil] at this
      rw [keptu.cycle]
      exact this
    · rw [State.setBarrier_warp, keptu.cycle]
      exact joined.free arrivers disjoint
  · rw [released.warp, keptu.barrierWarps, ← State.sharing, State.freeBars_warp_ne _ _ hw, State.setBarrier_warp, State.joinBar_warp,
      if_neg (apart w hw), h.apart w hw]
  · rw [released.cores hg, State.setBarrier_cores, State.joinBar_cores, h.cores hg]
  · rw [← keptu.gangOf] at hm
    have := released.emptied hg c hm
    rwa [keptu.crew] at this

theorem Arrivers.of_append {a : Arrival} {x : Warp} {ls ks : List Nat} (h : Arrivers a x (ls ++ ks)) : Arrivers a x ls := by
  have sub : (x.waits ++ ls.map a.wait).Sublist (x.waits ++ (ls ++ ks).map a.wait) := by
    rw [List.map_append, ← List.append_assoc]
    exact List.sublist_append_left _ _
  exact ⟨⟨fun r hr => h.apart.1 r (sub.subset hr), h.apart.2.sublist sub⟩, fun l hl => h.bound l (List.mem_append_left _ hl)⟩

/-- Lanes that arrive one after the other on a barrier whose warps' waits are apart. -/
theorem Arriving.all (h : Arriving s gang block id count len t done open_ completed) (hc : s.cur.warp ∈ s.sharing gang) {ls : List Nat}
    (ha : ∀ w ∈ s.sharing gang, Arrivers (s.arrival gang id len) (s.warp w) (s.ownArrivals block w (done ++ open_ ++ ls)))
    (hd : (done ++ open_ ++ ls).Nodup) :
    ∃ done' open' completed', done' ++ open' = done ++ open_ ++ ls ∧ Arriving s gang block id count len
      (ls.foldl (fun t l => t.arriveBar s.cur.warp l gang id count block len) t) done' open' completed' := by
  induction ls generalizing t done open_ completed with
  | nil => exact ⟨done, open_, completed, (List.append_nil _).symm, h⟩
  | cons l ls ih =>
    have e : done ++ open_ ++ l :: ls = done ++ (open_ ++ [l]) ++ ls := by simp
    rw [e] at ha hd ⊢
    rcases Nat.lt_or_ge (s.arrivedBefore gang id completed + open_.length + 1) count with hn | hn
    · exact ih (h.join hc hn l) ha hd
    · have full := Nat.le_antisymm h.short hn
      have arrivers : ∀ w ∈ s.sharing gang, Arrivers (s.arrival gang id len) (s.warp w) (s.ownArrivals block w (done ++ (open_ ++ [l]))) :=
        fun w hw => by
          have := ha w hw
          rw [State.ownArrivals_append] at this
          exact this.of_append
      have := ih (h.complete hc full l arrivers (List.disjoint_of_nodup_append hd.of_append_left))
      rw [List.append_nil] at this
      exact this ha hd

/-- Arrivals that reach the count complete a round; those beyond its last multiple are the open round's. -/
theorem Arriving.split (h : Arriving s gang block id count len t done open_ completed) {m : LaneSet} (hs : done ++ open_ = lanesOf m)
    (hreach : count ≤ (s.oldBar gang id).arrived + laneCount m) :
    completed = true ∧ ((s.oldBar gang id).arrived + laneCount m) % count = open_.length
      ∧ (lanesOf m).drop (laneCount m - ((s.oldBar gang id).arrived + laneCount m) % count) = open_ := by
  have length : laneCount m = done.length + open_.length := by rw [← List.length_append, hs]; rfl
  obtain rfl : completed = true := by
    cases completed with
    | true => rfl
    | false =>
      have none : done = [] := h.whole
      have below : (s.oldBar gang id).arrived + open_.length < count := h.short
      rw [none, List.length_nil] at length
      omega
  have short : open_.length < count := by simpa [State.arrivedBefore] using h.short
  obtain ⟨k, hk⟩ : count ∣ (s.oldBar gang id).arrived + done.length := h.whole
  have rest : ((s.oldBar gang id).arrived + laneCount m) % count = open_.length := by
    rw [length, ← Nat.add_assoc, hk, Nat.mul_add_mod, Nat.mod_eq_of_lt short]
  refine ⟨rfl, rest, ?_⟩
  rw [rest, length, Nat.add_sub_cancel, ← hs, List.drop_left]

end

end Sys2Proof.Machine

namespace Sys2Proof

open Sys2Proof.Machine

/-! ### The four instructions -/

theorem exec_barForms {a : Operand} {id : Nat} {i : Instr} {gang block : Bool} {most : Nat} (h : (i, gang, block, most) ∈ barForms a id)
    (s : State) : exec i s = barOp i gang block a id s ∧ most = if gang then 16384 else 2048 := by
  simp only [barForms, List.mem_cons, Prod.mk.injEq, List.not_mem_nil, or_false] at h
  rcases h with ⟨rfl, rfl, rfl, rfl⟩ | ⟨rfl, rfl, rfl, rfl⟩ | ⟨rfl, rfl, rfl, rfl⟩ | ⟨rfl, rfl, rfl, rfl⟩ <;> exact ⟨rfl, rfl⟩

/-- An operand with one value in the executing lanes. -/
theorem lead32_of_all {s : State} {a : Operand} {x : Nat} (h : ∀ l, s.cur.lanes.getLsbD l = true → s.src32 s.cur.warp l a = x)
    (h0 : s.cur.lanes ≠ 0) : s.lead32 a = x ∧ s.same32 a = true := by
  refine ⟨h _ (leader_mem h0), ?_⟩
  have all : ∀ l ∈ lanesOf s.cur.lanes, s.src32 s.cur.warp l a = x := fun l hl => h l (mem_lanesOf.1 hl)
  unfold State.same32
  cases e : lanesOf s.cur.lanes with
  | nil => rfl
  | cons k ls =>
    rw [e] at all
    refine List.all_eq_true.2 fun l hl => ?_
    dsimp only
    rw [all l (List.mem_cons_of_mem _ hl), all k (List.mem_cons_self ..)]
    exact beq_self_eq_true x

/-- The lanes of a form without a wait move on. -/
def Machine.State.moveOn (t : State) (block : Bool) (n : Nat) : State := if block then t else t.advance n

section
variable (t : State) (block : Bool) (n : Nat)

theorem moveOn_frame : t.moveOn block n = { t with warps := (t.moveOn block n).warps } := by
  cases block <;> rfl

theorem moveOn_warp_ne {w : Nat} (h : w ≠ t.cur.warp) : (t.moveOn block n).warp w = t.warp w := by
  cases block
  · exact State.warp_setWarp_ne _ _ h
  · rfl

theorem moveOn_warp_self : (t.moveOn block n).warp t.cur.warp = if block then t.curWarp else t.curWarp.advance t.cur.lanes n := by
  cases block
  · exact State.warp_setWarp_self ..
  · rfl

theorem moveOn_lane (w l : Nat) : ((t.moveOn block n).warp w).lane l =
    if block = false ∧ w = t.cur.warp ∧ t.cur.lanes.getLsbD l = true then
      { (t.warp w).lane l with pc := ((t.warp w).lane l).pc + BitVec.ofNat 64 n }
    else (t.warp w).lane l := by
  by_cases h : w = t.cur.warp
  · subst h
    rw [moveOn_warp_self]
    cases block
    · simp only [Bool.false_eq_true, if_false, true_and, Warp.advance, Warp.lane_mapLanes]
      rfl
    · rfl
  · rw [moveOn_warp_ne _ _ _ h]
    exact (if_neg fun e => h e.2.1).symm

/-- Of the warps, the lanes alone. -/
theorem moveOn_warp (w : Nat) : (t.moveOn block n).warp w = { t.warp w with lanes := ((t.moveOn block n).warp w).lanes } := by
  by_cases h : w = t.cur.warp
  · subst h
    rw [moveOn_warp_self]
    cases block <;> rfl
  · rw [moveOn_warp_ne _ _ _ h]

end

/-- The lanes arrive one by one, if their count passes the checks; the forms without a wait then move on (R231). -/
theorem barOp_arrives {i : Instr} {gang block : Bool} {a : Operand} {id count : Nat} {s : State} (hc : clear i s = true)
    (hall : ∀ l, s.cur.lanes.getLsbD l = true → s.src32 s.cur.warp l a = count) (h0 : s.cur.lanes ≠ 0) (hpos : 0 < count)
    (hle : count ≤ if gang then 16384 else 2048) (hopen : (s.oldBar gang id).count = 0 ∨ (s.oldBar gang id).count = count) :
    let t := (lanesOf s.cur.lanes).foldl (fun t l => t.arriveBar s.cur.warp l gang id count block i.len) s
    barOp i gang block a id s = .next (t.moveOn block i.len) := by
  obtain ⟨hl, hs⟩ := lead32_of_all hall h0
  refine runOp_ok hc ?_
  have counts : ¬ (s.same32 a = false ∨ count = 0 ∨ (if gang then 16384 else 2048) < count) := by
    simp only [hs, Bool.true_eq_false, false_or, not_or, not_lt]
    exact ⟨hpos.ne', hle⟩
  have fits : ¬ ((s.oldBar gang id).count ≠ 0 ∧ (s.oldBar gang id).count ≠ count) := by
    rw [not_and_or, not_not, not_not]
    exact hopen
  rw [hl]
  exact (if_neg counts).trans ((if_neg fits).trans rfl)

theorem barrierFaults : Part.BarrierFaults := by
  unfold Part.BarrierFaults
  intro s a id i gang block most hi hc old count
  obtain ⟨he, hm⟩ := exec_barForms hi s
  rw [he]
  refine ⟨fun h => runOp_error hc (if_pos (hm ▸ h)), fun hs h0 hle hopen hne => runOp_error hc ?_⟩
  rw [hm] at hle
  refine (if_neg ?_).trans (if_pos ⟨hopen, hne⟩)
  rw [hs]
  simp only [Bool.true_eq_false, false_or, not_or, not_lt]
  exact ⟨h0.ne', hle⟩

theorem barrierArrival : Part.BarrierArrival := by
  unfold Part.BarrierArrival
  intro s a id count i gang block most hi hc tok old n hall hn hle hopen hshort
  obtain ⟨he, rfl⟩ := exec_barForms hi s
  have h0 : s.cur.lanes ≠ 0 := fun e => absurd hn (by simp [n, laneCount, lanesOf_eq_nil.2 e])
  have arrives := barOp_arrives (block := block) hc hall h0 (by omega) hle hopen
  have joined := (BarJoined.refl (s := s) (gang := gang) (block := block) (id := id) (count := count) (len := i.len)).all
    (ks := lanesOf s.cur.lanes) hshort
  rw [List.nil_append] at joined
  have cur := joined.kept.cur
  refine ⟨_, he.trans arrives, ?_⟩
  generalize (lanesOf s.cur.lanes).foldl (fun t l => t.arriveBar s.cur.warp l gang id count block i.len) s = t at joined cur
  have same : ∀ j, (t.moveOn block i.len).barrier tok gang j = t.oldBar gang j := fun j => by
    rw [moveOn_frame, State.oldBar, cur]; rfl
  have own : (t.moveOn block i.len).curWarp = if block then t.curWarp else t.curWarp.advance s.cur.lanes i.len := by
    rw [← cur, ← moveOn_warp_self, moveOn_frame]; rfl
  refine ⟨?_, fun j hj => (same j).trans (joined.other j hj), ?_, ?_, fun w hw => ?_, fun c hc => ?_, ?_⟩
  · rw [same, joined.barrier, if_neg (by simpa [lanesOf_eq_nil] using h0)]
    rfl
  · rw [own, joined.curWarp]
    cases block <;> rfl
  · cases block with
    | true => exact (congrArg Warp.lanes (own.trans joined.curWarp) :)
    | false =>
      refine fun l => ?_
      rw [own, joined.curWarp, if_neg Bool.false_ne_true, if_neg Bool.false_ne_true]
      exact Warp.lane_mapLanes ..
  · rw [moveOn_warp_ne _ _ _ (by rwa [cur]), joined.warp w hw]
  · rw [moveOn_frame]
    exact joined.crew c hc
  · rw [moveOn_frame, joined.kept.frame, joined.cores]

/-- The issuing lanes, none of which waits yet, arrive apart from what waits. -/
theorem arrivers_lanes {s : State} {gang : Bool} {id len : Nat} {x : Warp} (ha : Apart x.waits)
    (hd : ∀ r ∈ x.waits, r.lanes &&& s.cur.lanes = 0) : Arrivers (s.arrival gang id len) x (lanesOf s.cur.lanes) := by
  have bit : ∀ l ∈ lanesOf s.cur.lanes, ∀ k, ((s.arrival gang id len).wait l).lanes.getLsbD k = true ↔ k = l :=
    fun l hl k => laneBit_getLsbD_iff (lanesOf_lt hl)
  refine ⟨⟨fun r hr => ?_, List.pairwise_append.2 ⟨ha.2, List.pairwise_map.2 ?_, fun r hr q hq => ?_⟩⟩, fun l hl => lanesOf_lt hl⟩
  · rcases List.mem_append.1 hr with hr | hr
    · exact ha.1 r hr
    · obtain ⟨l, hl, rfl⟩ := List.mem_map.1 hr
      exact lanes_ne_zero.2 ⟨l, (bit l hl l).2 rfl⟩
  · refine (lanesOf_nodup s.cur.lanes).imp_of_mem fun {l k} hl hk hne => and_eq_zero.2 fun j hj => ?_
    rw [(bit l hl j).1 hj]
    exact Bool.eq_false_iff.2 fun e => hne ((bit k hk l).1 e)
  · obtain ⟨l, hl, rfl⟩ := List.mem_map.1 hq
    refine and_eq_zero.2 fun j hj => Bool.eq_false_iff.2 fun e => ?_
    rw [(bit l hl j).1 e] at hj
    exact absurd (mem_lanesOf.1 hl) (by simp [and_eq_zero.1 (hd r hr) l hj])

theorem barrierCompletion : Part.BarrierCompletion := by
  unfold Part.BarrierCompletion
  intro s a id count i gang block most hi hc tok lanes old n sharing hall hn hle hopen hbelow hreach hcur hapart haway rest later mine
  obtain ⟨he, rfl⟩ := exec_barForms hi s
  have h0 : s.cur.lanes ≠ 0 := fun e => absurd hn (by simp [n, lanes, laneCount, lanesOf_eq_nil.2 e])
  have arrives := barOp_arrives (block := block) hc hall h0 (by omega) hle hopen
  have arrivers : ∀ w ∈ s.sharing gang, Arrivers (s.arrival gang id i.len) (s.warp w) (s.ownArrivals block w (lanesOf s.cur.lanes)) := by
    intro w hw
    by_cases e : block = true ∧ w = s.cur.warp
    · rw [State.ownArrivals, if_pos e, e.2]
      exact arrivers_lanes (hapart _ hcur) haway
    · rw [State.ownArrivals, if_neg e]
      exact ⟨by rw [List.map_nil, List.append_nil]; exact hapart w hw, by simp⟩
  obtain ⟨done, open_, completed, hsplit, arrived⟩ := (Arriving.refl (block := block) (len := i.len) hbelow).all
    (ls := lanesOf s.cur.lanes) hcur arrivers (lanesOf_nodup s.cur.lanes)
  simp only [List.nil_append] at hsplit
  refine ⟨_, he.trans arrives, ?_⟩
  generalize (lanesOf s.cur.lanes).foldl (fun t l => t.arriveBar s.cur.warp l gang id count block i.len) s = t at arrived
  obtain ⟨rfl, hrest, hlater⟩ : completed = true ∧ rest = open_.length ∧ later = open_ := arrived.split hsplit hreach
  have cur := arrived.kept.cur
  have frame := moveOn_frame t block i.len
  have bar : ∀ j, (t.moveOn block i.len).barrier tok gang j = t.oldBar gang j := fun j => by rw [frame, State.oldBar, cur]; rfl
  have curWarp : (t.moveOn block i.len).curWarp = (t.moveOn block i.len).warp s.cur.warp := by
    rw [State.curWarp, ← cur, frame]
  have before : ∀ l, lanes.getLsbD l = true → ∀ r ∈ (s.warp s.cur.warp).waits, r.lanes.getLsbD l = false := fun l hl r hr =>
    Bool.eq_false_iff.2 fun e => absurd hl (by simp [and_eq_zero.1 (haway r hr) l e])
  have disjoint : done.Disjoint open_ := List.disjoint_of_nodup_append (hsplit ▸ lanesOf_nodup s.cur.lanes)
  have passed := arrived.warps
  have unmoved : ∀ w l, (w = s.cur.warp → lanes.getLsbD l = false) → ((t.moveOn block i.len).warp w).lane l = (t.warp w).lane l := by
    intro w l h
    rw [moveOn_lane, if_neg]
    rintro ⟨-, rfl, hl⟩
    rw [cur] at hl
    exact absurd hl (by simp [lanes, h (by rw [cur])])
  have mem_done : ∀ l, l ∈ done ∨ l ∈ open_ ↔ lanes.getLsbD l = true := fun l => by
    rw [← List.mem_append, hsplit, mem_lanesOf]
  have own_mem : ∀ w ls l, l ∈ s.ownArrivals block w ls ↔ (block = true ∧ w = s.cur.warp) ∧ l ∈ ls := fun w ls l => by
    unfold State.ownArrivals
    split <;> simp [*]
  refine ⟨?_, fun j hj => (bar j).trans (arrived.other j hj), fun w hw r hr hm l hl => ?_, fun l hl => ?_, fun w hw l hb hl => ?_,
    fun w hw => ?_, fun w hw => ?_, fun w hw => ?_, fun c => ?_, ?_, ?_⟩
  · rw [bar, arrived.barrier, hrest]
    simp only [List.length_eq_zero_iff, State.arrivedBefore, if_true, Nat.zero_add]
  · rw [unmoved w l, (passed w hw).before rfl r hr hm l hl]
    · rfl
    · rintro rfl
      exact Bool.eq_false_iff.2 fun e => by simp [before l e r hr] at hl
  · rw [curWarp, moveOn_lane, cur]
    have stay : l ∉ s.ownArrivals block s.cur.warp done → (t.warp s.cur.warp).lane l = s.curWarp.lane l :=
      (passed _ hcur).stay l fun _ r hr _ => before l hl r hr
    cases block with
    | false => rw [if_pos ⟨rfl, rfl, hl⟩, if_pos rfl, stay fun e => absurd ((own_mem _ _ _).1 e).1.1 Bool.false_ne_true]
    | true =>
      rw [if_neg fun e => absurd e.1 Bool.true_eq_false.mp, if_neg Bool.true_eq_false.mp, hlater]
      by_cases ho : l ∈ open_
      · rw [if_pos ho, stay fun e => disjoint ((own_mem _ _ _).1 e).2 ho]
      · rw [if_neg ho]
        have hd : l ∈ s.ownArrivals true s.cur.warp done :=
          (own_mem ..).2 ⟨⟨rfl, rfl⟩, ((mem_done l).2 hl).resolve_right ho⟩
        exact (passed _ hcur).after l hd
  · rw [unmoved w l hl]
    refine (passed w hw).stay l (fun _ => hb) fun hd => ?_
    obtain ⟨⟨-, e⟩, hd⟩ := (own_mem w done l).1 hd
    exact absurd ((mem_done l).1 (.inl hd)) (by simp [hl e])
  · rw [moveOn_warp, (passed w hw).waits, hlater, if_pos rfl]
    unfold State.ownArrivals
    split <;> rfl
  · rw [moveOn_warp, (passed w hw).rest]
  · rw [moveOn_warp_ne _ _ _ (by rw [cur]; exact fun e => hw (e ▸ hcur)), arrived.apart w hw]
  · rw [frame]; exact arrived.kept.core c
  · rw [frame]
    cases gang with
    | false => exact arrived.cores rfl
    | true => exact arrived.emptied rfl rfl
  · rw [frame, arrived.kept.frame]

/-- Settles O14: arrivals add up (`BarJoined.all`), and with completions they split into lanes that go on and an open round
(`Arriving.all`). -/
theorem barriers : Obligations.Barriers := ⟨barrierArrival, barrierCompletion, barrierFaults⟩

end Sys2Proof

/-! ## O38: crews that are saved, complete, or take a stall hint

A save parks the chains of each warp (`Warp.saved`): a drained warp keeps its registers (`Warp.saved_regs`). A stall hint asks crew by
crew; one that it asked for stays asked for (`Asked`). -/

namespace Sys2Proof.Machine

open Sys2Proof

/-! ### A warp saved -/

theorem Warp.writeChain_live (w : Warp) (c : Chain) (ms : List ChainMember) (k : Nat) : (w.writeChain c ms k).live = w.live := by
  induction ms generalizing w k with
  | nil => rfl
  | cons m ms ih =>
    obtain ⟨v, r, b, e⟩ := w.writeLanes_rest (w.chainLanes c m.dest) m.words m.dest fun l => m.value ((c.results.get l).res.drop k)
    rw [Warp.writeChain, ih, e]

theorem Warp.commitChain_live (w : Warp) (c : Chain) : (w.commitChain c).live = w.live := w.writeChain_live c _ _

@[simp] theorem Warp.setParked_live (w : Warp) (port : Nat) (c : Option Chain) : (w.setParked port c).live = w.live := by
  unfold Warp.setParked; split <;> rfl
@[simp] theorem Warp.setChain_live (w : Warp) (port : Nat) (c : Option Chain) : (w.setChain port c).live = w.live := by
  unfold Warp.setChain; split <;> rfl

theorem Warp.parkRecord_live (w : Warp) (cycle port : Nat) : (w.parkRecord cycle port).live = w.live := by
  unfold Warp.parkRecord
  split
  · rfl
  · split
    · rfl
    · split
      · rw [Warp.setParked_live, Warp.commitChain_live]
      · rw [Warp.setParked_live]

theorem Warp.parkPort_live (w : Warp) (cycle port : Nat) : (w.parkPort cycle port).live = w.live := by
  unfold Warp.parkPort
  rw [← w.parkRecord_live cycle port]
  generalize w.parkRecord cycle port = x
  dsimp only
  split
  · rfl
  · split
    · rw [Warp.setChain_live, Warp.commitChain_live]
    · split
      · exact (Warp.setChain_live ..).trans (Warp.setParked_live ..)
      · exact (Warp.setChain_live ..).trans (Warp.setParked_live ..)

theorem Warp.saved_live (w : Warp) (cycle : Nat) : (w.saved cycle).live = w.live :=
  ((w.parkPort cycle 0).parkPort_live cycle 1).trans (w.parkPort_live cycle 0)

/-- What parking a port's open chain in its record keeps: the registers, and the other port. -/
structure ParkKeeps (port : Nat) (w x : Warp) : Prop where
  vregs : x.vregs = w.vregs
  sregs : x.sregs = w.sregs
  other : ∀ q, ¬ (q = 0 ↔ port = 0) → x.chain q = w.chain q ∧ x.parked q = w.parked q

theorem ParkKeeps.setBoth (w : Warp) (port : Nat) (c d : Option Chain) : ParkKeeps port w ((w.setParked port c).setChain port d) := by
  by_cases h : port = 0
  · refine ⟨?_, ?_, fun q hq => ?_⟩
    · simp [Warp.setParked, Warp.setChain, h]
    · simp [Warp.setParked, Warp.setChain, h]
    · have : q ≠ 0 := fun e => hq (by simp [h, e])
      simp [Warp.setParked, Warp.setChain, Warp.parked, Warp.chain, h, this]
  · refine ⟨?_, ?_, fun q hq => ?_⟩
    · simp [Warp.setParked, Warp.setChain, h]
    · simp [Warp.setParked, Warp.setChain, h]
    · have : q = 0 := by_contra fun e => hq (by simp [h, e])
      simp [Warp.setParked, Warp.setChain, Warp.parked, Warp.chain, h, this]

/-- A port whose open chain a record can take, and whose record counts nothing out, is parked without a write-back (R151). -/
theorem Warp.parkPort_keeps {w : Warp} {cycle port : Nat} (hu : ∀ k, w.parked port = some k → k.counting = false)
    (hp : ∀ c, w.chain port = some c → w.unparkable cycle port c = false) : ParkKeeps port w (w.parkPort cycle port) := by
  have idle : w.parkRecord cycle port = w := by
    unfold Warp.parkRecord
    split
    case h_1 => rfl
    case h_2 c hc => exact if_pos (by rw [hu _ hc]; rfl)
  rw [Warp.parkPort, idle]
  cases hc : w.chain port with
  | none => exact ⟨rfl, rfl, fun _ _ => ⟨rfl, rfl⟩⟩
  | some c =>
    have set := ParkKeeps.setBoth w port (some { c.park cycle with atResume := w.handler.isSome }) none
    simp only [hp c hc, Bool.false_eq_true, if_false]
    split
    · exact ⟨set.vregs, set.sregs, set.other⟩
    · exact set

/-- A warp with no response out and no chain that must write back first keeps its registers in a save (R340). -/
theorem Warp.saved_regs {w : Warp} {cycle : Nat} (hu : ∀ p k, w.parked p = some k → k.counting = false)
    (hp : ∀ p < 2, ∀ c, w.chain p = some c → w.unparkable cycle p c = false) :
    (w.saved cycle).vregs = w.vregs ∧ (w.saved cycle).sregs = w.sregs := by
  have first := Warp.parkPort_keeps (hu 0) (hp 0 (by omega))
  obtain ⟨chain, parked⟩ := first.other 1 (by simp)
  have second := Warp.parkPort_keeps (w := w.parkPort cycle 0) (cycle := cycle) (port := 1) (by rw [parked]; exact hu 1)
    (by rw [chain]; unfold Warp.unparkable; rw [parked]; exact hp 1 (by omega))
  exact ⟨second.vregs.trans first.vregs, second.sregs.trans first.sregs⟩

/-- What a drained warp's test says of its chains. -/
theorem State.warpDrained_parkable {s : State} {w : Nat} (h : s.warpDrained w = true) :
    ∀ p < 2, ∀ c, (s.warp w).chain p = some c → (s.warp w).unparkable s.cycle p c = false := by
  intro p hp c hc
  simp only [State.warpDrained, Bool.and_eq_true] at h
  obtain ⟨⟨-, h0⟩, h1⟩ := h
  have : p = 0 ∨ p = 1 := by omega
  rcases this with rfl | rfl
  · rw [hc] at h0; simpa using h0
  · rw [hc] at h1; simpa using h1

/-! ### A crew saved -/

/-- Each of the listed warps saved. -/
def State.saveWarps (s : State) (ws : List Nat) : State := ws.foldl (fun s w => s.setWarp w ((s.warp w).saved s.cycle)) s

theorem State.saveWarps_frame (ws : List Nat) (s : State) : s.saveWarps ws = { s with warps := (s.saveWarps ws).warps } := by
  induction ws generalizing s with
  | nil => rfl
  | cons w ws ih => exact ih (s.setWarp w _)

theorem State.saveWarps_warp {ws : List Nat} (hn : ws.Nodup) (s : State) (v : Nat) :
    (s.saveWarps ws).warp v = if v ∈ ws then (s.warp v).saved s.cycle else s.warp v := by
  induction ws generalizing s with
  | nil => rfl
  | cons w ws ih =>
    obtain ⟨hw, hn⟩ := List.nodup_cons.1 hn
    refine (ih hn (s.setWarp w _)).trans ?_
    by_cases e : v = w
    · subst e
      rw [if_neg hw, if_pos (List.mem_cons_self ..), State.warp_setWarp_self]
    · rw [State.warp_setWarp_ne _ _ e]
      exact if_congr (by simp [e]) rfl rfl

theorem State.warpsOf_nodup (s : State) (tok : Nat) : (s.warpsOf tok).Nodup :=
  (List.nodup_range.map fun a b h => by simpa [warpNo] using h).filter _

theorem State.mem_warpsOf {s : State} {tok w : Nat} (h : w ∈ s.warpsOf tok) : crewTok w = tok := by
  obtain ⟨i, hi, rfl⟩ := List.mem_map.1 (List.mem_filter.1 h).1
  rw [List.mem_range] at hi
  simp only [crewTok, warpNo]
  omega

/-- A crew's operations and sort-yard threads out of its core (R340). -/
def State.putAway (s : State) (tok core : Nat) : State :=
  let g := s.engs core
  let k := s.core core
  let yard := ((k.bins.filter fun p => p.2.key.crew == tok).map (·.2), k.yardWait.filter fun p => p.1.crew == tok)
  State.setCore { s.setEngs core (g.without tok) with
    savedOps := s.savedOps.set tok (g.ofCrew tok), savedYard := s.savedYard.set tok yard } core (k.dropYard tok)

/-- The crew's record after the save, its warps as they stand saved. -/
def State.savedCrew (s : State) (c : Crew) (tok : Nat) : Crew :=
  { c with
    resident := false, saving := false, hinted := false, leaveFor := none, image := s.mem.read (c.phys 0) c.size
    records := (s.warpsOf tok).flatMap fun w => [s.slotBytes w 0, s.slotBytes w 1]
    returnAt := match c.hint with
      | some _ => some (s.cycle + 1000 * Config.cyclesPerUs)
      | none => none }

theorem State.saveCrew_eq (s : State) (tok : Nat) :
    let c := s.crew tok
    let t := (s.saveWarps (s.warpsOf tok)).putAway tok c.core
    s.saveCrew tok = (t.setCrew tok (t.savedCrew c tok)).settleFences c.core := by
  intro c t
  rfl

theorem State.savedCrew_returnAt (s : State) (c : Crew) (tok : Nat) :
    (s.savedCrew c tok).returnAt = if c.hint.isSome then some (s.cycle + 1000 * Config.cyclesPerUs) else none := by
  show (match c.hint with
      | some _ => some (s.cycle + 1000 * Config.cyclesPerUs)
      | none => none) = _
  cases c.hint <;> rfl

theorem State.savedCrew_records (s : State) (c : Crew) (tok : Nat) :
    (s.savedCrew c tok).records = (s.warpsOf tok).flatMap fun w => [s.slotBytes w 0, s.slotBytes w 1] := rfl

theorem State.crew_settleFences_self (s : State) (tok core : Nat) (c : Crew) : ((s.setCrew tok c).settleFences core).crew tok = c :=
  FMap.get_set_self s.crews tok c

theorem State.putAway_warp (s : State) (tok core : Nat) (c : Crew) (w : Nat) :
    ((((s.putAway tok core).setCrew tok c).settleFences core).warp w) = s.warp w := rfl

theorem State.putAway_mem (s : State) (tok core : Nat) (c : Crew) : (((s.putAway tok core).setCrew tok c).settleFences core).mem = s.mem := rfl

theorem State.putAway_savedCrew (s : State) (tok core : Nat) (c : Crew) : (s.putAway tok core).savedCrew c tok = s.savedCrew c tok := rfl

/-- A record slot as it stands in the save area (R338). -/
def Warp.recordSlot (x : Warp) (key ctx slot index p : Nat) : List Byte :=
  match x.parked p with
  | none => List.replicate 512 0
  | some k => recordBytes key k ctx slot index

theorem natToBytes_zero (n : Nat) : natToBytes n 0 = List.replicate n 0 := by
  induction n with
  | zero => rfl
  | succ n ih => rw [List.replicate_succ, ← ih]; rfl

theorem State.slotBytes_eq (s : State) (w p : Nat) :
    s.slotBytes w p = (s.warp w).recordSlot s.key (s.crew (crewTok w)).ctx (slotOf w) (s.crew (crewTok w)).index p := by
  unfold State.slotBytes Warp.recordSlot
  rw [natToBytes_zero]
  rfl

/-- What a save leaves of the crew and its warps (R340). -/
structure CrewSaved (s t : State) (tok : Nat) : Prop where
  warp : ∀ w, t.warp w = if w ∈ s.warpsOf tok then (s.warp w).saved s.cycle else s.warp w
  resident : (t.crew tok).resident = false
  saving : (t.crew tok).saving = false
  live : (t.crew tok).live = (s.crew tok).live
  image : (t.crew tok).image = s.mem.read ((s.crew tok).phys 0) (s.crew tok).size
  records : (t.crew tok).records = (s.warpsOf tok).flatMap fun w =>
    [0, 1].map ((t.warp w).recordSlot s.key (s.crew tok).ctx (slotOf w) (s.crew tok).index)
  returnAt : (t.crew tok).returnAt = if (s.crew tok).hint.isSome then some (s.cycle + 1000 * Config.cyclesPerUs) else none
  mem : t.mem = s.mem

theorem State.saveCrew_spec (s : State) (tok : Nat) : CrewSaved s (s.saveCrew tok) tok := by
  let u := s.saveWarps (s.warpsOf tok)
  have frame : u = { s with warps := u.warps } := State.saveWarps_frame ..
  have warp : ∀ w, u.warp w = if w ∈ s.warpsOf tok then (s.warp w).saved s.cycle else s.warp w :=
    State.saveWarps_warp (s.warpsOf_nodup tok) s
  have warps : u.warpsOf tok = s.warpsOf tok := State.warpsOf_congr (fun w => by
    rw [warp]
    split
    · exact Warp.saved_live ..
    · rfl) tok
  have records : (u.warpsOf tok).flatMap (fun w => [u.slotBytes w 0, u.slotBytes w 1])
      = (s.warpsOf tok).flatMap fun w => [0, 1].map ((u.warp w).recordSlot s.key (s.crew tok).ctx (slotOf w) (s.crew tok).index) := by
    rw [warps]
    refine List.flatMap_congr fun w hw => ?_
    have crew : u.crew (crewTok w) = s.crew tok := by rw [State.mem_warpsOf hw, frame]; rfl
    have key : u.key = s.key := by rw [frame]
    rw [State.slotBytes_eq, State.slotBytes_eq, crew, key]
    rfl
  have crew : (s.saveCrew tok).crew tok = u.savedCrew (s.crew tok) tok := by
    rw [State.saveCrew_eq, State.crew_settleFences_self, State.putAway_savedCrew]
  have warp' : ∀ w, (s.saveCrew tok).warp w = u.warp w := fun w => by
    rw [State.saveCrew_eq]
    exact u.putAway_warp ..
  have mem : u.mem = s.mem := by rw [frame]
  have cycle : u.cycle = s.cycle := by rw [frame]
  refine ⟨fun w => (warp' w).trans (warp w), ?_, ?_, ?_, ?_, ?_, ?_, ?_⟩
  · rw [crew]; rfl
  · rw [crew]; rfl
  · rw [crew]; rfl
  · rw [crew, ← mem]; rfl
  · rw [crew, u.savedCrew_records]
    refine records.trans (List.flatMap_congr fun w _ => ?_)
    rw [warp']
  · rw [crew, ← cycle]
    exact u.savedCrew_returnAt (s.crew tok) tok
  · rw [State.saveCrew_eq]
    exact (u.putAway_mem ..).trans mem

theorem State.restartWait_frame (s : State) (slot : Nat) :
    s.restartWait slot = { s with launches := (s.restartWait slot).launches } := by
  unfold State.restartWait
  dsimp only
  split <;> rfl

theorem State.gangOf_own {s : State} {tok : Nat} (h : (s.crew tok).gang = 0) : s.gangOf tok = [tok] := if_pos h

/-- A crew of its own that was asked to leave is saved when it is drained and its hint's cycle is over (R340, R401). -/
theorem execContextSave_own {s : State} {tok : Nat} (hl : (s.crew tok).live = true) (hs : (s.crew tok).saving = true)
    (hg : (s.crew tok).gang = 0) :
    execContextSave tok s = if (s.crew tok).held s.cycle = false ∧ s.crewDrained tok = true then
      .next ((s.restartWait (s.crew tok).launch).saveCrew tok) else .next s := by
  have ts : (s.gangOf tok).filter (fun t => (s.crew t).saving) = [tok] := by rw [State.gangOf_own hg]; simp [hs]
  unfold execContextSave
  rw [ts]
  simp [hl, hs]

theorem Crew.held_eq_false (c : Crew) (cycle : Nat) : c.held cycle = false ↔ c.hinted = false ∨ c.savingAt < cycle := by
  rw [Crew.held, Bool.and_eq_false_iff, decide_eq_false_iff_not, Nat.not_le]

/-! ### A crew completed -/

/-- A launch with crews left to place is not over (R36). -/
theorem State.settleLaunch_more {s : State} {slot : Nat} (h : (s.launch slot).next < (s.launch slot).spec.crews) :
    s.settleLaunch slot = s := by
  refine if_neg fun ended => ?_
  simp only [State.launchOver, Bool.and_eq_true, decide_eq_true_eq] at ended
  exact absurd ended.1.2 (Nat.not_le.2 h)

/-! ### Stall hints -/

theorem FMap.mem_of_find {α : Type} {m : FMap α} {k : Nat} {a : α} (h : m.find k = some a) : (k, a) ∈ m := by
  induction m with
  | nil => cases h
  | cons p m ih =>
    obtain ⟨j, b⟩ := p
    rw [FMap.find_cons] at h
    split at h
    case isTrue e =>
      obtain rfl : b = a := by simpa using h
      exact e ▸ List.mem_cons_self ..
    case isFalse => exact List.mem_cons_of_mem _ (ih h)

/-- One crew of a gang asked to leave (R340, R401). -/
def State.askCrew (s : State) (hint : Option (Nat × Nat)) (t : Nat) : State :=
  let c := s.crew t
  if c.live ∧ c.resident then s.setCrew t { c with
    saving := true, savingAt := if c.saving then c.savingAt else s.cycle, hint := if c.hint.isSome then c.hint else hint
    hinted := hint.isSome && (c.hinted || !c.saving) } else s

theorem State.swapOut_eq (s : State) (hint : Option (Nat × Nat)) (tok : Nat) :
    s.swapOut hint tok = ((s.gangOf tok).filter fun t => t < 2 ^ 16).foldl (fun s t => s.askCrew hint t) s := rfl

theorem State.askCrew_frame (s : State) (hint : Option (Nat × Nat)) (t : Nat) :
    s.askCrew hint t = { s with crews := (s.askCrew hint t).crews } := by
  unfold State.askCrew
  dsimp only
  split <;> rfl

/-- A crew that is on its core, no hint on it or this one. -/
structure Askable (hint : Nat × Nat) (c : Crew) : Prop where
  live : c.live = true
  resident : c.resident = true
  gang : c.gang = 0
  free : c.hint = none ∨ c.hint = some hint

/-- It is asked to leave for the hint. -/
structure Asked (hint : Nat × Nat) (c : Crew) : Prop extends Askable hint c where
  saving : c.saving = true
  mine : c.hint = some hint

/-- What is done for the hint to a crew keeps a crew askable, and one that is asked stays so. -/
theorem State.askCrew_keeps {s : State} {hint : Nat × Nat} {tok : Nat} (t : Nat) (h : Askable hint (s.crew tok)) :
    Askable hint ((s.askCrew (some hint) t).crew tok)
      ∧ (Asked hint (s.crew tok) ∨ t = tok → Asked hint ((s.askCrew (some hint) t).crew tok)) := by
  by_cases e : t = tok
  · subst e
    have crew : (s.askCrew (some hint) t).crew t = { s.crew t with
        saving := true, savingAt := if (s.crew t).saving then (s.crew t).savingAt else s.cycle
        hint := if (s.crew t).hint.isSome then (s.crew t).hint else some hint
        hinted := (some hint).isSome && ((s.crew t).hinted || !(s.crew t).saving) } := by
      unfold State.askCrew
      rw [if_pos ⟨h.live, h.resident⟩]
      exact FMap.get_set_self ..
    have mine : ((s.askCrew (some hint) t).crew t).hint = some hint := by
      rw [crew]
      rcases h.free with e | e <;> simp [e]
    have askable : Askable hint ((s.askCrew (some hint) t).crew t) :=
      ⟨by rw [crew]; exact h.live, by rw [crew]; exact h.resident, by rw [crew]; exact h.gang, .inr mine⟩
    exact ⟨askable, fun _ => ⟨askable, by rw [crew], mine⟩⟩
  · have crew : (s.askCrew (some hint) t).crew tok = s.crew tok := by
      unfold State.askCrew
      dsimp only
      split
      · exact FMap.get_set_ne _ _ (Ne.symm e)
      · rfl
    rw [crew]
    exact ⟨h, fun a => a.resolve_right e⟩

/-- Whom a list of crews is asked for stays asked, and every listed one is. -/
theorem foldl_askCrew {hint : Nat × Nat} {tok : Nat} (ts : List Nat) {s : State} (h : Askable hint (s.crew tok)) :
    let t := ts.foldl (fun s t => s.askCrew (some hint) t) s
    Askable hint (t.crew tok) ∧ (Asked hint (s.crew tok) ∨ tok ∈ ts → Asked hint (t.crew tok)) := by
  induction ts generalizing s with
  | nil => exact ⟨h, fun a => a.resolve_right (List.not_mem_nil)⟩
  | cons t ts ih =>
    obtain ⟨askable, asked⟩ := State.askCrew_keeps t h
    obtain ⟨askable', asked'⟩ := ih askable
    refine ⟨askable', fun a => asked' ?_⟩
    rcases a with a | a
    · exact .inl (asked (.inl a))
    · rcases List.mem_cons.1 a with rfl | a
      · exact .inl (asked (.inr rfl))
      · exact .inr a

theorem State.swapOut_frame (s : State) (hint : Option (Nat × Nat)) (tok : Nat) :
    s.swapOut hint tok = { s with crews := (s.swapOut hint tok).crews } := by
  rw [State.swapOut_eq]
  generalize (s.gangOf tok).filter _ = ts
  induction ts generalizing s with
  | nil => rfl
  | cons t ts ih => rw [List.foldl_cons, ih, State.askCrew_frame]

/-- The crews of a hint, asked one after the other with their gangs. -/
theorem foldl_swapOut {hint : Nat × Nat} {tok : Nat} (hk : tok < 2 ^ 16) (ts : List Nat) {s : State} (h : Askable hint (s.crew tok)) :
    Asked hint (s.crew tok) ∨ tok ∈ ts → Asked hint ((ts.foldl (fun s t => s.swapOut (some hint) t) s).crew tok) := by
  induction ts generalizing s with
  | nil => exact fun a => a.resolve_right List.not_mem_nil
  | cons t ts ih =>
    obtain ⟨askable, asked⟩ := foldl_askCrew ((s.gangOf t).filter fun t => t < 2 ^ 16) h
    refine fun a => ih askable ?_
    rcases a with a | a
    · exact .inl (asked (.inl a))
    · rcases List.mem_cons.1 a with rfl | a
      · exact .inl (asked (.inr (by rw [State.gangOf_own h.gang]; simpa using hk)))
      · exact .inr a

theorem foldl_swapOut_frame (hint : Option (Nat × Nat)) (ts : List Nat) (s : State) :
    let t := ts.foldl (fun s t => s.swapOut hint t) s
    t = { s with crews := t.crews } := by
  induction ts generalizing s with
  | nil => rfl
  | cons t ts ih =>
    have := ih (s.swapOut hint t)
    dsimp only at this ⊢
    rw [List.foldl_cons, this, State.swapOut_frame]

end Sys2Proof.Machine

namespace Sys2Proof

open Sys2Proof.Machine

section
variable {s : State} {tok : Nat} {c : Crew} (hf : s.crews.find tok = some c)
include hf

theorem crew_of_find : s.crew tok = c := by simp [State.crew, FMap.get, hf]

/-- A save (R340). -/
theorem contextSave_saves (hl : c.live = true) (hs : c.saving = true) (hg : c.gang = 0)
    (hnow : s.crewDrained tok = true ∧ (c.hinted = false ∨ c.savingAt < s.cycle)) :
    ∃ t, exec (.contextSave tok) s = .next t ∧ CrewSaved s t tok := by
  obtain rfl := crew_of_find hf
  refine ⟨_, (exec_contextSave s).trans ((execContextSave_own hl hs hg).trans (if_pos ⟨(Crew.held_eq_false ..).2 hnow.2, hnow.1⟩)), ?_⟩
  have saved := (s.restartWait (s.crew tok).launch).saveCrew_spec tok
  rw [s.restartWait_frame (s.crew tok).launch] at saved ⊢
  exact ⟨saved.warp, saved.resident, saved.saving, saved.live, saved.image, saved.records, saved.returnAt, saved.mem⟩

/-- The last of a crew is gone (R14, R36). -/
theorem crewComplete_counts (ho : s.crewOver tok = true) (hg : c.gang = 0)
    (hn : (s.launch c.launch).next < (s.launch c.launch).spec.crews) :
    let l := s.launch c.launch
    ∃ t, exec (.crewComplete tok) s = .next t ∧ t.crews.find tok = none
      ∧ t.launch c.launch = { l with
          flags := l.flags ||| c.flags, completed := if c.cancelled then l.completed else l.completed + 1,
          cancelledCount := if c.cancelled then l.cancelledCount + 1 else l.cancelledCount }
      ∧ t = { s with launches := t.launches, crews := t.crews } := by
  obtain rfl := crew_of_find hf
  intro l
  let l' := { l with
    flags := l.flags ||| (s.crew tok).flags, completed := if (s.crew tok).cancelled then l.completed else l.completed + 1,
    cancelledCount := if (s.crew tok).cancelled then l.cancelledCount + 1 else l.cancelledCount }
  let t : State := { s.setLaunch (s.crew tok).launch l' with crews := s.crews.del tok }
  have launch : t.launch (s.crew tok).launch = l' := FMap.get_set_self ..
  have completes : s.completeCrew tok = t := by
    have settled : t.settleLaunch (s.crew tok).launch = t := State.settleLaunch_more (by rw [launch]; exact hn)
    rw [← settled]
    unfold State.completeCrew
    rw [if_neg (by rw [ho]; exact Bool.true_eq_false.mp)]
    dsimp only
    rw [if_pos hg]
    simp only [t, l', l]
    cases (s.crew tok).cancelled <;> rfl
  exact ⟨t, (exec_crewComplete s).trans (congrArg _ completes), (FMap.find_del ..).trans (if_pos rfl), launch, rfl⟩

/-- A stall hint (R401). -/
theorem stallHint_asks (landing peer : Nat) :
    ∃ t, exec (.stallHint landing peer) s = .next t
      ∧ (landing, peer, s.cycle) ∈ t.sched.hints
      ∧ (c.live = true → c.resident = true → c.hint = none → c.gang = 0 → tok < 2 ^ 16 → s.stalledOn peer tok = true →
          (t.crew tok).saving = true ∧ (t.crew tok).hint = some (landing, peer))
      ∧ (∀ w, t.warp w = s.warp w) ∧ ∀ a, t.mem.get a = s.mem.get a := by
  obtain rfl := crew_of_find hf
  have ports : s.countLink landing 0x0203 1 = { s with ports := (s.countLink landing 0x0203 1).ports } := by
    unfold State.countLink
    dsimp only
    split <;> rfl
  let s1 : State := { s with
    ports := (s.countLink landing 0x0203 1).ports
    sched := { s.sched with
      hints := (s.sched.hints.filter fun h => !(h.1 == landing && h.2.1 == peer)) ++ [(landing, peer, s.cycle)] } }
  let toks := (s1.crews.filter fun p => p.2.live && p.2.resident && s1.stalledOn peer p.1).map (·.1)
  have asks : execStallHint landing peer s = .next (toks.foldl (fun s t => s.swapOut (some (landing, peer)) t) s1) := by
    unfold execStallHint
    rw [ports]
  refine ⟨_, (exec_stallHint s).trans asks, ?_, fun hl hr hh hg hk hst => ?_, fun w => ?_, fun a => ?_⟩
  · rw [foldl_swapOut_frame]
    exact List.mem_append_right _ (List.mem_singleton_self _)
  · have listed : tok ∈ toks := List.mem_map.2 ⟨(tok, s.crew tok), List.mem_filter.2 ⟨FMap.mem_of_find hf, by
      rw [hl, hr]; exact hst⟩, rfl⟩
    have asked := foldl_swapOut hk toks (s := s1) (hint := (landing, peer)) ⟨hl, hr, hg, .inl hh⟩ (.inr listed)
    exact ⟨asked.saving, asked.mine⟩
  · rw [foldl_swapOut_frame]
    rfl
  · rw [foldl_swapOut_frame]

/-- A hint withdrawn (R402). -/
theorem stallHintWithdraw_releases (landing peer : Nat) :
    ∃ t, exec (.stallHintWithdraw landing peer) s = .next t
      ∧ (∀ h ∈ t.sched.hints, h ∈ s.sched.hints ∧ ¬ (h.1 = landing ∧ h.2.1 = peer))
      ∧ t.crew tok = (if c.hint = some (landing, peer) then { c with hint := none, returnAt := none } else c)
      ∧ t = { s with sched := t.sched, crews := t.crews } := by
  refine ⟨_, exec_stallHintWithdraw s, fun h hh => ?_, ?_, rfl⟩
  · obtain ⟨hm, hne⟩ := List.mem_filter.1 hh
    exact ⟨hm, fun e => by simp [e.1, e.2] at hne⟩
  · have := FMap.find_mapVal s.crews
      (fun _ c => if c.hint = some (landing, peer) then { c with hint := none, returnAt := none } else c) tok
    rw [hf] at this
    exact congrArg (·.getD default) this

/-- 1 ms after its save the crew may return (R402). -/
theorem hintReturnTimeout_returns {at_ : Nat} (hr : c.returnAt = some at_) :
    (s.cycle < at_ → exec (.hintReturnTimeout tok) s = .next s)
      ∧ (at_ ≤ s.cycle → ∃ t, exec (.hintReturnTimeout tok) s = .next t ∧ t.crew tok = { c with hint := none, returnAt := none }
          ∧ (∀ k, k ≠ tok → t.crew k = s.crew k) ∧ t = { s with crews := t.crews }) := by
  obtain rfl := crew_of_find hf
  rw [exec_hintReturnTimeout]
  unfold execHintReturnTimeout
  dsimp only
  rw [hr]
  refine ⟨fun h => if_neg (Nat.not_le.2 h), fun h => ⟨_, if_pos h, ?_, fun k hk => ?_, rfl⟩⟩
  · exact FMap.get_set_self ..
  · exact FMap.get_set_ne _ _ hk

end

/-- Settles O38: what each of the five does to the crew is a theorem of its own above. -/
theorem crewsLeaveAndEnd : Obligations.CrewsLeaveAndEnd := by
  unfold Obligations.CrewsLeaveAndEnd
  intro s tok c landing peer hf l
  refine ⟨fun hl hs hg => ⟨fun hnow => ?_, fun hnow => ?_⟩, crewComplete_counts hf, stallHint_asks hf landing peer,
    stallHintWithdraw_releases hf landing peer, fun at_ => hintReturnTimeout_returns hf⟩
  · obtain ⟨t, he, saved⟩ := contextSave_saves hf hl hs hg hnow
    obtain rfl := crew_of_find hf
    have drained : ∀ w ∈ s.warpsOf tok, s.warpDrained w = true := by
      have := hnow.1
      simp only [State.crewDrained, Bool.and_eq_true, List.all_eq_true] at this
      exact this.1.1
    refine ⟨t, he, saved.resident, saved.saving, saved.live.trans hl, saved.image, saved.returnAt, saved.records, fun w hw => ?_,
      fun a => by rw [saved.mem], fun w hu => ?_⟩
    · rw [saved.warp, if_neg fun hm => hw (State.mem_warpsOf hm)]
    · have regs : (t.warp w).vregs = (s.warp w).vregs ∧ (t.warp w).sregs = (s.warp w).sregs := by
        rw [saved.warp]
        split
        case isTrue hm => exact Warp.saved_regs hu (State.warpDrained_parkable (drained w hm))
        case isFalse => exact ⟨rfl, rfl⟩
      exact ⟨fun n l => by rw [Warp.v, regs.1]; rfl, fun n => by rw [Warp.s, regs.2]; rfl⟩
  · obtain rfl := crew_of_find hf
    refine (exec_contextSave s).trans ((execContextSave_own hl hs hg).trans (if_neg fun e => hnow ?_))
    exact ⟨e.2, (Crew.held_eq_false ..).1 e.1⟩

end Sys2Proof

/-! ## O32: spawn and cancel

A record that `recordHeld` describes reaches the instruction as memory holds it (`readRecord_held`), through the L1 or not; what
reading it changes is L1 lines, a slice's counters and spent walk faults (`RecordRead`). -/

namespace Sys2Proof.Machine

open Sys2Proof

/-! ### Addresses -/

theorem hbm_of_regionOf {pa : Nat} (h : regionOf pa = .hbm) : pa < hbmEnd := by
  unfold regionOf at h
  split_ifs at h with h1
  · exact h1
  all_goals
    dsimp only at h
    split at h <;> cases h

/-- Only a remote window's address stands for another (R55). -/
theorem State.ownAddr_of_here {pa : Nat} (h : isRemote pa = false) (s : State) : s.ownAddr pa = pa := by
  unfold isRemote at h
  unfold State.ownAddr
  cases hr : regionOf pa with
  | remote m off => simp [hr] at h
  | _ => rfl

theorem isRemote_of_hbm {pa : Nat} (h : pa < hbmEnd) : isRemote pa = false := by
  rw [isRemote, show regionOf pa = .hbm from if_pos h]

section
variable {s : State} {e size va : Nat} {a : Access} {x : Xlat}

/-- A translated multiple of 256 is one. -/
theorem State.leafXlat_aligned (h : s.leafXlat e size va a = some x) (hva : va % 256 = 0) : x.pa % 256 = 0 := by
  unfold State.leafXlat at h
  dsimp only at h
  split at h
  case isFalse => cases h
  case isTrue =>
    obtain rfl : _ = x := Option.some.inj h
    have frame : 256 ∣ pteFrame e := ⟨bits e 51 13 * 2 ^ 5, by unfold pteFrame; ring⟩
    have off : 256 ∣ va % 2 ^ size := by
      rcases le_total 8 size with h8 | h8
      · exact (Nat.dvd_mod_iff (pow_dvd_pow 2 h8 : 2 ^ 8 ∣ _)).2 (Nat.dvd_of_mod_eq_zero hva)
      · rw [Nat.mod_eq_zero_of_dvd ((pow_dvd_pow 2 h8).trans (Nat.dvd_of_mod_eq_zero hva))]
        exact dvd_zero _
    exact Nat.mod_eq_zero_of_dvd (dvd_add frame off)

/-- A page with home 0 that does not leave the module is in local HBM (R61). -/
theorem State.leafXlat_hbm (h : s.leafXlat e size va a = some x) (h0 : x.home = 0) (hr : isRemote x.pa = false) : x.pa < hbmEnd := by
  unfold State.leafXlat at h
  dsimp only at h
  split at h
  case isFalse => cases h
  case isTrue hok =>
    obtain rfl : _ = x := Option.some.inj h
    have home := hok.2.1
    dsimp only at h0 hr ⊢
    unfold State.homeOk at home
    unfold isRemote at hr
    rw [h0] at home
    cases hreg : regionOf (pteFrame e + va % 2 ^ size) with
    | hbm => exact hbm_of_regionOf hreg
    | _ => simp [hreg] at home hr

/-- A translation comes from a leaf. -/
theorem State.xlateWarp_leaf {w : Nat} (h : s.xlateWarp w va a = .ok x) : ∃ e size, s.leafXlat e size va a = some x := by
  unfold State.xlateWarp State.xlate at h
  split at h
  · split at h <;> cases h
  · split at h
    · split at h
      case h_1 hx =>
        obtain rfl : _ = x := Xl.ok.inj h
        exact ⟨_, _, hx⟩
      case h_2 => cases h
    · cases h

end

/-! ### Sectors in the L1 -/

/-- Every sector of a range that the table holds is what memory holds. -/
def Fresh (s : State) (pa n : Nat) (t : FMap (List Byte)) : Prop :=
  ∀ k < n, ∀ b, t.find (pa / 16 + k) = some b → b = s.readPhys (pa + 16 * k) 16

theorem FMap.find_of_filter {α : Type} (m : FMap α) (p : Nat → Bool) (k : Nat) (a : α)
    (h : FMap.find (m.filter fun e => p e.1) k = some a) : m.find k = some a := by
  induction m with
  | nil => cases h
  | cons e m ih =>
    obtain ⟨j, b⟩ := e
    rw [List.filter_cons] at h
    split at h
    · rw [FMap.find_cons] at h ⊢
      split at h
      case isTrue hj => rwa [if_pos hj]
      case isFalse hj => rw [if_neg hj]; exact ih h
    case isFalse hp =>
      rw [FMap.find_cons]
      split
      case isTrue hj =>
        have := FMap.mem_of_find h
        rw [List.mem_filter] at this
        exact absurd this.2 (hj ▸ hp)
      case isFalse => exact ih h

theorem boundL1_find (lo hi n : Nat) (t : FMap (List Byte)) (k : Nat) (b : List Byte) (h : (boundL1 lo hi n t).find k = some b) :
    t.find k = some b := by
  induction n generalizing t with
  | zero => exact h
  | succ n ih =>
    unfold boundL1 at h
    dsimp only at h
    split at h
    · exact h
    · split at h
      · exact h
      · exact FMap.find_of_filter t (fun j => j / 8 != _) k b (ih _ h)

/-- A sector taken from memory is fresh. -/
theorem Fresh.set {s : State} {pa n : Nat} {t : FMap (List Byte)} (h : Fresh s pa n t) (hp : pa % 16 = 0) (j : Nat) :
    Fresh s pa n (t.set j (s.readPhys (16 * j) 16)) := by
  intro k hk b hb
  rw [FMap.find_set] at hb
  split at hb
  case isTrue e =>
    rw [← Option.some.inj hb, ← e, show 16 * (pa / 16 + k) = pa + 16 * k by omega]
  case isFalse => exact h k hk b hb

/-- A fetch leaves fresh sectors fresh (R64). -/
theorem Fresh.fillL1 {s : State} {core pa n m : Nat} (h : Fresh s pa n (s.core core).l1) (hp : pa % 16 = 0) :
    Fresh s pa n ((s.fillL1 core pa m).core core).l1 := by
  have filled : ∀ (ks : List Nat) (skip : FMap (List Byte) → Nat → Prop) [∀ t k, Decidable (skip t k)] (t : FMap (List Byte)),
      Fresh s pa n t → Fresh s pa n (ks.foldl (fun t k => if skip t k then t else t.set k (s.readPhys (16 * k) 16)) t) := by
    intro ks skip _
    induction ks with
    | nil => exact fun _ h => h
    | cons k ks ih =>
      intro t ht
      refine ih _ ?_
      dsimp only
      split
      · exact ht
      · exact ht.set hp k
  have core' : (s.fillL1 core pa m).core core = _ := FMap.get_set_self ..
  rw [core']
  dsimp only
  split
  · exact filled _ _ _ h
  · exact fun k hk b hb => filled _ _ _ h k hk b (boundL1_find _ _ _ _ _ _ hb)

/-! ### A record read at issue (R296) -/

/-- What reading a record changes: L1 lines, a slice's counters, the walk faults spent. -/
structure RecordRead (s t : State) : Prop where
  frame : t = { s with warps := t.warps, cores := t.cores, sliceCount := t.sliceCount }
  other : ∀ w, w ≠ s.cur.warp → t.warp w = s.warp w
  curWarp : t.curWarp = { s.curWarp with walkFaults := t.curWarp.walkFaults }
  core : ∀ c, t.core c = { s.core c with l1 := (t.core c).l1 }

theorem RecordRead.refl (s : State) : RecordRead s s := ⟨rfl, fun _ _ => rfl, rfl, fun _ => rfl⟩

theorem RecordRead.spendWalk (s : State) : RecordRead s s.spendWalk := by
  have only := WarpOnly.upCur s fun w => { w with walkFaults := if w.walkFaults.isEmpty then [] else
    (w.walkFaults.map fun f => { f with lanes := f.lanes &&& ~~~s.cur.lanes }).filter fun f => f.lanes != 0 }
  refine ⟨rfl, only.other, ?_, fun _ => rfl⟩
  rw [State.spendWalk, State.curWarp_upCur]

theorem State.countSlice_frame (s : State) (slice source n : Nat) :
    s.countSlice slice source n = { s with sliceCount := (s.countSlice slice source n).sliceCount } := by
  unfold State.countSlice
  split <;> rfl

theorem State.countServed_frame (s : State) (pa : Nat) : s.countServed pa = { s with sliceCount := (s.countServed pa).sliceCount } := by
  unfold State.countServed
  split
  · exact State.countSlice_frame ..
  · exact State.countSlice_frame ..
  · rfl

theorem State.fillL1_core (s : State) (core pa n c : Nat) :
    (s.fillL1 core pa n).core c = { s.core c with l1 := ((s.fillL1 core pa n).core c).l1 } := by
  by_cases h : c = core
  · subst h
    have : (s.fillL1 c pa n).core c = _ := FMap.get_set_self ..
    rw [this]
  · have : (s.fillL1 core pa n).core c = s.core c := FMap.get_set_ne _ _ h
    rw [this]

namespace RecordRead
variable {s t u : State}

theorem cur (h : RecordRead s t) : t.cur = s.cur := by rw [h.frame]

theorem trans (h : RecordRead s t) (k : RecordRead t u) : RecordRead s u where
  frame := by rw [k.frame]; rw [h.frame]
  other w hw := by rw [k.other w (by rwa [h.cur]), h.other w hw]
  curWarp := by rw [k.curWarp, h.curWarp]
  core c := by rw [k.core, h.core]

theorem fillL1 (s : State) (core pa n : Nat) : RecordRead s (s.fillL1 core pa n) :=
  ⟨rfl, fun _ _ => rfl, rfl, s.fillL1_core core pa n⟩

theorem countServed (s : State) (pa : Nat) : RecordRead s (s.countServed pa) := by
  have frame := s.countServed_frame pa
  refine ⟨by rw [frame], fun _ _ => by rw [frame]; rfl, by rw [frame]; rfl, fun _ => by rw [frame]; rfl⟩

/-- Memory, and what of it can be read, is not changed. -/
theorem readPhys (h : RecordRead s t) (pa n : Nat) : t.readPhys pa n = s.readPhys pa n := by rw [h.frame]; rfl
theorem readBad (h : RecordRead s t) (pa n : Nat) : t.readBad pa n = s.readBad pa n := by rw [h.frame]; rfl
theorem coreOf (h : RecordRead s t) (w : Nat) : t.coreOf w = s.coreOf w := by rw [h.frame]; rfl

end RecordRead

theorem Memory.read_add (m : Memory) (a n k : Nat) : m.read a (n + k) = m.read a n ++ m.read (a + n) k := by
  induction n generalizing a with
  | zero => simp [Memory.read]
  | succ n ih => rw [Nat.add_right_comm, Memory.read, Memory.read, ih, List.cons_append, Nat.add_right_comm, Nat.add_assoc a n 1]

/-- Bytes read in sectors. -/
theorem Memory.read_sectors (m : Memory) (a n : Nat) : ((List.range n).flatMap fun k => m.read (a + 16 * k) 16) = m.read a (16 * n) := by
  induction n with
  | zero => rfl
  | succ n ih => rw [List.range_succ, List.flatMap_append, ih, Nat.mul_succ, Memory.read_add]; simp

/-- Fresh sectors that are all held give the record. -/
theorem Fresh.record {s t : State} {core pa n : Nat} (h : Fresh s pa n (t.core core).l1) (hp : pa % 16 = 0)
    (hpa : ∀ k < n, s.ownAddr (pa + 16 * k) = s.ownAddr pa + 16 * k)
    (hall : ((List.range n).map fun k => pa + 16 * k).all (fun a => (t.l1Sector core a).isSome) = true) :
    ((List.range n).map fun k => pa + 16 * k).flatMap (fun a => (t.l1Sector core a).getD []) = s.readPhys pa (16 * n) := by
  rw [List.flatMap_map, State.readPhys, ← Memory.read_sectors]
  refine List.flatMap_congr fun k hk => ?_
  have held := List.all_eq_true.1 hall _ (List.mem_map_of_mem (f := fun k => pa + 16 * k) hk)
  rw [List.mem_range] at hk
  obtain ⟨b, hb⟩ := Option.isSome_iff_exists.1 held
  rw [hb, Option.getD_some]
  rw [State.l1Sector, show (pa + 16 * k) / 16 = pa / 16 + k by omega] at hb
  rw [h k hk b hb, State.readPhys, hpa k hk]

/-- A record of 256 bytes that can be read reaches the instruction as memory holds it (R296). -/
theorem readRecord_held {s : State} {va : Nat} {bs : List Byte} (h : recordHeld s va 256 bs) (hva : va % 256 = 0) (len : Nat)
    (f : State → List Byte → Except Trap State) : ∃ t, RecordRead s t ∧ s.readRecord len va 256 none f = f t bs := by
  obtain ⟨hrange, x, hx, hpacked, hmig, hremote, hopen, hbad, hread, hl1⟩ := h
  obtain ⟨e, size, leaf⟩ := State.xlateWarp_leaf hx
  have aligned : x.pa % 256 = 0 := State.leafXlat_aligned leaf hva
  let s1 := s.spendWalk
  let core := s.coreOf s.cur.warp
  let t := (if x.home = 0 then s1.fillL1 core x.pa 256 else s1).countServed x.pa
  have spent : RecordRead s s1 := .spendWalk s
  have read : RecordRead s t := by
    refine spent.trans (.trans ?_ (.countServed _ _))
    split
    · exact .fillL1 ..
    · exact .refl _
  refine ⟨t, read, ?_⟩
  have before : s.beforeSwing x = false := by rw [State.beforeSwing, hmig]; rfl
  have touch : s1.touch x 256 = s1 := by rw [State.touch, hmig]; rfl
  have noFault : s1.lineFault x 256 = none := by rw [State.lineFault, hmig]; rfl
  have core1 : s1.coreOf s1.cur.warp = core := by rw [spent.coreOf, spent.cur]
  unfold State.readRecord
  rw [if_neg (Nat.not_le.2 hrange), hx]
  simp only [hpacked, Bool.false_eq_true, if_false, before, hopen, hremote]
  rw [touch, noFault]
  simp only [core1]
  by_cases hheld : ((List.range 16).map fun k => x.pa + 16 * k).all (fun a => (t.l1Sector core a).isSome) = true ∧ x.home = 0
  · refine (if_pos hheld).trans ?_
    obtain ⟨hall, h0⟩ := hheld
    obtain ⟨hp, hcached⟩ := hl1 h0
    have hbm := State.leafXlat_hbm leaf h0 hremote
    have here : ∀ k < 16, s.ownAddr (x.pa + 16 * k) = s.ownAddr x.pa + 16 * k := fun k hk => by
      have below : x.pa + 16 * k < hbmEnd := by unfold hbmEnd at hbm ⊢; omega
      rw [State.ownAddr_of_here (isRemote_of_hbm below), State.ownAddr_of_here hremote]
    have cached : Fresh s1 x.pa 16 (s1.core core).l1 := fun k hk b hb => (hcached k hk b hb).trans (spent.readPhys _ _).symm
    have fresh : Fresh s x.pa 16 (t.core core).l1 := fun k hk b hb => by
      rw [← spent.readPhys]
      refine cached.fillL1 (m := 256) hp k hk b ?_
      have filled : t.cores = (s1.fillL1 core x.pa 256).cores := by
        show (State.countServed _ _).cores = _
        rw [if_pos h0, State.countServed_frame]
      rwa [State.core, filled] at hb
    exact congrArg (f t) ((fresh.record hp here hall).trans hread)
  · refine (if_neg hheld).trans ?_
    have bad : t.readBad x.pa 256 = false := (read.readBad _ _).trans hbad
    refine (if_neg (by rw [bad]; exact Bool.false_ne_true)).trans (congrArg (f t) ?_)
    exact (read.readPhys _ _).trans hread

end Sys2Proof.Machine

namespace Sys2Proof

open Sys2Proof.Machine

/-! ### spawn -/

section
variable {s : State} {d a b : Operand} {bs : List Byte} {r : LaunchRec}

/-- A patch word that R321 allows. -/
theorem patchOk_of_allowed {p : Nat} (h : patchAllowed p false) : patchOk p false = true := by
  obtain ⟨h1, h2, -⟩ := h
  have zero : bits p 31 27 = 0 := h1
  have unit : patchUnit p ≠ 0 := h2
  simp [patchOk, zero, unit]

/-- An engine instruction that enters no queue finds room (R294). -/
theorem engineOp_free {i : Instr} (hq : queuesOf i = []) (hc : clear i s = true) {body : State → Except Trap State} {t : State}
    (hb : body s = .ok t) : engineOp i s body = .next t := by
  refine runOp_ok hc ((if_pos ?_).trans hb)
  rw [State.engineRoom, hq]
  rfl

/-- A spawn whose record passes its checks starts its launch in the state that reading the record left (R322). -/
theorem exec_spawn_record {held : Bool} (hc : clear (.spawn held d a b) s = true) (hva : s.lead64 a % 256 = 0)
    (h : recordHeld s (s.lead64 a) 256 bs) (hr : parseLaunch held bs = some r)
    (hp : held = true → patchOk (s.lead64 b) false = true) :
    ∃ t, RecordRead s t ∧ exec (.spawn held d a b) s = .next
      (if held then (t.spawnHeld r d (s.lead64 b)).advance (Instr.spawn held d a b).len
       else ((t.spawnLaunch r).1.writeRes 2 d fun _ => (t.spawnLaunch r).2).advance (Instr.spawn held d a b).len) := by
  obtain ⟨t, read, he⟩ := readRecord_held h hva (Instr.spawn held d a b).len fun s' bs =>
    match parseLaunch held bs with
    | none => s'.illegal
    | some r =>
      if held then .ok ((s'.spawnHeld r d (s.lead64 b)).advance (Instr.spawn held d a b).len)
      else
        let (s', st) := s'.spawnLaunch r
        .ok ((s'.writeRes 2 d fun _ => st).advance (Instr.spawn held d a b).len)
  refine ⟨t, read, (exec_spawn s).trans (engineOp_free rfl hc ?_)⟩
  have patch : ¬ (held = true ∧ patchOk (s.lead64 b) false = false) := fun e => by simp [hp e.1] at e
  have align : s.checkAlign (s.lead64 a) 256 = none := if_pos hva
  dsimp only
  rw [if_neg patch, align]
  refine he.trans ?_
  rw [hr]
  cases held <;> rfl

end

/-- A state in which the issue stands as before, but for walk faults spent. -/
structure SameIssue (s v : State) : Prop where
  cur : v.cur = s.cur
  curWarp : v.curWarp = { s.curWarp with walkFaults := v.curWarp.walkFaults }
  other : ∀ w, w ≠ s.cur.warp → v.warp w = s.warp w
  mem : v.mem = s.mem

theorem Machine.RecordRead.sameIssue {s v : State} (h : RecordRead s v) : SameIssue s v :=
  ⟨h.cur, h.curWarp, h.other, by rw [h.frame]⟩

namespace SameIssue
variable {s v : State} (h : SameIssue s v)
include h

theorem advanced {t : State} {n : Nat} (ha : Advanced v t n) : Advanced s t n := fun l => by
  have lane : v.curWarp.lane l = s.curWarp.lane l := by rw [h.curWarp]; rfl
  rw [ha l, h.cur, lane]

theorem regsWritten {y : Warp} {nw : Nat} {d : Operand} {f : Nat → Nat} (hr : RegsWritten v y nw d f) : RegsWritten s y nw d f where
  vec m l hl := by
    have := hr.vec m l hl
    rwa [h.cur, h.curWarp] at this
  sca m := by
    have := hr.sca m
    rwa [h.cur, h.curWarp] at this
  bad r := by
    have := hr.bad r
    rwa [h.cur, h.curWarp] at this

/-- A lane-wise result written there is one here. -/
theorem result (nw : Nat) (d : Operand) (f : Nat → Nat) (n : Nat) :
    let t := (v.writeRes nw d f).advance n
    ((∀ w, w ≠ s.cur.warp → t.warp w = s.warp w) ∧ ∀ x, t.mem.get x = s.mem.get x) ∧ Advanced s t n
      ∧ RegsWritten s t.curWarp nw d f := by
  have result := LaneResult.of_writeRes v nw d f n
  refine ⟨⟨fun w hw => ?_, fun x => ?_⟩, h.advanced result.lanes, h.regsWritten result.regs⟩
  · rw [result.only.other w (by rwa [h.cur]), h.other w hw]
  · rw [result.only.memory, h.mem]

end SameIssue

/-- What a spawn reads besides its record is not changed by reading it. -/
theorem Machine.RecordRead.placeable {s u : State} (h : RecordRead s u) (r : LaunchRec) : u.placeable r = s.placeable r := by
  have online : u.online = s.online := funext fun c => by unfold State.online; rw [h.core c]
  have capacity : u.capacity = s.capacity := funext fun c => by unfold State.capacity; rw [h.core c]
  have fits : u.fitsIdle = s.fitsIdle := by unfold State.fitsIdle; rw [online, capacity]
  unfold State.placeable
  rw [fits]

theorem Machine.RecordRead.launches {s u : State} (h : RecordRead s u) : u.freeLaunch = s.freeLaunch ∧ (∀ k, u.launch k = s.launch k)
    ∧ u.launchOf u.cur.warp = s.launchOf s.cur.warp ∧ u.ctxOf u.cur.warp = s.ctxOf s.cur.warp := by
  rw [h.frame]
  exact ⟨rfl, fun _ => rfl, rfl, rfl⟩

/-- The launch that a start puts in its slot (R388). -/
theorem startLaunch_self (s : State) (slot : Nat) (r : LaunchRec) (n : Nat) (node : Option Nat) (parent : Nat) (held : Bool) (since : Nat) :
    let l := (s.startLaunch slot r n node parent held since).launch slot
    l.live = true ∧ l.spec = r ∧ l.job = n ∧ l.parent = parent ∧ l.next = 0 ∧ l.held = held := by
  have started : (s.startLaunch slot r n node parent held since).launch slot = _ := FMap.get_set_self ..
  rw [started]
  exact ⟨rfl, rfl, rfl, rfl, rfl, rfl⟩

theorem startLaunch_ne (s : State) {slot k : Nat} (h : k ≠ slot) (r : LaunchRec) (n : Nat) (node : Option Nat) (parent : Nat) (held : Bool)
    (since : Nat) : (s.startLaunch slot r n node parent held since).launch k = s.launch k := FMap.get_set_ne _ _ h

section
variable {s : State} {d a b : Operand} {bs : List Byte} {r : LaunchRec} (hva : s.lead64 a % 256 = 0)
  (h : recordHeld s (s.lead64 a) 256 bs)
include hva h

/-- A launch record that a cluster can take, in a free slot (R322, R388). -/
theorem spawn_starts (hc : clear (.spawn false d a b) s = true) (hr : parseLaunch false bs = some r) (hp : s.placeable r = true)
    {slot : Nat} (hs : s.freeLaunch = some slot) :
    let l := s.launchOf s.cur.warp
    ∃ t, exec (.spawn false d a b) s = .next t
      ∧ ((∀ w, w ≠ s.cur.warp → t.warp w = s.warp w) ∧ ∀ x, t.mem.get x = s.mem.get x)
      ∧ Advanced s t (Instr.spawn false d a b).len
      ∧ RegsWritten s t.curWarp 2 d (fun _ => (l.ctx * 2 ^ 34 + l.job % 2 ^ 22 * 2 ^ 12 + slot) * 2 ^ 16)
      ∧ (t.launch slot).live = true ∧ (t.launch slot).spec = r ∧ (t.launch slot).job = l.job ∧ (t.launch slot).parent = l.uid
      ∧ (t.launch slot).next = 0 ∧ (t.launch slot).held = false ∧ ∀ k, k ≠ slot → t.launch k = s.launch k := by
  intro l
  obtain ⟨u, read, he⟩ := exec_spawn_record hc hva h hr (fun e => absurd e Bool.false_ne_true)
  obtain ⟨free, launch, own, -⟩ := read.launches
  let v := u.startLaunch slot r l.job none l.uid false u.cycle
  have spawned : u.spawnLaunch r = (v, (l.ctx * 2 ^ 34 + l.job % 2 ^ 22 * 2 ^ 12 + slot) * 2 ^ 16) := by
    unfold State.spawnLaunch
    rw [read.placeable, hp, if_neg Bool.true_eq_false.mp, free, hs, own]
    simp [statusOk, unitHandle, v, l]
  rw [spawned] at he
  have issue := read.sameIssue
  obtain ⟨kept, advanced, regs⟩ := SameIssue.result (v := v) ⟨issue.cur, issue.curWarp, issue.other, issue.mem⟩ 2 d
    (fun _ => (l.ctx * 2 ^ 34 + l.job % 2 ^ 22 * 2 ^ 12 + slot) * 2 ^ 16) (Instr.spawn false d a b).len
  obtain ⟨h1, h2, h3, h4, h5, h6⟩ := startLaunch_self u slot r l.job none l.uid false u.cycle
  exact ⟨_, he, kept, advanced, regs, h1, h2, h3, h4, h5, h6, fun k hk => (startLaunch_ne u hk ..).trans (launch k)⟩

/-- A held spawn in a free slot: its launch is held, its status register stands pending (R321). -/
theorem spawn_holds (hc : clear (.spawn true d a b) s = true) (hr : parseLaunch true bs = some r)
    (hp : patchAllowed (s.lead64 b) false) {slot : Nat} (hs : s.freeLaunch = some slot) :
    ∃ t, exec (.spawn true d a b) s = .next t
      ∧ ((∀ w, w ≠ s.cur.warp → t.warp w = s.warp w) ∧ ∀ x, t.mem.get x = s.mem.get x)
      ∧ Advanced s t (Instr.spawn true d a b).len
      ∧ (t.launch slot).live = true ∧ (t.launch slot).held = true ∧ (t.launch slot).spec = r
      ∧ t.sched.spawns = s.sched.spawns ++ [⟨slot, s.nextOp, s.cycle, s.cur.warp, d, s.lead64 b⟩]
      ∧ (d ≠ .z → t.curWarp.pending = s.curWarp.pending ++ [⟨d, 1, s.nextOp⟩]) := by
  obtain ⟨u, read, he⟩ := exec_spawn_record hc hva h hr fun _ => patchOk_of_allowed hp
  obtain ⟨free, -, own, -⟩ := read.launches
  let l := s.launchOf s.cur.warp
  let n := u.nextOp
  let v0 := u.startLaunch slot r l.job none l.uid true u.cycle
  let v : State := { v0 with
    nextOp := n + 1
    sched := { v0.sched with spawns := v0.sched.spawns ++ [⟨slot, n, u.cycle, u.cur.warp, d, s.lead64 b⟩] } }
  let pend : Warp → Warp := fun x => if d = .z then x else { x with pending := x.pending ++ [⟨d, 1, n⟩] }
  have spawned : u.spawnHeld r d (s.lead64 b) = v.upCur pend := by
    unfold State.spawnHeld
    dsimp only
    rw [free, hs, own]
  have cycle : u.cycle = s.cycle := by rw [read.frame]
  have number : n = s.nextOp := by show u.nextOp = _; rw [read.frame]
  have sched : u.sched = s.sched := by rw [read.frame]
  have issue : SameIssue s v := ⟨read.cur, read.curWarp, read.other, read.sameIssue.mem⟩
  have lanes : (pend v.curWarp).lanes = v.curWarp.lanes := by
    show (if d = .z then v.curWarp else _).lanes = _
    split <;> rfl
  rw [if_pos rfl, spawned] at he
  obtain ⟨h1, h2, -, -, -, h6⟩ := startLaunch_self u slot r l.job none l.uid true u.cycle
  refine ⟨_, he, ⟨fun w hw => ?_, fun x => ?_⟩, issue.advanced (Advanced.upCur v pend _ lanes), h1, h6, h2, ?_, fun hd => ?_⟩
  · have only := (WarpOnly.upCur v pend).trans
      (WarpOnly.upCur (v.upCur pend) fun w => w.advance (v.upCur pend).cur.lanes (Instr.spawn true d a b).len)
    exact (only.other w (by rwa [issue.cur])).trans (issue.other w hw)
  · show v.mem.get x = _
    rw [issue.mem]
  · show u.sched.spawns ++ [⟨slot, n, u.cycle, u.cur.warp, d, s.lead64 b⟩] = _
    rw [sched, number, cycle, read.cur]
  · rw [curWarp_upCur_advance, issue.curWarp]
    show (pend _).pending = _
    rw [← number]
    exact congrArg Warp.pending (if_neg hd)

/-- No launch slot is free: NO_SPACE, and the completion record says so (R322, R389). -/
theorem spawn_noSlot {held : Bool} (hc : clear (.spawn held d a b) s = true) (hr : parseLaunch held bs = some r)
    (hp : held = true → patchAllowed (s.lead64 b) false) (hpl : held = false → s.placeable r = true) (hs : s.freeLaunch = none) :
    (r.done = 0 → ∃ t, exec (.spawn held d a b) s = .next t
        ∧ ((∀ w, w ≠ s.cur.warp → t.warp w = s.warp w) ∧ ∀ x, t.mem.get x = s.mem.get x)
        ∧ Advanced s t (Instr.spawn held d a b).len ∧ RegsWritten s t.curWarp 2 d (fun _ => 6) ∧ ∀ k, t.launch k = s.launch k)
      ∧ ∃ t u : State, exec (.spawn held d a b) s = .next t
        ∧ u = { s with warps := u.warps, cores := u.cores, sliceCount := u.sliceCount }
        ∧ t.mem = (u.launchDone (s.ctxOf s.cur.warp) r.done ⟨3, 6, 0, 0, 0, 0, none⟩).mem := by
  obtain ⟨u, read, he⟩ := exec_spawn_record hc hva h hr fun e => patchOk_of_allowed (hp e)
  obtain ⟨free, launch, own, ctx⟩ := read.launches
  have refused : exec (.spawn held d a b) s
      = .next (((u.noSlot r).writeRes 2 d fun _ => 6).advance (Instr.spawn held d a b).len) := by
    rw [he]
    cases held with
    | true =>
      rw [if_pos rfl]
      unfold State.spawnHeld
      dsimp only
      rw [free, hs]
      rfl
    | false =>
      unfold State.spawnLaunch
      dsimp only
      rw [read.placeable, hpl rfl, if_neg Bool.true_eq_false.mp, free, hs]
      rfl
  refine ⟨fun hdone => ?_, _, u, refused, read.frame, ?_⟩
  · have none : u.noSlot r = u := if_pos hdone
    rw [none] at refused
    obtain ⟨kept, advanced, regs⟩ := read.sameIssue.result 2 d (fun _ => 6) (Instr.spawn held d a b).len
    exact ⟨_, refused, kept, advanced, regs, launch⟩
  · rw [← ctx]
    rfl

end

/-! ### cancel -/

/-- A cancel whose own warp goes on gives its status in the state that it leaves (R323). -/
theorem exec_cancel_lives {s t : State} {d a : Operand} {st : Nat} (hc : clear (.cancel d a) s = true) (hva : s.lead64 a < 2 ^ 48)
    (hu : ((s.crews.map (·.1)).foldl State.completeCrew s).cancelUnit (s.ctxOf s.cur.warp) (s.lead64 a) = (t, st))
    (hl : t.curWarp.live = true) :
    exec (.cancel d a) s = .next ((t.writeRes 1 d fun _ => st).advance (Instr.cancel d a).len) := by
  refine (exec_cancel s).trans (engineOp_free rfl hc ?_)
  have small : s.lead64 a / 2 ^ 48 = 0 := Nat.div_eq_of_lt hva
  dsimp only
  rw [if_neg (by rw [small]; exact fun h => h rfl), State.cancelNow, hu]
  exact if_pos hl

/-- A handle of another context names nothing (R323). -/
theorem cancelUnit_other {s : State} {ctx h : Nat} (hctx : h / 2 ^ 34 % 2 ^ 12 ≠ ctx) : s.cancelUnit ctx h = (s, 3) := if_pos hctx

/-- A handle of a phase yet to come marks the phase (R323, R393). -/
theorem cancelUnit_phase {s : State} {ctx h : Nat} (hctx : h / 2 ^ 34 % 2 ^ 12 = ctx) (hlevel : h / 2 ^ 46 = 2)
    (hlive : (s.job (h / 2 ^ 12 % 2 ^ 22)).live = true) (hown : (s.job (h / 2 ^ 12 % 2 ^ 22)).ctx = ctx)
    (hphase : (s.job (h / 2 ^ 12 % 2 ^ 22)).phase < h % 2 ^ 12)
    (htable : h % 2 ^ 12 < (s.job (h / 2 ^ 12 % 2 ^ 22)).table.length) :
    let n := h / 2 ^ 12 % 2 ^ 22
    s.cancelUnit ctx h = (s.setJob n { s.job n with markPhases := (s.job n).markPhases ++ [h % 2 ^ 12] }, 0) := by
  have level : bits h 47 46 = 2 := by unfold bits; omega
  have serial : bits h 33 12 = h / 2 ^ 12 % 2 ^ 22 := rfl
  have low : bits h 11 0 = h % 2 ^ 12 := by unfold bits; simp
  have context : bits h 45 34 = ctx := hctx
  unfold State.cancelUnit
  simp only [level, serial, low, context, hlive, hown]
  simp only [ne_eq, not_true, if_false, Nat.reduceEqDiff, or_self, Bool.true_eq_false, hphase.ne', hphase, htable, and_self, if_true]
  rfl

/-- Settles O32: a spawn goes on in the state that reading its record leaves (`exec_spawn_record`); a cancel answers with `cancelUnit`. -/
theorem spawnAndCancel : Obligations.SpawnAndCancel := by
  unfold Obligations.SpawnAndCancel
  intro s d a b bs r va l patch kept full
  refine ⟨fun hva h => ⟨fun hc hr hp => ⟨fun slot hs => spawn_starts hva h hc hr hp hs, fun hs => ?_⟩,
    fun hc hr hp => ⟨fun hs => ?_, fun slot hs => spawn_holds hva h hc hr hp hs⟩⟩, ?_⟩
  · exact spawn_noSlot hva h hc hr (fun e => absurd e Bool.false_ne_true) (fun _ => hp) hs
  · exact spawn_noSlot hva h hc hr (fun _ => hp) (fun e => absurd e Bool.true_eq_false.mp) hs
  · intro over_ hc hl hva level n low j
    refine ⟨fun hctx => ⟨_, exec_cancel_lives hc hva (cancelUnit_other hctx) hl, LaneResult.of_writeRes _ _ _ _ _⟩,
      fun hctx hlevel hlive hown hphase htable => ?_⟩
    have marked := cancelUnit_phase (s := over_) hctx hlevel hlive hown hphase htable
    refine ⟨_, exec_cancel_lives hc hva marked hl, ?_⟩
    have result := LaneResult.of_writeRes (over_.setJob n { j with markPhases := j.markPhases ++ [low] }) 1 d (fun _ => 0)
      (Instr.cancel d a).len
    exact ⟨result.only.other, result.only.memory, result.lanes, ⟨result.regs.vec, result.regs.sca, result.regs.bad⟩,
      FMap.get_set_self .., fun k hk => FMap.get_set_ne _ _ hk⟩

end Sys2Proof

/-! ## Loads and stores: what the statements on the memory tiers share -/

namespace Sys2Proof.Machine

open Sys2Proof

/-! ### The executing lanes' accesses -/

section
variable {s : State} {x : Bool} {a : Operand} {off : Option Operand} {b c : Nat → Nat}

/-- One lane's access before its translation. -/
def State.laneOp (s : State) (x : Bool) (a : Operand) (off : Option Operand) (b c : Nat → Nat) (l : Nat) : LaneOp :=
  { lane := l, va := s.laneVa x a off l, pa := 0, b := b l, c := c l }

theorem mem_laneOps {o : LaneOp} :
    o ∈ s.laneOps x a off b c ↔ ∃ l, s.cur.lanes.getLsbD l = true ∧ s.laneOp x a off b c l = o := by
  simp [State.laneOps, mem_lanesOf, State.laneOp]

/-- What holds of the address of every executing lane holds of every access. -/
theorem laneOps_va {p : Nat → Prop} (h : ∀ l, s.cur.lanes.getLsbD l = true → p (s.laneVa x a off l)) :
    ∀ o ∈ s.laneOps x a off b c, p o.va := by
  intro o ho
  obtain ⟨l, hl, rfl⟩ := mem_laneOps.1 ho
  exact h l hl

end

/-! ### The checks (R54, R57, R266, R267) -/

theorem State.misaligned_none {s : State} {ops : List LaneOp} {w : Nat} (h : ∀ o ∈ ops, o.va % w = 0) : s.misaligned ops w = none := by
  have none : ops.filter (fun o => o.va % w != 0) = [] := List.filter_eq_nil_iff.2 fun o ho => by simp [h o ho]
  rw [State.misaligned, none]
  rfl

theorem State.outOfRange_none {s : State} {ops : List LaneOp} (h : ∀ o ∈ ops, o.va < 2 ^ 53) : s.outOfRange ops = none := by
  have none : ops.filter (fun o => 2 ^ 53 ≤ o.va) = [] := List.filter_eq_nil_iff.2 fun o ho => by simpa using h o ho
  rw [State.outOfRange, none]
  rfl

/-- Accesses that pass the first checks end as their translation does. -/
theorem State.globalAccess_ok {s : State} {len w : Nat} {acc : Access} {ops : List LaneOp} {parts : List Part}
    (h : ∀ o ∈ ops, o.va % w = 0 ∧ o.va < 2 ^ 53) (hr : s.reach acc w ops = .ok parts)
    (f : State → List Part → Except Trap State) : s.globalAccess len w acc ops f = f s.spendWalk parts := by
  rw [State.globalAccess, State.misaligned_none fun o ho => (h o ho).1, State.outOfRange_none fun o ho => (h o ho).2, hr]

/-- Accesses inside the scratchpad space take their physical addresses. -/
theorem State.scratchAccess_ok {s : State} {w : Nat} {ops : List LaneOp} (ha : ∀ o ∈ ops, o.va % w = 0)
    (hs : ∀ o ∈ ops, (s.scratchPhys (crewTok s.cur.warp) o.va w).isSome = true) (f : State → List LaneOp → Except Trap State) :
    s.scratchAccess w ops f = f s (ops.map fun o => { o with pa := (s.scratchPhys (crewTok s.cur.warp) o.va w).getD 0 }) := by
  have none : ops.filter (fun o => (s.scratchPhys (crewTok s.cur.warp) o.va w).isNone) = [] :=
    List.filter_eq_nil_iff.2 fun o ho => by rw [Option.isNone_iff_eq_none]; exact Option.isSome_iff_ne_none.1 (hs o ho)
  rw [State.scratchAccess, State.misaligned_none ha]
  dsimp only
  rw [none]
  rfl

end Sys2Proof.Machine

namespace Sys2Proof

open Sys2Proof.Machine

/-! ### The instructions -/

section
variable {s : State} {w : Width} {ord : Order} {sc : Scope} {d a b : Operand} {i : Instr} {off : Option Operand}

theorem exec_globalLoad (h : (i, off) ∈ loadForms false w ord sc d a b) :
    exec i s = runOp i s fun s => s.loadG i.len w ord sc d a off := by
  simp only [loadForms, List.mem_cons, List.not_mem_nil, or_false, Prod.mk.injEq] at h
  obtain ⟨rfl, rfl⟩ | ⟨rfl, rfl⟩ := h <;> rfl

theorem exec_scratchLoad (h : (i, off) ∈ loadForms true w ord sc d a b) :
    exec i s = runOp i s fun s => s.loadX i.len w ord sc d a off := by
  simp only [loadForms, List.mem_cons, List.not_mem_nil, or_false, Prod.mk.injEq] at h
  obtain ⟨rfl, rfl⟩ | ⟨rfl, rfl⟩ := h <;> rfl

theorem exec_globalStore (h : (i, off) ∈ storeForms false w ord sc d a b) :
    exec i s = runOp i s fun s => s.storeG i.len w ord sc d a off := by
  simp only [storeForms, List.mem_cons, List.not_mem_nil, or_false, Prod.mk.injEq] at h
  obtain ⟨rfl, rfl⟩ | ⟨rfl, rfl⟩ := h <;> rfl

theorem exec_scratchStore (h : (i, off) ∈ storeForms true w ord sc d a b) :
    exec i s = runOp i s fun s => s.storeXs i.len w ord sc d a off := by
  simp only [storeForms, List.mem_cons, List.not_mem_nil, or_false, Prod.mk.injEq] at h
  obtain ⟨rfl, rfl⟩ | ⟨rfl, rfl⟩ := h <;> rfl

end

end Sys2Proof

/-! ## O20: the order of address faults -/

namespace Sys2Proof.Machine

open Sys2Proof

/-! ### What a fault of lanes names (R67) -/

theorem leastBy_spec {α : Type} (f : α → Nat) (l : List α) :
    (leastBy f l = none ∧ l = []) ∨ ∃ a ∈ l, leastBy f l = some a ∧ ∀ b ∈ l, f a ≤ f b := by
  induction l with
  | nil => exact .inl ⟨rfl, rfl⟩
  | cons a t ih =>
    refine .inr ?_
    unfold leastBy
    obtain ⟨he, rfl⟩ | ⟨b, hb, he, least⟩ := ih
    · exact ⟨a, by simp, by rw [he], by simp⟩
    · rw [he]
      dsimp only
      by_cases h : f b < f a
      · exact ⟨b, .tail _ hb, if_pos h, fun c hc => by
          rcases List.mem_cons.1 hc with rfl | hc
          · exact h.le
          · exact least c hc⟩
      · exact ⟨a, .head _, if_neg h, fun c hc => by
          rcases List.mem_cons.1 hc with rfl | hc
          · exact le_rfl
          · exact (not_lt.1 h).trans (least c hc)⟩

/-- The lowest address of accesses is that of one of them, below the others. -/
theorem lowestVa_eq {ops : List LaneOp} {low : Nat} (hm : ∃ o ∈ ops, o.va = low) (hl : ∀ o ∈ ops, low ≤ o.va) : lowestVa ops = low := by
  obtain ⟨o, ho, rfl⟩ := hm
  obtain ⟨-, rfl⟩ | ⟨a, ha, he, least⟩ := leastBy_spec LaneOp.va ops
  · cases ho
  · rw [lowestVa, he]
    exact le_antisymm (least o ho) (hl a ha)

/-- The trap of lanes and their lowest address. -/
def State.addressTrap (s : State) (cause : Nat) (lanes : LaneSet) (low : Nat) : Trap :=
  { s.mkTrap cause with lanes := lanes, addr := BitVec.ofNat 64 low }

/-- A fault of some executing lanes: which they are, and the least of their addresses. -/
structure LanesFail (s : State) (va : Nat → Nat) (lanes : LaneSet) (low : Nat) (bad : Nat → Prop) : Prop where
  failing : ∀ l, lanes.getLsbD l = true ↔ s.cur.lanes.getLsbD l = true ∧ bad l
  attained : ∃ l, lanes.getLsbD l = true ∧ va l = low
  least : ∀ l, lanes.getLsbD l = true → low ≤ va l

namespace LanesFail
variable {s : State} {x : Bool} {a : Operand} {off : Option Operand} {b c : Nat → Nat} {lanes : LaneSet} {low : Nat} {bad : Nat → Prop}
  {p : LaneOp → Bool} (h : LanesFail s (s.laneVa x a off) lanes low bad) (hp : ∀ l, p (s.laneOp x a off b c l) = true ↔ bad l)
include h hp

theorem mem_filter {o : LaneOp} :
    o ∈ (s.laneOps x a off b c).filter p ↔ ∃ l, lanes.getLsbD l = true ∧ s.laneOp x a off b c l = o := by
  rw [List.mem_filter, mem_laneOps]
  constructor
  · rintro ⟨⟨l, hl, rfl⟩, ho⟩
    exact ⟨l, (h.failing l).2 ⟨hl, (hp l).1 ho⟩, rfl⟩
  · rintro ⟨l, hl, rfl⟩
    obtain ⟨hl, hb⟩ := (h.failing l).1 hl
    exact ⟨⟨l, hl, rfl⟩, (hp l).2 hb⟩

theorem filter_ne_nil : ((s.laneOps x a off b c).filter p).isEmpty = false := by
  obtain ⟨l, hl, -⟩ := h.attained
  rw [List.isEmpty_eq_false_iff]
  exact List.ne_nil_of_mem ((h.mem_filter hp).2 ⟨l, hl, rfl⟩)

/-- The trap names those lanes and that address. -/
theorem lanesTrap_eq (cause : Nat) : s.lanesTrap cause ((s.laneOps x a off b c).filter p)
    = s.addressTrap cause lanes low := by
  have named : opLanes ((s.laneOps x a off b c).filter p) = lanes := by
    refine lanes_ext fun l hl => Bool.eq_iff_iff.2 ?_
    rw [opLanes, laneSet_getLsbD, decide_eq_true hl, Bool.true_and, decide_eq_true_iff, List.mem_map]
    constructor
    · rintro ⟨o, ho, rfl⟩
      obtain ⟨k, hk, rfl⟩ := (h.mem_filter hp).1 ho
      exact hk
    · exact fun hk => ⟨_, (h.mem_filter hp).2 ⟨l, hk, rfl⟩, rfl⟩
  have lowest : lowestVa ((s.laneOps x a off b c).filter p) = low := by
    obtain ⟨l, hl, hv⟩ := h.attained
    refine lowestVa_eq ⟨_, (h.mem_filter hp).2 ⟨l, hl, rfl⟩, hv⟩ fun o ho => ?_
    obtain ⟨k, hk, rfl⟩ := (h.mem_filter hp).1 ho
    exact h.least k hk
  rw [State.lanesTrap, named, lowest]
  rfl

end LanesFail

/-- How the checks of an access of either space fail, in their order. -/
structure ChecksFail (s : State) (x : Bool) (w : Nat) (va : Nat → Nat) (lanes : LaneSet) (low cause : Nat) : Prop where
  aligned : cause ≠ 0x03 → ∀ l, s.cur.lanes.getLsbD l = true → va l % w = 0
  fails : cause = 0x03 ∧ LanesFail s va lanes low (fun l => va l % w ≠ 0)
    ∨ cause = 0x05 ∧ x = false ∧ LanesFail s va lanes low (fun l => 2 ^ 53 ≤ va l)
    ∨ cause = 0x07 ∧ x = true ∧ LanesFail s va lanes low (fun l => s.scratchPhys (crewTok s.cur.warp) (va l) w = none)

section
variable {s : State} {a : Operand} {off : Option Operand} {b c : Nat → Nat} {lanes : LaneSet} {low cause w : Nat}

theorem LanesFail.misaligned {x : Bool} (h : LanesFail s (s.laneVa x a off) lanes low fun l => s.laneVa x a off l % w ≠ 0) :
    s.misaligned (s.laneOps x a off b c) w = some (s.addressTrap 0x03 lanes low) := by
  have hp : ∀ l, (s.laneOp x a off b c l).va % w != 0 ↔ s.laneVa x a off l % w ≠ 0 := fun l => bne_iff_ne
  rw [State.misaligned, h.filter_ne_nil (p := fun o => o.va % w != 0) hp, h.lanesTrap_eq (p := fun o => o.va % w != 0) hp]
  rfl

theorem ChecksFail.globalAccess (h : ChecksFail s false w (s.laneVa false a off) lanes low cause) (len : Nat) (acc : Access)
    (f : State → List Part → Except Trap State) :
    s.globalAccess len w acc (s.laneOps false a off b c) f = .error (s.addressTrap cause lanes low) := by
  obtain ⟨rfl, fails⟩ | ⟨rfl, -, fails⟩ | ⟨-, hx, -⟩ := h.fails
  · rw [State.globalAccess, fails.misaligned]
  · have hp : ∀ l, decide (2 ^ 53 ≤ (s.laneOp false a off b c l).va) ↔ 2 ^ 53 ≤ s.laneVa false a off l := fun l => decide_eq_true_iff
    have range : s.outOfRange (s.laneOps false a off b c) = some (s.addressTrap 0x05 lanes low) := by
      rw [State.outOfRange, fails.filter_ne_nil (p := fun o => 2 ^ 53 ≤ o.va) hp, fails.lanesTrap_eq (p := fun o => 2 ^ 53 ≤ o.va) hp]
      rfl
    rw [State.globalAccess, State.misaligned_none (laneOps_va (p := (· % w = 0)) (h.aligned (by decide))), range]
  · cases hx

theorem ChecksFail.scratchAccess (h : ChecksFail s true w (s.laneVa true a off) lanes low cause)
    (f : State → List LaneOp → Except Trap State) :
    s.scratchAccess w (s.laneOps true a off b c) f = .error (s.addressTrap cause lanes low) := by
  obtain ⟨rfl, fails⟩ | ⟨-, hx, -⟩ | ⟨rfl, -, fails⟩ := h.fails
  · rw [State.scratchAccess, fails.misaligned]
  · cases hx
  · have hp : ∀ l, (s.scratchPhys (crewTok s.cur.warp) (s.laneOp true a off b c l).va w).isNone
        ↔ s.scratchPhys (crewTok s.cur.warp) (s.laneVa true a off l) w = none := fun l => Option.isNone_iff_eq_none
    rw [State.scratchAccess, State.misaligned_none (laneOps_va (p := (· % w = 0)) (h.aligned (by decide)))]
    dsimp only
    rw [fails.filter_ne_nil (p := fun o => (s.scratchPhys (crewTok s.cur.warp) o.va w).isNone) hp,
      fails.lanesTrap_eq (p := fun o => (s.scratchPhys (crewTok s.cur.warp) o.va w).isNone) hp]
    rfl

end

end Sys2Proof.Machine

namespace Sys2Proof

open Sys2Proof.Machine

/-- A load or store whose checks fail takes their trap. -/
theorem exec_checksFail {s : State} {x : Bool} {w : Width} {ord : Order} {sc : Scope} {d a b : Operand} {i : Instr} {off : Option Operand}
    {lanes : LaneSet} {low cause : Nat} (hi : (i, off) ∈ loadForms x w ord sc d a b ∨ (i, off) ∈ storeForms x w ord sc d a b)
    (hc : clear i s = true) (h : ChecksFail s x w.bytes (s.laneVa x a off) lanes low cause) :
    exec i s = .next (s.issueTrap (s.addressTrap cause lanes low)) := by
  cases x with
  | false =>
    obtain hi | hi := hi
    · exact (exec_globalLoad hi).trans (runOp_error hc (by rw [State.loadG, h.globalAccess]))
    · exact (exec_globalStore hi).trans (runOp_error hc (by rw [State.storeG, h.globalAccess]))
  | true =>
    obtain hi | hi := hi
    · exact (exec_scratchLoad hi).trans (runOp_error hc (by rw [State.loadX, h.scratchAccess]))
    · exact (exec_scratchStore hi).trans (runOp_error hc (by rw [State.storeXs, h.scratchAccess]))

/-- Settles O20: each check's trap is `State.addressTrap`, and a check comes after those that passed (`ChecksFail`). -/
theorem addressFaults : Obligations.AddressFaults := by
  unfold Obligations.AddressFaults
  intro s x w ord sc d a b i off lanes low hi hc va fails faults
  have faulted {cause : Nat} (h : ChecksFail s x w.bytes va lanes low cause) : faults cause :=
    ⟨_, exec_checksFail hi hc h, rfl, rfl, rfl, rfl, rfl, rfl⟩
  refine ⟨fun ⟨h1, h2, h3⟩ => faulted ⟨fun e => absurd rfl e, .inl ⟨rfl, h1, h2, h3⟩⟩, fun aligned => ⟨?_, ?_⟩⟩
  · exact fun hx ⟨h1, h2, h3⟩ => faulted ⟨fun _ => aligned, .inr (.inl ⟨rfl, hx, h1, h2, h3⟩)⟩
  · exact fun hx ⟨h1, h2, h3⟩ => faulted ⟨fun _ => aligned, .inr (.inr ⟨rfl, hx, h1, h2, h3⟩)⟩

end Sys2Proof

/-! ## O18: scratchpad loads and stores

A load's result is written in a state that differs in its L1 alone (`State.acquire`); a store's writes, one after another, are one
`Memory.writes`. -/

namespace Sys2Proof.Machine

open Sys2Proof

/-! ### Several writes, one after another -/

/-- Strings written at their addresses, the first one first. -/
def Memory.writes (m : Memory) (ws : List (Nat × List Byte)) : Memory := ws.foldl (fun m p => m.write p.1 p.2) m

@[simp] theorem Memory.writes_cons (m : Memory) (p : Nat × List Byte) (ws : List (Nat × List Byte)) :
    m.writes (p :: ws) = (m.write p.1 p.2).writes ws := rfl

theorem Memory.writes_append (m : Memory) (ws vs : List (Nat × List Byte)) : m.writes (ws ++ vs) = (m.writes ws).writes vs :=
  List.foldl_append ..

theorem Memory.wf_writes {m : Memory} (hm : Memory.wf m = true) (ws : List (Nat × List Byte)) : Memory.wf (m.writes ws) = true := by
  induction ws generalizing m with
  | nil => exact hm
  | cons p ws ih => exact ih (Memory.wf_write hm p.1 p.2)

/-- A byte outside every string reads as before. -/
theorem Memory.get_writes_ne (m : Memory) {ws : List (Nat × List Byte)} {x : Nat} (h : ∀ p ∈ ws, x < p.1 ∨ p.1 + p.2.length ≤ x) :
    (m.writes ws).get x = m.get x := by
  induction ws generalizing m with
  | nil => rfl
  | cons p ws ih =>
    rw [Memory.writes_cons, ih _ fun q hq => h q (.tail _ hq), Memory.get_write_ne _ _ _ (h p (.head _))]

/-- A range that the strings do not touch reads as before. -/
theorem Memory.read_writes_ne (m : Memory) {ws : List (Nat × List Byte)} {a n : Nat} (h : ∀ p ∈ ws, a + n ≤ p.1 ∨ p.1 + p.2.length ≤ a) :
    (m.writes ws).read a n = m.read a n :=
  Memory.read_congr fun b h1 h2 => m.get_writes_ne fun p hp => by have := h p hp; omega

/-- A string that none of the later ones touches is read back. -/
theorem Memory.read_writes_last {m : Memory} (hm : Memory.wf m = true) (pre post : List (Nat × List Byte)) (p : Nat × List Byte)
    (h : ∀ q ∈ post, p.1 + p.2.length ≤ q.1 ∨ q.1 + q.2.length ≤ p.1) : (m.writes (pre ++ p :: post)).read p.1 p.2.length = p.2 := by
  rw [Memory.writes_append, Memory.writes_cons, Memory.read_writes_ne _ h, Memory.read_write (Memory.wf_writes hm pre)]

/-! ### Values loaded -/

theorem bytesToNat_lt (bs : List Byte) : bytesToNat bs < 256 ^ bs.length := by
  induction bs with
  | nil => exact Nat.one_pos
  | cons b t ih =>
    have := b.isLt
    rw [bytesToNat, List.length_cons, Nat.pow_succ]
    omega

/-- A width code's extension of as many bytes is the value loaded (R184, R268). -/
theorem Width.extend_eq_loaded (w : Width) {bs : List Byte} (h : bs.length ≤ w.bytes) : Width.extend w (bytesToNat bs) = loaded w (bytesToNat bs) := by
  have small : bytesToNat bs < 256 ^ w.bytes := (bytesToNat_lt bs).trans_le (Nat.pow_le_pow_right (by omega) h)
  cases w with
  | i8 | i16 | w128 => rfl
  | n8 | n16 | w32 | w64 => exact Nat.mod_eq_of_lt small

/-- A table made of keys holds each key's value. -/
theorem FMap.get_map_of_mem {α : Type} [Inhabited α] {ks : List Nat} {k : Nat} (h : k ∈ ks) (f : Nat → α) :
    FMap.get (ks.map fun k => (k, f k)) k = f k := by
  induction ks with
  | nil => cases h
  | cons j ks ih =>
    rw [List.map_cons, FMap.get, FMap.find_cons]
    split
    case isTrue e => rw [e]; rfl
    case isFalse e => exact ih ((List.mem_cons.1 h).resolve_left (Ne.symm e))

/-! ### Acquire, release, and the end of a load -/

theorem State.acquire_frame (s : State) (on : Bool) : s.acquire on = { s with cores := (s.acquire on).cores } := by
  cases on with
  | false => rfl
  | true => exact s.emptyL1_frame _

/-- An access that is no release, or finds nothing to wait for, goes on (R97, R98). -/
theorem State.release_free {s : State} {on : Bool} (h : on = true → s.outstanding s.cur.warp = 0 ∧ s.curWarp.remoteErr = none)
    (len : Nat) (f : State → Except Trap State) : s.release on len f = f s := by
  cases on with
  | false => rfl
  | true =>
    obtain ⟨none, clean⟩ := h rfl
    rw [State.release, if_pos rfl, if_neg (not_not.2 none), clean]

/-- A load without requests or faults writes its lanes' values. -/
theorem State.afterLocal_done {s : State} {m : MemWait} (hr : m.reqs = []) (hf : m.faults = []) (len : Nat) :
    s.afterLocal len m = (s.writeRes m.words m.d fun l => m.value (m.got.get l)).advance len := by
  rw [State.afterLocal, hr, hf]
  rfl

/-! ### Stores to the scratchpad -/

theorem State.foldl_storeX {α : Type} (pa : α → Nat) (bs : α → List Byte) (os : List α) (s : State) :
    let t := os.foldl (fun s o => s.storeX (pa o) (bs o)) s
    t = { s with mem := t.mem, badWords := t.badWords } ∧ t.mem = s.mem.writes (os.map fun o => (pa o, bs o)) := by
  induction os generalizing s with
  | nil => exact ⟨rfl, rfl⟩
  | cons o os ih =>
    obtain ⟨frame, mem⟩ := ih (s.storeX (pa o) (bs o))
    exact ⟨by rw [List.foldl_cons, frame]; rfl, mem⟩

/-- A lane comes before the higher ones alone. -/
theorem lanesOf_split {m : LaneSet} {l : Nat} (h : m.getLsbD l = true) :
    ∃ pre post, lanesOf m = pre ++ l :: post ∧ ∀ k ∈ post, m.getLsbD k = true ∧ l < k := by
  obtain ⟨pre, post, e⟩ := List.append_of_mem (mem_lanesOf.2 h)
  have rising : (lanesOf m).Pairwise (· < ·) := List.pairwise_lt_range.filter _
  rw [e, List.pairwise_append] at rising
  refine ⟨pre, post, e, fun k hk => ⟨mem_lanesOf.1 (by rw [e]; simp [hk]), ?_⟩⟩
  exact List.rel_of_pairwise_cons rising.2.1 hk

end Sys2Proof.Machine

namespace Sys2Proof

open Sys2Proof.Machine

/-- A lane-wise result depends on the executing lanes' values alone. -/
theorem RegsWritten.congr {s : State} {y : Warp} {nw : Nat} {d : Operand} {f g : Nat → Nat} (h : RegsWritten s y nw d f)
    (e : ∀ l, s.cur.lanes.getLsbD l = true → f l = g l) : RegsWritten s y nw d g where
  vec m l hl := by
    rw [h.vec m l hl]
    split
    case isTrue hw =>
      have exec : s.cur.lanes.getLsbD l = true := by
        cases d <;> simp_all [vecWritten]
      rw [e l exec]
    case isFalse => rfl
  sca m := by
    rw [h.sca m]
    split
    case isTrue hw =>
      have exec : s.cur.lanes ≠ 0 := by
        cases d <;> simp_all [scaWritten]
      rw [e _ (leader_mem exec)]
    case isFalse => rfl
  bad := h.bad

/-- An acquire changes no warp and no byte. -/
theorem SameIssue.acquire (s : State) (on : Bool) : SameIssue s (s.acquire on) := by
  have frame := s.acquire_frame on
  exact ⟨by rw [frame], by rw [frame]; rfl, fun _ _ => by rw [frame]; rfl, by rw [frame]⟩

section
variable {s : State} {w : Width} {ord : Order} {sc : Scope} {d a b : Operand} {i : Instr} {off : Option Operand} {pa : Nat → Nat}

/-- The accesses of lanes in the scratchpad space, with their physical addresses. -/
theorem scratchAccess_lanes (h : ∀ l, s.cur.lanes.getLsbD l = true → s.laneVa true a off l % w.bytes = 0
      ∧ s.scratchPhys (crewTok s.cur.warp) (s.laneVa true a off l) w.bytes = some (pa l))
    (x y : Nat → Nat) (f : State → List LaneOp → Except Trap State) : s.scratchAccess w.bytes (s.laneOps true a off x y) f
      = f s ((lanesOf s.cur.lanes).map fun l => { s.laneOp true a off x y l with pa := pa l }) := by
  rw [State.scratchAccess_ok (laneOps_va (p := (· % w.bytes = 0)) fun l hl => (h l hl).1)
    (laneOps_va (p := fun va => (s.scratchPhys (crewTok s.cur.warp) va w.bytes).isSome = true) fun l hl => by rw [(h l hl).2]; rfl)]
  congr 1
  rw [State.laneOps, List.map_map]
  refine List.map_congr_left fun l hl => ?_
  show ({ s.laneOp true a off x y l with pa := (s.scratchPhys _ (s.laneVa true a off l) w.bytes).getD 0 } : LaneOp) = _
  rw [(h l (mem_lanesOf.1 hl)).2]
  rfl

/-- A scratchpad load ends in its lane-wise result, in the state that its acquire leaves. -/
theorem loadX_ok (h : ∀ l, s.cur.lanes.getLsbD l = true → s.laneVa true a off l % w.bytes = 0
      ∧ s.scratchPhys (crewTok s.cur.warp) (s.laneVa true a off l) w.bytes = some (pa l) ∧ s.badWord (pa l) w.bytes = false) (len : Nat) :
    ∃ f : Nat → Nat, (∀ l, s.cur.lanes.getLsbD l = true → f l = loaded w (s.mem.readNat (pa l) w.bytes))
      ∧ s.loadX len w ord sc d a off = .ok (((s.acquire (ord == .acq && 3 ≤ sc.code)).writeRes
          (if w.bytes = 16 then 4 else if w.bytes = 8 then 2 else 1) d f).advance len) := by
  let s1 := s.acquire (ord == .acq && 3 ≤ sc.code)
  have frame : s1 = { s with cores := s1.cores } := s.acquire_frame _
  let ops := (lanesOf s.cur.lanes).map fun l => { s.laneOp true a off (fun _ => 0) (fun _ => 0) l with pa := pa l }
  have sound : ∀ o ∈ ops, s1.badWord o.pa w.bytes = false := by
    intro o ho
    obtain ⟨l, hl, rfl⟩ := List.mem_map.1 ho
    rw [frame]
    exact (h l (mem_lanesOf.1 hl)).2.2
  have bad : ops.filter (fun o => s1.badWord o.pa w.bytes) = [] :=
    List.filter_eq_nil_iff.2 fun o ho => by rw [sound o ho]; exact Bool.false_ne_true
  have good : ops.filter (fun o => !s1.badWord o.pa w.bytes) = ops := List.filter_eq_self.2 fun o ho => by rw [sound o ho]; rfl
  let m : MemWait :=
    { atomic := false, width := w, bytes := w.bytes, ext := none, d := d, reqs := [],
      got := ops.map fun o => (o.lane, s1.mem.readNat o.pa w.bytes), faults := [], some_ := false, acq := false }
  have run : s.loadX len w ord sc d a off = .ok (s1.afterLocal len m) := by
    rw [State.loadX, scratchAccess_lanes fun l hl => ⟨(h l hl).1, (h l hl).2.1⟩]
    show Except.ok (State.afterLocal (State.logScratch s1 _ _ (ops.filter _)) _ { m with got := _, faults := _ }) = _
    rw [bad, good]
    rfl
  refine ⟨fun l => m.value (m.got.get l), fun l hl => ?_, by rw [run, State.afterLocal_done rfl rfl]; rfl⟩
  have got : m.got.get l = bytesToNat (s.mem.read (pa l) w.bytes) := by
    show FMap.get (ops.map _) l = _
    rw [List.map_map]
    refine (FMap.get_map_of_mem (mem_lanesOf.2 hl) fun l => s1.mem.readNat (pa l) w.bytes).trans ?_
    rw [frame]
    rfl
  exact (congrArg m.value got).trans (Width.extend_eq_loaded w (by simp))

end

theorem scratchpadLoad : Part.ScratchpadLoad := by
  intro s w ord sc d a b i off pa hi hc n core h
  obtain ⟨f, hf, run⟩ := loadX_ok (ord := ord) (sc := sc) (d := d) h i.len
  let on : Bool := ord == .acq && 3 ≤ sc.code
  have frame := s.acquire_frame on
  have same := SameIssue.acquire s on
  let t := ((s.acquire on).writeRes (if n = 16 then 4 else if n = 8 then 2 else 1) d f).advance i.len
  have only : WarpOnly (s.acquire on) t := (LaneResult.of_writeRes ..).only
  have cores : t.cores = (s.acquire on).cores := by rw [only.rest]
  have result := same.result (if n = 16 then 4 else if n = 8 then 2 else 1) d f i.len
  obtain ⟨⟨other, memory⟩, advanced, regs⟩ := result
  refine ⟨t, (exec_scratchLoad hi).trans (runOp_ok hc run), regs.congr hf, advanced, ?_, ?_, other, memory, ?_⟩
  · have warp : t.curWarp = _ := (LaneResult.of_writeRes (s.acquire on) _ d f i.len).warp
    have cur : (s.acquire on).curWarp = s.curWarp := by rw [frame]; rfl
    rw [warp, cur]
  · have acquired : t.core = (s.acquire on).core := by funext c; rw [State.core, cores]; rfl
    split
    case isTrue acq =>
      have on_ : on = true := by simp [on, acq]
      rw [acquired, on_]
      refine ⟨?_, fun c hne => ?_⟩
      · exact (congrArg Core.l1 (s.emptyL1_core core core)).trans (if_pos rfl)
      · exact (s.emptyL1_core core c).trans (by rw [if_neg hne])
    case isFalse acq =>
      have on_ : on = false := by simpa [on] using acq
      rw [cores, on_]
      rfl
  · rw [only.rest, frame]

/-- A scratchpad store that is no release with stores to wait for writes its lanes' bytes, in ascending lane order. -/
theorem storeXs_ok {s : State} {w : Width} {ord : Order} {sc : Scope} {d a : Operand} {off : Option Operand} {pa : Nat → Nat}
    (h : ∀ l, s.cur.lanes.getLsbD l = true → s.laneVa true a off l % w.bytes = 0
      ∧ s.scratchPhys (crewTok s.cur.warp) (s.laneVa true a off l) w.bytes = some (pa l))
    (free : ord ≠ .rel ∨ sc.code < 5 ∨ s.outstanding s.cur.warp = 0 ∧ s.curWarp.remoteErr = none) (len : Nat) :
    ∃ t : State, s.storeXs len w ord sc d a off = .ok (t.advance len) ∧ t = { s with mem := t.mem, badWords := t.badWords }
      ∧ t.mem = s.mem.writes ((lanesOf s.cur.lanes).map fun l => (pa l, natToBytes w.bytes (s.storeData w.bytes d l))) := by
  let ops := (lanesOf s.cur.lanes).map fun l => { s.laneOp true a off (s.storeData w.bytes d) (fun _ => 0) l with pa := pa l }
  obtain ⟨frame, mem⟩ := s.foldl_storeX LaneOp.pa (fun o => natToBytes w.bytes o.b) ops
  refine ⟨_, ?_, frame, mem.trans (by rw [List.map_map]; rfl)⟩
  rw [State.storeXs, scratchAccess_lanes h, State.release_free fun on => ?_]
  simp only [Bool.and_eq_true, beq_iff_eq, decide_eq_true_eq] at on
  obtain hne | hlt | done := free
  · exact absurd on.1 hne
  · exact absurd on.2 (by omega)
  · exact done

theorem scratchpadStore : Part.ScratchpadStore := by
  intro s w ord sc d a b i off pa hi hc good n data h free
  obtain ⟨t, run, frame, mem⟩ := storeXs_ok (d := d) h free i.len
  let ws := (lanesOf s.cur.lanes).map fun l => (pa l, natToBytes n (data l))
  have memory : (t.advance i.len).mem = s.mem.writes ws := mem
  have only : WarpOnly t (t.advance i.len) := WarpOnly.upCur ..
  have cur : t.cur = s.cur := by rw [frame]
  have curWarp : t.curWarp = s.curWarp := by rw [frame]; rfl
  have warp : ∀ v, t.warp v = s.warp v := fun v => by rw [frame]; rfl
  refine ⟨_, (exec_scratchStore hi).trans (runOp_ok hc run), fun x hx => ?_, fun l hl hlast => ?_, ?_, ?_, fun v hv => ?_, ?_⟩
  · rw [memory]
    refine Memory.get_writes_ne _ fun p hp => ?_
    obtain ⟨l, hl, rfl⟩ := List.mem_map.1 hp
    simpa using hx l (mem_lanesOf.1 hl)
  · obtain ⟨pre, post, split, higher⟩ := lanesOf_split hl
    rw [memory]
    have last := Memory.read_writes_last good (pre.map fun l => (pa l, natToBytes n (data l)))
      (post.map fun l => (pa l, natToBytes n (data l))) (pa l, natToBytes n (data l)) fun q hq => by
        obtain ⟨k, hk, rfl⟩ := List.mem_map.1 hq
        obtain ⟨hk, hlk⟩ := higher k hk
        simpa using (hlast k hk hlk).symm
    simpa [ws, split] using last
  · intro l
    rw [Advanced.advance t i.len l, cur, curWarp]
  · have : (t.advance i.len).curWarp = t.curWarp.advance t.cur.lanes i.len := State.curWarp_upCur ..
    rw [this, curWarp]
    rfl
  · rw [only.other v (by rwa [cur]), warp v]
  · rw [only.rest, frame]

/-- Settles O18: a load is `loadX_ok`, a store `storeXs_ok`. -/
theorem scratchpadAccess : Obligations.ScratchpadAccess := ⟨scratchpadLoad, scratchpadStore⟩

end Sys2Proof

/-! ## What logging an error and storing bytes leave: shared by the statements on memory performed -/

namespace Sys2Proof.Machine

open Sys2Proof

/-! ### Events, the error log, counters -/

/-- An event or a log entry made, with what counts it: the error marks found, the log, the management core but for what it sends, and a
slice's counters. -/
structure Logged (s t : State) : Prop where
  frame : t = { s with poison := t.poison, mgr := t.mgr, errlog := t.errlog, sliceCount := t.sliceCount }
  outbox : t.mgr.outbox = s.mgr.outbox

namespace Logged
variable {s t u : State}

theorem refl (s : State) : Logged s s := ⟨rfl, rfl⟩

theorem trans (h : Logged s t) (k : Logged t u) : Logged s u where
  frame := by rw [k.frame]; rw [h.frame]
  outbox := k.outbox.trans h.outbox

theorem after (k : Logged t u) (h : Logged s t) : Logged s u := h.trans k

theorem foldl {α : Type} {f : State → α → State} (hf : ∀ s a, Logged s (f s a)) (l : List α) (s : State) : Logged s (l.foldl f s) := by
  induction l generalizing s with
  | nil => exact refl s
  | cons a l ih => exact (hf s a).trans (ih _)

theorem post (s : State) (m : Message) : Logged s (s.post m) := by
  unfold State.post
  dsimp only
  split
  · exact ⟨rfl, rfl⟩
  · split
    · exact ⟨rfl, rfl⟩
    · split <;> exact ⟨rfl, rfl⟩

theorem logError (s : State) (kind storage ctx loc pa va : Nat) : Logged s (s.logError kind storage ctx loc pa va) := by
  unfold State.logError
  dsimp only
  generalize List.drop _ _ = log
  exact (post _ _).after ⟨rfl, rfl⟩

theorem countSlice (s : State) (slice source n : Nat) : Logged s (s.countSlice slice source n) := by
  have frame := s.countSlice_frame slice source n
  exact ⟨by rw [frame], by rw [frame]⟩

theorem countServed (s : State) (pa : Nat) : Logged s (s.countServed pa) := by
  have frame := s.countServed_frame pa
  exact ⟨by rw [frame], by rw [frame]⟩

theorem countPoisoned (s : State) (a : Nat) : Logged s (s.countPoisoned a) := by
  unfold State.countPoisoned
  dsimp only
  split
  · exact (countSlice ..).after ⟨rfl, rfl⟩
  · exact (countSlice ..).after ⟨rfl, rfl⟩
  · exact ⟨rfl, rfl⟩

theorem findPoison (s : State) (a ctx va : Nat) : Logged s (s.findPoison a ctx va) := by
  unfold State.findPoison
  split
  · dsimp only
    split
    · exact (countPoisoned ..).after ((logError ..).after ⟨rfl, rfl⟩)
    · exact (logError ..).after ⟨rfl, rfl⟩
  · exact refl s

theorem logRead (s : State) (ctx pa n va : Nat) : Logged s (s.logRead ctx pa n va) := (findPoison ..).trans (logError ..)

theorem mem (h : Logged s t) : t.mem = s.mem := by rw [h.frame]
theorem warps (h : Logged s t) : t.warps = s.warps := by rw [h.frame]
theorem migs (h : Logged s t) : t.migs = s.migs := by rw [h.frame]
theorem landings (h : Logged s t) : t.landings = s.landings := by rw [h.frame]

end Logged

/-- An event goes to the end of a store that has room for it (R437). -/
theorem State.post_events {s : State} (m : Message) (room : s.mgr.events.length < 1024) (idle : s.mgr.waiting = []) :
    (s.post m).mgr.events = s.mgr.events ++ [m] := by
  have free : s.mgr.events.length < 1024 ∧ s.mgr.waiting.isEmpty = true := ⟨room, by rw [idle]; rfl⟩
  exact congrArg (fun t : State => t.mgr.events) (if_pos free)

/-! ### Bytes stored -/

/-- Storing what a range holds changes nothing. -/
theorem Memory.set_get {m : Memory} (hm : Memory.wf m = true) (a : Nat) : m.set a (m.get a) = m := by
  induction m with
  | nil => rfl
  | cons p t ih =>
    obtain ⟨b, y⟩ := p
    obtain ⟨hy, above, ht⟩ := Memory.wf_cons.1 hm
    rw [Memory.get_cons]
    by_cases hab : b = a
    · subst hab
      rw [if_pos rfl, Memory.set, if_neg (lt_irrefl b), if_pos rfl, if_neg hy]
    · rw [if_neg hab]
      by_cases hlt : a < b
      · have zero : Memory.get t a = 0 := Memory.get_below fun p hp => hlt.trans (above p hp)
        simp [Memory.set, hlt, zero]
      · simp [Memory.set, hlt, Ne.symm hab, ih ht]

theorem Memory.write_read {m : Memory} (hm : Memory.wf m = true) (a n : Nat) : m.write a (m.read a n) = m := by
  induction n generalizing a with
  | zero => rfl
  | succ n ih => rw [Memory.read, Memory.write, Memory.set_get hm, ih]

/-- Strings stored one after another: memory holds them, and of the rest of the state only marks, L1 lines and counters differ. -/
structure Stores (s t : State) (ws : List (Nat × List Byte)) : Prop where
  frame : t = { s with mem := t.mem, poison := t.poison, dirty := t.dirty, weak := t.weak, chans := t.chans, cores := t.cores,
                       sliceCount := t.sliceCount }
  mem : t.mem = s.mem.writes ws
  failed : ∀ c, (t.chans.get c).failed = (s.chans.get c).failed

/-- A granule written anew leaves its channel as failed as it was. -/
theorem rewritten_failed (chans : FMap Chan) (g c : Nat) : ((rewritten chans g).get c).failed = (chans.get c).failed := by
  unfold rewritten
  dsimp only
  split
  · rw [FMap.get_set]
    split
    case isTrue e => rw [e]
    case isFalse => rfl
  · rfl

namespace Stores
variable {s t u : State} {ws vs : List (Nat × List Byte)}

theorem refl (s : State) : Stores s s [] := ⟨rfl, rfl, fun _ => rfl⟩

theorem trans (h : Stores s t ws) (k : Stores t u vs) : Stores s u (ws ++ vs) where
  frame := by rw [k.frame]; rw [h.frame]
  mem := by rw [k.mem, h.mem, Memory.writes_append]
  failed c := (k.failed c).trans (h.failed c)

theorem store (s : State) (a : Nat) (bs : List Byte) : Stores s (s.store a bs) [(a, bs)] where
  frame := rfl
  mem := rfl
  failed c := by
    have fold : ∀ (gs : List Nat) (chans : FMap Chan), ((gs.foldl rewritten chans).get c).failed = (chans.get c).failed := by
      intro gs
      induction gs with
      | nil => exact fun _ => rfl
      | cons g gs ih => exact fun chans => (ih _).trans (rewritten_failed chans g c)
    unfold State.store
    dsimp only
    split
    · rfl
    · exact fold _ _

theorem chanFailed (h : Stores s t ws) (a : Nat) : t.chanFailed a = s.chanFailed a := by
  rw [State.chanFailed, State.chanFailed, h.failed]

theorem ownAddr (h : Stores s t ws) (a : Nat) : t.ownAddr a = s.ownAddr a := by
  unfold State.ownAddr
  rw [show t.module_ = s.module_ by rw [h.frame]]

theorem good (h : Stores s t ws) (hg : Good s) : Good t := by
  rw [Good, h.mem]
  exact Memory.wf_writes hg ws

theorem warps (h : Stores s t ws) : t.warps = s.warps := by rw [h.frame]
theorem mgr (h : Stores s t ws) : t.mgr = s.mgr := by rw [h.frame]

/-- A store in a working channel. -/
theorem storePhys {a : Nat} (ha : s.ownAddr a = a) (hc : s.chanFailed a = false) (ctx va : Nat) (bs : List Byte) :
    Stores s (s.storePhys ctx a va bs) [(a, bs)] := by
  have working : ¬ s.chanFailed (s.ownAddr a) = true := by rw [ha, hc]; exact Bool.false_ne_true
  have := store s (s.ownAddr a) bs
  rw [ha] at this
  have eq : s.storePhys ctx a va bs = s.store (s.ownAddr a) bs := if_neg working
  rwa [eq, ha]

theorem countSlice (s : State) (slice source n : Nat) : Stores s (s.countSlice slice source n) [] := by
  have frame := s.countSlice_frame slice source n
  exact ⟨by rw [frame], by rw [frame]; rfl, fun _ => by rw [frame]⟩

theorem countServed (s : State) (pa : Nat) : Stores s (s.countServed pa) [] := by
  have frame := s.countServed_frame pa
  exact ⟨by rw [frame], by rw [frame]; rfl, fun _ => by rw [frame]⟩

/-- Steps that store each element's strings, in turn. -/
theorem foldl {α : Type} {f : State → α → State} {w : α → List (Nat × List Byte)} (l : List α)
    (hf : ∀ t vs, Stores s t vs → ∀ a ∈ l, Stores t (f t a) (w a)) : Stores s (l.foldl f s) (l.flatMap w) := by
  have step : ∀ (l' : List α) (t : State) (vs : List (Nat × List Byte)), Stores s t vs → (∀ a ∈ l', a ∈ l) →
      Stores s (l'.foldl f t) (vs ++ l'.flatMap w) := by
    intro l'
    induction l' with
    | nil => intro t vs ht _; simpa using ht
    | cons a l' ih =>
      intro t vs ht hl
      have := ih (f t a) (vs ++ w a) (ht.trans (hf t vs ht a (hl a (.head _)))) fun b hb => hl b (.tail _ hb)
      simpa using this
  simpa using step l s [] (refl s) fun _ h => h

end Stores

/-! ### Local addresses -/

/-- An address below the end of HBM, or just at it, does not leave the module. -/
theorem isRemote_of_le {pa : Nat} (h : pa ≤ hbmEnd) : isRemote pa = false := by
  obtain rfl | h := Nat.eq_or_lt_of_le h
  · decide
  · exact isRemote_of_hbm h

theorem State.ownAddr_of_le {pa : Nat} (h : pa ≤ hbmEnd) (s : State) : s.ownAddr pa = pa := s.ownAddr_of_here (isRemote_of_le h)

/-- A channel that fails an address fails a read of it. -/
theorem State.chanFailed_of_readable {s : State} {pa n : Nat} (hn : 0 < n) (own : s.ownAddr pa = pa) (h : s.readBad pa n = false) :
    s.chanFailed pa = false := by
  have first : pa / 32 ∈ granules pa n := by
    exact List.mem_map.2 ⟨0, List.mem_range.2 (by omega), Nat.zero_add _⟩
  have lost : s.lostGranule (pa / 32) = false := by
    rw [State.readBad, own, bne_iff_ne.2 hn.ne', Bool.true_and, List.any_eq_false] at h
    exact Bool.eq_false_iff.2 (h _ first)
  have chan : s.chanFailed (32 * (pa / 32)) = false := (Bool.or_eq_false_iff.1 lost).2
  have same : chanOf (32 * (pa / 32)) = chanOf pa := by
    have bits_eq : ∀ hi lo, 5 ≤ lo → bits (32 * (pa / 32)) hi lo = bits pa hi lo := fun hi lo h => by
      obtain ⟨k, rfl⟩ := Nat.exists_eq_add_of_le h
      unfold bits
      rw [Nat.pow_add, ← Nat.div_div_eq_div_mul, ← Nat.div_div_eq_div_mul, Nat.mul_div_cancel_left _ (by decide)]
    unfold chanOf homeStack homeSlice channelOf
    simp only [bits_eq, Nat.reduceLeDiff]
  have below : decide (32 * (pa / 32) < hbmEnd) = decide (pa < hbmEnd) := by
    rw [decide_eq_decide]
    unfold hbmEnd
    omega
  rwa [State.chanFailed, same, below] at chan

end Sys2Proof.Machine

/-! ## Invalidations keep the warps that wait for no ticket table (R415) -/

namespace Sys2Proof.Machine

open Sys2Proof

/-- Lanes of no wait issue nothing again. -/
theorem Warp.retry_nobody {w : Warp} {p : Wait → Bool} (h : ∀ r ∈ w.waits, r.lanes ≠ 0 ∧ p r.wait = false) (cycle : Nat) :
    w.retry cycle (w.waiting p) = w := by
  rw [Warp.waiting_none fun r hr => (h r hr).2, Warp.retry, w.unwait_disjoint 0 fun r hr => ⟨BitVec.and_zero, (h r hr).1⟩]
  rfl

/-- What invalidations change: translations, ldts that wait for room, the list of invalidations. -/
structure Invalidated (s t : State) : Prop where
  frame : t = { s with cores := t.cores, walkCache := t.walkCache, warps := t.warps, invals := t.invals, nextInval := t.nextInval }
  kept : warpsKept s t

namespace Invalidated
variable {s t u : State}

theorem refl (s : State) : Invalidated s s := ⟨rfl, fun _ _ => rfl⟩

theorem trans (h : Invalidated s t) (k : Invalidated t u) : Invalidated s u where
  frame := by rw [k.frame]; rw [h.frame]
  kept w hw := by rw [k.kept w (by rwa [h.kept w hw]), h.kept w hw]

theorem invalidate (s : State) (i : Inval) : Invalidated s (s.invalidate i) where
  frame := rfl
  kept w hw := by
    let f : Nat → Warp → Warp := fun n x => x.retry s.cycle (x.waiting (i.onLdt (s.ctxOf n)))
    have find : FMap.find (s.invalidate i).warps w = (FMap.find s.warps w).map (f w) := FMap.find_mapVal s.warps f w
    rw [State.warp, FMap.get, find]
    cases hx : FMap.find s.warps w with
    | none => rw [State.warp, FMap.get, hx]; rfl
    | some x =>
      have warp : s.warp w = x := by rw [State.warp, FMap.get, hx]; rfl
      rw [warp] at hw ⊢
      refine Warp.retry_nobody (fun r hr => ⟨(hw r hr).1, ?_⟩) _
      unfold Inval.onLdt
      split
      case h_1 g hg => exact absurd hg ((hw r hr).2 g)
      case h_2 => rfl

theorem foldl {α : Type} (f : α → Inval) (l : List α) (s : State) : Invalidated s (l.foldl (fun s a => s.invalidate (f a)) s) := by
  induction l generalizing s with
  | nil => exact refl s
  | cons a l ih => exact (invalidate s (f a)).trans (ih _)

end Invalidated

end Sys2Proof.Machine

/-! ## O47: extents, and requests of other modules

An extent's change is a new record of its landing and a report (`Reported`). A request of another module is answered in a state that
counts it (`remoteRequest_performed`); what it stores is a `Stores`. -/

namespace Sys2Proof.Machine

open Sys2Proof

/-! ### Extents (R71, R444) -/

/-- The EXTENT event (R437). -/
def extentEvent (landing kind off len : Nat) : Message :=
  ⟨0, 1, 0xC6, 2, 0, 0, 0, natToBytes 1 landing ++ natToBytes 1 kind ++ natToBytes 6 0 ++ natToBytes 8 off ++ natToBytes 8 len⟩

/-- A landing's record replaced, and reported. -/
structure Reported (s t : State) (landing kind off len : Nat) (x : Landing) : Prop where
  record : t.landings.get landing = x
  events : s.mgr.events.length < 1024 → s.mgr.waiting = [] → t.mgr.events = s.mgr.events ++ [extentEvent landing kind off len]
  others : ∀ k, k ≠ landing → t.landings.get k = s.landings.get k
  warps : t.warps = s.warps
  mem : t.mem = s.mem

theorem Reported.report (s : State) (landing kind off len : Nat) (x : Landing) :
    Reported s ({ s with landings := s.landings.set landing x }.reportExtent landing kind off len) landing kind off len x := by
  have logged := Logged.post { s with landings := s.landings.set landing x } (extentEvent landing kind off len)
  exact {
    record := (congrArg (FMap.get · landing) logged.landings).trans (FMap.get_set_self ..)
    events := fun room idle => State.post_events (s := { s with landings := s.landings.set landing x }) _ room idle
    others := fun k hk => (congrArg (FMap.get · k) logged.landings).trans (FMap.get_set_ne _ _ hk)
    warps := logged.warps
    mem := logged.mem }

theorem Landing.taken_none {l : Landing} {off len : Nat}
    (h : ∀ a ∈ l.allocs, a.revoked = true ∨ a.off + a.size ≤ off ∨ off + len ≤ a.off) : l.taken off len = none := by
  refine List.find?_eq_none.2 fun a ha => ?_
  simp only [Bool.and_eq_true, Bool.not_eq_true', decide_eq_true_eq]
  rintro ⟨⟨live, below⟩, above⟩
  obtain revoked | left | right := h a ha
  · rw [live] at revoked; cases revoked
  · omega
  · omega

theorem Landing.taken_some {l : Landing} {off len : Nat}
    (h : ∃ a ∈ l.allocs, a.revoked = false ∧ off < a.off + a.size ∧ a.off < off + len) : (l.taken off len).isSome = true := by
  obtain ⟨a, ha, live, below, above⟩ := h
  exact List.find?_isSome.2 ⟨a, ha, by simp [live, below, above]⟩

/-- With no request outstanding, none is lost. -/
theorem State.loseReqs_none {s : State} (h : s.reqs = []) (p : State → Req → Bool) : s.loseReqs p = s := by
  rw [State.loseReqs, h]
  rfl

theorem State.invalPool_invalidated (s : State) (landing off len : Nat) : Invalidated s (s.invalPool landing off len) :=
  Invalidated.foldl _ _ s

/-- A landing's record after the forced release of a range. -/
def Landing.forced (l : Landing) (off len : Nat) : Landing :=
  { l.revoke off len with extents := (l.revoke off len).extents.filter (· != (off, len)), gone := (l.revoke off len).gone ++ [(off, len)] }

theorem execExtentForcedRelease_idle {s : State} (h : s.reqs = []) (landing off len : Nat) :
    ∃ u t, execExtentForcedRelease landing off len s = .next t ∧ Invalidated s u
      ∧ Reported u t landing 3 off len ((s.landings.get landing).forced off len) := by
  have inval := s.invalPool_invalidated landing off len
  have landings : (s.invalPool landing off len).landings = s.landings := by rw [inval.frame]
  refine ⟨_, _, ?_, inval, .report ..⟩
  unfold execExtentForcedRelease
  dsimp only
  rw [State.loseReqs_none (by rw [inval.frame]; exact h), landings]
  rfl

/-! ### Requests of other modules (R92, R439) -/

theorem State.respond_outbox (s : State) (sender status : Nat) (body : List Byte) :
    (s.respond sender status body).mgr.outbox = s.mgr.outbox ++ [⟨3, sender, 0, 0, 0, 0, status, body⟩] := rfl

/-- An answer sent from a state that keeps what was sent, and the warps. -/
theorem State.respond_from {s t : State} (out : t.mgr.outbox = s.mgr.outbox) (warps : t.warps = s.warps) (sender status : Nat)
    (body : List Byte) : (t.respond sender status body).mgr.outbox = s.mgr.outbox ++ [⟨3, sender, 0, 0, 0, 0, status, body⟩]
      ∧ (t.respond sender status body).warps = s.warps :=
  ⟨by rw [State.respond_outbox, out], warps⟩

section
variable {s : State} {sender pa left n : Nat}

/-- A request as it is counted at its slice. -/
def State.counted (s : State) (pa : Nat) : State := s.countSlice (homeSlice pa) 0x0101 1

theorem State.counted_stores (s : State) (pa : Nat) : Stores s (s.counted pa) [] := .countSlice ..
theorem State.counted_frame (s : State) (pa : Nat) : s.counted pa = { s with sliceCount := (s.counted pa).sliceCount } :=
  s.countSlice_frame ..
theorem State.counted_readBad (s : State) (pa a n : Nat) : (s.counted pa).readBad a n = s.readBad a n := by
  rw [s.counted_frame]; rfl
theorem State.counted_mem (s : State) (pa : Nat) : (s.counted pa).mem = s.mem := (s.counted_stores pa).mem

theorem readPhys_of_le (h : pa ≤ hbmEnd) (k : Nat) : s.readPhys pa k = s.mem.read pa k := by
  rw [State.readPhys, State.ownAddr_of_le h]

theorem remoteRequest_discarded (op : RemoteOp) : execRemoteRequest sender pa ⟨0, op⟩ s = .next s := by
  rw [execRemoteRequest, if_pos rfl]

theorem remoteRequest_outside (hl : left ≠ 0) (h : hbmEnd < pa + n) :
    execRemoteRequest sender pa ⟨left, .read n⟩ s = .next (s.respond sender causePageFault []) := (if_neg hl).trans (if_pos h)

theorem remoteRequest_read (hl : left ≠ 0) (h : pa + n ≤ hbmEnd) (good : s.readBad pa n = false) :
    execRemoteRequest sender pa ⟨left, .read n⟩ s = .next ((s.counted pa).respond sender 0 (s.mem.read pa n)) := by
  refine (if_neg hl).trans ((if_neg (not_lt.2 h)).trans ?_)
  have readable : ¬ (s.counted pa).readBad pa n = true := by rw [s.counted_readBad, good]; exact Bool.false_ne_true
  refine (if_neg readable).trans ?_
  rw [← s.counted_mem pa, ← readPhys_of_le (by omega : pa ≤ hbmEnd)]
  rfl

theorem remoteRequest_read_bad (hl : left ≠ 0) (h : pa + n ≤ hbmEnd) (bad : s.readBad pa n = true) :
    execRemoteRequest sender pa ⟨left, .read n⟩ s
      = .next (((s.counted pa).logRead 0xFFFF pa n 0).respond sender causeMemoryUncorrectable []) := by
  refine (if_neg hl).trans ((if_neg (not_lt.2 h)).trans (if_pos ?_))
  exact (s.counted_readBad ..).trans bad

theorem remoteRequest_write {bs : List Byte} (hl : left ≠ 0) (h : pa + bs.length ≤ hbmEnd) :
    execRemoteRequest sender pa ⟨left, .write bs⟩ s = .next (((s.counted pa).storePhys 0xFFFF pa 0 bs).respond sender 0 []) :=
  (if_neg hl).trans (if_neg (not_lt.2 h))

/-- What an atomic of a type that it takes leaves is as stated (R273 to R275). -/
theorem atomNew_eq_atomResult {op : AtomOp} {ty : AtomTy} (h : op.tyOk ty = true) (old b c : Nat) :
    atomNew op ty old b c = atomResult op ty old b c := by
  cases ty with
  | int t => cases op <;> rfl
  | flt t =>
    cases op with
    | and | or | xor => cases h
    | _ => rfl
  | w128 =>
    cases op with
    | exch | cas => rfl
    | _ => cases h

theorem AtomTy.bytes_pos {op : AtomOp} {ty : AtomTy} (h : op.tyOk ty = true) : 0 < ty.bytes := by
  cases ty with
  | int t => cases t <;> decide
  | flt t => cases t <;> decide
  | w128 => decide

/-- A lane's atomic on sound local memory is that of `atomsInOrder`. -/
theorem State.atomLane_sound {op : AtomOp} {ty : AtomTy} (hok : op.tyOk ty = true) {o : LaneOp} (own : s.ownAddr o.pa = o.pa)
    (good : s.readBad o.pa ty.bytes = false) (ctx : Nat) :
    ∃ t ws, s.atomLane op ty ty.bytes ctx o = (t, some (s.mem.readNat o.pa ty.bytes)) ∧ Stores s t ws
      ∧ t.mem = (atomsInOrder op ty s.mem [o]).1 := by
  let old := s.mem.readNat o.pa ty.bytes
  have read : bytesToNat (s.readPhys o.pa ty.bytes) = old := by rw [State.readPhys, own]; rfl
  have working := State.chanFailed_of_readable (AtomTy.bytes_pos hok) own good
  have run : s.atomLane op ty ty.bytes ctx o = (if atomWrites op old o.c then
      s.storePhys ctx o.pa o.va (natToBytes ty.bytes (atomNew op ty old o.b o.c)) else s, some old) := by
    rw [State.atomLane, good, read]
    rfl
  rw [run, atomNew_eq_atomResult hok]
  by_cases keeps : op = .cas ∧ old ≠ o.c
  · refine ⟨s, [], ?_, .refl s, ?_⟩
    · rw [if_neg (by simp [atomWrites, keeps.1, keeps.2])]
    · exact (if_pos keeps).symm
  · have stores := Stores.storePhys own working ctx o.va (natToBytes ty.bytes (atomResult op ty old o.b o.c))
    refine ⟨_, _, ?_, stores, stores.mem.trans (if_neg keeps).symm⟩
    have writes : atomWrites op old o.c = true := by
      rw [atomWrites, Bool.or_eq_true, bne_iff_ne, beq_iff_eq]
      tauto
    rw [if_pos writes]

theorem remoteRequest_atom {op : AtomOp} {ty : AtomTy} {b c : Nat} (hl : left ≠ 0) (h : pa + ty.bytes ≤ hbmEnd) (hok : op.tyOk ty = true)
    (good : s.readBad pa ty.bytes = false) :
    ∃ t ws, execRemoteRequest sender pa ⟨left, .atom op ty b c⟩ s
        = .next (t.respond sender 0 (natToBytes ty.bytes (s.mem.readNat pa ty.bytes))) ∧ Stores s t ws
      ∧ t.mem = (atomsInOrder op ty s.mem [⟨0, 0, pa, b, c, false⟩]).1 := by
  have own : (s.counted pa).ownAddr pa = pa := State.ownAddr_of_le (by omega) _
  obtain ⟨t, ws, run, stores, mem⟩ := State.atomLane_sound (s := s.counted pa) (o := ⟨0, 0, pa, b, c, false⟩) hok own
    ((s.counted_readBad ..).trans good) 0xFFFF
  rw [s.counted_mem] at run mem
  refine ⟨t, [] ++ ws, ?_, (s.counted_stores pa).trans stores, mem⟩
  refine (if_neg hl).trans ((if_neg (not_lt.2 h)).trans ?_)
  dsimp only
  rw [State.counted] at run
  rw [run]

/-! ### Block updates of another module (R110, R111, R179) -/

/-- The furthest byte of an update lies in local memory. -/
theorem update_inside {slot : List (Nat × List Byte)} (h : pa + 16 ≤ hbmEnd) (hs : ∀ p ∈ slot, p.1 + p.2.length ≤ hbmEnd) :
    pa + slot.foldl (fun n p => Nat.max n (p.1 + p.2.length - pa)) 16 ≤ hbmEnd := by
  have fold : ∀ (l : List (Nat × List Byte)) (n : Nat), pa + n ≤ hbmEnd → (∀ p ∈ l, p.1 + p.2.length ≤ hbmEnd) →
      pa + l.foldl (fun n p => Nat.max n (p.1 + p.2.length - pa)) n ≤ hbmEnd := by
    intro l
    induction l with
    | nil => exact fun _ hn _ => hn
    | cons p l ih =>
      intro n hn hl
      refine ih _ ?_ fun q hq => hl q (.tail _ hq)
      have := hl p (.head _)
      show pa + max n (p.1 + p.2.length - pa) ≤ hbmEnd
      omega
  exact fold slot 16 h hs

theorem remoteRequest_update {port : Nat} {old new : List Byte} {slot : List (Nat × List Byte)} (hl : left ≠ 0) (h : pa + 16 ≤ hbmEnd)
    (hs : ∀ p ∈ slot, p.1 + p.2.length ≤ hbmEnd) :
    execRemoteRequest sender pa ⟨left, .update port old slot new⟩ s = .next ((s.counted pa).updateFrom sender pa old slot new) :=
  (if_neg hl).trans (if_neg (not_lt.2 (update_inside h hs)))

theorem updateFrom_stale {old new : List Byte} {slot : List (Nat × List Byte)} (h : pa + 16 ≤ hbmEnd) (good : s.readBad pa 16 = false)
    (stale : s.mem.read pa 16 ≠ old) : s.updateFrom sender pa old slot new = s.respond sender 0 (s.mem.read pa 16) := by
  rw [State.updateFrom, good, readPhys_of_le (by omega), if_neg Bool.false_ne_true, if_neg stale]

theorem updateFrom_stands {old new : List Byte} {slot : List (Nat × List Byte)} (h : pa + 16 ≤ hbmEnd)
    (hs : ∀ p ∈ slot, p.1 + p.2.length ≤ hbmEnd) (good : s.readBad pa 16 = false) (stands : s.mem.read pa 16 = old)
    (working : s.chanFailed pa = false) (workings : ∀ p ∈ slot, s.chanFailed p.1 = false) :
    ∃ t, s.updateFrom sender pa old slot new = t.respond sender 0 [] ∧ Stores s t (slot ++ [(pa, new)]) := by
  let t := slot.foldl (fun s p => s.storePhys 0xFFFF p.1 0 p.2) s
  have slots : Stores s t (slot.flatMap fun p => [p]) := Stores.foldl slot fun u vs hu p hp =>
    .storePhys (State.ownAddr_of_le (by have := hs p hp; omega) _) ((hu.chanFailed _).trans (workings p hp)) ..
  have entry : Stores t (t.storePhys 0xFFFF pa 0 new) [(pa, new)] :=
    .storePhys (State.ownAddr_of_le (by omega) _) ((slots.chanFailed _).trans working) ..
  have all := (slots.trans entry).trans (.countSlice _ (homeSlice pa) 0x0105 1)
  refine ⟨_, ?_, by simpa using all⟩
  rw [State.updateFrom, good, readPhys_of_le (by omega), if_neg Bool.false_ne_true, if_pos stands]

end

end Sys2Proof.Machine

namespace Sys2Proof

open Sys2Proof.Machine

section
variable {s : State} {sender pa left : Nat}

/-- What the memory holds after disjoint strings are stored. -/
theorem read_stores_disjoint {t : State} {pre post : List (Nat × List Byte)} {p : Nat × List Byte} (h : Stores s t (pre ++ p :: post))
    (good : Good s) (apart : ∀ q ∈ post, p.1 + p.2.length ≤ q.1 ∨ q.1 + q.2.length ≤ p.1) : t.mem.read p.1 p.2.length = p.2 := by
  rw [h.mem, Memory.read_writes_last good pre post p apart]

theorem extentsReported (s : State) (landing off len : Nat) :
    ∃ t, exec (.extentAdd landing off len) s = .next t ∧ Reported s t landing 1 off len { s.landings.get landing with
      extents := (s.landings.get landing).extents ++ [(off, len)],
      gone := (s.landings.get landing).gone.filter fun g => !(g.1 < off + len && off < g.1 + g.2) } :=
  ⟨_, exec_extentAdd s, .report ..⟩

end

/-- Settles O47: the extent commands by `Reported`, a remote request by the equation of its kind. -/
theorem extentsAndRemoteRequests : Obligations.ExtentsAndRemoteRequests := by
  unfold Obligations.ExtentsAndRemoteRequests
  intro s landing off len l reports kept
  have keeps {t : State} {kind : Nat} {x : Landing} (h : Reported s t landing kind off len x) : kept t :=
    ⟨h.others, fun w => by rw [State.warp, h.warps]; rfl, fun a => by rw [h.mem]⟩
  refine ⟨?_, fun free => ?_, fun held => ?_, fun idle => ?_, fun sender pa op => ?_, ?_⟩
  · obtain ⟨t, run, report⟩ := extentsReported s landing off len
    exact ⟨t, run, by rw [report.record], by rw [report.record], report.events, keeps report⟩
  · have report := Reported.report s landing 2 off len { l with extents := l.extents.filter (· != (off, len)) }
    refine ⟨_, (exec_extentRelease s).trans (if_neg ?_), by rw [report.record], by rw [report.record], report.events, keeps report⟩
    rw [Landing.taken_none free]
    exact Bool.false_ne_true
  · exact (exec_extentRelease s).trans (if_pos (Landing.taken_some held))
  · obtain ⟨u, t, run, inval, report⟩ := execExtentForcedRelease_idle idle landing off len
    have mgr : u.mgr = s.mgr := by rw [inval.frame]
    refine ⟨t, (exec_extentForcedRelease s).trans run, by rw [report.record]; rfl, by rw [report.record]; rfl,
      by rw [report.record]; rfl, fun g => ?_, fun room empty => ?_, fun k hk => ?_, fun w hw => ?_, fun a => ?_⟩
    · rw [report.record]
      refine List.mem_filter.trans (and_congr_right fun _ => ?_)
      rw [Bool.not_eq_true', ← Bool.not_eq_true, Bool.and_eq_true, decide_eq_true_eq, decide_eq_true_eq]
    · have := report.events (by rwa [mgr]) (by rwa [mgr])
      rwa [mgr] at this
    · rw [report.others k hk, inval.frame]
    · rw [State.warp, report.warps]
      exact inval.kept w hw
    · rw [report.mem, inval.frame]
  · exact (exec_remoteRequest s).trans (remoteRequest_discarded op)
  · intro sender left pa bs n op ty b c hl responds
    have counted := s.counted_stores pa
    have answered {t : State} (out : t.mgr.outbox = s.mgr.outbox) (warps : t.warps = s.warps) (status : Nat) (body : List Byte) :
        responds (t.respond sender status body) status body := State.respond_from out warps ..
    refine ⟨fun outside => ?_, fun inside good => ?_, fun inside _ bad => ?_, fun inside _ working good => ?_,
      fun hok inside good => ?_, ?_⟩
    · exact (exec_remoteRequest s).trans (remoteRequest_outside hl outside)
    · refine ⟨_, (exec_remoteRequest s).trans (remoteRequest_read hl inside good), answered ?_ counted.warps .., fun a => ?_⟩
      · rw [counted.mgr]
      · exact congrArg (Memory.get · a) counted.mem
    · have logged := Logged.logRead (s.counted pa) 0xFFFF pa n 0
      refine ⟨_, (exec_remoteRequest s).trans (remoteRequest_read_bad hl inside bad), answered ?_ ?_ .., fun a => ?_⟩
      · rw [logged.outbox, counted.mgr]
      · rw [logged.warps, counted.warps]
      · exact congrArg (Memory.get · a) (logged.mem.trans counted.mem)
    · have stores := counted.trans (.storePhys (State.ownAddr_of_le (by unfold hbmEnd; omega) _)
        ((counted.chanFailed pa).trans working) 0xFFFF 0 bs)
      refine ⟨_, (exec_remoteRequest s).trans (remoteRequest_write hl inside), answered ?_ stores.warps .., ?_, fun a ha => ?_⟩
      · rw [stores.mgr]
      · exact read_stores_disjoint (t := (s.counted pa).storePhys 0xFFFF pa 0 bs) (pre := []) (post := []) (p := (pa, bs)) stores good
          (by simp)
      · refine (congrArg (Memory.get · a) stores.mem).trans (Memory.get_writes_ne _ ?_)
        simpa using ha
    · obtain ⟨t, ws, run, stores, mem⟩ := remoteRequest_atom (sender := sender) (b := b) (c := c) hl inside hok good
      exact ⟨_, (exec_remoteRequest s).trans run, answered (by rw [stores.mgr]) stores.warps .., mem⟩
    · intro port old slot new i inside insides readable
      have run : exec i s = .next ((s.counted pa).updateFrom sender pa old slot new) :=
        (exec_remoteRequest s).trans (remoteRequest_update hl inside insides)
      have good' : (s.counted pa).readBad pa 16 = false := (s.counted_readBad ..).trans readable
      refine ⟨fun stale => ?_, fun stands hnew good working workings clear apart => ?_⟩
      · rw [updateFrom_stale inside good' (by rwa [s.counted_mem]), s.counted_mem] at run
        exact ⟨_, run, answered (by rw [counted.mgr]) counted.warps .., fun a => congrArg (Memory.get · a) counted.mem⟩
      · obtain ⟨t, answer, stores⟩ := updateFrom_stands (sender := sender) (old := old) (new := new) inside insides good'
          (by rw [s.counted_mem]; exact stands) ((counted.chanFailed _).trans working) fun p hp => (counted.chanFailed _).trans (workings p hp)
        rw [answer] at run
        have all : Stores s t (slot ++ [(pa, new)]) := counted.trans stores
        refine ⟨_, run, answered (by rw [all.mgr]) all.warps .., ?_, fun p hp => ?_, fun a ha hs => ?_⟩
        · have := read_stores_disjoint (p := (pa, new)) (post := []) all good (by simp)
          rwa [hnew] at this
        · obtain ⟨pre, post, rfl⟩ := List.append_of_mem hp
          rw [List.append_assoc, List.cons_append] at all
          refine read_stores_disjoint (t := t) all good fun q hq => ?_
          rcases List.mem_append.1 hq with hq | hq
          · exact (List.pairwise_cons.1 (List.pairwise_append.1 apart).2.1).1 q hq
          · rw [List.mem_singleton.1 hq]
            have := clear p hp
            rwa [hnew]
        · refine (congrArg (Memory.get · a) all.mem).trans (Memory.get_writes_ne _ fun p hp => ?_)
          rcases List.mem_append.1 hp with hp | hp
          · exact hs p hp
          · rw [List.mem_singleton.1 hp, hnew]
            exact ha

end Sys2Proof

/-! ## O44: migration

A command that may be performed is its effect (`ctxCommand_ok`, `slotCommand_ok`). A pull is one line of the old frame stored in the
new one, or a failure logged (`State.pull_moves`, `State.pull_fails`). -/

namespace Sys2Proof.Machine

open Sys2Proof

/-! ### Commands (R430, R433, R435) -/

section
variable {s : State} {h : Hdr} {op right : Nat}

theorem command_ok (hm : mayCommand s h right) (f : State → State) : command h op right s f = .next (f s) := by
  obtain ⟨low, high, r, session, bit⟩ := hm
  have managed : s.managed h.qp = true := by simp [State.managed, low, high, session]
  have rights : s.rights h.qp = r := by rw [State.rights, session]; rfl
  rw [command, managed, rights, bit, if_neg (by decide), if_neg (by decide)]

theorem ctxCommand_ok (hm : mayCommand s h right) (live : (s.ctx h.ctx).live = true) (stays : (s.ctx h.ctx).dying = false)
    (f : State → State) : ctxCommand h op right s f = .next (f s) := by
  have here : s.liveCtx h.ctx = true := by rw [State.liveCtx, live, stays]; rfl
  rw [ctxCommand, command_ok hm, here, if_pos rfl]

/-- A command on a slot of its context is refused in a state that does not allow it, and else performed (R435). -/
theorem slotCommand_ok {slot : Nat} (hm : mayCommand s h 1) (live : (s.ctx h.ctx).live = true) (stays : (s.ctx h.ctx).dying = false)
    (hs : slot < 64) (used : (s.migs.get slot).state ≠ 0) (own : (s.migs.get slot).ctx = h.ctx) (ok : MigSlot → Bool)
    (f : State → MigSlot → State) :
    slotCommand h slot s ok f = .next (if ok (s.migs.get slot) = false then s.reply h 0x32 8 [] else f s (s.migs.get slot)) := by
  refine (ctxCommand_ok hm live stays _).trans ?_
  dsimp only
  rw [if_neg (by omega), if_neg (by simp [used, own])]

end

/-- Replies as the statements write them. -/
theorem State.reply_eq_replied (s : State) (h : Hdr) (op status : Nat) (body : List Byte) :
    s.reply h op status body = replied s h op status body := rfl

/-! ### Slots -/

theorem migFrameOk_hbm {size a : Nat} (h : a < hbmEnd) (new : Bool) : migFrameOk size a new = decide (a % size = 0) := by
  have region : regionOf a = .hbm := if_pos h
  rw [migFrameOk, region]
  exact (Bool.and_true _).trans (beq_eq_decide _ _)

/-- The lowest free slot is found (R420). -/
theorem find_free {P : Nat → Bool} {n slot : Nat} (hs : slot < n) (free : P slot = true) (lower : ∀ k, k < slot → P k = false) :
    (List.range n).find? P = some slot := by
  rw [List.find?_range_eq_some]
  exact ⟨free, List.mem_range.2 hs, fun k hk => by simp [lower k hk]⟩

theorem execMigrateArm_refused {s : State} {h : Hdr} {size old new : Nat} (hm : mayCommand s h 1) (live : (s.ctx h.ctx).live = true)
    (stays : (s.ctx h.ctx).dying = false) (ho : old < hbmEnd) (hn : new < hbmEnd)
    (bad : old % (if size = 0 then 2 ^ 13 else 2 ^ 23) ≠ 0 ∨ new % (if size = 0 then 2 ^ 13 else 2 ^ 23) ≠ 0) :
    execMigrateArm h size old new s = .next (replied s h 0x32 3 []) := by
  refine (ctxCommand_ok hm live stays _).trans (congrArg _ (if_pos (.inr ?_)))
  rw [migFrameOk_hbm ho, migFrameOk_hbm hn, decide_eq_false_iff_not, decide_eq_false_iff_not]
  exact bad

theorem execMigrateArm_armed {s : State} {h : Hdr} {size old new slot : Nat} (hm : mayCommand s h 1)
    (live : (s.ctx h.ctx).live = true) (stays : (s.ctx h.ctx).dying = false) (hsize : size < 2) (ho : old < hbmEnd) (hn : new < hbmEnd)
    (oldOk : old % (if size = 0 then 2 ^ 13 else 2 ^ 23) = 0) (newOk : new % (if size = 0 then 2 ^ 13 else 2 ^ 23) = 0)
    (hs : slot < 64) (free : (s.migs.get slot).state = 0) (lower : ∀ k, k < slot → (s.migs.get k).state ≠ 0) :
    execMigrateArm h size old new s = .next
      (replied { s with migs := s.migs.set slot ⟨1, h.ctx, old, new, if size = 0 then 2 ^ 13 else 2 ^ 23, [], [], 0, 0, false⟩ } h 0x32 0
        (natToBytes 1 slot)) := by
  have sound : ¬ (1 < size ∨ migFrameOk (if size = 0 then 8192 else 2 ^ 23) old false = false
      ∨ migFrameOk (if size = 0 then 8192 else 2 ^ 23) new true = false) := by
    rw [migFrameOk_hbm ho, migFrameOk_hbm hn, decide_eq_false_iff_not, decide_eq_false_iff_not]
    rintro (big | bad | bad)
    · omega
    · exact bad oldOk
    · exact bad newOk
  have found : (List.range 64).find? (fun i => (s.migs.get i).state == 0) = some slot :=
    find_free hs (by rw [free]; rfl) fun k hk => by simpa using lower k hk
  refine (ctxCommand_ok hm live stays _).trans ?_
  dsimp only
  rw [if_neg sound, found]
  rfl

/-! ### The swing (R421) -/

theorem execInvalidationComplete_swing {s : State} {id slot : Nat} {i : Inval} {h : Hdr} (found : s.invals.find id = some i)
    (swings : i.after = .swing h slot) (idle : s.reqs = []) :
    execInvalidationComplete id s
      = .next (replied (({ s with invals := s.invals.del id }.dropTranslations i).swing slot) h 0x32 0 (natToBytes 1 slot)) := by
  have ticket : ∀ e, i.onTicket e = false := fun e => by
    have : i.swings = true := by rw [Inval.swings, swings]
    rw [Inval.onTicket, this]
    simp
  have done : s.invalDone i = true := by
    rw [State.invalDone, idle, List.all_nil, Bool.true_and, List.all_eq_true]
    intro p _
    rw [ticket]
    rfl
  unfold execInvalidationComplete
  rw [found]
  dsimp only
  rw [if_pos done, State.afterInval, swings]
  rfl

/-! ### Pulling a line (R81, R421, R422) -/

section
variable {s : State} {slot line ch : Nat} {m : MigSlot}

/-- A slot settled keeps its lines, the warps and memory. -/
structure MigSettled (s t : State) (slot : Nat) : Prop where
  pulled : (t.migs.get slot).pulled = (s.migs.get slot).pulled
  failed : (t.migs.get slot).failed = (s.migs.get slot).failed
  background : (t.migs.get slot).background = (s.migs.get slot).background
  mem : t.mem = s.mem
  warps : t.warps = s.warps

theorem State.migSettle_spec (s : State) (slot : Nat) : MigSettled s (s.migSettle slot) slot := by
  unfold State.migSettle
  dsimp only
  split
  · let n : MigSlot := { s.migs.get slot with state := 3 }
    have logged := Logged.post { s with migs := s.migs.set slot n } (eventMsg (s.ctxQp n.ctx) 0xC4 n.ctx (migDoneBody slot n))
    have settled : (({ s with migs := s.migs.set slot n } : State).post (eventMsg (s.ctxQp n.ctx) 0xC4 n.ctx (migDoneBody slot n))).migs.get
        slot = n := by rw [logged.migs]; exact FMap.get_set_self ..
    exact ⟨(congrArg MigSlot.pulled settled).trans rfl, (congrArg MigSlot.failed settled).trans rfl,
      (congrArg MigSlot.background settled).trans rfl, logged.mem, logged.warps⟩
  · exact ⟨rfl, rfl, rfl, rfl, rfl⟩

/-- The only slot's next line is the lowest that the channel wants. -/
theorem State.nextPull_only (only : s.migs = [(slot, m)]) (live : m.state = 2) (wants : m.wants ch line = true)
    (lower : ∀ k, k < line → m.wants ch k = false) (hl : line < m.lines) (here : isRemote (m.old + 256 * line) = false) :
    s.nextPull ch = some (slot, line) := by
  have next : (List.range m.lines).find? (m.wants ch) = some line := find_free hl wants lower
  have reachable : s.lineReachable m line = true := by rw [State.lineReachable, here]; rfl
  rw [State.nextPull, only, List.findSome?_cons]
  dsimp only
  rw [if_pos live, next, Option.bind_some, if_pos reachable]

theorem MigSlot.wants_open (wants : m.wants ch line = true) : m.pulled.contains line = false ∧ (m.failed.find line).isSome = false := by
  simp only [MigSlot.wants, Bool.and_eq_true, Bool.not_eq_true'] at wants
  exact ⟨wants.1.1, by rw [Option.isSome_eq_false_iff]; exact wants.1.2⟩

theorem Stores.mem_single {t : State} {a : Nat} {bs : List Byte} (h : Stores s t [(a, bs)]) : t.mem = s.mem.write a bs := h.mem

/-- A line whose old bytes can be read is stored in the new frame. -/
theorem State.pull_moves (hm : s.migs.get slot = m) (live : m.state = 2) (wants : m.wants ch line = true)
    (old : m.old + 256 * line ≤ hbmEnd) (new : m.new + 256 * line ≤ hbmEnd) (working : s.chanFailed (m.new + 256 * line) = false)
    (good : s.readBad (m.old + 256 * line) 256 = false) :
    ∃ u : State, s.pull slot line true = u.migSettle slot
      ∧ u.migs.get slot = { m with pulled := m.pulled ++ [line], background := m.background + 1 }
      ∧ u.mem = s.mem.write (m.new + 256 * line) (s.mem.read (m.old + 256 * line) 256) ∧ u.warps = s.warps := by
  obtain ⟨unpulled, sound⟩ := MigSlot.wants_open wants
  let n : MigSlot := { m with pulled := m.pulled ++ [line], background := m.background + 1 }
  let s1 : State := { s with migs := s.migs.set slot n }
  let s2 := ((s1.countServed (m.old + 256 * line)).countServed (m.new + 256 * line))
  have counted : Stores s1 s2 [] := (Stores.countServed ..).trans (.countServed ..)
  let s3 := s2.dropEveryL1 (m.new + 256 * line) 256
  have dropped : Stores s2 s3 [] := ⟨rfl, rfl, fun _ => rfl⟩
  have bytes : s.readPhys (m.old + 256 * line) 256 = s.mem.read (m.old + 256 * line) 256 := readPhys_of_le old _
  have stored : Stores s3 (s3.storePhys m.ctx (m.new + 256 * line) 0 (s.mem.read (m.old + 256 * line) 256)) _ :=
    .storePhys (State.ownAddr_of_le new _) (((counted.trans dropped).chanFailed _).trans working) ..
  have all : Stores s1 _ [_] := (counted.trans dropped).trans stored
  refine ⟨s3.storePhys m.ctx (m.new + 256 * line) 0 (s.mem.read (m.old + 256 * line) 256), ?_, ?_, all.mem_single, all.warps⟩
  · have fault : s.pullFault m line = none := by
      rw [State.pullFault, isRemote_of_le old, good]
      rfl
    rw [State.pull, hm]
    dsimp only
    rw [if_neg (by simp only [live, unpulled, sound]; simp), fault, ← bytes]
    rfl
  · rw [show (s3.storePhys m.ctx (m.new + 256 * line) 0 (s.mem.read (m.old + 256 * line) 256)).migs = s1.migs by rw [all.frame]]
    exact FMap.get_set_self ..

/-- A line whose old bytes cannot be read fails. -/
theorem State.pull_fails (hm : s.migs.get slot = m) (live : m.state = 2) (wants : m.wants ch line = true)
    (old : m.old + 256 * line ≤ hbmEnd) (bad : s.readBad (m.old + 256 * line) 256 = true) :
    ∃ u : State, s.pull slot line true = u.migSettle slot ∧ u.migs.get slot = { m with failed := m.failed.set line causeMemoryUncorrectable }
      ∧ u.mem = s.mem ∧ u.warps = s.warps := by
  obtain ⟨unpulled, sound⟩ := MigSlot.wants_open wants
  let s1 : State := { s with migs := s.migs.set slot { m with failed := m.failed.set line causeMemoryUncorrectable } }
  let a := m.old + 256 * line
  let s2 := (granules (s1.ownAddr a) 256).foldl (fun s g => s.findPoison (32 * g) m.ctx 0) s1
  have logged : Logged s1 (s2.logError 3 (storageRow (s2.ownAddr a)) m.ctx (placeOf (s2.ownAddr a)) a 0) :=
    (Logged.foldl (fun s g => .findPoison ..) _ s1).trans (.logError ..)
  refine ⟨_, ?_, (congrArg (FMap.get · slot) logged.migs).trans (FMap.get_set_self ..), logged.mem, logged.warps⟩
  have fault : s.pullFault m line = some causeMemoryUncorrectable := by
    rw [State.pullFault, isRemote_of_le old, bad]
    rfl
  rw [State.pull, hm]
  dsimp only
  rw [if_neg (by simp only [live, unpulled, sound]; simp), fault]

end

end Sys2Proof.Machine

namespace Sys2Proof

open Sys2Proof.Machine

/-- Another slot's record after one is set. -/
theorem migs_set_others {s : State} {slot k : Nat} (h : k ≠ slot) (m : MigSlot) : (s.migs.set slot m).get k = s.migs.get k :=
  FMap.get_set_ne _ _ h

/-- Settles O44: commands by `slotCommand_ok`, the swing by `execInvalidationComplete_swing`, pulls by `State.pull_moves` and
`State.pull_fails`. -/
theorem migration : Obligations.Migration := by
  unfold Obligations.Migration
  intro s h slot m others
  refine ⟨fun hm live stays => ⟨fun size old new hsize ho hn => ⟨fun bad => ?_, fun oldOk newOk hs free lower => ?_⟩,
    fun hs used own => ⟨fun armed fresh => ?_, fun running => ?_, fun ended => ?_, fun running => ?_⟩⟩,
    fun id i found swings idle armed => ?_, fun ch line only live working wants lower inside oldEnd newEnd good newWorks => ?_,
    fun ch skip => ?_⟩
  · exact (exec_migrateArm s).trans (execMigrateArm_refused hm live stays ho hn bad)
  · exact ⟨_, (exec_migrateArm s).trans (execMigrateArm_armed hm live stays hsize ho hn oldOk newOk hs free lower),
      FMap.get_set_self .., fun k hk => migs_set_others hk _, rfl, rfl⟩
  · have run := slotCommand_ok hm live stays hs used own (fun m => m.state == 1 && !m.started) fun s m =>
      State.invalidate { s with migs := s.migs.set slot { m with started := true } }
        { ctx := h.ctx, all := false, va := 0, len := 0, after := .swing h slot }
    rw [if_neg (by simp [m, armed, fresh])] at run
    have inval := Invalidated.invalidate { s with migs := s.migs.set slot { m with started := true } }
      { ctx := h.ctx, all := false, va := 0, len := 0, after := .swing h slot }
    exact ⟨_, (exec_migrateStart s).trans run, FMap.get_set_self .., fun k hk => migs_set_others hk _,
      ⟨_, FMap.find_set_self .., rfl, rfl, rfl, rfl⟩, inval.kept, fun _ => rfl⟩
  · have run := slotCommand_ok hm live stays hs used own (fun m => m.state == 1 || m.state == 2) fun s m =>
      (State.retryWalks { s with migs := s.migs.set slot { m with state := 4 } } fun w => s.ctxOf w == m.ctx).reply h 0x32 0
        (natToBytes 1 slot)
    rw [if_neg (by simpa [m, ← or_iff_not_imp_left] using running)] at run
    exact ⟨_, (exec_migrateAbort s).trans run, FMap.get_set_self .., fun k hk => migs_set_others hk _, rfl, fun _ => rfl⟩
  · have run := slotCommand_ok hm live stays hs used own (fun m => m.state == 3 || m.state == 4) fun s _ =>
      State.reply { s with migs := s.migs.del slot } h 0x32 0 (natToBytes 1 slot)
    rw [if_neg (by simpa [m, ← or_iff_not_imp_left] using ended)] at run
    refine ⟨_, (exec_migrateRelease s).trans run, (FMap.find_del ..).trans (if_pos rfl), fun k hk => ?_, rfl, rfl⟩
    exact congrArg (Option.getD · default) ((FMap.find_del ..).trans (if_neg hk))
  · have run := slotCommand_ok hm live stays hs used own (fun m => m.state == 3 || m.state == 4) fun s _ =>
      State.reply { s with migs := s.migs.del slot } h 0x32 0 (natToBytes 1 slot)
    rw [if_pos (by obtain e | e := running <;> simp [m] at e <;> simp [e])] at run
    exact (exec_migrateRelease s).trans run
  · refine ⟨_, (exec_invalidationComplete s).trans (execInvalidationComplete_swing found swings idle),
      (FMap.find_del ..).trans (if_pos rfl), ?_, fun k hk => migs_set_others hk _, fun k e he => ?_, rfl, fun _ => rfl⟩
    · refine (FMap.get_set_self ..).trans ?_
      show ({ m with state := if m.state = 1 then 2 else m.state } : MigSlot) = _
      rw [if_pos armed]
    · let f : Nat → TicketEntry → TicketEntry := fun _ e => if m.state = 1 then e.moved m else e
      have find : FMap.find (s.tickets.map fun p => (p.1, f p.1 p.2)) k = (s.tickets.find k).map (f k) := FMap.find_mapVal s.tickets f k
      refine find.trans ?_
      rw [he]
      exact congrArg some (if_pos armed)
  · have lines : line < m.lines := by
      rw [MigSlot.lines, Nat.lt_div_iff_mul_lt (by decide)]
      omega
    have oldHere : m.old + 256 * line ≤ hbmEnd := by unfold hbmEnd; omega
    have newHere : m.new + 256 * line ≤ hbmEnd := by unfold hbmEnd; omega
    have run : exec (.backgroundPullSlot ch) s = .next (s.pull slot line true) := by
      rw [exec_backgroundPullSlot, execBackgroundPullSlot, working, if_neg Bool.false_ne_true,
        State.nextPull_only only live wants lower lines (isRemote_of_le oldHere)]
    refine ⟨fun readable => ?_, fun unreadable => ?_⟩
    · obtain ⟨u, pulled, slotAfter, mem, warps⟩ := State.pull_moves rfl live wants oldHere newHere newWorks readable
      have settled := u.migSettle_spec slot
      have length : (s.mem.read (m.old + 256 * line) 256).length = 256 := Memory.read_length ..
      refine ⟨_, run.trans (by rw [pulled]), ?_, ?_, ?_, fun a ha => ?_, settled.warps.trans warps⟩
      · rw [settled.pulled, slotAfter]
      · rw [settled.background, slotAfter]
      · have back := Memory.read_write good (m.new + 256 * line) (s.mem.read (m.old + 256 * line) 256)
        rw [length] at back
        rw [settled.mem, mem, back]
      · rw [settled.mem, mem, Memory.get_write_ne _ _ _ (by rwa [length])]
    · obtain ⟨u, pulled, slotAfter, mem, warps⟩ := State.pull_fails rfl live wants oldHere unreadable
      have settled := u.migSettle_spec slot
      refine ⟨_, run.trans (by rw [pulled]), ?_, ?_, fun a => ?_, settled.warps.trans warps⟩
      · rw [settled.pulled, slotAfter]
      · rw [settled.failed, slotAfter]
        exact FMap.find_set_self ..
      · rw [settled.mem, mem]
  · rw [exec_backgroundPullSlot, execBackgroundPullSlot]
    obtain failed | idle := skip
    · rw [if_pos failed]
    · have next : s.nextPull ch = none := by rw [State.nextPull, idle]; rfl
      rw [next]
      split <;> rfl

end Sys2Proof

/-! ## O23: ticket issue

Either ldt ends in `State.ldtOn` of one gather (`exec_ldt_gather`); with a free entry that is an entry made pending whose leaving requests
are sent (`State.issueTicket_carried`). -/

namespace Sys2Proof.Machine

open Sys2Proof

/-- A list of one value, alone or repeated, has it once. -/
theorem dedup_constant {l : List Nat} {a : Nat} (hne : l ≠ []) (h : ∀ b ∈ l, b = a) : dedup l = [a] := by
  have repeated : ∀ l' : List Nat, (∀ b ∈ l', b = a) → l'.foldl (fun acc b => if acc.contains b then acc else acc ++ [b]) [a] = [a] := by
    intro l' h'
    induction l' with
    | nil => rfl
    | cons b l' ih =>
      obtain rfl := h' b (.head _)
      rw [List.foldl_cons, if_pos (by simp)]
      exact ih fun c hc => h' c (.tail _ hc)
  cases l with
  | nil => exact absurd rfl hne
  | cons b l =>
    obtain rfl := h b (.head _)
    exact repeated l fun c hc => h c (.tail _ hc)

/-- The port that carries a request depends on the ports alone (R72, R439). -/
theorem State.carrier_congr {s t : State} (h : t.ports = s.ports) (pa : Nat) : t.carrier pa = s.carrier pa := by
  unfold State.carrier State.namedPort State.landingCount State.portLost
  rw [h]

/-- The entry that a ticket takes depends on the tables alone (R279). -/
theorem State.freeEntry_congr {s t : State} (h : t.tickets = s.tickets) (table bytes : Nat) : t.freeEntry table bytes = s.freeEntry table bytes := by
  have lowest : ∀ n i, t.freeFrom table n i = s.freeFrom table n i := by
    intro n
    induction n with
    | zero => exact fun _ => rfl
    | succ n ih => exact fun i => by rw [State.freeFrom, State.freeFrom, h, ih]
  unfold State.freeEntry State.usedUnits
  rw [h, lowest]

/-! ### A gather's requests sent (R72, R280) -/

/-- The first `n` requests from `s.nextReq` on stand for an entry; of the rest of the state only the table of requests differs. -/
structure Gathered (s t : State) (key n : Nat) : Prop where
  frame : t = { s with tickets := t.tickets, reqs := t.reqs, nextReq := s.nextReq + n }
  entry : t.tickets.get key = { s.tickets.get key with reqs := (s.tickets.get key).reqs ++ (List.range n).map (s.nextReq + ·) }
  others : ∀ k, k ≠ key → t.tickets.get k = s.tickets.get k

/-- The next request of an entry, sent. -/
theorem Gathered.next (s : State) (key : Nat) (r : Req) :
    let e := s.tickets.get key
    Gathered s (State.send { s with tickets := s.tickets.set key { e with reqs := e.reqs ++ [s.nextReq] } } r) key 1 :=
  ⟨rfl, FMap.get_set_self .., fun _ hk => FMap.get_set_ne _ _ hk⟩

theorem Gathered.trans {s t u : State} {key n m : Nat} (h : Gathered s t key n) (k : Gathered t u key m) : Gathered s u key (n + m) where
  frame := by rw [k.frame, h.frame]; simp only [Nat.add_assoc]
  entry := by
    have next : t.nextReq = s.nextReq + n := by rw [h.frame]
    rw [k.entry, h.entry, next, List.range_add]
    simp [Nat.add_assoc]
  others j hj := (k.others j hj).trans (h.others j hj)

/-- Requests whose ports carry them are all sent. -/
theorem State.sendGather_carried {parts : List GatherPart} {s : State} (ctx key : Nat)
    (h : ∀ p ∈ parts, isRemote p.pa = true → s.carrier p.pa ≠ none) :
    ∃ t : State, s.sendGather ctx key parts = some t ∧ Gathered s t key (parts.countP fun p => isRemote p.pa) := by
  induction parts generalizing s with
  | nil => exact ⟨s, rfl, rfl, by simp, fun _ _ => rfl⟩
  | cons p parts ih =>
    rw [State.sendGather]
    by_cases remote : isRemote p.pa = true
    · obtain ⟨port, carried⟩ := Option.ne_none_iff_exists'.1 (h p (.head _) remote)
      rw [if_pos remote, carried, List.countP_cons, if_pos remote, Nat.add_comm _ 1]
      have next := Gathered.next s key
        { kind := .ticket key, warp := noWarp, ctx := ctx, va := p.va, pa := p.pa, size := p.size, bytes := 0, home := p.home,
          ops := p.ops, port := port, tag := none, deadline := s.cycle + s.fabricLimit ctx, discarded := false }
      obtain ⟨t, sent, gathered⟩ := ih fun q hq hr => by
        rw [State.carrier_congr (congrArg State.ports next.frame :)]
        exact h q (.tail _ hq) hr
      exact ⟨t, sent, next.trans gathered⟩
    · rw [if_neg remote, List.countP_cons, if_neg remote]
      exact ih fun q hq => h q (.tail _ hq)

/-! ### An entry taken (R280) -/

/-- A pending entry of a gather. -/
def Gather.pending (g : Gather) (s : State) (ctx : Nat) (e : TicketEntry) (reqs : List Nat) : TicketEntry :=
  { e with
    state := 1, ctx := ctx, block := g.block, deadline := s.cycle + (s.ctx ctx).ticketlife.toNat * Config.cyclesPerUs, lanes := s.cur.lanes,
    width := g.width, parts := g.parts.flatMap (·.ops), bytes := g.bytes, err := none, data := [], reqs := reqs }

/-- The state that a ticket's issue leaves, but for the requests sent. -/
structure TicketIssued (s t : State) (g : Gather) (n : Nat) : Prop where
  warps : t.warps = (s.writeRes 2 g.d fun _ => ticketOf s.key s.module_ (s.ctxOf s.cur.warp)
    (s.tickets.get (entryKey g.table n)).reuse n g.table g.block).warps
  cur : t.cur = s.cur
  mem : t.mem = s.mem
  entry : t.tickets.get (entryKey g.table n) = g.pending s (s.ctxOf s.cur.warp) (s.tickets.get (entryKey g.table n))
    ((List.range (g.parts.countP fun p => isRemote p.pa)).map (s.nextReq + ·))
  others : ∀ k, k ≠ entryKey g.table n → t.tickets.get k = s.tickets.get k
  nextReq : t.nextReq = s.nextReq + g.parts.countP fun p => isRemote p.pa

theorem State.issueTicket_carried {s : State} {g : Gather} (h : ∀ p ∈ g.parts, isRemote p.pa = true → s.carrier p.pa ≠ none) (entry : Nat) :
    TicketIssued s (s.issueTicket s.cur.warp s.cur.lanes entry g) g entry := by
  let ctx := s.ctxOf s.cur.warp
  let key := entryKey g.table entry
  let u := s.writeRes 2 g.d fun _ => ticketOf s.key s.module_ ctx (s.tickets.get key).reuse entry g.table g.block
  let counted := u.countSlice g.table 0x0103 1
  have frame : counted = { u with sliceCount := counted.sliceCount } := u.countSlice_frame ..
  let v : State := { counted with tickets := counted.tickets.set key (g.pending s ctx (s.tickets.get key) []) }
  have ports : v.ports = s.ports := by show counted.ports = _; rw [frame]; rfl
  obtain ⟨t, sent, gathered⟩ := State.sendGather_carried (s := v) ctx key fun p hp hr => by
    rw [State.carrier_congr ports]; exact h p hp hr
  have issued : s.issueTicket s.cur.warp s.cur.lanes entry g = t := by
    unfold State.issueTicket
    dsimp only
    split
    next u e => exact Option.some.inj (e.symm.trans sent)
    next e => exact absurd (e.symm.trans sent) (Option.some_ne_none t).symm
  have own : v.tickets.get key = g.pending s ctx (s.tickets.get key) [] := FMap.get_set_self ..
  have tickets : counted.tickets = s.tickets := by rw [frame]; rfl
  have next : v.nextReq = s.nextReq := by show counted.nextReq = _; rw [frame]; rfl
  rw [issued]
  refine ⟨?_, ?_, ?_, ?_, fun k hk => ?_, ?_⟩
  · rw [gathered.frame]; show counted.warps = _; rw [frame]
  · rw [gathered.frame]; show counted.cur = _; rw [frame]; rfl
  · rw [gathered.frame]; show counted.mem = _; rw [frame]; rfl
  · rw [gathered.entry, own, next]; rfl
  · rw [gathered.others k hk]
    exact (FMap.get_set_ne _ _ hk).trans (by rw [tickets])
  · rw [gathered.frame, next]

end Sys2Proof.Machine

namespace Sys2Proof

open Sys2Proof.Machine

/-- A lane-wise result written where the issue stands as before, whatever else that state changes besides the warps. -/
theorem SameIssue.resultOf {s v u : State} (h : SameIssue s v) {nw : Nat} {d : Operand} {f : Nat → Nat}
    (warps : u.warps = (v.writeRes nw d f).warps) (cur : u.cur = v.cur) (mem : u.mem = v.mem) (n : Nat) :
    ((∀ w, w ≠ s.cur.warp → (u.advance n).warp w = s.warp w) ∧ ∀ x, (u.advance n).mem.get x = s.mem.get x) ∧ Advanced s (u.advance n) n
      ∧ RegsWritten s (u.advance n).curWarp nw d f := by
  obtain ⟨⟨other, -⟩, advanced, regs⟩ := h.result nw d f n
  have same : (u.advance n).warps = ((v.writeRes nw d f).advance n).warps := by
    have curWarp : u.curWarp = (v.writeRes nw d f).curWarp := by
      show u.warps.get u.cur.warp = _
      rw [warps, cur]
      rfl
    show u.warps.set u.cur.warp (u.curWarp.advance u.cur.lanes n) = _
    rw [curWarp, warps, cur]
    rfl
  have warp : (u.advance n).warp = ((v.writeRes nw d f).advance n).warp := by
    funext w
    show (u.advance n).warps.get w = _
    rw [same]
    rfl
  have curWarp : (u.advance n).curWarp = ((v.writeRes nw d f).advance n).curWarp := by
    show (u.advance n).warp u.cur.warp = _
    rw [warp, cur]
    rfl
  refine ⟨⟨fun w hw => by rw [warp, other w hw], fun x => ?_⟩, fun l => by rw [curWarp]; exact advanced l, by rwa [curWarp]⟩
  show u.mem.get x = _
  rw [mem, h.mem]

section
variable {s : State} {try_ : Bool} {w : Width} {d a b : Operand} {table n : Nat}

/-- An ldt without faults is `State.ldtOn` of one gather. -/
theorem exec_ldt_gather {parts : List Part} (hc : clear (.ldt try_ w d a) s = true)
    (hv : ∀ o ∈ s.laneOps false a none (fun _ => 0) fun _ => 0, o.va % w.bytes = 0 ∧ o.va < 2 ^ 53)
    (hr : s.reach .read w.bytes (s.laneOps false a none (fun _ => 0) fun _ => 0) = .ok parts) (hne : parts ≠ [])
    (ht : ∀ p ∈ parts, s.tableOf p.x = table) :
    exec (.ldt try_ w d a) s = .next (s.spendWalk.ldtOn (Instr.ldt try_ w d a).len try_
      ⟨table, false, w, laneCount s.cur.lanes * w.bytes, parts.map Part.gather, d⟩) := by
  have one : dedup (parts.map fun p => s.spendWalk.tableOf p.x) = [table] :=
    dedup_constant (by simpa using hne) fun b hb => by
      obtain ⟨p, hp, rfl⟩ := List.mem_map.1 hb
      exact ht p hp
  refine (exec_ldt s).trans (runOp_ok hc ?_)
  dsimp only
  rw [State.globalAccess_ok hv hr, one]
  rfl

/-- Pages that translate, unpacked, miss and fault nowhere (R267). -/
theorem filter_pages {f : Nat → Xl} {vs : List Nat} (h : ∀ v ∈ vs, ∃ y, f v = .ok y ∧ y.packed = false) :
    (vs.map fun v => (v, f v)).filter (fun p => p.2 == .miss) = [] := by
  refine List.filter_eq_nil_iff.2 fun p hp => ?_
  obtain ⟨v, hv, rfl⟩ := List.mem_map.1 hp
  obtain ⟨y, hy, -⟩ := h v hv
  rw [hy]
  exact Bool.false_ne_true

theorem findSome_pages {f : Nat → Xl} {vs : List Nat} (h : ∀ v ∈ vs, ∃ y, f v = .ok y ∧ y.packed = false) (all : Nat → List LaneOp) :
    (vs.map fun v => (v, f v)).findSome? (s.blockFault all) = none := by
  refine List.findSome?_eq_none_iff.2 fun p hp => ?_
  obtain ⟨v, hv, rfl⟩ := List.mem_map.1 hp
  obtain ⟨y, hy, plain⟩ := h v hv
  rw [State.blockFault, hy]
  exact if_neg (ne_true_of_eq_false plain)

/-- An ldt of a block without faults is `State.ldtOn` of one gather. -/
theorem exec_ldtBlock_gather {x : Xlat} (hc : clear (.ldtBlock try_ d a b) s = true) (hn : n = s.lead32 b) (ha : s.same64 a = true)
    (hb : s.same32 b = true) (least : 16 ≤ n) (most : n ≤ 4096) (sized : n % 16 = 0) (aligned : s.lead64 a % 16 = 0)
    (range : s.lead64 a + n ≤ 2 ^ 53)
    (second : (s.lead64 a + n - 1) / 8192 * 8192 ≤ s.lead64 a
      ∨ ∃ y, s.xlateWarp s.cur.warp ((s.lead64 a + n - 1) / 8192 * 8192) .read = .ok y ∧ y.packed = false)
    (first : s.xlateWarp s.cur.warp (s.lead64 a) .read = .ok x) (plain : x.packed = false) (swung : s.beforeSwing x = false)
    (one : s.lead64 a / 2 ^ x.bits = (s.lead64 a + n - 1) / 2 ^ x.bits) (tables : (s.blockTables x n).length = 1) :
    exec (.ldtBlock try_ d a b) s = .next (s.spendWalk.ldtOn (Instr.ldtBlock try_ d a b).len try_
      ⟨s.tableOf x, true, .n8, n, [⟨s.lead64 a, x.pa, n, x.home, [⟨0, s.lead64 a, x.pa, 0, 0, x.mig⟩]⟩], d⟩) := by
  subst hn
  refine (exec_ldtBlock s).trans (runOp_ok hc ?_)
  have legal : ¬ (s.same64 a = false ∨ s.same32 b = false ∨ s.lead32 b < 16 ∨ 4096 < s.lead32 b ∨ s.lead32 b % 16 ≠ 0) := by
    simp only [ha, hb, Bool.true_eq_false, false_or]
    omega
  have pages : ∀ v ∈ (if (s.lead64 a + s.lead32 b - 1) / 8192 * 8192 ≤ s.lead64 a then [s.lead64 a]
      else [s.lead64 a, (s.lead64 a + s.lead32 b - 1) / 8192 * 8192]),
      ∃ y, s.xlateWarp s.cur.warp v .read = .ok y ∧ y.packed = false := by
    intro v hv
    split at hv
    case isTrue => obtain rfl := List.mem_singleton.1 hv; exact ⟨x, first, plain⟩
    case isFalse two =>
      obtain rfl | hv := List.mem_cons.1 hv
      · exact ⟨x, first, plain⟩
      · obtain rfl := List.mem_singleton.1 hv
        exact second.resolve_left two
  dsimp only
  rw [if_neg legal, if_neg (not_not.2 aligned), if_neg (not_lt.2 range), filter_pages pages, findSome_pages pages, first]
  refine (if_neg (ne_true_of_eq_false swung)).trans (if_neg ?_)
  rintro (split | more)
  · exact split one
  · exact more tables

end

/-- Settles O23: either form ends in `State.ldtOn` of one gather. -/
theorem ticketIssue : Obligations.TicketIssue := by
  unfold Obligations.TicketIssue
  intro s try_ w d a b i block pas table n hc ctx va forms carried kept
  have gathered : ∃ g : Gather, exec i s = .next (s.spendWalk.ldtOn i.len try_ g) ∧ g.table = table ∧ g.block = block ∧ g.bytes = n ∧ g.d = d
      ∧ g.parts.map (·.pa) = pas := by
    obtain ⟨rfl, rfl, rfl, hv, parts, hr, hne, rfl, ht⟩
      | ⟨rfl, rfl, hn, ha, hb, least, most, sized, aligned, range, second, x, first, plain, swung, one, rfl, rfl, tables⟩ := forms
    · exact ⟨_, exec_ldt_gather hc hv hr hne ht, rfl, rfl, rfl, rfl, by rw [List.map_map]; rfl⟩
    · exact ⟨_, exec_ldtBlock_gather hc hn ha hb least most sized aligned range second first plain swung one tables, rfl, rfl, rfl, rfl, rfl⟩
  obtain ⟨g, run, rfl, rfl, rfl, rfl, rfl⟩ := gathered
  have same := (RecordRead.spendWalk s).sameIssue
  have room : s.spendWalk.freeEntry g.table g.bytes = s.freeEntry g.table g.bytes := State.freeEntry_congr (s := s) (t := s.spendWalk) rfl _ _
  refine ⟨fun entry free => ?_, fun full => ?_⟩
  · have issued : TicketIssued s.spendWalk _ g entry :=
      State.issueTicket_carried (s := s.spendWalk) (fun p hp => carried p.pa (List.mem_map_of_mem hp)) entry
    obtain ⟨keeps, advanced, regs⟩ := same.resultOf issued.warps issued.cur issued.mem i.len
    have count : g.parts.countP (fun p => isRemote p.pa) = (g.parts.map (·.pa)).countP isRemote := by
      rw [List.countP_map]
      rfl
    have pending := issued.entry
    rw [count] at pending
    have done : s.spendWalk.ldtOn i.len try_ g = (s.spendWalk.issueTicket s.spendWalk.cur.warp s.spendWalk.cur.lanes entry g).advance i.len := by
      rw [State.ldtOn, room, free]
    refine ⟨_, run.trans (congrArg _ done), keeps, advanced, regs, ?_, issued.others, ?_⟩
    · exact ⟨congrArg TicketEntry.state pending, congrArg TicketEntry.ctx pending, congrArg TicketEntry.block pending,
        congrArg TicketEntry.bytes pending, congrArg TicketEntry.lanes pending, congrArg TicketEntry.deadline pending,
        (congrArg TicketEntry.reuse pending).trans rfl, congrArg TicketEntry.reqs pending⟩
    · exact issued.nextReq.trans (by rw [count]; rfl)
  · have noRoom : s.spendWalk.freeEntry g.table g.bytes = none := room.trans full
    cases try_ with
    | true =>
      have done : s.spendWalk.ldtOn i.len true g = (s.spendWalk.writeRes 2 g.d fun _ => 0).advance i.len := by
        rw [State.ldtOn, noRoom]
        rfl
      obtain ⟨keeps, advanced, regs⟩ := same.result 2 g.d (fun _ => 0) i.len
      exact ⟨_, run.trans (by rw [done]), keeps, rfl, regs, advanced⟩
    | false =>
      have done : s.spendWalk.ldtOn i.len false g = s.spendWalk.block i.len (.room (some g)) := by
        rw [State.ldtOn, noRoom]
        rfl
      obtain ⟨only, warp⟩ := State.block_spec s.spendWalk i.len (.room (some g))
      refine ⟨_, run.trans (by rw [done]), ⟨fun v hv => (only.other v hv).trans (same.other v hv), fun y => only.memory y⟩, rfl, g, ?_,
        rfl, rfl, rfl, rfl, rfl⟩
      rw [warp, same.curWarp]
      rfl

end Sys2Proof

/-! ## O19: global loads and stores

### The parts of an access (R66)

Each part is the request of one segment (`RequestOf`); a lane has one access in one part (`RequestOf.unique`). -/

namespace Sys2Proof.Machine

open Sys2Proof

section
variable {s : State} {acc : Access} {n : Nat} {ops : List LaneOp} {parts : List Part} {p q : Part}

theorem lowestVa_le {o : LaneOp} (ho : o ∈ ops) : lowestVa ops ≤ o.va := by
  obtain ⟨-, rfl⟩ | ⟨a, -, he, least⟩ := leastBy_spec LaneOp.va ops
  · cases ho
  · rw [lowestVa, he]
    exact least o ho

theorem le_highestVa {o : LaneOp} (ho : o ∈ ops) (n : Nat) : o.va + n - 1 ≤ highestVa ops n := by
  have grows : ∀ (l : List LaneOp) (m : Nat), m ≤ l.foldl (fun m o => Nat.max m (o.va + n - 1)) m := by
    intro l
    induction l with
    | nil => exact le_refl
    | cons o l ih => exact fun m => (le_max_left ..).trans (ih _)
  have reached : ∀ (l : List LaneOp) (m : Nat), o ∈ l → o.va + n - 1 ≤ l.foldl (fun m o => Nat.max m (o.va + n - 1)) m := by
    intro l
    induction l with
    | nil => exact fun _ h => by cases h
    | cons q l ih =>
      intro m h
      obtain rfl | h := List.mem_cons.1 h
      · exact (le_max_right ..).trans (grows l _)
      · exact ih _ h
  exact reached ops 0 ho

theorem highestVa_lt {b : Nat} (hb : 0 < b) (h : ∀ o ∈ ops, o.va + n - 1 < b) : highestVa ops n < b := by
  have bounded : ∀ (l : List LaneOp) (m : Nat), m < b → (∀ o ∈ l, o.va + n - 1 < b) → l.foldl (fun m o => Nat.max m (o.va + n - 1)) m < b := by
    intro l
    induction l with
    | nil => exact fun _ h _ => h
    | cons o l ih => exact fun m hm hl => ih _ (max_lt hm (hl o (.head _))) fun q hq => hl q (.tail _ hq)
  exact bounded ops 0 hb h

/-- A request's size. -/
theorem requestSize_cases (lo hi : Nat) : requestSize lo hi = 16 ∨ requestSize lo hi = 32 ∨ requestSize lo hi = 64 ∨ requestSize lo hi = 128 := by
  unfold requestSize
  split
  · exact .inl rfl
  · split
    · exact .inr (.inl rfl)
    · split
      · exact .inr (.inr (.inl rfl))
      · exact .inr (.inr (.inr rfl))

/-- The least block holds both ends, if one of 128 bytes does. -/
theorem div_requestSize {lo hi : Nat} (h : lo / 128 = hi / 128) : lo / requestSize lo hi = hi / requestSize lo hi := by
  unfold requestSize
  split
  case isTrue e => exact e
  · split
    case isTrue e => exact e
    · split
      case isTrue e => exact e
      · exact h

/-- The accesses of a segment lie in its request. -/
theorem mem_requestOf {g : Nat} (hn : n ∣ 128) (h : ∀ o ∈ ops, o.va % n = 0 ∧ o.va / 128 = g) {o : LaneOp} (ho : o ∈ ops) :
    (requestOf ops n).1 ≤ o.va ∧ o.va + n ≤ (requestOf ops n).1 + (requestOf ops n).2 := by
  have pos : 0 < n := Nat.pos_of_dvd_of_pos hn (by decide)
  have inside : ∀ o ∈ ops, o.va + n - 1 < 128 * (g + 1) := fun o ho => by
    obtain ⟨aligned, segment⟩ := h o ho
    obtain ⟨k, hk⟩ := Nat.dvd_of_mod_eq_zero aligned
    obtain ⟨c, hc⟩ := hn
    have below : o.va < 128 * (g + 1) := by omega
    have : k < c * (g + 1) := Nat.lt_of_mul_lt_mul_left (a := n) (by rw [← Nat.mul_assoc, ← hc, ← hk]; exact below)
    have : n * (k + 1) ≤ n * (c * (g + 1)) := Nat.mul_le_mul_left n this
    rw [← Nat.mul_assoc, ← hc, Nat.mul_succ, ← hk] at this
    omega
  have low := lowestVa_le ho
  have high := le_highestVa ho n
  have top := highestVa_lt (by omega) inside
  have segment := (h o ho).2
  have lowest : lowestVa ops / 128 = g := by
    obtain ⟨-, rfl⟩ | ⟨a, ha, he, -⟩ := leastBy_spec LaneOp.va ops
    · cases ho
    · rw [lowestVa, he]
      exact (h a ha).2
  have whole := div_requestSize (lo := lowestVa ops) (hi := highestVa ops n) (by omega)
  have size : 0 < requestSize (lowestVa ops) (highestVa ops n) := by
    have := requestSize_cases (lowestVa ops) (highestVa ops n)
    omega
  show lowestVa ops / requestSize _ _ * requestSize _ _ ≤ o.va
    ∧ o.va + n ≤ lowestVa ops / requestSize _ _ * requestSize _ _ + requestSize _ _
  generalize requestSize (lowestVa ops) (highestVa ops n) = m at whole size ⊢
  have := Nat.div_mul_le_self (lowestVa ops) m
  have := Nat.lt_div_mul_add (a := highestVa ops n) size
  rw [whole] at *
  omega

/-- A translated multiple of a power of two, no larger than the smallest page, is one. -/
theorem leafXlat_dvd {e size va i : Nat} {a : Access} {x : Xlat} (h : s.leafXlat e size va a = some x) (hi : i ≤ 13) (hva : va % 2 ^ i = 0) :
    x.pa % 2 ^ i = 0 := by
  unfold State.leafXlat at h
  dsimp only at h
  split at h
  case isFalse => cases h
  case isTrue =>
    obtain rfl := Option.some.inj h
    have frame : 2 ^ i ∣ pteFrame e := Dvd.dvd.mul_left (pow_dvd_pow 2 hi) _
    have offset : 2 ^ i ∣ va % 2 ^ size := by
      have whole := Nat.dvd_of_mod_eq_zero hva
      obtain le | le := le_total i size
      · exact (Nat.dvd_mod_iff (pow_dvd_pow 2 le)).2 whole
      · rw [Nat.mod_eq_zero_of_dvd ((pow_dvd_pow 2 le).trans whole)]
        exact dvd_zero _
    exact Nat.mod_eq_zero_of_dvd (dvd_add frame offset)

/-- A part as the request of the segment of some accesses. -/
structure RequestOf (s : State) (acc : Access) (n : Nat) (ops : List LaneOp) (g : Nat) (p : Part) : Prop where
  part : p = partOf p.x (requestOf (ops.filter fun o => o.va / 128 == g) n).1 (requestOf (ops.filter fun o => o.va / 128 == g) n).2
    (ops.filter fun o => o.va / 128 == g)
  xlate : s.xlateWarp s.cur.warp (requestOf (ops.filter fun o => o.va / 128 == g) n).1 acc = .ok p.x

/-- Parts are the requests of segments. -/
theorem State.reach_ok (h : s.reach acc n ops = .ok parts) : ∀ p ∈ parts, ∃ g, RequestOf s acc n ops g p := by
  unfold State.reach at h
  dsimp only at h
  split at h
  · cases h
  next noMiss =>
    split at h
    next sound =>
      obtain rfl := Reach.ok.inj h
      intro p hp
      obtain ⟨r, hr, rfl⟩ := List.mem_map.1 hp
      obtain ⟨seg, hseg, rfl⟩ := List.mem_map.1 hr
      obtain ⟨g, -, rfl⟩ := List.mem_map.1 hseg
      refine ⟨g, ?_⟩
      have hit : ∀ seg ∈ segments ops, (s.reachOne acc n seg).2.2 = false := by simpa using noMiss
      have well : ∀ seg ∈ segments ops, (s.reachOne acc n seg).2.1 = none := by simpa using sound
      specialize hit _ hseg
      specialize well _ hseg
      unfold State.reachOne at hit well ⊢
      dsimp only at hit well ⊢
      cases hx : s.xlateWarp s.cur.warp (requestOf (ops.filter fun o => o.va / 128 == g) n).1 acc with
      | miss => simp [hx] at hit
      | fault c => simp [hx] at well
      | ok x =>
        by_cases packed : x.packed = true
        · simp [hx, packed] at well
        · dsimp only
          rw [if_neg packed]
          exact ⟨rfl, hx⟩
    · cases h

namespace RequestOf
variable {g k : Nat} {o : LaneOp} (h : RequestOf s acc n ops g p)
include h

theorem va_eq : p.va = (requestOf (ops.filter fun o => o.va / 128 == g) n).1 := congrArg Part.va h.part
theorem size_eq : p.size = (requestOf (ops.filter fun o => o.va / 128 == g) n).2 := congrArg Part.size h.part

/-- Its accesses are those of the segment, with their physical addresses. -/
theorem mem_iff : o ∈ p.ops ↔ ∃ q ∈ ops, q.va / 128 = g ∧ { q with pa := p.x.pa + (q.va - p.va), mig := p.x.mig } = o := by
  have own : p.ops = (ops.filter fun o => o.va / 128 == g).map fun q => { q with pa := p.x.pa + (q.va - p.va), mig := p.x.mig } := by
    rw [h.va_eq]
    exact congrArg Part.ops h.part
  rw [own]
  simp [and_assoc]

theorem size_cases : p.size = 16 ∨ p.size = 32 ∨ p.size = 64 ∨ p.size = 128 := by
  rw [h.size_eq]
  exact requestSize_cases ..

theorem va_aligned : p.va % p.size = 0 := by
  rw [h.va_eq, h.size_eq]
  exact Nat.mul_mod_left ..

/-- Its physical address is a multiple of its size. -/
theorem pa_aligned : p.x.pa % p.size = 0 := by
  obtain ⟨e, bits, leaf⟩ := State.xlateWarp_leaf h.xlate
  rw [← h.va_eq] at leaf
  have power : ∃ i, i ≤ 13 ∧ p.size = 2 ^ i := by
    obtain e | e | e | e := h.size_cases
    exacts [⟨4, by decide, e⟩, ⟨5, by decide, e⟩, ⟨6, by decide, e⟩, ⟨7, by decide, e⟩]
  obtain ⟨i, hi, e⟩ := power
  rw [e]
  exact leafXlat_dvd leaf hi (by rw [← e]; exact h.va_aligned)

/-- Its accesses lie in it. -/
theorem inside (hn : n ∣ 128) (ha : ∀ q ∈ ops, q.va % n = 0) (ho : o ∈ p.ops) :
    o.va % n = 0 ∧ p.va ≤ o.va ∧ o.va + n ≤ p.va + p.size ∧ o.pa = p.x.pa + (o.va - p.va) := by
  obtain ⟨q, hq, segment, rfl⟩ := h.mem_iff.1 ho
  have holds := mem_requestOf (ops := ops.filter fun o => o.va / 128 == g) (g := g) hn
    (fun q hq => by
      obtain ⟨hq, segment⟩ := List.mem_filter.1 hq
      exact ⟨ha q hq, by simpa using segment⟩)
    (List.mem_filter.2 ⟨hq, by simpa using segment⟩)
  rw [← h.va_eq, ← h.size_eq] at holds
  exact ⟨ha q hq, holds.1, holds.2, rfl⟩

/-- A lane has one access in one part. -/
theorem unique (inj : ∀ a ∈ ops, ∀ b ∈ ops, a.lane = b.lane → a = b) (k' : RequestOf s acc n ops k q) {o' : LaneOp} (ho : o ∈ p.ops)
    (ho' : o' ∈ q.ops) (lane : o.lane = o'.lane) : p = q ∧ o = o' := by
  obtain ⟨a, ha, segA, rfl⟩ := h.mem_iff.1 ho
  obtain ⟨b, hb, segB, rfl⟩ := k'.mem_iff.1 ho'
  obtain rfl := inj a ha b hb lane
  obtain rfl : g = k := segA.symm.trans segB
  have x : p.x = q.x := Xl.ok.inj (h.xlate.symm.trans k'.xlate)
  have same : p = q := by rw [h.part, k'.part, x]
  exact ⟨same, by rw [same]⟩

end RequestOf

end

/-- The width codes' sizes divide a line. -/
theorem Width.bytes_dvd (w : Width) : w.bytes ∣ 16 ∧ 0 < w.bytes := by
  cases w <;> decide

/-- Lanes of an instruction's accesses are distinct. -/
theorem laneOps_inj {s : State} {x : Bool} {a : Operand} {off : Option Operand} {b c : Nat → Nat} :
    ∀ o ∈ s.laneOps x a off b c, ∀ q ∈ s.laneOps x a off b c, o.lane = q.lane → o = q := by
  intro o ho q hq lane
  obtain ⟨l, -, rfl⟩ := mem_laneOps.1 ho
  obtain ⟨k, -, rfl⟩ := mem_laneOps.1 hq
  obtain rfl : l = k := lane
  rfl

end Sys2Proof.Machine

namespace Sys2Proof

open Sys2Proof.Machine

/-- The model's check of an order beyond the core is the statement's. -/
theorem ordersBeyond_iff {b : Bool} {m : Prop} (hb : b = true ↔ m) (sc : Scope) (least : Nat) (parts : List Part) :
    ordersBeyond b sc least (parts.map (·.x.order)) = true ↔ ordersFar m sc least parts := by
  simp [ordersBeyond, ordersFar, ← hb]

/-! ### Parts that the module serves at once (R81, R421) -/

namespace servedHere
variable {s t : State} {p : Part} (h : servedHere s p)
include h

/-- Only the migration slots count. -/
theorem congr (migs : t.migs = s.migs) : servedHere t p := ⟨h.1, fun mig k found l hl => by
  unfold State.migOf at found
  rw [migs] at found hl ⊢
  exact h.2 mig k found l hl⟩

/-- The lines of its page are there. -/
theorem lines (mig : p.x.mig = true) {k : Nat} (found : s.migOf p.x.pa = some k) {l : Nat} (hl : l ∈ (s.migs.get k).linesOf p.x.pa p.size) :
    (s.migs.get k).pulled.contains l = true ∧ (s.migs.get k).failed.find l = none := by
  obtain ⟨pulled, sound⟩ := h.2 mig k found l hl
  exact ⟨by simpa using pulled, sound⟩

theorem touchPart : s.touchPart p = s := by
  unfold State.touchPart State.touch
  split
  next mig =>
    split
    next k found =>
      have fixed : ∀ ls : List Nat, (∀ l ∈ ls, l ∈ (s.migs.get k).linesOf p.x.pa p.size) → ls.foldl (fun s l => s.pull k l false) s = s := by
        intro ls
        induction ls with
        | nil => exact fun _ => rfl
        | cons l ls ih =>
          intro hl
          have pulled := (h.lines mig found (hl l (.head _))).1
          rw [List.foldl_cons, show s.pull k l false = s from if_pos (.inr (.inl pulled))]
          exact ih fun j hj => hl j (.tail _ hj)
      exact fixed _ fun _ h => h
    · rfl
  · rfl

theorem lineFault : s.lineFault p.x p.size = none := by
  unfold State.lineFault
  split
  next mig =>
    split
    next k found =>
      refine List.findSome?_eq_none_iff.2 fun l hl => ?_
      obtain ⟨pulled, sound⟩ := h.lines mig found hl
      rw [State.lineError, sound]
      exact if_neg fun e => e.2 pulled
    · rfl
  · rfl

/-- A store that covers a line there has nothing to clear. -/
theorem clearLine (size : 0 < p.size) : s.clearLine p.x = s := by
  unfold State.clearLine
  split
  next mig =>
    split
    next k found =>
      refine if_pos (h.lines mig found ?_).1
      refine List.mem_map.2 ⟨0, List.mem_range.2 ?_, Nat.zero_add _⟩
      have := Nat.div_le_div_right (c := 256) (show p.x.pa - (s.migs.get k).new ≤ p.x.pa + p.size - 1 - (s.migs.get k).new by omega)
      omega
    · rfl
  · rfl

theorem storeTouch (size : 0 < p.size) (w : Nat) (all : List LaneOp) : s.storeTouch w all p = s := by
  unfold State.storeTouch
  split
  · exact h.clearLine size
  · exact h.touchPart

end servedHere

/-! ### Stores of this module's pages -/

section
variable {s t : State} {n : Nat} {p : Part} {vs : List (Nat × List Byte)}

/-- A store that writes no byte keeps memory. -/
theorem stores_storeL1 (s : State) (core pa : Nat) (bs : List Byte) : Stores s (s.storeL1 core pa bs) [] := by
  unfold State.storeL1
  split
  · exact .refl s
  · exact ⟨rfl, rfl, fun _ => rfl⟩

theorem stores_storeLane {o : LaneOp} (ctx core home : Nat) (own : s.ownAddr o.pa = o.pa) (working : s.chanFailed o.pa = false) :
    Stores s (s.storeLane ctx core n home o) [(o.pa, natToBytes n o.b)] := by
  have stored := Stores.storePhys own working ctx o.va (natToBytes n o.b)
  unfold State.storeLane
  dsimp only
  split
  · exact stored.trans (stores_storeL1 ..)
  · exact stored

/-- Bytes written as they stand. -/
theorem stores_reread (good : Good s) (a n : Nat) : Stores s (s.store a (s.mem.read a n)) [] where
  frame := (Stores.store ..).frame
  mem := (Stores.store ..).mem.trans (Memory.write_read good a n)
  failed := (Stores.store ..).failed

/-- A granule that lanes wrote whole is written as it stands. -/
theorem stores_wroteWhole (good : Good s) (ops : List LaneOp) (n : Nat) : Stores s (s.wroteWhole ops n) [] := by
  let gs := (dedup (ops.map (·.pa / 32))).filter (coversGranule ops n)
  have none : gs.flatMap (fun _ => ([] : List (Nat × List Byte))) = [] := by simp
  rw [← none]
  refine Stores.foldl gs fun t vs stored g _ => ?_
  dsimp only
  split
  · exact .refl t
  · exact stores_reread (stored.good good) ..

/-- A part of a store that the module serves. -/
theorem stores_storePart (h : servedHere s p) (size : 0 < p.size) (good : Good s)
    (working : ∀ o ∈ p.ops, s.ownAddr o.pa = o.pa ∧ s.chanFailed o.pa = false) (all : List LaneOp) :
    Stores s (s.storePart n all p) (p.ops.map fun o => (o.pa, natToBytes n o.b)) := by
  have lanes : Stores s (p.ops.foldl (fun u o => u.storeLane (s.ctxOf s.cur.warp) (u.coreOf u.cur.warp) n p.x.home o) s)
      (p.ops.flatMap fun o => [(o.pa, natToBytes n o.b)]) :=
    Stores.foldl p.ops fun t vs stored o ho => by
      obtain ⟨own, channel⟩ := working o ho
      exact stores_storeLane _ _ _ (by rw [stored.ownAddr, own]) (by rw [stored.chanFailed, channel])
  have run : s.storePart n all p = ((p.ops.foldl (fun u o => u.storeLane (s.ctxOf s.cur.warp) (u.coreOf u.cur.warp) n p.x.home o) s).wroteWhole
      p.ops n).countServed p.x.pa := by
    unfold State.storePart
    dsimp only
    rw [h.storeTouch size, h.lineFault, h.1]
    rfl
  rw [run, List.map_eq_flatMap]
  have done := (lanes.trans (stores_wroteWhole (lanes.good good) p.ops n)).trans (Stores.countServed _ p.x.pa)
  simpa only [List.append_nil] using done

/-- The parts of a store that the module serves, one after another. -/
theorem stores_storeParts {parts : List Part} (good : Good s) (h : ∀ p ∈ parts, servedHere s p ∧ 0 < p.size
      ∧ ∀ o ∈ p.ops, s.ownAddr o.pa = o.pa ∧ s.chanFailed o.pa = false) (all : List LaneOp) :
    Stores s (parts.foldl (fun s p => s.storePart n all p) s) ((parts.flatMap (·.ops)).map fun o => (o.pa, natToBytes n o.b)) := by
  rw [List.map_flatMap]
  refine Stores.foldl parts fun t vs stored p hp => ?_
  obtain ⟨served, size, working⟩ := h p hp
  have served' := served.congr (t := t) (by rw [stored.frame])
  exact stores_storePart served' size (stored.good good) (fun o ho => by
    rw [stored.ownAddr, stored.chanFailed]
    exact working o ho) all

end

/-- An address below the windows of other modules and of the pool is this module's own. -/
theorem ownAddr_of_low {pa : Nat} (low : pa < 0x4_0000_0000_0000) (s : State) : s.ownAddr pa = pa := by
  have region : ∀ m x, regionOf pa ≠ .remote m x := by
    intro m x h
    unfold regionOf at h
    split_ifs at h
    all_goals
      dsimp only at h
      split at h <;> cases h
  unfold State.ownAddr
  split
  next m x h => exact absurd h (region m x)
  next => rfl

/-- A release that has nothing to wait for (R97, R98). -/
theorem release_ready {s v : State} (same : SameIssue s v) (reqs : v.reqs = s.reqs) {b : Bool} {m : Prop} (hb : b = true ↔ m) {sc : Scope}
    {parts : List Part} (free : ordersFar m sc 5 parts → s.outstanding s.cur.warp = 0 ∧ s.curWarp.remoteErr = none) (len : Nat)
    (f : State → Except Trap State) : v.release (ordersBeyond b sc 5 (parts.map (·.x.order))) len f = f v := by
  refine State.release_free (fun on => ?_) len f
  obtain ⟨none, clean⟩ := free ((ordersBeyond_iff hb ..).1 on)
  refine ⟨?_, by rw [same.curWarp]; exact clean⟩
  unfold State.outstanding at none ⊢
  rw [reqs, same.cur]
  exact none

theorem globalStore : Part.GlobalStore := by
  intro s w ord sc d a b i off parts hi hc good n data ops hv hr served free stored
  let v := s.spendWalk
  let u := parts.foldl (fun s p => s.storePart n ops p) v
  have here : ∀ p ∈ parts, servedHere v p ∧ 0 < p.size ∧ ∀ o ∈ p.ops, v.ownAddr o.pa = o.pa ∧ v.chanFailed o.pa = false := fun p hp => by
    obtain ⟨g, request⟩ := State.reach_ok hr p hp
    obtain ⟨page, working⟩ := served p hp
    refine ⟨page.congr rfl, ?_, fun o ho => ⟨ownAddr_of_low (working o ho).1 v, (working o ho).2⟩⟩
    have := request.size_cases
    omega
  have stores : Stores v u (stored.map fun o => (o.pa, natToBytes n o.b)) := stores_storeParts good.spendWalk here ops
  have datum : ∀ o ∈ stored, o.b = data o.lane := fun o ho => by
    obtain ⟨p, hp, ho⟩ := List.mem_flatMap.1 ho
    obtain ⟨g, request⟩ := State.reach_ok hr p hp
    obtain ⟨q, hq, -, rfl⟩ := request.mem_iff.1 ho
    obtain ⟨l, -, rfl⟩ := mem_laneOps.1 hq
    rfl
  have same := (RecordRead.spendWalk s).sameIssue
  have run : exec i s = .next (u.advance i.len) := by
    refine (exec_globalStore hi).trans (runOp_ok hc ?_)
    have none : parts.filter (fun p => isRemote p.x.pa) = [] :=
      List.filter_eq_nil_iff.2 fun p hp => by rw [(served p hp).1.1]; exact Bool.false_ne_true
    rw [State.storeG]
    dsimp only
    refine (State.globalAccess_ok (ops := ops) hv hr _).trans ?_
    rw [release_ready same rfl (by simp) free, none]
    rfl
  have cur : u.cur = s.cur := by rw [stores.frame]; rfl
  have warps : u.warps = v.warps := stores.warps
  have curWarp : u.curWarp = { s.curWarp with walkFaults := v.curWarp.walkFaults } := by
    rw [← same.curWarp]
    show u.warps.get u.cur.warp = _
    rw [warps, cur]
    rfl
  have final : (u.advance i.len).curWarp = u.curWarp.advance s.cur.lanes i.len := (State.curWarp_upCur ..).trans (by rw [cur])
  have mem : (u.advance i.len).mem = s.mem.writes (stored.map fun o => (o.pa, natToBytes n o.b)) := stores.mem
  refine ⟨_, run, fun x hx => ?_, fun pre o post split last => ?_, fun l => ?_, fun m l => ?_, fun m => ?_, fun k hk => ?_⟩
  · rw [mem]
    refine Memory.get_writes_ne _ fun q hq => ?_
    obtain ⟨o, ho, rfl⟩ := List.mem_map.1 hq
    simpa using hx o ho
  · have read := Memory.read_writes_last good (pre.map fun o => (o.pa, natToBytes n o.b)) (post.map fun o => (o.pa, natToBytes n o.b))
      (o.pa, natToBytes n o.b) fun q hq => by
        obtain ⟨p, hp, rfl⟩ := List.mem_map.1 hq
        simpa using (last p hp).symm
    rw [mem, split, ← datum o (by rw [split]; simp)]
    simpa using read
  · rw [Advanced.advance u i.len l, cur, curWarp]
    rfl
  · rw [final, curWarp]
    rfl
  · rw [final, curWarp]
    rfl
  · have other := (WarpOnly.upCur u fun w => w.advance u.cur.lanes i.len).other k (by rwa [cur])
    refine other.trans ?_
    show u.warps.get k = _
    rw [warps]
    exact same.other k hk

end Sys2Proof

/-! ### Loads of this module's pages (R64)

Each part read gives its lanes their values (`Loading`): those of memory, or of a sector that the L1 held before. -/

namespace Sys2Proof.Machine

open Sys2Proof

theorem Width.bytes_cases (w : Width) : w.bytes = 1 ∨ w.bytes = 2 ∨ w.bytes = 4 ∨ w.bytes = 8 ∨ w.bytes = 16 := by
  cases w <;> decide

/-- Bytes within a range read. -/
theorem Memory.read_slice (m : Memory) (a : Nat) {i n k : Nat} (h : i + n ≤ k) : ((m.read a k).drop i).take n = m.read (a + i) n := by
  obtain ⟨r, rfl⟩ := Nat.exists_eq_add_of_le h
  have first : i = (m.read a i).length := (Memory.read_length ..).symm
  have second : n = (m.read (a + i) n).length := (Memory.read_length ..).symm
  rw [Nat.add_assoc, Memory.read_add, List.drop_left' first.symm, Memory.read_add, List.take_left' second.symm]

/-- A sector held after a fetch was held before, or is what memory holds (R64). -/
theorem State.fillL1_find {s : State} {core pa m k : Nat} {b : List Byte} (h : ((s.fillL1 core pa m).core core).l1.find k = some b) :
    (s.core core).l1.find k = some b ∨ b = s.readPhys (16 * k) 16 := by
  let Known (t : FMap (List Byte)) : Prop := ∀ k b, t.find k = some b → (s.core core).l1.find k = some b ∨ b = s.readPhys (16 * k) 16
  have filled : ∀ (ks : List Nat) (skip : FMap (List Byte) → Nat → Prop) [∀ t k, Decidable (skip t k)] (t : FMap (List Byte)),
      Known t → Known (ks.foldl (fun t k => if skip t k then t else t.set k (s.readPhys (16 * k) 16)) t) := by
    intro ks skip _
    induction ks with
    | nil => exact fun _ h => h
    | cons j ks ih =>
      intro t ht
      refine ih _ fun k b hb => ?_
      dsimp only at hb
      split at hb
      · exact ht k b hb
      · rw [FMap.find_set] at hb
        split at hb
        case isTrue e => exact .inr (by rw [← Option.some.inj hb, e])
        case isFalse => exact ht k b hb
  have after : (s.fillL1 core pa m).core core = _ := FMap.get_set_self ..
  rw [after] at h
  dsimp only at h
  split at h
  · exact filled _ _ _ (fun _ _ h => .inl h) k b h
  · exact filled _ _ _ (fun _ _ h => .inl h) k b (boundL1_find _ _ _ _ _ _ h)

theorem RecordRead.acquire (s : State) (on : Bool) : RecordRead s (s.acquire on) := by
  cases on with
  | false => exact .refl s
  | true =>
    have frame := s.emptyL1_frame (s.coreOf s.cur.warp)
    exact ⟨by rw [State.acquire, if_pos rfl, frame], fun _ _ => by rw [State.acquire, if_pos rfl, frame]; rfl,
      by rw [State.acquire, if_pos rfl, frame]; rfl, fun c => by rw [State.acquire, if_pos rfl, s.emptyL1_core]⟩

/-! ### Lanes answered -/

/-- Lanes given their values, one after another. -/
def Got.answered (g : Got) (os : List LaneOp) (f : LaneOp → Nat) : Got :=
  os.foldl (fun g o => { g with vals := g.vals.set o.lane (f o) }) g

namespace Got
variable {g : Got} {os : List LaneOp} {f : LaneOp → Nat} {l v : Nat}

theorem answered_faults (g : Got) (os : List LaneOp) (f : LaneOp → Nat) : (g.answered os f).faults = g.faults := by
  induction os generalizing g with
  | nil => rfl
  | cons o os ih => exact ih _

/-- A lane's value is one of its own, or one it had. -/
theorem answered_find (h : (g.answered os f).vals.find l = some v) : (∃ o ∈ os, o.lane = l ∧ f o = v) ∨ g.vals.find l = some v := by
  induction os generalizing g with
  | nil => exact .inr h
  | cons o os ih =>
    obtain ⟨q, hq, e⟩ | before := ih h
    · exact .inl ⟨q, .tail _ hq, e⟩
    · rw [FMap.find_set] at before
      split at before
      case isTrue e => exact .inl ⟨o, .head _, e.symm, Option.some.inj before⟩
      case isFalse => exact .inr before

/-- Lanes answered have a value, and keep it. -/
theorem answered_isSome (h : (g.vals.find l).isSome = true ∨ ∃ o ∈ os, o.lane = l) : ((g.answered os f).vals.find l).isSome = true := by
  induction os generalizing g with
  | nil => exact h.resolve_right fun ⟨o, ho, _⟩ => by cases ho
  | cons o os ih =>
    refine ih ?_
    by_cases e : o.lane = l
    · exact .inl (by rw [FMap.find_set, if_pos e.symm]; rfl)
    · obtain before | ⟨q, hq, e'⟩ := h
      · exact .inl (by rw [FMap.find_set, if_neg (Ne.symm e)]; exact before)
      · obtain rfl | hq := List.mem_cons.1 hq
        · exact absurd e' e
        · exact .inr ⟨q, hq, e'⟩

end Got

/-- What a lane of a part may get: the bytes of memory, or of a sector held before of a page with home 0. -/
def Loadable (s : State) (old : FMap (List Byte)) (n : Nat) (p : Part) (o : LaneOp) (v : Nat) : Prop :=
  ∃ bs : List Byte, bs.length ≤ n ∧ bytesToNat bs = v
    ∧ (bs = s.readPhys o.pa n ∨ p.x.home = 0 ∧ ∃ b, old.find (o.pa / 16) = some b ∧ bs = (b.drop (o.pa % 16)).take n)

/-- A load of some parts under way in a state, with what the lanes of those done have got. -/
structure Loading (s : State) (old : FMap (List Byte)) (parts : List Part) (n : Nat) (done : List Part) (t : State) (g : Got) : Prop where
  read : RecordRead s t
  l1 : ∀ k b, (t.core (s.coreOf s.cur.warp)).l1.find k = some b → old.find k = some b ∨ b = s.readPhys (16 * k) 16
  faults : g.faults = []
  sound : ∀ l v, g.vals.find l = some v → ∀ p ∈ parts, ∀ o ∈ p.ops, o.lane = l → Loadable s old n p o v
  given : ∀ p ∈ done, ∀ o ∈ p.ops, (g.vals.find o.lane).isSome = true

/-- What a part that this module serves at once needs of its place: its bytes can be read, and those of a page with home 0 lie in one
sector of HBM each. -/
structure Readable (s : State) (n : Nat) (p : Part) : Prop where
  served : servedHere s p
  sound : ∀ o ∈ p.ops, s.readBad o.pa n = false
  sector : p.x.home = 0 → ∀ o ∈ p.ops, o.pa % 16 + n ≤ 16 ∧ o.pa < hbmEnd

section
variable {s t : State} {old : FMap (List Byte)} {parts done : List Part} {n : Nat} {g : Got} {p : Part}

/-- A lane reads a value that it may get (R64). -/
theorem readLane_loadable (read : RecordRead s t) (here : Readable s n p)
    (l1 : ∀ k b, (t.core (s.coreOf s.cur.warp)).l1.find k = some b → old.find k = some b ∨ b = s.readPhys (16 * k) 16)
    {o : LaneOp} (ho : o ∈ p.ops) :
    ∃ v, t.readLane (s.coreOf s.cur.warp) p.x.home n o = some v ∧ Loadable s old n p o v := by
  have memory : ∃ v, (if t.readBad o.pa n then none else some (bytesToNat (t.readPhys o.pa n))) = some v ∧ Loadable s old n p o v := by
    refine ⟨_, if_neg (by rw [read.readBad, here.sound o ho]; exact Bool.false_ne_true), _, ?_, rfl, .inl (read.readPhys ..)⟩
    exact (Memory.read_length ..).le
  unfold State.readLane
  by_cases home : p.x.home = 0
  · rw [if_pos home]
    obtain ⟨inside, low⟩ := here.sector home o ho
    cases held : t.l1Sector (s.coreOf s.cur.warp) o.pa with
    | none => exact memory
    | some b =>
      refine ⟨_, rfl, _, List.length_take_le .., rfl, ?_⟩
      obtain before | rfl := l1 _ _ held
      · exact .inr ⟨home, b, before, rfl⟩
      · refine .inl ?_
        have sector : 16 * (o.pa / 16) ≤ o.pa := Nat.mul_div_le ..
        unfold State.readPhys
        rw [State.ownAddr_of_le (sector.trans low.le), State.ownAddr_of_le low.le, Memory.read_slice _ _ inside, Nat.div_add_mod]
  · rw [if_neg home]
    exact memory

/-- A part's lanes answered with values that they may get. -/
theorem Loading.answer {u : State} {f : LaneOp → Nat} (h : Loading s old parts n done t g)
    (unique : ∀ q ∈ parts, ∀ o ∈ p.ops, ∀ o' ∈ q.ops, o.lane = o'.lane → p = q ∧ o = o') (read : RecordRead t u)
    (l1 : ∀ k b, (u.core (s.coreOf s.cur.warp)).l1.find k = some b → old.find k = some b ∨ b = s.readPhys (16 * k) 16)
    (good : ∀ o ∈ p.ops, Loadable s old n p o (f o)) : Loading s old parts n (done ++ [p]) u (g.answered p.ops f) where
  read := h.read.trans read
  l1 := l1
  faults := (g.answered_faults ..).trans h.faults
  sound l v hv q hq o ho lane := by
    obtain ⟨o', ho', rfl, rfl⟩ | before := Got.answered_find hv
    · obtain ⟨rfl, rfl⟩ := unique q hq o' ho' o ho lane.symm
      exact good _ ho'
    · exact h.sound l v before q hq o ho lane
  given q hq o ho := by
    obtain hq | hq := List.mem_append.1 hq
    · exact Got.answered_isSome (.inl (h.given q hq o ho))
    · obtain rfl := List.mem_singleton.1 hq
      exact Got.answered_isSome (.inr ⟨o, ho, rfl⟩)

/-- One part of a load (R64). -/
theorem Loading.part (h : Loading s old parts n done t g) (at_once : s.silent.get slicePort = false) (here : Readable s n p)
    (unique : ∀ q ∈ parts, ∀ o ∈ p.ops, ∀ o' ∈ q.ops, o.lane = o'.lane → p = q ∧ o = o') (rs : List Nat) :
    ∃ (u : State) (g' : Got), t.loadPart n p g rs = (u, g', rs) ∧ Loading s old parts n (done ++ [p]) u g' := by
  have core : t.coreOf t.cur.warp = s.coreOf s.cur.warp := by rw [h.read.coreOf, h.read.cur]
  let answer (u : State) (o : LaneOp) : Nat := (u.readLane (s.coreOf s.cur.warp) p.x.home n o).getD 0
  unfold State.loadPart
  split
  next hits =>
    have home : p.x.home = 0 := by
      simp only [State.hitsL1, Bool.and_eq_true, beq_iff_eq] at hits
      exact hits.1.1.1.1
    refine ⟨t, g.answered p.ops (answer t), ?_, h.answer unique (.refl t) h.l1 fun o ho => ?_⟩
    · unfold State.loadHit
      rw [core]
      unfold Got.answered answer
      rw [home]
    · obtain ⟨v, value, loadable⟩ := readLane_loadable h.read here h.l1 ho
      show Loadable s old n p o ((t.readLane _ _ n o).getD 0)
      rwa [value]
  next =>
    have silent : t.silent.get slicePort = false := by rw [h.read.frame]; exact at_once
    have served : servedHere t p := here.served.congr (by rw [h.read.frame])
    rw [here.served.1, silent, if_neg Bool.false_ne_true, if_neg Bool.false_ne_true]
    let filled := if p.x.home = 0 then t.fillL1 (s.coreOf s.cur.warp) p.x.pa p.size else t
    let u := filled.countServed p.x.pa
    have fill : RecordRead t filled := by
      show RecordRead t (if _ then _ else _)
      split
      · exact .fillL1 ..
      · exact .refl t
    have read : RecordRead t u := fill.trans (.countServed ..)
    have l1 : ∀ k b, (u.core (s.coreOf s.cur.warp)).l1.find k = some b → old.find k = some b ∨ b = s.readPhys (16 * k) 16 := by
      intro k b hb
      have cores : u.core = filled.core := by
        have frame := filled.countServed_frame p.x.pa
        show (filled.countServed p.x.pa).core = _
        rw [frame]
        rfl
      rw [cores] at hb
      change ((if p.x.home = 0 then t.fillL1 (s.coreOf s.cur.warp) p.x.pa p.size else t).core _).l1.find k = some b at hb
      split at hb
      · obtain before | fresh := State.fillL1_find hb
        · exact h.l1 k b before
        · exact .inr (fresh.trans (h.read.readPhys ..))
      · exact h.l1 k b hb
    have lane : ∀ o ∈ p.ops, ∃ v, u.readLane (s.coreOf s.cur.warp) p.x.home n o = some v ∧ Loadable s old n p o v :=
      fun o ho => readLane_loadable (h.read.trans read) here l1 ho
    refine ⟨u, g.answered p.ops (answer u), ?_, h.answer unique read l1 fun o ho => ?_⟩
    · have run : t.loadLocal n g p = (u, g.answered p.ops (answer u)) := by
        unfold State.loadLocal
        dsimp only
        rw [show t.touch p.x p.size = t from served.touchPart, served.lineFault, core]
        refine Prod.ext ?_ ?_
        · have failed : p.ops.filter (fun o => (u.readLane (s.coreOf s.cur.warp) p.x.home n o).isNone) = [] :=
            List.filter_eq_nil_iff.2 fun o ho => by
              obtain ⟨v, value, -⟩ := lane o ho
              rw [value]
              exact Bool.false_ne_true
          show u.logReads _ n (p.ops.filter fun o => (u.readLane (s.coreOf s.cur.warp) p.x.home n o).isNone) = u
          rw [failed]
          rfl
        · refine List.foldl_ext _ _ _ fun g' o ho => ?_
          obtain ⟨v, value, -⟩ := lane o ho
          show (match u.readLane (s.coreOf s.cur.warp) p.x.home n o with
            | some v => ({ g' with vals := g'.vals.set o.lane v } : Got)
            | none => _) = { g' with vals := g'.vals.set o.lane ((u.readLane (s.coreOf s.cur.warp) p.x.home n o).getD 0) }
          rw [value]
          rfl
      rw [run]
    · obtain ⟨v, value, loadable⟩ := lane o ho
      show Loadable s old n p o ((u.readLane _ _ n o).getD 0)
      rwa [value]

/-- The parts of a load, one after another. -/
theorem Loading.run (at_once : s.silent.get slicePort = false) (here : ∀ p ∈ parts, Readable s n p)
    (unique : ∀ p ∈ parts, ∀ q ∈ parts, ∀ o ∈ p.ops, ∀ o' ∈ q.ops, o.lane = o'.lane → p = q ∧ o = o') (rs : List Nat) (todo : List Part) :
    ∀ {t : State} {done : List Part} {g : Got}, (∀ p ∈ todo, p ∈ parts) → Loading s old parts n done t g →
      ∃ (u : State) (g' : Got), t.loadParts n todo g rs = (u, g', rs) ∧ Loading s old parts n (done ++ todo) u g' := by
  induction todo with
  | nil => exact fun {t _ g} _ h => ⟨t, g, rfl, by rwa [List.append_nil]⟩
  | cons p todo ih =>
    intro t done g sub h
    have mem := sub p (.head _)
    obtain ⟨u, g', first, next⟩ := h.part at_once (here p mem) (unique p mem) rs
    obtain ⟨w, g'', rest, final⟩ := ih (fun q hq => sub q (.tail _ hq)) next
    refine ⟨w, g'', ?_, by simpa using final⟩
    rw [State.loadParts, first]
    exact rest

end

/-- Where a request of this module's pages lies (R61, R66). -/
theorem RequestOf.readable {s : State} {acc : Access} {n g : Nat} {ops : List LaneOp} {p : Part} (h : RequestOf s acc n ops g p)
    (hn : n = 1 ∨ n = 2 ∨ n = 4 ∨ n = 8 ∨ n = 16) (ha : ∀ q ∈ ops, q.va % n = 0) (served : servedHere s p)
    (sound : ∀ o ∈ p.ops, s.readBad o.pa n = false) : Readable s n p := by
  refine ⟨served, sound, fun home o ho => ?_⟩
  have dvd : n ∣ 128 := by obtain rfl | rfl | rfl | rfl | rfl := hn <;> decide
  obtain ⟨e, bits, leaf⟩ := State.xlateWarp_leaf h.xlate
  have low : p.x.pa < hbmEnd := State.leafXlat_hbm leaf home served.1
  obtain ⟨aligned, above, below, place⟩ := h.inside dvd ha ho
  have va := h.va_aligned
  have pa := h.pa_aligned
  have size := h.size_cases
  unfold hbmEnd at low ⊢
  generalize p.size = m at va pa size below
  have lines : p.va % 16 = 0 ∧ p.x.pa % 16 = 0 ∧ p.x.pa + m ≤ 0x60_0000_0000 := by
    obtain rfl | rfl | rfl | rfl := size <;> omega
  rw [place]
  obtain rfl | rfl | rfl | rfl | rfl := hn <;> omega

end Sys2Proof.Machine

namespace Sys2Proof

open Sys2Proof.Machine

theorem globalLoad : Part.GlobalLoad := by
  intro s w ord sc d a b i off parts hi hc n ops hv hr at_once served l1 acquires
  let v := s.spendWalk
  let on := ordersBeyond (ord == .acq) sc 3 (parts.map (·.x.order))
  have on_iff : on = true ↔ acquires := ordersBeyond_iff (by simp) sc 3 parts
  let v1 := v.acquire on
  have read : RecordRead s v1 := (RecordRead.spendWalk s).trans (.acquire v on)
  let old : FMap (List Byte) := if on = true then [] else l1
  have start : Loading s old parts n [] v1 ⟨[], []⟩ := by
    refine ⟨read, fun k b hb => .inl ?_, rfl, fun _ _ hx => (nomatch hx), fun _ hp => (nomatch hp)⟩
    change ((if on = true then v.emptyL1 (s.coreOf s.cur.warp) else v).core (s.coreOf s.cur.warp)).l1.find k = some b at hb
    show FMap.find (if on = true then [] else l1) k = some b
    split at hb
    next acq =>
      rw [v.emptyL1_core, if_pos rfl] at hb
      cases hb
    next plain => rwa [if_neg plain]
  have place : ∀ p ∈ parts, Readable s n p := fun p hp => by
    obtain ⟨g, request⟩ := State.reach_ok hr p hp
    exact request.readable (Width.bytes_cases w) (fun o ho => (hv o ho).1) (served p hp).1 (served p hp).2
  have unique : ∀ p ∈ parts, ∀ q ∈ parts, ∀ o ∈ p.ops, ∀ o' ∈ q.ops, o.lane = o'.lane → p = q ∧ o = o' := fun p hp q hq o ho o' ho' => by
    obtain ⟨g, request⟩ := State.reach_ok hr p hp
    obtain ⟨k, request'⟩ := State.reach_ok hr q hq
    exact request.unique laneOps_inj request' ho ho'
  obtain ⟨u, got, loads, done⟩ := Loading.run at_once place unique [] parts (fun _ h => h) start
  let m : MemWait := { atomic := false, width := w, bytes := n, ext := none, d := d, reqs := [], got := got.vals, faults := got.faults,
                       some_ := false, acq := on }
  have run : exec i s = .next ((u.writeRes m.words d fun l => m.value (m.got.get l)).advance i.len) := by
    refine (exec_globalLoad hi).trans (runOp_ok hc ?_)
    rw [State.loadG]
    refine (State.globalAccess_ok (ops := ops) hv hr _).trans ?_
    show Except.ok (State.afterLocal (v1.loadParts n parts ⟨[], []⟩ []).1 i.len
      { m with reqs := (v1.loadParts n parts ⟨[], []⟩ []).2.2, got := (v1.loadParts n parts ⟨[], []⟩ []).2.1.vals,
               faults := (v1.loadParts n parts ⟨[], []⟩ []).2.1.faults }) = _
    rw [loads]
    exact congrArg Except.ok (State.afterLocal_done (m := m) rfl done.faults i.len)
  obtain ⟨kept, advanced, regs⟩ := done.read.sameIssue.result m.words d (fun l => m.value (m.got.get l)) i.len
  refine ⟨_, _, run, fun p hp o ho => ?_, regs, advanced, kept.1, kept.2, ?_⟩
  · obtain ⟨x, hx⟩ := Option.isSome_iff_exists.1 (done.given p hp o ho)
    obtain ⟨bs, length, rfl, bytes⟩ := done.sound _ _ hx p hp o ho rfl
    have value : m.value (m.got.get o.lane) = loaded w (bytesToNat bs) := by
      have given : m.got.get o.lane = bytesToNat bs := by show (got.vals.find o.lane).getD default = _; rw [hx]; rfl
      exact (congrArg m.value given).trans (Width.extend_eq_loaded w length)
    show m.value (m.got.get o.lane) = _ ∨ _ ∧ _ ∧ ∃ b, _ ∧ m.value (m.got.get o.lane) = _
    rw [value]
    obtain rfl | ⟨home, b, held, rfl⟩ := bytes
    · exact .inl rfl
    · change FMap.find (if on = true then [] else l1) (o.pa / 16) = some b at held
      split at held
      · cases held
      next plain => exact .inr ⟨fun acq => plain (on_iff.2 acq), home, b, held, rfl⟩
  · have only := (LaneResult.of_writeRes u m.words d (fun l => m.value (m.got.get l)) i.len).only
    rw [only.rest, done.read.frame]

end Sys2Proof

/-! ### Accesses that become requests (R72, R97, R271, R439) -/

namespace Sys2Proof.Machine

open Sys2Proof

/-- A request of a part, as the statement describes it. -/
structure RequestFor (s : State) (kind : ReqKind) (n : Nat) (p : Part) (r : Req) : Prop where
  kind : r.kind = kind
  warp : r.warp = s.cur.warp
  ctx : r.ctx = s.ctxOf s.cur.warp
  pa : r.pa = p.x.pa
  size : r.size = p.size
  bytes : r.bytes = n
  ops : r.ops = p.ops
  way : if isRemote p.x.pa then limited s (s.ctxOf s.cur.warp) r else r.port = 16 ∧ r.tag = some 0 ∧ r.discarded = false

/-- Parts that became requests, numbered from the next number on: of the rest of the state only L1 lines differ. -/
structure Sent (s t : State) (kind : ReqKind) (n : Nat) (ps : List Part) : Prop where
  frame : t = { s with reqs := t.reqs, nextReq := s.nextReq + ps.length, cores := t.cores }
  found : ∀ k p, ps[k]? = some p → ∃ r, t.reqs.find (s.nextReq + k) = some r ∧ RequestFor s kind n p r
  before : ∀ k, k < s.nextReq → t.reqs.find k = s.reqs.find k

section
variable {s t u : State} {kind : ReqKind} {n : Nat} {p : Part} {ps : List Part} {r : Req}

/-- A request depends on the issue, the time and the context. -/
theorem RequestFor.congr (h : RequestFor t kind n p r) (cur : t.cur = s.cur) (crews : t.crews = s.crews) (ctxs : t.ctxs = s.ctxs)
    (cycle : t.cycle = s.cycle) : RequestFor s kind n p r := by
  have ctx : t.ctxOf t.cur.warp = s.ctxOf s.cur.warp := by
    unfold State.ctxOf State.crewOf State.crew
    rw [cur, crews]
  obtain ⟨kind, warp, own, pa, size, bytes, ops, way⟩ := h
  refine ⟨kind, by rw [warp, cur], by rw [own, ctx], pa, size, bytes, ops, ?_⟩
  unfold limited State.ctx at way ⊢
  rwa [ctx, ctxs, cycle] at way

namespace Sent

theorem nil (s : State) : Sent s s kind n [] := ⟨rfl, fun _ _ h => by simp at h, fun _ _ => rfl⟩

/-- One request, numbered next. -/
theorem one (h : RequestFor s kind n p r) : Sent s { s with reqs := s.reqs.set s.nextReq r, nextReq := s.nextReq + 1 } kind n [p] where
  frame := rfl
  found k q hq := by
    obtain ⟨rfl, rfl⟩ : k = 0 ∧ p = q := by
      cases k with
      | zero => exact ⟨rfl, Option.some.inj hq⟩
      | succ k => simp at hq
    exact ⟨r, FMap.find_set_self .., h⟩
  before k hk := FMap.find_set_ne _ _ hk.ne

theorem cons (h : Sent s t kind n [p]) (k : Sent t u kind n ps) : Sent s u kind n (p :: ps) := by
  have next : t.nextReq = s.nextReq + 1 := by rw [h.frame]; rfl
  refine ⟨?_, fun j q hq => ?_, fun j hj => ?_⟩
  · rw [k.frame, h.frame]
    simp only [List.length_cons, List.length_nil, Nat.add_assoc, Nat.add_comm 1]
  · cases j with
    | zero =>
      obtain ⟨r, found, request⟩ := h.found 0 p rfl
      obtain rfl : p = q := Option.some.inj hq
      exact ⟨r, (k.before _ (by omega)).trans found, request⟩
    | succ j =>
      obtain ⟨r, found, request⟩ := k.found j q hq
      rw [next, Nat.add_assoc, Nat.add_comm 1] at found
      exact ⟨r, found, request.congr (by rw [h.frame]) (by rw [h.frame]) (by rw [h.frame]) (by rw [h.frame])⟩
  · rw [k.before j (by omega), h.before j hj]

/-- L1 lines dropped first. -/
theorem afterCores (h : Sent t u kind n ps) (cores : t = { s with cores := t.cores }) : Sent s u kind n ps := by
  refine ⟨by rw [h.frame, cores], fun k p hp => ?_, fun k hk => ?_⟩
  · obtain ⟨r, found, request⟩ := h.found k p hp
    refine ⟨r, by rw [← found, cores], request.congr (by rw [cores]) (by rw [cores]) (by rw [cores]) (by rw [cores])⟩
  · rw [h.before k (by rw [cores]; exact hk), cores]

/-- A request put on a port (R98, R439). -/
theorem send (remote : isRemote p.x.pa = true) (port : Nat) : Sent s (s.send (s.reqOf kind p n port)) kind n [p] := by
  refine one ⟨rfl, rfl, rfl, rfl, rfl, rfl, rfl, ?_⟩
  rw [if_pos remote]
  refine ⟨rfl, ?_⟩
  generalize (if (s.ports.get (s.reqOf kind p n port).port).state = 2 then s.freeTag (s.reqOf kind p n port).port else none) = tag
  show (false || (tag.isSome && decide (s.cycle + (s.ctx (s.ctxOf s.cur.warp)).fabrictimeout.toNat * 800 ≤ s.cycle + 10 * 800))) = true ↔ _
  have limit : s.cycle + (s.ctx (s.ctxOf s.cur.warp)).fabrictimeout.toNat * 800 ≤ s.cycle + 10 * 800
      ↔ (s.ctx (s.ctxOf s.cur.warp)).fabrictimeout.toNat ≤ 10 := by omega
  rw [Bool.false_or, Bool.and_eq_true, Option.isSome_iff_ne_none, decide_eq_true_iff, limit]
  rfl

/-- A request to the module's own slices that answer late. -/
theorem askHere (here : isRemote p.x.pa = false) :
    let r : Req := { s.reqOf kind p n slicePort with tag := some 0, deadline := s.cycle + 2 ^ 80 }
    Sent s { s with reqs := s.reqs.set s.nextReq r, nextReq := s.nextReq + 1 } kind n [p] :=
  one ⟨rfl, rfl, rfl, rfl, rfl, rfl, rfl, by rw [here]; exact ⟨rfl, rfl, rfl⟩⟩

end Sent

/-! ### Loads -/

/-- A part that its page's home away from the module is asked for, by a port that carries it. -/
structure Leaves (s : State) (p : Part) : Prop where
  remote : isRemote p.x.pa = true
  plain : p.x.mig = false
  carried : s.carrier p.x.pa ≠ none

theorem Leaves.congr (h : Leaves s p) (ports : t.ports = s.ports) : Leaves t p :=
  ⟨h.remote, h.plain, by rw [State.carrier_congr ports]; exact h.carried⟩

theorem Leaves.touchPart (h : Leaves s p) : s.touchPart p = s := if_neg (ne_true_of_eq_false h.plain)

theorem Leaves.lineFault (h : Leaves s p) : s.lineFault p.x p.size = none := if_neg (ne_true_of_eq_false h.plain)

/-- A part of a load that becomes a request: no L1 line answers it. -/
structure AskedFor (s : State) (p : Part) : Prop where
  home : Leaves s p ∨ s.silent.get slicePort = true ∧ servedHere s p
  missed : p.x.home ≠ 0 ∨ ∃ o ∈ p.ops, s.l1Sector (s.coreOf s.cur.warp) o.pa = none

theorem AskedFor.hitsL1 (h : AskedFor s p) : s.hitsL1 p = false := by
  by_contra hit
  rw [Bool.not_eq_false] at hit
  simp only [State.hitsL1, Bool.and_eq_true, beq_iff_eq, List.all_eq_true] at hit
  obtain ⟨⟨⟨⟨home, -⟩, -⟩, -⟩, held⟩ := hit
  obtain away | ⟨o, ho, missing⟩ := h.missed
  · exact away home
  · have := held o ho
    rw [missing] at this
    cases this

/-- A request sent leaves the L1 and what decides the way of the others. -/
theorem AskedFor.sent {q : Part} (h : AskedFor s q) (sent : Sent s t kind n ps) (cores : t.cores = s.cores) : AskedFor t q where
  home := by
    obtain leaves | ⟨late, served⟩ := h.home
    · exact .inl (leaves.congr (by rw [sent.frame]))
    · exact .inr ⟨by rw [sent.frame]; exact late, served.congr (by rw [sent.frame])⟩
  missed := by
    obtain away | ⟨o, ho, missing⟩ := h.missed
    · exact .inl away
    · refine .inr ⟨o, ho, ?_⟩
      have core : t.coreOf t.cur.warp = s.coreOf s.cur.warp := by rw [sent.frame]; rfl
      rw [core]
      unfold State.l1Sector State.core at missing ⊢
      rwa [cores]

/-- A part of a load asked for. -/
theorem AskedFor.loadPart (h : AskedFor s p) (g : Got) (rs : List Nat) :
    ∃ t : State, s.loadPart n p g rs = (t, g, rs ++ [s.nextReq]) ∧ Sent s t .load n [p] ∧ t.cores = s.cores := by
  unfold State.loadPart
  rw [h.hitsL1, if_neg Bool.false_ne_true]
  obtain leaves | ⟨late, served⟩ := h.home
  · obtain ⟨port, carried⟩ := Option.ne_none_iff_exists'.1 leaves.carried
    rw [if_pos leaves.remote, leaves.touchPart, State.askRemote, leaves.lineFault, carried]
    exact ⟨_, rfl, .send leaves.remote port, rfl⟩
  · rw [served.1, if_neg Bool.false_ne_true, if_pos late, served.touchPart, State.askHere, served.lineFault]
    exact ⟨_, rfl, .askHere served.1, rfl⟩

theorem loadParts_sent {parts : List Part} {s : State} (h : ∀ p ∈ parts, AskedFor s p) (g : Got) (rs : List Nat) :
    ∃ t : State, s.loadParts n parts g rs = (t, g, rs ++ (List.range parts.length).map (s.nextReq + ·)) ∧ Sent s t .load n parts := by
  induction parts generalizing s rs with
  | nil => exact ⟨s, by simp [State.loadParts], .nil s⟩
  | cons p parts ih =>
    obtain ⟨t, first, sent, cores⟩ := (h p (.head _)).loadPart (n := n) g rs
    obtain ⟨u, rest, sent'⟩ := ih (fun q hq => (h q (.tail _ hq)).sent sent cores) (rs ++ [s.nextReq])
    refine ⟨u, ?_, sent.cons sent'⟩
    have next : t.nextReq = s.nextReq + 1 := by rw [sent.frame]; rfl
    rw [State.loadParts, first]
    refine rest.trans ?_
    rw [next, List.length_cons, List.range_succ_eq_map, List.append_assoc]
    simp [Nat.add_assoc, Nat.add_comm 1, Function.comp_def]

/-! ### Stores -/

theorem State.dropL1_frame (s : State) (core pa n : Nat) : s.dropL1 core pa n = { s with cores := (s.dropL1 core pa n).cores } := by
  unfold State.dropL1
  dsimp only
  split <;> rfl

/-- A part of a store sent. -/
theorem Leaves.storePart (h : Leaves s p) (all : List LaneOp) : Sent s (s.storePart n all p) .store n [p] := by
  have touched : s.storeTouch n all p = s :=
    (if_neg fun e => ne_true_of_eq_false h.plain e.1).trans h.touchPart
  have frame := s.dropL1_frame (s.coreOf s.cur.warp) p.x.pa p.size
  have leaves := h.congr (t := s.dropL1 (s.coreOf s.cur.warp) p.x.pa p.size) (by rw [frame])
  obtain ⟨port, carried⟩ := Option.ne_none_iff_exists'.1 leaves.carried
  unfold State.storePart
  dsimp only
  rw [touched, if_pos h.remote, State.sendStore]
  rw [leaves.lineFault, carried]
  exact (Sent.send h.remote port).afterCores frame

theorem storeParts_sent {parts : List Part} {s : State} (h : ∀ p ∈ parts, Leaves s p) (all : List LaneOp) :
    Sent s (parts.foldl (fun s p => s.storePart n all p) s) .store n parts := by
  induction parts generalizing s with
  | nil => exact .nil s
  | cons p parts ih =>
    have first := (h p (.head _)).storePart (n := n) all
    exact first.cons (ih fun q hq => (h q (.tail _ hq)).congr (by rw [first.frame]))

end

end Sys2Proof.Machine

namespace Sys2Proof

open Sys2Proof.Machine

/-- The issue stands as before where requests were sent. -/
theorem SameIssue.sent {s v u : State} {kind : ReqKind} {n : Nat} {ps : List Machine.Part} (h : SameIssue s v) (k : Sent v u kind n ps) :
    SameIssue s u := by
  have frame := k.frame
  exact ⟨by rw [frame]; exact h.cur, by rw [frame]; exact h.curWarp, fun w hw => by rw [frame]; exact h.other w hw, by rw [frame]; exact h.mem⟩

/-- Requests sent while the issue stands as before, as the statement describes them: in a state that then differs in its issuing warp. -/
theorem sent_requests {s v u t : State} {kind : ReqKind} {n : Nat} {parts : List Machine.Part} (read : RecordRead s v)
    (k : Sent v u kind n parts) (only : WarpOnly u t) : t.nextReq = s.nextReq + parts.length
      ∧ (∀ k p, parts[k]? = some p → ∃ r, t.reqs.find (s.nextReq + k) = some r ∧ r.kind = kind ∧ r.warp = s.cur.warp
          ∧ r.ctx = s.ctxOf s.cur.warp ∧ r.pa = p.x.pa ∧ r.size = p.size ∧ r.bytes = n ∧ r.ops = p.ops
          ∧ if isRemote p.x.pa then limited s (s.ctxOf s.cur.warp) r else r.port = 16 ∧ r.tag = some 0 ∧ r.discarded = false)
      ∧ (∀ w, w ≠ s.cur.warp → t.warp w = s.warp w) ∧ ∀ x, t.mem.get x = s.mem.get x := by
  have same := read.sameIssue.sent k
  have next : v.nextReq = s.nextReq := by rw [read.frame]
  refine ⟨by rw [only.rest]; show u.nextReq = _; rw [k.frame, next], fun j p hp => ?_, fun w hw => ?_, fun x => ?_⟩
  · obtain ⟨r, found, request⟩ := k.found j p hp
    obtain ⟨hkind, warp, ctx, pa, size, bytes, ops, way⟩ := request.congr (s := s) read.cur (by rw [read.frame]) (by rw [read.frame])
      (by rw [read.frame])
    exact ⟨r, by rw [only.rest, ← next]; exact found, hkind, warp, ctx, pa, size, bytes, ops, way⟩
  · rw [only.other w (by rwa [same.cur]), same.other w hw]
  · rw [only.memory, same.mem]

section
variable {s : State} {w : Width} {ord : Order} {sc : Scope} {d a b : Operand} {i : Instr} {off : Option Operand} {parts : List Machine.Part}

/-- A global load that becomes requests waits for them. -/
theorem globalLoad_asked (hi : (i, off) ∈ loadForms false w ord sc d a b) (hc : clear i s = true)
    (hv : ∀ o ∈ s.laneOps false a off (fun _ => 0) fun _ => 0, o.va % w.bytes = 0 ∧ o.va < 2 ^ 53)
    (hr : s.reach .read w.bytes (s.laneOps false a off (fun _ => 0) fun _ => 0) = .ok parts) (hne : parts ≠ [])
    (asked : ∀ p ∈ parts, AskedFor s p) :
    ∃ (v u : State) (m : MemWait), RecordRead s v ∧ Sent v u .load w.bytes parts ∧ exec i s = .next (u.block i.len (.mem m))
      ∧ m.reqs = (List.range parts.length).map (s.nextReq + ·) ∧ m.d = d ∧ m.width = w ∧ m.bytes = w.bytes ∧ m.atomic = false
      ∧ m.ext = none ∧ m.got = [] ∧ m.faults = [] := by
  let on := ordersBeyond (ord == .acq) sc 3 (parts.map (·.x.order))
  let v := s.spendWalk.acquire on
  have read : RecordRead s v := (RecordRead.spendWalk s).trans (.acquire _ on)
  have missing : ∀ c pa, s.l1Sector c pa = none → v.l1Sector c pa = none := fun c pa gone => by
    show ((s.spendWalk.acquire on).core c).l1.find (pa / 16) = _
    unfold State.acquire
    split
    · rw [State.emptyL1_core]
      dsimp only
      split
      · rfl
      · exact gone
    · exact gone
  have asked' : ∀ p ∈ parts, AskedFor v p := fun p hp => by
    obtain ⟨home, missed⟩ := asked p hp
    refine ⟨home.imp (fun leaves => leaves.congr (by rw [read.frame])) fun ⟨late, served⟩ => ⟨by rw [read.frame]; exact late,
      served.congr (by rw [read.frame])⟩, missed.imp_right fun ⟨o, ho, gone⟩ => ⟨o, ho, ?_⟩⟩
    rw [read.coreOf, read.cur]
    exact missing _ _ gone
  obtain ⟨u, sent, requests⟩ := loadParts_sent (n := w.bytes) asked' ⟨[], []⟩ []
  let m : MemWait := { atomic := false, width := w, bytes := w.bytes, ext := none, d := d,
                       reqs := (List.range parts.length).map (s.nextReq + ·), got := [], faults := [], some_ := false, acq := on }
  refine ⟨v, u, m, read, requests, (exec_globalLoad hi).trans (runOp_ok hc ?_), rfl, rfl, rfl, rfl, rfl, rfl, rfl, rfl⟩
  rw [State.loadG]
  refine (State.globalAccess_ok hv hr _).trans ?_
  show Except.ok (State.afterLocal (v.loadParts w.bytes parts ⟨[], []⟩ []).1 i.len
    { m with reqs := (v.loadParts w.bytes parts ⟨[], []⟩ []).2.2, got := (v.loadParts w.bytes parts ⟨[], []⟩ []).2.1.vals,
             faults := (v.loadParts w.bytes parts ⟨[], []⟩ []).2.1.faults }) = _
  have next : v.nextReq = s.nextReq := by rw [read.frame]
  rw [sent, next]
  have waits : ((List.range parts.length).map (s.nextReq + ·)).isEmpty = false := by
    rw [List.isEmpty_map, List.isEmpty_eq_false_iff]
    simpa using hne
  exact congrArg Except.ok (if_neg (ne_true_of_eq_false waits))

/-- A global store that leaves the module goes on at once. -/
theorem globalStore_sent (hi : (i, off) ∈ storeForms false w ord sc d a b) (hc : clear i s = true)
    (hv : ∀ o ∈ s.laneOps false a off (s.storeData w.bytes d) fun _ => 0, o.va % w.bytes = 0 ∧ o.va < 2 ^ 53)
    (hr : s.reach .write w.bytes (s.laneOps false a off (s.storeData w.bytes d) fun _ => 0) = .ok parts) (leave : ∀ p ∈ parts, Leaves s p)
    (free : ordersFar (ord = .rel) sc 5 parts → s.outstanding s.cur.warp = 0 ∧ s.curWarp.remoteErr = none)
    (room : s.outstanding s.cur.warp + parts.length ≤ 256) :
    ∃ u : State, Sent s.spendWalk u .store w.bytes parts ∧ exec i s = .next (u.advance i.len) := by
  have requests := storeParts_sent (n := w.bytes) (s := s.spendWalk) (fun p hp => (leave p hp).congr rfl)
    (s.laneOps false a off (s.storeData w.bytes d) fun _ => 0)
  refine ⟨_, requests, (exec_globalStore hi).trans (runOp_ok hc ?_)⟩
  have all : parts.filter (fun p => isRemote p.x.pa) = parts := List.filter_eq_self.2 fun p hp => (leave p hp).remote
  rw [State.storeG]
  refine (State.globalAccess_ok hv hr _).trans ?_
  rw [release_ready (RecordRead.spendWalk s).sameIssue rfl (by simp) free, all]
  exact if_neg fun full => absurd full.2 (not_lt.2 room)

end

theorem remoteAccess : Part.RemoteAccess := by
  intro s w ord sc d a b off parts n data leaves sent
  refine ⟨fun i hi hc ⟨hv, hr, hne, way⟩ missed => ?_, fun i hi hc ⟨hv, hr, hne, way⟩ free room => ?_⟩
  · obtain ⟨v, u, m, read, requests, run, reqs, fields⟩ := globalLoad_asked hi hc hv hr hne fun p hp =>
      ⟨(way p hp).imp (fun ⟨remote, plain, carried⟩ => ⟨remote, plain, carried⟩) And.right, missed p hp⟩
    have same := read.sameIssue.sent requests
    obtain ⟨only, warp⟩ := State.block_spec u i.len (.mem m)
    obtain ⟨hd, hw, hn, atomic, ext, got, faults⟩ := fields
    refine ⟨_, m, run, sent_requests read requests only, ?_, reqs, hd, hw, hn, atomic, ext, got, faults, fun k l => ?_, fun k => ?_⟩
    · rw [warp, same.cur, same.curWarp]
    · rw [warp, same.curWarp]
      rfl
    · rw [warp, same.curWarp]
      rfl
  · obtain ⟨u, requests, run⟩ := globalStore_sent hi hc hv hr (fun p hp => by
      obtain ⟨remote, plain, carried⟩ | ⟨reads, -⟩ := way p hp
      · exact ⟨remote, plain, carried⟩
      · cases reads) free room
    have same := (RecordRead.spendWalk s).sameIssue.sent requests
    have warp : (u.advance i.len).curWarp = u.curWarp.advance u.cur.lanes i.len := State.curWarp_upCur ..
    refine ⟨_, run, sent_requests (RecordRead.spendWalk s) requests (WarpOnly.upCur ..), same.advanced (Advanced.advance u i.len),
      fun k l => ?_, fun k => ?_⟩
    · rw [warp, same.curWarp]
      rfl
    · rw [warp, same.curWarp]
      rfl

/-- Settles O19: a load of this module's pages is `Loading.run`, a store `stores_storeParts`; the parts of an access that leaves become
requests (`loadParts_sent`, `storeParts_sent`). -/
theorem globalAccess : Obligations.GlobalAccess := ⟨globalLoad, globalStore, remoteAccess⟩

end Sys2Proof

/-! ## O21: prefetches and fences

Prefetches and wide fences change nothing but their core's L1, and move the executing lanes on. -/

namespace Sys2Proof.Machine

open Sys2Proof

/-! ### States that differ in what their cores hold -/

/-- Nothing but the cores' own state changed. -/
def CoresOnly (s t : State) : Prop := t = { s with cores := t.cores }

namespace CoresOnly

theorem refl (s : State) : CoresOnly s s := rfl

theorem of_cores {s : State} {c : FMap Core} : CoresOnly s { s with cores := c } := rfl

theorem trans {s t u : State} (h : CoresOnly s t) (k : CoresOnly t u) : CoresOnly s u := by
  rw [CoresOnly, k, h]

/-- A step taken for each of a list's members. -/
theorem foldl {α : Type} {f : State → α → State} (h : ∀ s a, CoresOnly s (f s a)) (as : List α) (s : State) :
    CoresOnly s (as.foldl f s) := by
  induction as generalizing s with
  | nil => exact refl s
  | cons a as ih => exact (h s a).trans (ih (f s a))

theorem acquire (s : State) (on : Bool) : CoresOnly s (s.acquire on) := s.acquire_frame on

/-- A hint fills L1, or is dropped (R272). -/
theorem prefetch (s : State) (w : Nat) (o : LaneOp) : CoresOnly s (s.prefetch w o) := by
  rw [State.prefetch]
  dsimp only
  split
  case isTrue => exact refl s
  case isFalse =>
    split
    next =>
      split
      next =>
        split
        case isTrue => exact refl s
        case isFalse =>
          split
          case isTrue => exact refl s
          case isFalse => exact of_cores
      next => exact refl s
    next => exact refl s

end CoresOnly

end Sys2Proof.Machine

namespace Sys2Proof

open Sys2Proof.Machine

/-- Where nothing but the cores changed, moving the executing lanes on changes their pcs and nothing else. -/
theorem Machine.CoresOnly.advance {s u : State} (h : CoresOnly s u) (n : Nat) :
    let t := u.advance n
    Advanced s t n ∧ t.curWarp = { s.curWarp with lanes := t.curWarp.lanes } ∧ (∀ v, v ≠ s.cur.warp → t.warp v = s.warp v)
      ∧ t.cores = u.cores ∧ t = { s with warps := t.warps, cores := t.cores } := by
  intro t
  have only : WarpOnly u t := WarpOnly.upCur u _
  have issue : SameIssue s u := ⟨by rw [h], by rw [h]; rfl, fun _ _ => by rw [h]; rfl, by rw [h]⟩
  have own : t.curWarp = u.curWarp.advance u.cur.lanes n := State.curWarp_upCur ..
  refine ⟨issue.advanced (Advanced.advance u n), ?_, fun v hv => ?_, by rw [only.rest], ?_⟩
  · rw [own, h]
    rfl
  · rw [only.other v (by rwa [issue.cur]), issue.other v hv]
  · rw [only.rest, h]

theorem exec_prf (w : Width) (a : Operand) (s : State) : exec (.prf w a) s
    = plainOp (.prf w a) s fun s => (s.laneOps false a none (fun _ => 0) fun _ => 0).foldl (fun s o => s.prefetch w.bytes o) s := rfl

theorem exec_fence (sc : Scope) (s : State) : exec (.fence sc) s
    = runOp (.fence sc) s fun s => s.release (3 ≤ sc.code) 1 fun s => .ok ((s.acquire (3 ≤ sc.code)).advance 1) := rfl

/-- A fence that finds nothing to wait for makes L1 current at a wide scope and goes on (R276). -/
theorem exec_fence_free {s : State} {sc : Scope} (hc : clear (.fence sc) s = true)
    (h : 3 ≤ sc.code → s.outstanding s.cur.warp = 0 ∧ s.curWarp.remoteErr = none) :
    exec (.fence sc) s = .next ((s.acquire (3 ≤ sc.code)).advance 1) :=
  (exec_fence sc s).trans (runOp_ok hc (State.release_free (fun on => h (of_decide_eq_true on)) _ _))

/-- A fence waits while remote stores are outstanding (R97, R276). -/
theorem exec_fence_waits {s : State} {sc : Scope} (hc : clear (.fence sc) s = true) (hw : 3 ≤ sc.code)
    (ho : s.outstanding s.cur.warp ≠ 0) : exec (.fence sc) s = .next (s.block 1 .fence) := by
  refine (exec_fence sc s).trans (runOp_ok hc ?_)
  rw [State.release, if_pos (decide_eq_true hw), if_pos ho]

/-- Settles O21: both end in `CoresOnly.advance`, the fence at a narrow scope with no change of the cores, or wait. -/
theorem prefetchAndFence : Obligations.PrefetchAndFence := by
  unfold Obligations.PrefetchAndFence
  intro s w a sc
  refine ⟨fun hc => ?_, fun hc narrow => ?_, fun hc wide none clean => ?_, fun hc wide some => ?_⟩
  · have cores := CoresOnly.foldl (fun s o => CoresOnly.prefetch s w.bytes o) (s.laneOps false a none (fun _ => 0) fun _ => 0) s
    obtain ⟨advanced, own, other, -, frame⟩ := cores.advance (Instr.prf w a).len
    exact ⟨_, (exec_prf w a s).trans (plainOp_clear hc _), advanced, own, other, fun x => by rw [frame], frame⟩
  · have run := exec_fence_free hc fun wide => absurd wide (by omega)
    have off : s.acquire (3 ≤ sc.code) = s := if_neg (by simpa using narrow)
    rw [off] at run
    obtain ⟨advanced, own, -⟩ := (CoresOnly.refl s).advance 1
    exact ⟨_, run, WarpOnly.upCur s _, advanced, own⟩
  · obtain ⟨advanced, own, other, cores, frame⟩ := (CoresOnly.acquire s (3 ≤ sc.code)).advance 1
    refine ⟨_, exec_fence_free hc fun _ => ⟨none, clean⟩, advanced, ?_, own, other, frame⟩
    have empty : s.acquire (3 ≤ sc.code) = s.emptyL1 (s.coreOf s.cur.warp) := if_pos (decide_eq_true wide)
    rw [State.core, cores, empty]
    exact (congrArg Core.l1 (s.emptyL1_core _ _)).trans (if_pos rfl)
  · exact ⟨_, exec_fence_waits hc wide some, State.block_spec s 1 .fence⟩

end Sys2Proof

/-! ## O22: atomics

Lanes performed in order leave the memory of `atomsInOrder`, and no granule or word with an error that had none (`SoundStores`,
`SoundWords`); a part that leaves the module becomes a request (`Leaves.atomPart`). -/

namespace Sys2Proof.Machine

open Sys2Proof

/-! ### Stores that leave no new error (R424) -/

/-- A retrained channel's granules: its mark stands, and those written stay written. -/
structure WrittenKept (c d : FMap Chan) : Prop where
  stale : ∀ k, (d.get k).stale = (c.get k).stale
  written : ∀ k g, g ∈ (c.get k).written → g ∈ (d.get k).written

namespace WrittenKept
variable {c d e : FMap Chan}

theorem refl (c : FMap Chan) : WrittenKept c c := ⟨fun _ => rfl, fun _ _ h => h⟩

theorem trans (h : WrittenKept c d) (k : WrittenKept d e) : WrittenKept c e :=
  ⟨fun i => (k.stale i).trans (h.stale i), fun i g hg => k.written i g (h.written i g hg)⟩

theorem rewritten (c : FMap Chan) (g : Nat) : WrittenKept c (rewritten c g) := by
  unfold Machine.rewritten
  dsimp only
  split
  · refine ⟨fun k => ?_, fun k j hj => ?_⟩
    · rw [FMap.get_set]
      split
      case isTrue e => rw [e]
      case isFalse => rfl
    · rw [FMap.get_set]
      split
      case isTrue e => exact List.mem_cons_of_mem _ (e ▸ hj)
      case isFalse => exact hj
  · exact refl c

theorem foldl (gs : List Nat) (c : FMap Chan) : WrittenKept c (gs.foldl Machine.rewritten c) := by
  induction gs generalizing c with
  | nil => exact refl c
  | cons g gs ih => exact (rewritten c g).trans (ih _)

end WrittenKept

/-- Strings stored, after which every range that could be read can be read. -/
structure SoundStores (s t : State) : Prop where
  stores : ∃ ws, Stores s t ws
  sound : ∀ a n, s.readBad a n = false → t.readBad a n = false

namespace SoundStores
variable {s t u : State}

theorem refl (s : State) : SoundStores s s := ⟨⟨[], .refl s⟩, fun _ _ h => h⟩

theorem trans (h : SoundStores s t) (k : SoundStores t u) : SoundStores s u := by
  obtain ⟨⟨ws, hs⟩, sound⟩ := h
  obtain ⟨⟨vs, ks⟩, sound'⟩ := k
  exact ⟨⟨_, hs.trans ks⟩, fun a n h => sound' a n (sound a n h)⟩

theorem frame (h : SoundStores s t) : t = { s with
    mem := t.mem, poison := t.poison, dirty := t.dirty, weak := t.weak, chans := t.chans, cores := t.cores, sliceCount := t.sliceCount } :=
  h.stores.elim fun _ stores => stores.frame

theorem ownAddr (h : SoundStores s t) (a : Nat) : t.ownAddr a = s.ownAddr a := h.stores.elim fun _ stores => stores.ownAddr a

theorem chanFailed (h : SoundStores s t) (a : Nat) : t.chanFailed a = s.chanFailed a := h.stores.elim fun _ stores => stores.chanFailed a

/-- Where only L1 lines and counters of slices changed. -/
theorem of_cores (h : t = { s with cores := t.cores, sliceCount := t.sliceCount }) : SoundStores s t :=
  ⟨⟨[], by rw [h], by rw [h]; rfl, fun _ => by rw [h]⟩, fun a n good => by rw [h]; exact good⟩

theorem store (s : State) (a : Nat) (bs : List Byte) : SoundStores s (s.store a bs) := by
  refine ⟨⟨_, .store s a bs⟩, fun b n good => ?_⟩
  have chans : WrittenKept s.chans (s.store a bs).chans := by
    unfold State.store
    dsimp only
    split
    · exact .refl _
    · exact .foldl _ _
  have granule : ∀ g, s.badGranule g = false → (s.store a bs).badGranule g = false := by
    intro g hg
    unfold State.badGranule at hg ⊢
    rw [Bool.or_eq_false_iff, Option.isSome_eq_false_iff, Option.isNone_iff_eq_none] at hg ⊢
    refine ⟨?_, ?_⟩
    · by_contra struck
      obtain ⟨x, hx⟩ := Option.ne_none_iff_exists'.1 struck
      have before := FMap.find_of_filter s.poison (fun k => !(a ≤ 32 * k && 32 * k + 32 ≤ a + bs.length)) g x hx
      rw [hg.1] at before
      cases before
    · rw [chans.stale]
      by_cases written : g ∈ (s.chans.get (chanOf (32 * g))).written
      · simp [chans.written _ g written]
      · have fresh := hg.2
        simp only [List.contains_eq_mem, written, decide_false, Bool.not_false, Bool.and_true] at fresh
        rw [fresh, Bool.false_and]
  unfold State.readBad at good ⊢
  rw [(Stores.store s a bs).ownAddr]
  rw [Bool.and_eq_false_iff] at good ⊢
  refine good.imp_right fun lost => ?_
  rw [List.any_eq_false] at lost ⊢
  intro g hg
  have := lost g hg
  unfold State.lostGranule at this ⊢
  rw [Bool.not_eq_true, Bool.or_eq_false_iff] at this ⊢
  exact ⟨granule g this.1, by rw [(Stores.store s a bs).chanFailed]; exact this.2⟩

/-- A store in a working channel. -/
theorem storePhys {a : Nat} (working : s.chanFailed (s.ownAddr a) = false) (ctx va : Nat) (bs : List Byte) :
    SoundStores s (s.storePhys ctx a va bs) ∧ (s.storePhys ctx a va bs).mem = s.mem.write (s.ownAddr a) bs := by
  have eq : s.storePhys ctx a va bs = s.store (s.ownAddr a) bs := if_neg (ne_true_of_eq_false working)
  rw [eq]
  exact ⟨store .., rfl⟩

end SoundStores

/-! ### Lanes in order (R99, R100, R274) -/

/-- One atomic of `atomsInOrder`. -/
def atomStep (op : AtomOp) (ty : AtomTy) (acc : Memory × FMap Nat) (o : LaneOp) : Memory × FMap Nat :=
  let old := acc.1.readNat o.pa ty.bytes
  (if op = .cas ∧ old ≠ o.c then acc.1 else acc.1.write o.pa (natToBytes ty.bytes (atomResult op ty old o.b o.c)), acc.2.set o.lane old)

theorem atomsInOrder_eq (op : AtomOp) (ty : AtomTy) (m : Memory) (ops : List LaneOp) :
    atomsInOrder op ty m ops = ops.foldl (atomStep op ty) (m, []) := rfl

/-- An access at its address in this module's own memory. -/
def State.ownOp (s : State) (o : LaneOp) : LaneOp := { o with pa := s.ownAddr o.pa }

theorem State.ownOp_of_low {o : LaneOp} (low : o.pa < 0x4_0000_0000_0000) (s : State) : s.ownOp o = o := by
  rw [State.ownOp, ownAddr_of_low low]

/-- The operation writes unless it is a cas that does not match. -/
theorem atomWrites_iff (op : AtomOp) (old c : Nat) : atomWrites op old c = true ↔ ¬ (op = .cas ∧ old ≠ c) := by
  rw [atomWrites, Bool.or_eq_true, bne_iff_ne, beq_iff_eq]
  tauto

section
variable {s t : State} {op : AtomOp} {ty : AtomTy}

/-- A lane's atomic on sound memory of this module is one of `atomsInOrder`. -/
theorem State.atomLane_own (hok : op.tyOk ty = true) {o : LaneOp} (good : s.readBad o.pa ty.bytes = false)
    (working : s.chanFailed (s.ownAddr o.pa) = false) (ctx : Nat) (vals : FMap Nat) :
    let r := atomStep op ty (s.mem, vals) (s.ownOp o)
    ∃ t v, s.atomLane op ty ty.bytes ctx o = (t, some v) ∧ SoundStores s t ∧ t.mem = r.1 ∧ vals.set o.lane v = r.2 := by
  intro r
  let old := s.mem.readNat (s.ownAddr o.pa) ty.bytes
  have run : s.atomLane op ty ty.bytes ctx o = (if atomWrites op old o.c then
      s.storePhys ctx o.pa o.va (natToBytes ty.bytes (atomResult op ty old o.b o.c)) else s, some old) := by
    rw [State.atomLane, good, ← atomNew_eq_atomResult hok]
    rfl
  by_cases writes : atomWrites op old o.c = true
  · obtain ⟨stores, mem⟩ := SoundStores.storePhys working ctx o.va (natToBytes ty.bytes (atomResult op ty old o.b o.c))
    exact ⟨_, old, run.trans (by rw [if_pos writes]), stores, mem.trans (if_neg ((atomWrites_iff ..).1 writes)).symm, rfl⟩
  · have keeps := not_not.1 (mt (atomWrites_iff op old o.c).2 writes)
    exact ⟨s, old, run.trans (by rw [if_neg writes]), .refl s, (if_pos keeps).symm, rfl⟩

/-- What one lane's atomic adds to what the lanes before it left. -/
def atomAnswer (op : AtomOp) (ty : AtomTy) (w ctx : Nat) (acc : State × Got) (o : LaneOp) : State × Got :=
  match acc.1.atomLane op ty w ctx o with
  | (s, some v) => (s, { acc.2 with vals := acc.2.vals.set o.lane v })
  | (s, none) => (s, { acc.2 with faults := acc.2.faults ++ [⟨causeMemoryUncorrectable, o.va, laneBit o.lane, 0⟩] })

/-- Without a lane that meets an error, no read is logged. -/
theorem State.atomLanes_eq {ops : List LaneOp} {w : Nat} (good : ∀ o ∈ ops, s.readBad o.pa w = false) (ctx : Nat) (g : Got) :
    s.atomLanes op ty w ctx g ops = ops.foldl (atomAnswer op ty w ctx) (s, g) := by
  have none : ops.filter (fun o => s.readBad o.pa w) = [] :=
    List.filter_eq_nil_iff.2 fun o ho => ne_true_of_eq_false (good o ho)
  have reads : atomReads op [] = [] := by
    unfold atomReads
    split <;> rfl
  unfold State.atomLanes
  rw [none, reads]
  rfl

/-- Lanes' atomics on sound memory of this module are `atomsInOrder`, each lane's old value added to those before. -/
theorem State.atomLanes_own (hok : op.tyOk ty = true) {ops : List LaneOp}
    (h : ∀ o ∈ ops, s.readBad o.pa ty.bytes = false ∧ s.chanFailed (s.ownAddr o.pa) = false) (ctx : Nat) (g : Got) :
    let r := (ops.map s.ownOp).foldl (atomStep op ty) (s.mem, g.vals)
    ∃ t, s.atomLanes op ty ty.bytes ctx g ops = (t, { g with vals := r.2 }) ∧ SoundStores s t ∧ t.mem = r.1 := by
  intro r
  rw [State.atomLanes_eq fun o ho => (h o ho).1]
  have fold : ∀ (os : List LaneOp) (t : State) (g : Got), (∀ o ∈ os, o ∈ ops) → SoundStores s t →
      ∃ u, os.foldl (atomAnswer op ty ty.bytes ctx) (t, g)
          = (u, { g with vals := ((os.map s.ownOp).foldl (atomStep op ty) (t.mem, g.vals)).2 }) ∧ SoundStores s u
        ∧ u.mem = ((os.map s.ownOp).foldl (atomStep op ty) (t.mem, g.vals)).1 := by
    intro os
    induction os with
    | nil => exact fun t g _ ht => ⟨t, rfl, ht, rfl⟩
    | cons o os ih =>
      intro t g sub ht
      obtain ⟨good, working⟩ := h o (sub o (.head _))
      obtain ⟨u, v, first, stores, mem, value⟩ := State.atomLane_own hok (ht.sound _ _ good)
        (by rw [ht.ownAddr, ht.chanFailed, working]) ctx g.vals
      have own : t.ownOp o = s.ownOp o := by rw [State.ownOp, State.ownOp, ht.ownAddr]
      rw [own] at mem value
      obtain ⟨x, rest, stores', mem'⟩ := ih u { g with vals := g.vals.set o.lane v } (fun q hq => sub q (.tail _ hq)) (ht.trans stores)
      have answer : atomAnswer op ty ty.bytes ctx (t, g) o = (u, { g with vals := g.vals.set o.lane v }) := by
        unfold atomAnswer
        rw [first]
      have next : (u.mem, g.vals.set o.lane v) = atomStep op ty (t.mem, g.vals) (s.ownOp o) := Prod.ext mem value
      rw [next] at rest mem'
      exact ⟨x, by rw [List.foldl_cons, answer]; exact rest, stores', mem'⟩
  exact fold ops s g (fun _ h => h) (.refl s)

/-! ### Parts that the module serves at once -/

/-- What a part of an atomic that this module performs needs: its lines are there, its lanes' bytes are sound and the module's own. -/
structure AtomReady (s : State) (n : Nat) (p : Part) : Prop where
  served : servedHere s p
  sound : ∀ o ∈ p.ops, s.readBad o.pa n = false ∧ o.pa < 0x4_0000_0000_0000

theorem AtomReady.kept {n : Nat} {p : Part} (h : AtomReady s n p) (k : SoundStores s t) : AtomReady t n p :=
  ⟨h.served.congr (by rw [k.frame]), fun o ho => ⟨k.sound _ _ (h.sound o ho).1, (h.sound o ho).2⟩⟩

theorem State.atomPart_here (hok : op.tyOk ty = true) (at_once : s.silent.get slicePort = false) {p : Part} (h : AtomReady s ty.bytes p)
    (ret : Bool) (g : Got) (rs : List Nat) :
    let r := p.ops.foldl (atomStep op ty) (s.mem, g.vals)
    ∃ t, s.atomPart op ty ty.bytes ret p g rs = (t, { g with vals := r.2 }, rs) ∧ SoundStores s t ∧ t.mem = r.1 := by
  intro r
  let s1 := s.dropL1 (s.coreOf s.cur.warp) p.x.pa p.size
  let s2 := s1.countServed p.x.pa
  have dropped : s1 = { s with cores := s1.cores } := s.dropL1_frame ..
  have counted : s2 = { s1 with sliceCount := s2.sliceCount } := s1.countServed_frame _
  have ready : SoundStores s s1 := .of_cores (by rw [dropped])
  have served := ready.trans (SoundStores.of_cores (by rw [counted]) : SoundStores s1 s2)
  have lanes : ∀ o ∈ p.ops, s2.readBad o.pa ty.bytes = false ∧ s2.chanFailed (s2.ownAddr o.pa) = false := fun o ho => by
    obtain ⟨good, low⟩ := (h.kept served).sound o ho
    have own := ownAddr_of_low low s2
    exact ⟨good, by rw [own]; exact State.chanFailed_of_readable (AtomTy.bytes_pos hok) own good⟩
  obtain ⟨t, run, stores, mem⟩ := State.atomLanes_own hok lanes (s1.ctxOf s1.cur.warp) g
  have own : p.ops.map s2.ownOp = p.ops :=
    (List.map_congr_left fun o ho => State.ownOp_of_low (h.sound o ho).2 s2).trans (List.map_id' _)
  have sameMem : s2.mem = s.mem := by rw [counted, dropped]
  rw [own, sameMem] at run mem
  have here := (h.kept ready).served
  have silent : s1.silent.get slicePort = false := by rw [dropped]; exact at_once
  refine ⟨t, ?_, served.trans stores, mem⟩
  unfold State.atomPart
  dsimp only
  rw [here.touchPart, h.served.1, if_neg Bool.false_ne_true, silent, Bool.and_false, if_neg Bool.false_ne_true]
  unfold State.atomLocal
  rw [here.lineFault]
  dsimp only
  have ctx : (s1.countServed p.x.pa).ctxOf (s1.countServed p.x.pa).cur.warp = s1.ctxOf s1.cur.warp := by
    show s2.ctxOf s2.cur.warp = _
    rw [counted]
    rfl
  rw [run]

theorem State.atomParts_here (hok : op.tyOk ty = true) (ret : Bool) {parts : List Part} {s : State} (at_once : s.silent.get slicePort = false)
    (h : ∀ p ∈ parts, AtomReady s ty.bytes p) (g : Got) (rs : List Nat) :
    let r := (parts.flatMap (·.ops)).foldl (atomStep op ty) (s.mem, g.vals)
    ∃ t, s.atomParts op ty ty.bytes ret parts g rs = (t, { g with vals := r.2 }, rs) ∧ SoundStores s t ∧ t.mem = r.1 := by
  induction parts generalizing s g with
  | nil => exact ⟨s, rfl, .refl s, rfl⟩
  | cons p parts ih =>
    obtain ⟨t, first, stores, mem⟩ := State.atomPart_here hok at_once (h p (.head _)) ret g rs
    let vals := (p.ops.foldl (atomStep op ty) (s.mem, g.vals)).2
    obtain ⟨u, rest, stores', mem'⟩ := ih (s := t) (by rw [stores.frame]; exact at_once)
      (fun q hq => (h q (.tail _ hq)).kept stores) { g with vals := vals }
    have next : (t.mem, vals) = p.ops.foldl (atomStep op ty) (s.mem, g.vals) := Prod.ext mem rfl
    dsimp only at rest mem' ⊢
    rw [next, ← List.foldl_append] at rest mem'
    refine ⟨u, ?_, stores.trans stores', mem'⟩
    rw [State.atomParts, first]
    exact rest

/-! ### Atomics on the scratchpad (R92, R423) -/

/-- Scratchpad bytes stored, after which every word that could be read can be read. -/
structure SoundWords (s t : State) : Prop where
  frame : t = { s with mem := t.mem, badWords := t.badWords }
  sound : ∀ a n, s.badWord a n = false → t.badWord a n = false

theorem SoundWords.refl (s : State) : SoundWords s s := ⟨rfl, fun _ _ h => h⟩

theorem SoundWords.trans {u : State} (h : SoundWords s t) (k : SoundWords t u) : SoundWords s u :=
  ⟨by rw [k.frame, h.frame], fun a n good => k.sound a n (h.sound a n good)⟩

theorem SoundWords.storeX (s : State) (a : Nat) (bs : List Byte) : SoundWords s (s.storeX a bs) := by
  refine ⟨rfl, fun b n good => ?_⟩
  unfold State.badWord at good ⊢
  rw [Bool.and_eq_false_iff] at good ⊢
  refine good.imp_right fun sound => ?_
  rw [List.any_eq_false] at sound ⊢
  intro k hk bad
  refine sound k hk ?_
  unfold FMap.get at bad ⊢
  cases held : (s.storeX a bs).badWords.find (b / 8 + k) with
  | none =>
    rw [held] at bad
    cases bad
  | some x =>
    rw [held] at bad
    rw [FMap.find_of_filter s.badWords (fun j => !(a ≤ 8 * j && 8 * j + 8 ≤ a + bs.length)) _ x held]
    exact bad

/-- A lane's atomic on sound words is one of `atomsInOrder`. -/
theorem State.atomLaneX_sound (hok : op.tyOk ty = true) {o : LaneOp} (good : s.badWord o.pa ty.bytes = false) (g : Got) :
    let r := atomStep op ty (s.mem, g.vals) o
    ∃ t, s.atomLaneX op ty ty.bytes g o = (t, { g with vals := r.2 }) ∧ SoundWords s t ∧ t.mem = r.1 := by
  intro r
  let old := s.mem.readNat o.pa ty.bytes
  have run : s.atomLaneX op ty ty.bytes g o = (if atomWrites op old o.c then
      s.storeX o.pa (natToBytes ty.bytes (atomResult op ty old o.b o.c)) else s, { g with vals := g.vals.set o.lane old }) := by
    rw [State.atomLaneX, good, ← atomNew_eq_atomResult hok]
    rfl
  by_cases writes : atomWrites op old o.c = true
  · exact ⟨_, run.trans (Prod.ext (if_pos writes) rfl), .storeX .., (if_neg ((atomWrites_iff ..).1 writes)).symm⟩
  · have keeps := not_not.1 (mt (atomWrites_iff op old o.c).2 writes)
    exact ⟨s, run.trans (Prod.ext (if_neg writes) rfl), .refl s, (if_pos keeps).symm⟩

theorem State.atomLanesX_sound (hok : op.tyOk ty = true) {ops : List LaneOp} {s : State}
    (h : ∀ o ∈ ops, s.badWord o.pa ty.bytes = false) (g : Got) :
    let r := ops.foldl (atomStep op ty) (s.mem, g.vals)
    ∃ t, ops.foldl (fun (acc : State × Got) o => acc.1.atomLaneX op ty ty.bytes acc.2 o) (s, g) = (t, { g with vals := r.2 })
      ∧ SoundWords s t ∧ t.mem = r.1 := by
  induction ops generalizing s g with
  | nil => exact ⟨s, rfl, .refl s, rfl⟩
  | cons o ops ih =>
    obtain ⟨t, first, stores, mem⟩ := State.atomLaneX_sound hok (h o (.head _)) g
    let vals := (atomStep op ty (s.mem, g.vals) o).2
    obtain ⟨u, rest, stores', mem'⟩ := ih (s := t) (fun q hq => stores.sound _ _ (h q (.tail _ hq))) { g with vals := vals }
    have next : (t.mem, vals) = atomStep op ty (s.mem, g.vals) o := Prod.ext mem rfl
    dsimp only at rest mem' ⊢
    rw [next] at rest mem'
    refine ⟨u, ?_, stores.trans stores', mem'⟩
    rw [List.foldl_cons, first]
    exact rest

end

/-! ### The end of an atomic -/

/-- An atomic's value is extended as stated (R123). -/
theorem MemWait.value_atomic (ty : AtomTy) (m : MemWait) (ha : m.atomic = true) (he : m.ext = atomExt ty) (x : Nat) :
    m.value x = atomValue ty x := by
  unfold MemWait.value
  rw [he, ha]
  cases ty <;> rfl

/-- An atomic without requests or faults gives its lanes their old values, and goes on. -/
theorem State.atomDone_here (s : State) (len : Nat) (ty : AtomTy) (d : Operand) (vals : FMap Nat) (acq : Bool) :
    s.atomDone len ty d ⟨vals, []⟩ [] acq = if d = .z then s.advance len
      else (s.writeRes (if ty.bytes = 16 then 4 else if ty.bytes = 8 then 2 else 1) d fun l => atomValue ty (vals.get l)).advance len := by
  unfold State.atomDone
  by_cases hd : d = .z
  · rw [if_pos ⟨hd, .inr rfl⟩, if_pos hd]
  · rw [if_neg fun h => hd h.1, if_neg hd, if_neg hd, State.afterLocal_done rfl rfl]
    exact congrArg (fun f => (s.writeRes _ d f).advance len) (funext fun l => MemWait.value_atomic ty _ rfl rfl _)

end Sys2Proof.Machine

namespace Sys2Proof

open Sys2Proof.Machine

/-- What an atomic performed at once leaves: the old values in its destination, its lanes moved on. -/
theorem atomDone_result {s u : State} (cur : u.cur = s.cur) (own : u.curWarp = { s.curWarp with walkFaults := u.curWarp.walkFaults })
    (other : ∀ w, w ≠ s.cur.warp → u.warp w = s.warp w) (len : Nat) (ty : AtomTy) (d : Operand) (vals : FMap Nat) (acq : Bool) :
    let t := u.atomDone len ty d ⟨vals, []⟩ [] acq
    t.mem = u.mem
      ∧ (d ≠ .z → RegsWritten s t.curWarp (if ty.bytes = 16 then 4 else if ty.bytes = 8 then 2 else 1) d fun l => atomValue ty (vals.get l))
      ∧ (d = .z → (∀ m l, t.curWarp.v m l = s.curWarp.v m l) ∧ ∀ m, t.curWarp.s m = s.curWarp.s m)
      ∧ Advanced s t len ∧ ∀ v, v ≠ s.cur.warp → t.warp v = s.warp v := by
  have same : SameIssue { s with mem := u.mem } u := ⟨cur, own, other, rfl⟩
  rw [State.atomDone_here]
  by_cases hd : d = .z
  · rw [if_pos hd]
    have final : (u.advance len).curWarp = u.curWarp.advance u.cur.lanes len := State.curWarp_upCur ..
    refine ⟨rfl, fun h => absurd hd h, fun _ => ⟨fun m l => ?_, fun m => ?_⟩, same.advanced (Advanced.advance u len), fun v hv => ?_⟩
    · rw [final, own]
      rfl
    · rw [final, own]
      rfl
    · exact ((WarpOnly.upCur u _).other v (by rwa [cur])).trans (other v hv)
  · rw [if_neg hd]
    obtain ⟨⟨kept, -⟩, advanced, regs⟩ := same.result (if ty.bytes = 16 then 4 else if ty.bytes = 8 then 2 else 1) d
      (fun l => atomValue ty (vals.get l)) len
    exact ⟨rfl, fun _ => ⟨regs.vec, regs.sca, regs.bad⟩, fun h => absurd h hd, advanced, kept⟩

section
variable {s : State} {op : AtomOp} {ty : AtomTy} {ord : Order} {sc : Scope} {d a b c : Operand}

theorem orderRel_iff (ord : Order) : orderRel ord = true ↔ ord = .rel ∨ ord = .acqrel := by cases ord <;> decide

theorem orderAcq_iff (ord : Order) : orderAcq ord = true ↔ ord = .acq ∨ ord = .acqrel := by cases ord <;> decide

/-- An atomic's operands are taken as stated. -/
theorem atomData_eq (s : State) (ty : AtomTy) (o : Operand) : s.atomData ty ty.bytes o = atomDatum s ty o := by
  funext l
  cases ty <;> rfl

/-- Every atomic type has the size of a width code. -/
theorem AtomTy.width_of_bytes (ty : AtomTy) : ∃ w : Width, w.bytes = ty.bytes := by
  cases ty with
  | int t =>
    cases t with
    | i8 | n8 => exact ⟨.i8, rfl⟩
    | i16 | n16 => exact ⟨.i16, rfl⟩
    | i32 | n32 => exact ⟨.w32, rfl⟩
    | i64 | n64 => exact ⟨.w64, rfl⟩
  | flt t =>
    cases t with
    | f32 => exact ⟨.w32, rfl⟩
    | f16 | bf16 => exact ⟨.i16, rfl⟩
  | w128 => exact ⟨.w128, rfl⟩

theorem exec_atomX (s : State) : exec (.atomX op ty ord sc d a b c) s = execAtomX op ty ord sc d a b c s := rfl
theorem exec_atomG (s : State) : exec (.atomG op ty ord sc d a b c) s = execAtomG op ty ord sc d a b c s := rfl

/-- A scratchpad atomic that passes its checks is `atomsInOrder` on its lanes' words (R92, R99). -/
theorem atomX_inOrder (hok : op.tyOk ty = true) {pa : Nat → Nat} (hc : clear (.atomX op ty ord sc d a b c) s = true)
    (h : ∀ l, s.cur.lanes.getLsbD l = true → s.laneVa true a none l % ty.bytes = 0
      ∧ s.scratchPhys (crewTok s.cur.warp) (s.laneVa true a none l) ty.bytes = some (pa l) ∧ s.badWord (pa l) ty.bytes = false)
    (free : ord = .none ∨ ord = .acq ∨ sc.code < 5 ∨ s.outstanding s.cur.warp = 0 ∧ s.curWarp.remoteErr = none) :
    let ops := (lanesOf s.cur.lanes).map fun l =>
      (⟨l, s.laneVa true a none l, pa l, atomDatum s ty b l, atomDatum s ty c l, false⟩ : LaneOp)
    ∃ u : State, exec (.atomX op ty ord sc d a b c) s
        = .next (u.atomDone (Instr.atomX op ty ord sc d a b c).len ty d ⟨(atomsInOrder op ty s.mem ops).2, []⟩ [] false)
      ∧ u = { s with mem := (atomsInOrder op ty s.mem ops).1, badWords := u.badWords, cores := u.cores } := by
  intro ops
  have sound : ∀ o ∈ ops, s.badWord o.pa ty.bytes = false := fun o ho => by
    obtain ⟨l, hl, rfl⟩ := List.mem_map.1 ho
    exact (h l (mem_lanesOf.1 hl)).2.2
  obtain ⟨t, run, stores, mem⟩ := State.atomLanesX_sound hok sound ⟨[], []⟩
  let acq := orderAcq ord && decide (3 ≤ sc.code)
  have cores := t.acquire_frame acq
  refine ⟨t.acquire acq, (exec_atomX s).trans (runOp_ok hc ?_), ?_⟩
  · obtain ⟨w, width⟩ := AtomTy.width_of_bytes ty
    have lanes := fun l hl => And.intro (h l hl).1 (h l hl).2.1
    rw [← width] at lanes
    dsimp only
    rw [atomData_eq, atomData_eq]
    have access := fun f => scratchAccess_lanes (s := s) (w := w) (off := none) lanes (atomDatum s ty b) (atomDatum s ty c) f
    rw [width] at access
    rw [access, State.release_free fun on => ?_]
    · show Except.ok (State.atomDone (State.acquire (List.foldl _ (s, (⟨[], []⟩ : Got)) ops).1 acq) _ ty d
        (List.foldl _ (s, (⟨[], []⟩ : Got)) ops).2 [] false) = _
      rw [run]
      rfl
    · rw [Bool.and_eq_true, orderRel_iff, decide_eq_true_eq] at on
      obtain rfl | rfl | narrow | done := free
      · exact absurd on.1 (by decide)
      · exact absurd on.1 (by decide)
      · exact absurd on.2 (by omega)
      · exact done
  · have performed : t.mem = (atomsInOrder op ty s.mem ops).1 := mem
    rw [← performed, cores, stores.frame]

/-- An atomic whose parts this module serves at once is `atomsInOrder` on their lanes (R92, R99, R100). -/
theorem atomG_inOrder (hok : op.tyOk ty = true) {parts : List Machine.Part} (hc : clear (.atomG op ty ord sc d a b c) s = true)
    (at_once : s.silent.get slicePort = false)
    (hv : ∀ o ∈ s.laneOps false a none (atomDatum s ty b) (atomDatum s ty c), o.va % ty.bytes = 0 ∧ o.va < 2 ^ 53)
    (hr : s.reach .both ty.bytes (s.laneOps false a none (atomDatum s ty b) (atomDatum s ty c)) = .ok parts)
    (ready : ∀ p ∈ parts, AtomReady s ty.bytes p)
    (free : ordersFar (ord = .rel ∨ ord = .acqrel) sc 5 parts → s.outstanding s.cur.warp = 0 ∧ s.curWarp.remoteErr = none) :
    ∃ (t u : State) (acq : Bool), exec (.atomG op ty ord sc d a b c) s
        = .next (u.atomDone (Instr.atomG op ty ord sc d a b c).len ty d ⟨(atomsInOrder op ty s.mem (parts.flatMap (·.ops))).2, []⟩ [] acq)
      ∧ SoundStores s.spendWalk t ∧ t.mem = (atomsInOrder op ty s.mem (parts.flatMap (·.ops))).1 ∧ u = { t with cores := u.cores } := by
  let v := s.spendWalk
  obtain ⟨t, run, stores, mem⟩ := State.atomParts_here hok (d != .z) (s := v) at_once
    (fun p hp => ⟨(ready p hp).served.congr rfl, (ready p hp).sound⟩) ⟨[], []⟩ []
  let acq := ordersBeyond (orderAcq ord) sc 3 (parts.map (·.x.order))
  refine ⟨t, t.acquire acq, acq, (exec_atomG s).trans (runOp_ok hc ?_), stores, mem, t.acquire_frame acq⟩
  have here : parts.filter (fun p => isRemote p.x.pa) = [] :=
    List.filter_eq_nil_iff.2 fun p hp => ne_true_of_eq_false (ready p hp).served.1
  dsimp only
  rw [atomData_eq, atomData_eq]
  refine (State.globalAccess_ok hv hr _).trans ?_
  rw [release_ready (RecordRead.spendWalk s).sameIssue rfl (orderRel_iff ord) free, here, List.length_nil, ite_self]
  show Except.ok (State.atomDone (State.acquire (v.atomParts op ty ty.bytes (d != .z) parts ⟨[], []⟩ []).1 acq) _ ty d
    (v.atomParts op ty ty.bytes (d != .z) parts ⟨[], []⟩ []).2.1 (v.atomParts op ty ty.bytes (d != .z) parts ⟨[], []⟩ []).2.2 acq) = _
  rw [run]
  rfl

end

theorem atomicsPerformed : Part.AtomicsInLaneOrder := by
  intro s op ty ord sc d a b c hok n words datum done
  refine ⟨fun pa hc h free => ?_, fun parts hc at_once => ?_⟩
  · obtain ⟨u, run, frame⟩ := atomX_inOrder (d := d) hok hc h free
    obtain ⟨mem, rest⟩ := atomDone_result (s := s) (u := u) (by rw [frame]) (by rw [frame]; rfl) (fun _ _ => by rw [frame]; rfl) _ ty d _ false
    exact ⟨_, run, mem.trans (by rw [frame]), rest⟩
  · intro ops hv hr served free
    obtain ⟨t, u, acq, run, stores, performed, cores⟩ := atomG_inOrder (d := d) hok hc at_once hv hr
      (fun p hp => ⟨(served p hp).1, (served p hp).2⟩) free
    have same := (RecordRead.spendWalk s).sameIssue
    have frame := stores.frame
    obtain ⟨mem, rest⟩ := atomDone_result (s := s) (u := u) (by rw [cores, frame]; exact same.cur)
      (by rw [cores, frame]; exact same.curWarp) (fun w hw => by rw [cores, frame]; exact same.other w hw) _ ty d _ acq
    exact ⟨_, run, mem.trans (by rw [cores, ← performed]), rest⟩

end Sys2Proof

/-! ### Atomics that leave the module (R97, R274, R439) -/

namespace Sys2Proof.Machine

open Sys2Proof

section
variable {s t u : State} {kind : ReqKind} {n : Nat} {p : Part} {ps : List Part} {op : AtomOp} {ty : AtomTy}

/-- L1 lines dropped afterwards. -/
theorem Sent.thenCores (h : Sent s t kind n ps) (cores : CoresOnly t u) : Sent s u kind n ps := by
  have reqs : u.reqs = t.reqs := by rw [cores]
  exact ⟨by rw [cores, h.frame], fun k p hp => by rw [reqs]; exact h.found k p hp, fun k hk => by rw [reqs]; exact h.before k hk⟩

theorem Sent.nextReq (h : Sent s t kind n ps) : t.nextReq = s.nextReq + ps.length := by rw [h.frame]

/-- A part of an atomic that leaves the module becomes a request. -/
theorem Leaves.atomPart (h : Leaves s p) (ret : Bool) (g : Got) (rs : List Nat) :
    ∃ t, s.atomPart op ty n ret p g rs = (t, g, rs ++ [s.nextReq]) ∧ Sent s t (.atom op ty ret) n [p] := by
  let s1 := s.dropL1 (s.coreOf s.cur.warp) p.x.pa p.size
  let s2 := s1.dropL1 (s1.coreOf s1.cur.warp) p.x.pa p.size
  have first : CoresOnly s s1 := s.dropL1_frame ..
  have second : CoresOnly s s2 := first.trans (s1.dropL1_frame ..)
  have leaves1 : Leaves s1 p := h.congr (by rw [first])
  have leaves2 : Leaves s2 p := h.congr (by rw [second])
  have next1 : s1.nextReq = s.nextReq := by rw [first]
  have next2 : s2.nextReq = s.nextReq := by rw [second]
  obtain ⟨port1, carried1⟩ := Option.ne_none_iff_exists'.1 leaves1.carried
  obtain ⟨port2, carried2⟩ := Option.ne_none_iff_exists'.1 leaves2.carried
  unfold State.atomPart
  dsimp only
  rw [leaves1.touchPart, if_pos h.remote]
  cases ret with
  | true =>
    refine ⟨s1.send (s1.reqOf (.atom op ty true) p n port1), ?_, (Sent.send h.remote port1).afterCores first⟩
    rw [if_pos rfl, State.askRemote, leaves1.lineFault, carried1, ← next1]
  | false =>
    refine ⟨s2.send (s2.reqOf (.atom op ty false) p n port2), ?_, (Sent.send h.remote port2).afterCores second⟩
    have sent : s1.sendStore (.atom op ty false) n p rs = (s2.send (s2.reqOf (.atom op ty false) p n port2), rs ++ [s2.nextReq]) := by
      rw [State.sendStore]
      rw [show (s1.dropL1 (s1.coreOf s1.cur.warp) p.x.pa p.size).lineFault p.x p.size = none from leaves2.lineFault,
        show (s1.dropL1 (s1.coreOf s1.cur.warp) p.x.pa p.size).carrier p.x.pa = some port2 from carried2]
    rw [if_neg Bool.false_ne_true, sent, next2]

theorem atomParts_sent {parts : List Part} {s : State} (h : ∀ p ∈ parts, Leaves s p) (ret : Bool) (g : Got) (rs : List Nat) :
    ∃ t : State, s.atomParts op ty n ret parts g rs = (t, g, rs ++ (List.range parts.length).map (s.nextReq + ·))
      ∧ Sent s t (.atom op ty ret) n parts := by
  induction parts generalizing s rs with
  | nil => exact ⟨s, by simp [State.atomParts], .nil s⟩
  | cons p parts ih =>
    obtain ⟨t, first, sent⟩ := (h p (.head _)).atomPart (n := n) (op := op) (ty := ty) ret g rs
    obtain ⟨u, rest, sent'⟩ := ih (s := t) (fun q hq => (h q (.tail _ hq)).congr (by rw [sent.frame])) (rs ++ [s.nextReq])
    refine ⟨u, ?_, sent.cons sent'⟩
    have next : t.nextReq = s.nextReq + 1 := sent.nextReq
    rw [State.atomParts, first]
    refine rest.trans ?_
    rw [next, List.length_cons, List.range_succ_eq_map, List.append_assoc]
    simp [Nat.add_assoc, Nat.add_comm 1, Function.comp_def]

/-- An atomic that gives no values, and as no acquire waits for none, goes on. -/
theorem State.atomDone_goes {d : Operand} {acq : Bool} (hd : d = .z) (ha : acq = false) (len : Nat) (g : Got) (rs : List Nat) :
    s.atomDone len ty d g rs acq = s.advance len := if_pos ⟨hd, .inl ha⟩

/-- An atomic with requests out waits for them, if it gives values or is an acquire (R93, R271). -/
theorem State.atomDone_waits {d : Operand} {acq : Bool} {rs : List Nat} (h : d ≠ .z ∨ acq = true) (hr : rs ≠ []) (len : Nat) :
    ∃ m : MemWait, s.atomDone len ty d ⟨[], []⟩ rs acq = s.block len (.mem m) ∧ m.atomic = true ∧ m.d = d ∧ m.bytes = ty.bytes
      ∧ m.reqs = rs ∧ m.got = [] ∧ m.faults = [] ∧ m.ext = atomExt ty := by
  have stays : ¬ (d = .z ∧ (acq = false ∨ rs = [])) := by
    rintro ⟨hd, plain | none⟩
    · obtain away | on := h
      · exact away hd
      · rw [plain] at on
        cases on
    · exact hr none
  refine ⟨_, (if_neg stays).trans (if_neg (by simpa using hr)), rfl, rfl, rfl, rfl, rfl, ite_self _, rfl⟩

end

end Sys2Proof.Machine

namespace Sys2Proof

open Sys2Proof.Machine

/-- An atomic whose parts leave the module sends them, and then waits or goes on (R97, R274). -/
theorem atomG_sent {s : State} {op : AtomOp} {ty : AtomTy} {ord : Order} {sc : Scope} {d a b c : Operand} {parts : List Machine.Part}
    (hc : clear (.atomG op ty ord sc d a b c) s = true)
    (hv : ∀ o ∈ s.laneOps false a none (atomDatum s ty b) (atomDatum s ty c), o.va % ty.bytes = 0 ∧ o.va < 2 ^ 53)
    (hr : s.reach .both ty.bytes (s.laneOps false a none (atomDatum s ty b) (atomDatum s ty c)) = .ok parts)
    (leave : ∀ p ∈ parts, Leaves s p)
    (free : ordersFar (ord = .rel ∨ ord = .acqrel) sc 5 parts → s.outstanding s.cur.warp = 0 ∧ s.curWarp.remoteErr = none)
    (room : d = .z → s.outstanding s.cur.warp + parts.length ≤ 256) :
    let acq := ordersBeyond (orderAcq ord) sc 3 (parts.map (·.x.order))
    ∃ u : State, Sent s.spendWalk u (.atom op ty (d != .z)) ty.bytes parts ∧ exec (.atomG op ty ord sc d a b c) s
      = .next (u.atomDone (Instr.atomG op ty ord sc d a b c).len ty d ⟨[], []⟩ ((List.range parts.length).map (s.nextReq + ·)) acq) := by
  intro acq
  let v := s.spendWalk
  obtain ⟨u, run, sent⟩ := atomParts_sent (s := v) (op := op) (ty := ty) (n := ty.bytes) (fun p hp => (leave p hp).congr rfl) (d != .z)
    ⟨[], []⟩ []
  refine ⟨u.acquire acq, sent.thenCores (.acquire ..), (exec_atomG s).trans (runOp_ok hc ?_)⟩
  have all : parts.filter (fun p => isRemote p.x.pa) = parts := List.filter_eq_self.2 fun p hp => (leave p hp).remote
  have fits : ¬ ((if (d != .z) = true then 0 else parts.length) ≠ 0
      ∧ 256 < v.outstanding v.cur.warp + if (d != .z) = true then 0 else parts.length) := by
    rintro ⟨some, full⟩
    split at some
    case isTrue => exact some rfl
    case isFalse gives =>
      rw [if_neg gives] at full
      exact absurd full (not_lt.2 (room (by simpa using gives)))
  dsimp only
  rw [atomData_eq, atomData_eq]
  refine (State.globalAccess_ok hv hr _).trans ?_
  rw [release_ready (RecordRead.spendWalk s).sameIssue rfl (orderRel_iff ord) free, all]
  refine (if_neg fits).trans ?_
  show Except.ok (State.atomDone (State.acquire (v.atomParts op ty ty.bytes (d != .z) parts ⟨[], []⟩ []).1 acq) _ ty d
    (v.atomParts op ty ty.bytes (d != .z) parts ⟨[], []⟩ []).2.1 (v.atomParts op ty ty.bytes (d != .z) parts ⟨[], []⟩ []).2.2 acq) = _
  rw [run]
  rfl

/-- Requests that leave the module, as the statement describes them: in a state that differs in its issuing warp. -/
theorem sent_requests_away {s v u t : State} {kind : ReqKind} {n : Nat} {parts : List Machine.Part} (read : RecordRead s v)
    (k : Sent v u kind n parts) (away : ∀ p ∈ parts, isRemote p.x.pa = true) (only : WarpOnly u t) : t.nextReq = s.nextReq + parts.length
      ∧ (∀ k p, parts[k]? = some p → ∃ r, t.reqs.find (s.nextReq + k) = some r ∧ r.kind = kind ∧ r.warp = s.cur.warp
          ∧ r.ctx = s.ctxOf s.cur.warp ∧ r.pa = p.x.pa ∧ r.size = p.size ∧ r.bytes = n ∧ r.ops = p.ops
          ∧ limited s (s.ctxOf s.cur.warp) r)
      ∧ (∀ w, w ≠ s.cur.warp → t.warp w = s.warp w) ∧ ∀ x, t.mem.get x = s.mem.get x := by
  obtain ⟨next, reqs, rest⟩ := sent_requests read k only
  refine ⟨next, fun j p hp => ?_, rest⟩
  obtain ⟨r, find, kind, warp, ctx, pa, size, bytes, ops, way⟩ := reqs j p hp
  rw [if_pos (away p (List.mem_of_getElem? hp))] at way
  exact ⟨r, find, kind, warp, ctx, pa, size, bytes, ops, way⟩

theorem atomicsSent : Part.AtomicsSent := by
  intro s op ty ord sc d a b c parts hok i n ops hc hv hr hne leave free room acquires ids
  obtain ⟨u, sent, run⟩ := atomG_sent (op := op) hc hv hr (fun p hp => ⟨(leave p hp).1, (leave p hp).2.1, (leave p hp).2.2⟩) free room
  let acq := ordersBeyond (orderAcq ord) sc 3 (parts.map (·.x.order))
  have acq_iff : acq = true ↔ acquires := ordersBeyond_iff (orderAcq_iff ord) sc 3 parts
  have read := RecordRead.spendWalk s
  have same := read.sameIssue.sent sent
  have away : ∀ p ∈ parts, isRemote p.x.pa = true := fun p hp => (leave p hp).1
  by_cases goes : d = .z ∧ acq = false
  · rw [State.atomDone_goes goes.1 goes.2] at run
    have final : (u.advance i.len).curWarp = u.curWarp.advance u.cur.lanes i.len := State.curWarp_upCur ..
    obtain ⟨next, reqs, others, mem⟩ := sent_requests_away read sent away (WarpOnly.upCur u _)
    refine ⟨_, run, next, reqs, fun _ _ => ⟨same.advanced (Advanced.advance u i.len), ?_⟩, ?_, fun k l => ?_, fun k => ?_, others, mem⟩
    · rw [final, same.curWarp]
      rfl
    · rintro (gives | far)
      · exact absurd goes.1 gives
      · rw [← acq_iff, goes.2] at far
        cases far
    · rw [final, same.curWarp]
      rfl
    · rw [final, same.curWarp]
      rfl
  · have stays : d ≠ .z ∨ acq = true := by
      rw [not_and_or, Bool.not_eq_false] at goes
      exact goes
    obtain ⟨m, waits, atomic, hd, bytes, reqs, got, faults, ext⟩ := State.atomDone_waits (s := u) (ty := ty) stays
      (rs := (List.range parts.length).map (s.nextReq + ·)) (by simpa using hne) i.len
    rw [waits] at run
    obtain ⟨only, warp⟩ := State.block_spec u i.len (.mem m)
    obtain ⟨next, sent', others, mem⟩ := sent_requests_away read sent away only
    refine ⟨_, run, next, sent', fun hz plain => ?_, fun _ => ⟨m, ?_, atomic, hd, bytes, reqs, got, faults, ?_⟩, fun k l => ?_, fun k => ?_,
      others, mem⟩
    · obtain gives | far := stays
      · exact absurd hz gives
      · exact absurd (acq_iff.1 far) plain
    · rw [warp, same.cur, same.curWarp]
    · rw [ext]
      cases ty <;> rfl
    · rw [warp, same.curWarp]
      rfl
    · rw [warp, same.curWarp]
      rfl

/-- Settles O22: lanes performed at once are `atomsInOrder` (`atomX_inOrder`, `atomG_inOrder`); parts that leave become requests
(`atomG_sent`). -/
theorem atomicsInLaneOrder : Obligations.AtomicsInLaneOrder := ⟨atomicsPerformed, atomicsSent⟩

end Sys2Proof

/-! ## O29: counters, queue fences, tile tags

A counter's 16 bytes read back as it was written (`parseCounter_bytes`); a queue fence is pushed on the queues it names (`Fenced`), and
opens at once only where they are all empty; a tag is a field of its crew. -/

namespace Sys2Proof.Machine

open Sys2Proof

/-! ### The fields of a record, and a counter's bytes (R304) -/

/-- A field in the middle of a record. -/
theorem fieldOf_middle (xs ys zs : List Byte) {off n : Nat} (hx : xs.length = off) (hy : ys.length = n) :
    fieldOf (xs ++ (ys ++ zs)) off n = bytesToNat ys := by
  rw [fieldOf, List.drop_left' hx, List.take_left' hy]

theorem fieldOf_lt (bs : List Byte) (off n : Nat) : fieldOf bs off n < 256 ^ n :=
  (bytesToNat_lt _).trans_le (Nat.pow_le_pow_right (by decide) (List.length_take_le ..))

/-- A counter whose fields fit their places. -/
structure Counter.Fits (c : Counter) : Prop where
  arrived : c.arrived < 2 ^ 32
  target : c.target < 2 ^ 32
  cause : c.cause < 256
  epoch : c.epoch < 2 ^ 32

theorem parseCounter_fits (bs : List Byte) : (parseCounter bs).Fits :=
  ⟨fieldOf_lt bs 0 4, fieldOf_lt bs 4 4, fieldOf_lt bs 9 1, fieldOf_lt bs 12 4⟩

theorem State.counter_fits (s : State) (tok off : Nat) : (s.counter tok off).Fits := parseCounter_fits _

/-- Bytes that arrive leave a counter whose fields fit. -/
theorem Counter.Fits.arrive {c : Counter} (h : c.Fits) (n : Nat) : (c.arrive n).Fits := by
  have wraps : ∀ x : Nat, x % 2 ^ 32 < 2 ^ 32 := fun x => Nat.mod_lt _ (by decide)
  unfold Counter.arrive
  dsimp only
  split
  · exact ⟨wraps _, h.target, h.cause, wraps _⟩
  · exact ⟨wraps _, h.target, h.cause, h.epoch⟩

@[simp] theorem Counter.bytes_length (c : Counter) : c.bytes.length = 16 := by simp [Counter.bytes]

/-- A flag's place in the status byte. -/
theorem counterFlags (a e c : Bool) :
    let x := (if a then 1 else 0) + 2 * (if e then 1 else 0) + 4 * (if c then 1 else 0)
    (x % 2 == 1) = a ∧ (x / 2 % 2 == 1) = e ∧ (x / 4 % 2 == 1) = c ∧ x < 256 := by
  revert a e c
  decide

/-- A counter is read as it was written (R304). -/
theorem parseCounter_bytes {c : Counter} (h : c.Fits) : parseCounter c.bytes = c := by
  let bit : Bool → Nat := fun b => if b then 1 else 0
  let x := bit c.armed + 2 * bit c.error + 4 * bit c.complete
  obtain ⟨armed, error, complete, low⟩ := counterFlags c.armed c.error c.complete
  have bytes : c.bytes = natToBytes 4 c.arrived ++ (natToBytes 4 c.target ++ (natToBytes 1 x ++ (natToBytes 1 c.cause
      ++ (natToBytes 2 0 ++ (natToBytes 4 c.epoch ++ []))))) := by
    simp only [Counter.bytes, List.append_assoc, List.append_nil, x, bit]
  have field : ∀ (xs zs : List Byte) (n y : Nat), y < 256 ^ n → fieldOf (xs ++ (natToBytes n y ++ zs)) xs.length n = y :=
    fun xs zs n y hy => by rw [fieldOf_middle xs _ zs rfl (natToBytes_length n y), bytesToNat_natToBytes, Nat.mod_eq_of_lt hy]
  have first : fieldOf c.bytes 0 4 = c.arrived := by rw [bytes]; exact field [] _ 4 _ h.arrived
  have second : fieldOf c.bytes 4 4 = c.target := by
    rw [bytes]
    simpa using field (natToBytes 4 c.arrived) _ 4 _ h.target
  have flags : fieldOf c.bytes 8 1 = x := by
    rw [bytes]
    simpa using field (natToBytes 4 c.arrived ++ natToBytes 4 c.target) _ 1 x low
  have cause : fieldOf c.bytes 9 1 = c.cause := by
    rw [bytes]
    simpa using field (natToBytes 4 c.arrived ++ (natToBytes 4 c.target ++ natToBytes 1 x)) _ 1 _ h.cause
  have epoch : fieldOf c.bytes 12 4 = c.epoch := by
    rw [bytes]
    simpa using field (natToBytes 4 c.arrived ++ (natToBytes 4 c.target ++ (natToBytes 1 x ++ (natToBytes 1 c.cause ++ natToBytes 2 0))))
      [] 4 _ h.epoch
  unfold parseCounter
  rw [first, second, flags, cause, epoch]
  dsimp only
  rw [show (x % 2 == 1) = c.armed from armed, show (x / 2 % 2 == 1) = c.error from error, show (x / 4 % 2 == 1) = c.complete from complete]

section
variable {s t : State} {tok off : Nat}

/-- A counter written in a resident crew's allocation is the counter read there, and only its 16 bytes change. -/
theorem State.setCrewBytes_counter (good : Good s) (here : (s.crew tok).resident = true) {c : Counter} (fits : c.Fits) :
    let t := s.setCrewBytes tok off c.bytes
    t = { s with mem := t.mem, badWords := t.badWords } ∧ t.counter tok off = c
      ∧ ∀ x, x < (s.crew tok).phys off ∨ (s.crew tok).phys off + 16 ≤ x → t.mem.get x = s.mem.get x := by
  intro t
  have stored : t = s.storeX ((s.crew tok).phys off) c.bytes := if_pos here
  have crew : t.crew tok = s.crew tok := by rw [stored]; rfl
  have mem : t.mem = s.mem.write ((s.crew tok).phys off) c.bytes := by rw [stored]; rfl
  refine ⟨by rw [stored]; rfl, ?_, fun x hx => ?_⟩
  · unfold State.counter State.crewBytes
    dsimp only
    rw [crew, if_pos here, mem, ← c.bytes_length, Memory.read_write good]
    exact parseCounter_bytes fits
  · rw [mem]
    exact Memory.get_write_ne _ _ _ (by rwa [c.bytes_length])

/-- A counter depends on its crew's place and on memory. -/
theorem State.counter_congr (crew : (t.crew tok).resident = (s.crew tok).resident ∧ (t.crew tok).image = (s.crew tok).image
      ∧ (t.crew tok).core = (s.crew tok).core ∧ (t.crew tok).base = (s.crew tok).base) (mem : t.mem = s.mem) :
    t.counter tok off = s.counter tok off := by
  obtain ⟨resident, image, core, base⟩ := crew
  unfold State.counter State.crewBytes Crew.phys
  dsimp only
  rw [resident, image, core, base, mem]

/-! ### The checks of a counter operand (R305) -/

theorem State.checkAlign_none {x n : Nat} (h : x % n = 0) : s.checkAlign x n = none := if_pos h

theorem State.checkOwn_none {n : Nat} (h : off + n ≤ (s.crewOf s.cur.warp).size) : s.checkOwn off n = none := if_pos h

/-- An aligned counter operand names its place. -/
theorem State.checkCounter_ok {p : Nat × Nat} (aligned : off % 16 = 0) (h : s.counterPlace (crewTok s.cur.warp) off = some p) :
    s.checkCounter off = .ok p := by
  rw [State.checkCounter, State.checkAlign_none aligned]
  dsimp only
  rw [h]

/-- An armed counter (R305). -/
def Counter.fresh (target epoch : Nat) : Counter := ⟨0, target, true, false, false, 0, epoch⟩

/-- arminit marks the counter as shared, if a handle of it is given. -/
def State.shareCounter (s : State) (d : Operand) (tok off : Nat) : State :=
  if d = .z then s else s.setCrew tok { s.crew tok with shared := dedup ((s.crew tok).shared ++ [off]) }

theorem State.shareCounter_frame (s : State) (d : Operand) (tok off : Nat) :
    let t := s.shareCounter d tok off
    t = { s with crews := t.crews } ∧ ∃ l, t.crew tok = { s.crew tok with shared := l } := by
  unfold State.shareCounter
  split
  · exact ⟨rfl, _, rfl⟩
  · exact ⟨rfl, _, FMap.get_set_self ..⟩

/-- The handle of a counter depends on its crew's context. -/
theorem State.handleOf_share (s : State) (d : Operand) (tok off : Nat) : (s.shareCounter d tok off).handleOf tok off = s.handleOf tok off := by
  obtain ⟨frame, l, crew⟩ := s.shareCounter_frame d tok off
  unfold State.handleOf
  rw [crew, frame]

end

end Sys2Proof.Machine

namespace Sys2Proof

open Sys2Proof.Machine

/-! ### Ends of instructions that change other state too -/

section
variable {s v : State} (cur : v.cur = s.cur) (warps : v.warps = s.warps)
include cur warps

theorem sameIssue_of_warps : SameIssue { s with mem := v.mem } v where
  cur := cur
  curWarp := by
    have own : v.curWarp = s.curWarp := by unfold State.curWarp State.warp; rw [warps, cur]
    rw [own]
    rfl
  other w _ := by unfold State.warp; rw [warps]
  mem := rfl

/-- A result written where the warps stand as before. -/
theorem result_after (nw : Nat) (d : Operand) (f : Nat → Nat) (n : Nat) :
    let t := (v.writeRes nw d f).advance n
    t = { v with warps := t.warps } ∧ (∀ w, w ≠ s.cur.warp → t.warp w = s.warp w) ∧ Advanced s t n ∧ RegsWritten s t.curWarp nw d f := by
  obtain ⟨⟨others, -⟩, advanced, regs⟩ := (sameIssue_of_warps cur warps).result nw d f n
  exact ⟨(LaneResult.of_writeRes v nw d f n).only.rest, others, advanced, ⟨regs.vec, regs.sca, regs.bad⟩⟩

/-- The executing lanes moved on where the warps stand as before. -/
theorem advance_after (n : Nat) :
    let t := v.advance n
    t = { v with warps := t.warps } ∧ (∀ w, w ≠ s.cur.warp → t.warp w = s.warp w) ∧ Advanced s t n
      ∧ t.curWarp = { s.curWarp with lanes := t.curWarp.lanes } := by
  have same := sameIssue_of_warps cur warps
  have only := WarpOnly.upCur v fun w => w.advance v.cur.lanes n
  have own : v.curWarp = s.curWarp := by unfold State.curWarp State.warp; rw [warps, cur]
  refine ⟨only.rest, fun w hw => ?_, same.advanced (Advanced.advance v n), ?_⟩
  · exact (only.other w (by rwa [cur])).trans (same.other w hw)
  · have final : (v.advance n).curWarp = v.curWarp.advance v.cur.lanes n := State.curWarp_upCur ..
    rw [final, own]
    rfl

end

/-! ### arminit, arrive, await (R305) -/

section
variable {s : State} {d a b : Operand} {tok off : Nat}

theorem exec_arminit (s : State) : exec (.arminit d a b) s = execArminit d a b s := rfl
theorem exec_arrive (s : State) : exec (.arrive a b) s = execArrive a b s := rfl
theorem exec_await (s : State) : exec (.await d a) s = execAwait d a s := rfl

theorem arminit_arms (good : Good s) (hc : clear (.arminit d a b) s = true) (here : (s.crew (crewTok s.cur.warp)).resident = true)
    (aligned : s.lead32 a % 16 = 0) (inside : s.lead32 a + 16 ≤ (s.crew (crewTok s.cur.warp)).size)
    (small : s.lead32 b % 2 ^ 32 = s.lead32 b) (some_ : s.lead32 b ≠ 0) :
    let tok := crewTok s.cur.warp
    let off := s.lead32 a
    ∃ u, exec (.arminit d a b) s = .next u
      ∧ u.counter tok off = ⟨0, s.lead32 b, true, false, false, 0, (s.counter tok off).epoch⟩
      ∧ RegsWritten s u.curWarp 2 d (fun _ => s.handleOf tok off) ∧ Advanced s u (Instr.arminit d a b).len
      ∧ (∀ w, w ≠ s.cur.warp → u.warp w = s.warp w)
      ∧ ∀ x, x < (s.crew tok).phys off ∨ (s.crew tok).phys off + 16 ≤ x → u.mem.get x = s.mem.get x := by
  intro tok off
  let new := Counter.fresh (s.lead32 b) (s.counter tok off).epoch
  have fits : new.Fits := ⟨Nat.two_pow_pos 32, small.symm.trans_lt (Nat.mod_lt _ (by decide)), Nat.zero_lt_succ _,
    (s.counter_fits tok off).epoch⟩
  let t := s.setCrewBytes tok off new.bytes
  obtain ⟨stored, counter, mem⟩ : t = { s with mem := t.mem, badWords := t.badWords } ∧ t.counter tok off = new ∧ _ :=
    State.setCrewBytes_counter good here fits
  let v := t.shareCounter d tok off
  obtain ⟨shared, l, crew⟩ := t.shareCounter_frame d tok off
  have run : exec (.arminit d a b) s
      = .next ((v.writeRes 2 d fun _ => v.handleOf tok off).advance (Instr.arminit d a b).len) := by
    refine (exec_arminit s).trans (checkedOp_ok hc ?_)
    dsimp only
    rw [if_neg some_, State.checkAlign_none aligned, State.checkOwn_none inside]
    rfl
  have handle : v.handleOf tok off = s.handleOf tok off :=
    (t.handleOf_share d tok off).trans (by unfold State.handleOf; rw [stored]; rfl)
  have cur : v.cur = s.cur := by show (t.shareCounter d tok off).cur = _; rw [shared, stored]
  have warps : v.warps = s.warps := by show (t.shareCounter d tok off).warps = _; rw [shared, stored]
  obtain ⟨frame, others, advanced, regs⟩ := result_after cur warps 2 d (fun _ => v.handleOf tok off) (Instr.arminit d a b).len
  refine ⟨_, run, ?_, by rw [← handle]; exact regs, advanced, others, fun x hx => ?_⟩
  · refine Eq.trans ?_ counter
    refine State.counter_congr ?_ (by rw [frame]; show (t.shareCounter d tok off).mem = _; rw [shared])
    have own : ((v.writeRes 2 d fun _ => v.handleOf tok off).advance (Instr.arminit d a b).len).crew tok = { t.crew tok with shared := l } := by
      rw [frame]
      exact crew
    rw [own]
    exact ⟨rfl, rfl, rfl, rfl⟩
  · rw [frame, ← mem x hx]
    show (t.shareCounter d tok off).mem.get x = _
    rw [shared]

theorem arrive_adds (good : Good s) {k o : Nat} (aligned : s.lead32 a % 16 = 0)
    (place : s.counterPlace (crewTok s.cur.warp) (s.lead32 a) = some (k, o)) (hc : clear (.arrive a b) s = true)
    (here : (s.crew k).resident = true) :
    ∃ u, exec (.arrive a b) s = .next u ∧ u.counter k o = Counter.arrive (s.counter k o) (s.lead32 b)
      ∧ Advanced s u (Instr.arrive a b).len ∧ u.curWarp = { s.curWarp with lanes := u.curWarp.lanes }
      ∧ (∀ w, w ≠ s.cur.warp → u.warp w = s.warp w)
      ∧ ∀ x, x < (s.crew k).phys o ∨ (s.crew k).phys o + 16 ≤ x → u.mem.get x = s.mem.get x := by
  obtain ⟨stored, counter, mem⟩ := State.setCrewBytes_counter (off := o) good here ((s.counter_fits k o).arrive (s.lead32 b))
  let v := s.changeCounter k o (Counter.arrive · (s.lead32 b))
  have run : exec (.arrive a b) s = .next (v.advance (Instr.arrive a b).len) := by
    refine (exec_arrive s).trans (checkedOp_ok hc ?_)
    rw [State.checkCounter_ok aligned place]
  obtain ⟨frame, others, advanced, own⟩ := advance_after (s := s) (v := v) (by show (s.setCrewBytes ..).cur = _; rw [stored])
    (by show (s.setCrewBytes ..).warps = _; rw [stored]) (Instr.arrive a b).len
  refine ⟨_, run, ?_, advanced, own, others, fun x hx => by rw [frame]; exact mem x hx⟩
  exact (State.counter_congr (by rw [frame]; exact ⟨rfl, rfl, rfl, rfl⟩) (by rw [frame]; rfl)).trans counter

/-- An await of a counter that is complete or errored takes its status, and is an acquire (R102, R305). -/
theorem await_done {k o : Nat} (aligned : s.lead32 a % 16 = 0) (place : s.counterPlace (crewTok s.cur.warp) (s.lead32 a) = some (k, o))
    (hc : clear (.await d a) s = true) (armed : (s.counter k o).armed = true)
    (done : (s.counter k o).complete = true ∨ (s.counter k o).error = true) :
    ∃ u, exec (.await d a) s = .next u ∧ RegsWritten s u.curWarp 1 d (fun _ => (s.counter k o).status)
      ∧ (u.core (s.coreOf s.cur.warp)).l1 = [] ∧ Advanced s u (Instr.await d a).len ∧ (∀ w, w ≠ s.cur.warp → u.warp w = s.warp w)
      ∧ ∀ x, u.mem.get x = s.mem.get x := by
  let len := (Instr.await d a).len
  let core := s.coreOf s.cur.warp
  let v := s.writeRes 1 d fun _ => (s.counter k o).status
  have run : exec (.await d a) s = .next ((v.emptyL1 core).advance len) := by
    refine (exec_await s).trans (runOp_ok hc ?_)
    rw [State.checkCounter_ok aligned place]
    dsimp only
    rw [if_neg (ne_false_of_eq_true armed), if_pos done]
  have frame := v.emptyL1_frame core
  have warps : ((v.emptyL1 core).advance len).warps = (v.advance len).warps := by rw [frame]; rfl
  have cur : ((v.emptyL1 core).advance len).cur = (v.advance len).cur := by rw [frame]; rfl
  have warp : ∀ w, ((v.emptyL1 core).advance len).warp w = (v.advance len).warp w := fun w => by unfold State.warp; rw [warps]
  have own : ((v.emptyL1 core).advance len).curWarp = (v.advance len).curWarp := by
    unfold State.curWarp
    rw [warp, cur]
  have result := LaneResult.of_writeRes s 1 d (fun _ => (s.counter k o).status) len
  refine ⟨_, run, by rw [own]; exact result.regs, ?_, fun l => by rw [own]; exact result.lanes l,
    fun w hw => (warp w).trans (result.only.other w hw), fun x => by rw [frame]; rfl⟩
  exact (congrArg Core.l1 (v.emptyL1_core core core)).trans (if_pos rfl)

theorem await_waits {k o : Nat} (aligned : s.lead32 a % 16 = 0) (place : s.counterPlace (crewTok s.cur.warp) (s.lead32 a) = some (k, o))
    (hc : clear (.await d a) s = true) (armed : (s.counter k o).armed = true) (hcomplete : (s.counter k o).complete = false)
    (herror : (s.counter k o).error = false) :
    exec (.await d a) s = .next (s.block (Instr.await d a).len (.await (s.lead32 a) d)) := by
  refine (exec_await s).trans (runOp_ok hc ?_)
  rw [State.checkCounter_ok aligned place]
  dsimp only
  rw [if_neg (ne_false_of_eq_true armed), if_neg (by rw [hcomplete, herror]; decide)]

end

end Sys2Proof

/-! ### Queue fences (R103, R309) -/

namespace Sys2Proof.Machine

open Sys2Proof

/-- The mask of a fence, as an entry of a queue. -/
def EngOp.fenceMask : EngOp → Option Nat
  | .fence m => some m
  | _ => none

/-- A queue's entries as fences see them: their numbers, and the masks of those that are fences. -/
def Engines.marks (g : Engines) (k : Nat) : List (Nat × Option Nat) :=
  if k = 4 then g.deck.map fun t => (t.num, t.fence) else (g.list k).map fun e => (e.num, e.op.fenceMask)

/-- A fence as an entry of the deck queue. -/
def fenceTask (e : EngEntry) (m : Nat) : DeckTask :=
  { num := e.num, warp := e.warp, ctx := e.ctx, st := .z, mask := 0, fence := some m, steps := [], at_ := 0, running := false,
    begun := false, copies := false, mat := default, hold := none, failed := [], ended := none }

namespace Engines
variable {g h : Engines} {e : EngEntry} {k q m n : Nat}

theorem headIs_iff : g.headIs k n = true ↔ ((g.marks k).head?.map Prod.fst) = some n := by
  unfold Engines.headIs Engines.marks
  split
  · rw [List.head?_map, Option.map_map, beq_iff_eq]
    rfl
  · rw [List.head?_map, Option.map_map, beq_iff_eq]
    rfl

theorem fenceAt_eq : g.fenceAt k = (g.marks k).head?.bind fun p => p.2.map fun m => (p.1, m) := by
  unfold Engines.fenceAt Engines.marks
  split
  · rw [List.head?_map]
    cases g.deck.head? <;> rfl
  · rw [List.head?_map]
    cases (g.list k).head? with
    | none => rfl
    | some e => cases hop : e.op <;> simp [hop, EngOp.fenceMask]

theorem count_eq : g.count k = (g.marks k).length := by
  unfold Engines.count Engines.marks
  split <;> rw [List.length_map]

/-- Only queues 0 to 3 and 5 to 7 are lists of entries. -/
theorem list_setList (hk : k < 8) (h4 : k ≠ 4) (l : List EngEntry) : (g.setList k l).list k = l := by
  unfold Engines.setList Engines.list
  obtain h | rfl | rfl | rfl : k < 4 ∨ k = 5 ∨ k = 6 ∨ k = 7 := by omega
  · simp [h]
  · rfl
  · rfl
  · rfl

theorem list_setList_ne (h : k ≠ q) (l : List EngEntry) : (g.setList q l).list k = g.list k := by
  unfold Engines.setList Engines.list
  split_ifs <;> simp_all [FMap.get_set_ne]

theorem deck_setList (l : List EngEntry) : (g.setList q l).deck = g.deck := by
  unfold Engines.setList
  split_ifs <;> rfl

/-- Queue 4 holds tasks, no entries. -/
theorem list_deck (g : Engines) : g.list 4 = [] := rfl

/-- Queues changed one by one, each its own entries. -/
structure Changed (g h : Engines) (qs : List Nat) (f : List EngEntry → List EngEntry) (t : List DeckTask → List DeckTask) : Prop where
  list : ∀ k, k ≠ 4 → h.list k = if k ∈ qs then f (g.list k) else g.list k
  deck : h.deck = if 4 ∈ qs then t g.deck else g.deck

theorem Changed.foldl {step : Engines → Nat → Engines} {f : List EngEntry → List EngEntry} {t : List DeckTask → List DeckTask}
    (h4 : ∀ g, step g 4 = { g with deck := t g.deck }) (hq : ∀ g q, q ≠ 4 → step g q = g.setList q (f (g.list q))) {qs : List Nat}
    (nodup : qs.Nodup) (small : ∀ q ∈ qs, q < 7) (g : Engines) : Changed g (qs.foldl step g) qs f t := by
  induction qs generalizing g with
  | nil => exact ⟨fun k _ => by simp, by simp⟩
  | cons q qs ih =>
    obtain ⟨fresh, nodup⟩ := List.nodup_cons.1 nodup
    obtain ⟨list, deck⟩ := ih nodup (fun p hp => small p (.tail _ hp)) (step g q)
    refine ⟨fun k hk => ?_, ?_⟩
    · rw [List.foldl_cons, list k hk]
      by_cases own : k = q
      · subst own
        rw [if_neg fresh, if_pos (List.mem_cons_self ..), hq g k hk, list_setList ((small k (.head _)).trans (by decide)) hk]
      · have kept : (step g q).list k = g.list k := by
          by_cases deckQ : q = 4
          · rw [deckQ, h4]
            rfl
          · rw [hq g q deckQ, list_setList_ne own]
        rw [kept]
        simp [own]
    · rw [List.foldl_cons, deck]
      by_cases deckQ : q = 4
      · subst deckQ
        rw [if_neg fresh, if_pos (List.mem_cons_self ..), h4]
      · rw [hq g q deckQ, deck_setList]
        simp [Ne.symm deckQ]

theorem mem_maskQueues : k ∈ maskQueues m ↔ k < 7 ∧ m.testBit k = true := by
  rw [maskQueues, List.mem_filter, List.mem_range, Nat.testBit_eq_decide_div_mod_eq, decide_eq_true_iff, beq_iff_eq]

theorem maskQueues_nodup (m : Nat) : (maskQueues m).Nodup := List.nodup_range.filter _

theorem maskQueues_lt : ∀ q ∈ maskQueues m, q < 7 := fun _ h => (mem_maskQueues.1 h).1

/-- A fence pushed on the queues it names. -/
theorem changed_push (g : Engines) (m : Nat) (e : EngEntry) :
    Changed g ((maskQueues m).foldl (fun (g : Engines) q => g.pushFence q m e) g) (maskQueues m) (· ++ [e]) (· ++ [fenceTask e m]) :=
  Changed.foldl (step := fun g q => g.pushFence q m e) (f := (· ++ [e])) (t := (· ++ [fenceTask e m])) (fun _ => rfl) (fun _ _ h => if_neg h)
    (maskQueues_nodup m) maskQueues_lt g

/-- The heads of the queues a fence names taken off. -/
theorem changed_drop (g : Engines) (m : Nat) :
    Changed g ((maskQueues m).foldl (fun g k => if k = 4 then { g with deck := g.deck.drop 1 } else g.setList k ((g.list k).drop 1)) g)
      (maskQueues m) (List.drop 1) (List.drop 1) :=
  Changed.foldl (fun _ => rfl) (fun _ _ h => if_neg h) (maskQueues_nodup m) maskQueues_lt g

/-- The queues after a fence was pushed, as fences see them. -/
theorem marks_push (hop : e.op = .fence m) (k : Nat) : ((maskQueues m).foldl (fun (g : Engines) q => g.pushFence q m e) g).marks k
    = if k ∈ maskQueues m then g.marks k ++ [(e.num, some m)] else g.marks k := by
  obtain ⟨list, deck⟩ := changed_push g m e
  unfold Engines.marks
  by_cases h4 : k = 4
  · subst h4
    rw [if_pos rfl, if_pos rfl, deck]
    split
    · rw [List.map_append]
      rfl
    · rfl
  · rw [if_neg h4, if_neg h4, list k h4]
    split
    · rw [List.map_append, List.map_singleton, hop]
      rfl
    · rfl

/-- The mask of the first fence that heads every queue it names (R309). -/
def opening (g : Engines) : Option Nat :=
  (List.range 7).findSome? fun q =>
    match g.fenceAt q with
    | some (num, m) => if (maskQueues m).all fun k => g.headIs k num then some m else none
    | none => none

theorem openFences_succ (g : Engines) (n : Nat) : g.openFences (n + 1) = match g.opening with
    | none => g
    | some m => ((maskQueues m).foldl (fun g k => if k = 4 then { g with deck := g.deck.drop 1 }
        else g.setList k ((g.list k).drop 1)) g).openFences n := rfl

/-- Without a fence that heads all its queues, none opens. -/
theorem openFences_none (h : ∀ q num m, g.fenceAt q = some (num, m) → ∃ k ∈ maskQueues m, g.headIs k num = false) (n : Nat) :
    g.openFences n = g := by
  cases n with
  | zero => rfl
  | succ n =>
    have none : g.opening = none := by
      refine List.findSome?_eq_none_iff.2 fun q _ => ?_
      split
      next num m found =>
        obtain ⟨k, hk, other⟩ := h q num m found
        exact if_neg fun all => by
          rw [List.all_eq_true.1 all k hk] at other
          cases other
      next => rfl
    rw [openFences_succ, none]

/-- A fence pushed on queues of which one is not empty does not open. -/
theorem openFences_push_waits (hop : e.op = .fence m) (quiet : ∀ k, g.fenceAt k = none) (older : ∀ k, ∀ p ∈ g.marks k, p.1 < e.num)
    (held : ∃ k ∈ maskQueues m, g.count k ≠ 0) (n : Nat) :
    let h := (maskQueues m).foldl (fun (g : Engines) q => g.pushFence q m e) g
    h.openFences n = h := by
  intro h
  refine openFences_none (fun q num m' found => ?_) n
  obtain ⟨k, hk, some_⟩ := held
  rw [fenceAt_eq, show h.marks q = _ from marks_push hop q] at found
  obtain ⟨p, rest, marks⟩ : ∃ p rest, g.marks k = p :: rest := List.exists_cons_of_length_pos (by
    rw [← count_eq]
    exact Nat.pos_of_ne_zero some_)
  have mine : num = e.num ∧ m' = m := by
    cases marks' : g.marks q with
    | cons p rest =>
      have none := quiet q
      rw [fenceAt_eq, marks'] at none
      rw [marks', apply_ite List.head?] at found
      simp only [List.cons_append, List.head?_cons, ite_self] at found none
      rw [none] at found
      cases found
    | nil =>
      rw [marks', List.nil_append] at found
      split at found
      · obtain ⟨rfl, rfl⟩ : e.num = num ∧ m = m' := by simpa using found
        exact ⟨rfl, rfl⟩
      · cases found
  obtain ⟨rfl, rfl⟩ := mine
  refine ⟨k, hk, Bool.eq_false_iff.2 fun head => ?_⟩
  rw [headIs_iff, show h.marks k = _ from marks_push hop k, if_pos hk, marks] at head
  have := older k p (by rw [marks]; exact .head _)
  have : p.1 = e.num := by simpa using head
  omega

/-- A fence depends on what the queues hold. -/
theorem fenceAt_congr (list : ∀ k, h.list k = g.list k) (deck : h.deck = g.deck) (k : Nat) : h.fenceAt k = g.fenceAt k := by
  unfold Engines.fenceAt
  rw [list, deck]

/-- A fence pushed on empty queues opens at once. -/
theorem openFences_push_opens (hop : e.op = .fence m) (quiet : ∀ k, g.fenceAt k = none) (empty : ∀ k ∈ maskQueues m, g.count k = 0)
    (n : Nat) :
    let h := ((maskQueues m).foldl (fun (g : Engines) q => g.pushFence q m e) g).openFences (n + 1)
    (∀ k, h.list k = g.list k) ∧ h.deck = g.deck := by
  let p := (maskQueues m).foldl (fun (g : Engines) q => g.pushFence q m e) g
  let o := (maskQueues m).foldl (fun g k => if k = 4 then { g with deck := g.deck.drop 1 } else g.setList k ((g.list k).drop 1)) p
  show (∀ k, (p.openFences (n + 1)).list k = g.list k) ∧ (p.openFences (n + 1)).deck = g.deck
  have bare : ∀ k ∈ maskQueues m, g.marks k = [] := fun k hk => List.length_eq_zero_iff.1 (by rw [← count_eq]; exact empty k hk)
  have marks : ∀ k, p.marks k = if k ∈ maskQueues m then g.marks k ++ [(e.num, some m)] else g.marks k := marks_push hop
  have pushed : Changed g p (maskQueues m) (· ++ [e]) (· ++ [fenceTask e m]) := changed_push g m e
  have fence : ∀ k, p.fenceAt k = if k ∈ maskQueues m then some (e.num, m) else none := fun k => by
    rw [fenceAt_eq, marks]
    split
    next hk => rw [bare k hk]; rfl
    next => rw [← fenceAt_eq, quiet]
  have heads : (maskQueues m).all (fun k => p.headIs k e.num) = true := List.all_eq_true.2 fun k hk => by
    rw [headIs_iff, marks, if_pos hk, bare k hk]
    rfl
  by_cases names : maskQueues m = []
  · have same : p = g := by
      show (maskQueues m).foldl _ g = g
      rw [names]
      rfl
    rw [same, openFences_none (fun q num m' found => by rw [quiet] at found; cases found)]
    exact ⟨fun _ => rfl, rfl⟩
  · have opens : p.opening = some m := by
      have value : ∀ q, (match p.fenceAt q with
          | some (num, m) => if (maskQueues m).all fun k => p.headIs k num then some m else none
          | none => none) = if q ∈ maskQueues m then some m else none := fun q => by
        rw [fence]
        by_cases named : q ∈ maskQueues m
        · rw [if_pos named, if_pos named]
          exact if_pos heads
        · rw [if_neg named, if_neg named]
      unfold Engines.opening
      simp only [value]
      cases found : (List.range 7).findSome? fun q => if q ∈ maskQueues m then some m else none with
      | some m' =>
        obtain ⟨q, -, hq⟩ := List.exists_of_findSome?_eq_some found
        split at hq
        · exact hq.symm
        · cases hq
      | none =>
        obtain ⟨k, hk⟩ := List.exists_mem_of_ne_nil _ names
        have := List.findSome?_eq_none_iff.1 found k (List.mem_range.2 (maskQueues_lt k hk))
        rw [if_pos hk] at this
        cases this
    have dropped : Changed p o (maskQueues m) (List.drop 1) (List.drop 1) := changed_drop p m
    have list : ∀ k, o.list k = g.list k := fun k => by
      by_cases h4 : k = 4
      · rw [h4]
        rfl
      · rw [dropped.list k h4, pushed.list k h4]
        split
        next hk =>
          have none := bare k hk
          rw [Engines.marks, if_neg h4, List.map_eq_nil_iff] at none
          rw [none]
          rfl
        next => rfl
    have deck : o.deck = g.deck := by
      rw [dropped.deck, pushed.deck]
      split
      next hk =>
        have none := bare 4 hk
        rw [Engines.marks, if_pos rfl, List.map_eq_nil_iff] at none
        rw [none]
        rfl
      next => rfl
    have rest : p.openFences (n + 1) = o := by
      rw [openFences_succ, opens]
      exact openFences_none (g := o) (fun q num m' found => by rw [fenceAt_congr list deck, quiet] at found; cases found) n
    rw [rest]
    exact ⟨list, deck⟩

end Engines

end Sys2Proof.Machine

namespace Sys2Proof

open Sys2Proof.Machine

/-- The entry that a queue fence puts in its queues (R309). -/
def fenceEntry (s : State) (m : Nat) : EngEntry :=
  { num := s.nextOp, since := s.cycle, warp := s.cur.warp, ctx := s.ctxOf s.cur.warp, st := .z, patch := none, count := none, hold := none,
    begun := false, failed := [], op := .fence m }

/-- An engine instruction with room in its queues (R294). -/
theorem engineOp_room {i : Instr} {s t : State} {body : State → Except Trap State} (hc : clear i s = true)
    (room : s.engineRoom s.cur.warp i = true) (hb : body s = .ok t) : engineOp i s body = .next t :=
  runOp_ok hc ((if_pos room).trans hb)

theorem exec_qfence_eq (m : Nat) (s : State) : exec (.qfence m) s = execQfence m s := rfl

/-- A queue fence with room enters its queues, those that can open do, and its lanes go on. -/
theorem exec_qfence {s : State} {m : Nat} (hc : clear (.qfence m) s = true) (room : s.engineRoom s.cur.warp (.qfence m) = true) :
    ∃ v : State, exec (.qfence m) s = .next (v.advance (Instr.qfence m).len)
      ∧ v = { s with engines := v.engines, nextOp := v.nextOp }
      ∧ v.engs (s.coreOf s.cur.warp) = ((maskQueues m).foldl (fun (g : Engines) q => g.pushFence q m (fenceEntry s m))
          (s.engs (s.coreOf s.cur.warp))).openFences 256 := by
  let core := s.coreOf s.cur.warp
  let g := (maskQueues m).foldl (fun (g : Engines) q => g.pushFence q m (fenceEntry s m)) (s.engs core)
  let v := { s.setEngs core g with nextOp := s.nextOp + 1 }.settleFences core
  refine ⟨v, (exec_qfence_eq m s).trans (engineOp_room hc room rfl), rfl, ?_⟩
  have pushed : ({ s.setEngs core g with nextOp := s.nextOp + 1 } : State).engs core = g := FMap.get_set_self ..
  have settled : v.engs core = (({ s.setEngs core g with nextOp := s.nextOp + 1 } : State).engs core).openFences 256 := FMap.get_set_self ..
  rw [settled, pushed]

/-! ### Tile tags (R310) -/

section
variable {s : State} {d a b : Operand}

/-- tagset's result and its tag. -/
def tagSet (s : State) (d : Operand) (n : Nat) (t : TileTag) : State :=
  (s.setCrew (crewTok s.cur.warp) { s.crew (crewTok s.cur.warp) with tags := (s.crew (crewTok s.cur.warp)).tags.set n t }).writeRes 1 d
    fun _ => ((s.crew (crewTok s.cur.warp)).tags.get n).old

/-- A tag set, with the old state as result. -/
theorem tagSet_spec (s : State) (d : Operand) (n : Nat) (tag : TileTag) (len : Nat) :
    let tok := crewTok s.cur.warp
    let old := (s.crew tok).tags.get n
    let u := (tagSet s d n tag).advance len
    (u.crew tok).tags.get n = tag ∧ (∀ k, k ≠ n → (u.crew tok).tags.get k = (s.crew tok).tags.get k)
      ∧ RegsWritten s u.curWarp 1 d (fun _ => (if old.defined then 1 else 0) + (if old.full then 2 else 0)) ∧ Advanced s u len
      ∧ (∀ w, w ≠ s.cur.warp → u.warp w = s.warp w) ∧ ∀ y, u.mem.get y = s.mem.get y := by
  intro tok old u
  let c := s.crew tok
  let v := s.setCrew tok { c with tags := c.tags.set n tag }
  obtain ⟨frame, others, advanced, regs⟩ := result_after (s := s) (v := v) rfl rfl 1 d (fun _ => old.old) len
  have crew : u.crew tok = { c with tags := c.tags.set n tag } := by
    show State.crew ((v.writeRes 1 d fun _ => old.old).advance len) tok = _
    rw [frame]
    exact FMap.get_set_self ..
  refine ⟨?_, fun k hk => ?_, regs, advanced, others, fun y => ?_⟩
  · rw [crew]
    exact FMap.get_set_self ..
  · rw [crew]
    exact FMap.get_set_ne _ _ hk
  · show ((v.writeRes 1 d fun _ => old.old).advance len).mem.get y = _
    rw [frame]
    rfl

/-- The checks of tagset's operands. -/
structure TagOperands (s : State) (a b : Operand) : Prop where
  same : s.same32 a = true ∧ s.same32 b = true
  low : bits (s.lead32 a) 7 6 = 0
  high : bits (s.lead32 a) 15 10 = 0

/-- The tag that an operand names. -/
theorem tagNumber (x : Nat) : bits x 5 0 = x % 64 := by simp [bits]

theorem exec_tagset (s : State) : exec (.tagset d a b) s = execTagset d a b s := rfl

/-- tagset with op 3 reads the tag. -/
theorem tagset_reads (hc : clear (.tagset d a b) s = true) (h : TagOperands s a b) (op : s.lead32 a / 2 ^ 8 % 4 = 3) :
    exec (.tagset d a b) s = .next ((s.writeRes 1 d fun _ => ((s.crew (crewTok s.cur.warp)).tags.get (s.lead32 a % 64)).old).advance
      (Instr.tagset d a b).len) := by
  obtain ⟨⟨sa, sb⟩, low, high⟩ := h
  have op_bits : bits (s.lead32 a) 9 8 = 3 := op
  refine (exec_tagset s).trans (checkedOp_ok hc ?_)
  dsimp only
  rw [tagNumber, op_bits, low, high, sa, sb]
  rfl

/-- tagset with op 1 or 2 fills or empties a defined tag. -/
theorem tagset_marks (hc : clear (.tagset d a b) s = true) (h : TagOperands s a b)
    (op : s.lead32 a / 2 ^ 8 % 4 = 1 ∨ s.lead32 a / 2 ^ 8 % 4 = 2)
    (defined : ((s.crew (crewTok s.cur.warp)).tags.get (s.lead32 a % 64)).defined = true) :
    exec (.tagset d a b) s = .next ((tagSet s d (s.lead32 a % 64) { (s.crew (crewTok s.cur.warp)).tags.get (s.lead32 a % 64) with
      full := s.lead32 a / 2 ^ 8 % 4 == 1 }).advance (Instr.tagset d a b).len) := by
  obtain ⟨⟨sa, sb⟩, low, high⟩ := h
  refine (exec_tagset s).trans (checkedOp_ok hc ?_)
  dsimp only
  rw [tagNumber, low, high, sa, sb, defined]
  obtain op | op := op
  · have op_bits : bits (s.lead32 a) 9 8 = 1 := op
    rw [op_bits, op]
    rfl
  · have op_bits : bits (s.lead32 a) 9 8 = 2 := op
    rw [op_bits, op]
    rfl

/-- tagset with op 0 defines a tag on a free range. -/
theorem tagset_defines (hc : clear (.tagset d a b) s = true) (h : TagOperands s a b) (op : s.lead32 a / 2 ^ 8 % 4 = 0)
    (some_ : s.lead32 b < s.lead32 b + 16 * (s.lead32 a / 2 ^ 16 % 2 ^ 16)) (aligned : s.lead32 b % 16 = 0)
    (inside : s.lead32 b + 16 * (s.lead32 a / 2 ^ 16 % 2 ^ 16) ≤ (s.crew (crewTok s.cur.warp)).size)
    (apart : ∀ p ∈ (s.crew (crewTok s.cur.warp)).tags, p.1 ≠ s.lead32 a % 64 → p.2.defined = true →
      s.lead32 b + 16 * (s.lead32 a / 2 ^ 16 % 2 ^ 16) ≤ p.2.lo ∨ p.2.hi ≤ s.lead32 b)
    (free : ((s.crew (crewTok s.cur.warp)).tags.get (s.lead32 a % 64)).defined = false) :
    exec (.tagset d a b) s = .next ((tagSet s d (s.lead32 a % 64)
      ⟨true, false, s.lead32 b, s.lead32 b + 16 * (s.lead32 a / 2 ^ 16 % 2 ^ 16)⟩).advance (Instr.tagset d a b).len) := by
  obtain ⟨⟨sa, sb⟩, low, high⟩ := h
  generalize hhi : s.lead32 b + 16 * (s.lead32 a / 2 ^ 16 % 2 ^ 16) = hi at some_ inside apart ⊢
  have good : s.defineBad (crewTok s.cur.warp) (s.lead32 a % 64) (s.lead32 b) hi = false := by
    have clash : (s.crew (crewTok s.cur.warp)).tags.any (fun (k, u) => k != s.lead32 a % 64 && u.defined && s.lead32 b < u.hi && u.lo < hi)
        = false := List.any_eq_false.2 fun p hp => by
      simp only [Bool.and_eq_true, bne_iff_ne, decide_eq_true_eq]
      rintro ⟨⟨⟨other, defined⟩, below⟩, above⟩
      obtain left | right := apart p hp other defined
      · omega
      · omega
    rw [State.defineBad, clash, free, beq_eq_false_iff_ne.2 some_.ne]
    rfl
  have checks : firstTrap [s.checkAlign (s.lead32 b) 16, s.checkOwn (s.lead32 b) (hi - s.lead32 b)] = none := by
    have own : s.lead32 b + (hi - s.lead32 b) ≤ (s.crewOf s.cur.warp).size := by
      rw [Nat.add_sub_cancel' some_.le]
      exact inside
    rw [State.checkAlign_none aligned, State.checkOwn_none own]
    rfl
  refine (exec_tagset s).trans (checkedOp_ok hc ?_)
  have hi_bits : s.lead32 b + 16 * bits (s.lead32 a) 31 16 = hi := hhi
  have op_bits : bits (s.lead32 a) 9 8 = 0 := op
  dsimp only
  rw [hi_bits, tagNumber, op_bits, low, high, good, checks, sa, sb]
  rfl

end

/-- Settles O29: a counter's bytes read back as they were written (`parseCounter_bytes`); a fence opens at once or stands
(`openFences_push_opens`, `openFences_push_waits`); a tag is set (`tagSet_spec`). -/
theorem countersFencesTags : Obligations.CountersFencesTags := by
  unfold Obligations.CountersFencesTags
  intro s d a b m tok c core off others good
  refine ⟨fun hc here aligned inside small some_ => arminit_arms good hc here aligned inside small some_, fun k o aligned place => ?_, ?_, ?_⟩
  · refine ⟨fun hc here _ => arrive_adds good aligned place hc here, fun hc armed => ⟨fun done => await_done aligned place hc armed done,
      fun complete error => ?_⟩⟩
    exact ⟨_, await_waits aligned place hc armed complete error, State.block_spec ..⟩
  · intro g names hc room quiet older olderDeck passed
    obtain ⟨v, run, frame, engs⟩ := exec_qfence hc room
    obtain ⟨rest, others', advanced, own⟩ := advance_after (s := s) (v := v) (by rw [frame]) (by rw [frame]) (Instr.qfence m).len
    have passes : passed (v.advance (Instr.qfence m).len) := ⟨advanced, own, others', fun x => by rw [rest, frame]⟩
    have queues : (v.advance (Instr.qfence m).len).engs core = v.engs core := by rw [rest]; rfl
    refine ⟨fun empty => ⟨_, run, passes, ?_⟩, fun held => ⟨_, run, passes, fun k hk => ?_⟩⟩
    · rw [queues, engs]
      exact Engines.openFences_push_opens (e := fenceEntry s m) rfl quiet (fun k hk => by
        obtain ⟨small, named⟩ := Engines.mem_maskQueues.1 hk
        exact empty k small named) 255
    · have marks : ∀ k, ∀ p ∈ g.marks k, p.1 < (fenceEntry s m).num := fun k p hp => by
        rw [Engines.marks] at hp
        split at hp
        · obtain ⟨t, ht, rfl⟩ := List.mem_map.1 hp
          exact olderDeck t ht
        · obtain ⟨e, he, rfl⟩ := List.mem_map.1 hp
          exact older k e he
      obtain ⟨q, small, named, some_⟩ := held
      rw [queues, engs, Engines.openFences_push_waits (e := fenceEntry s m) rfl quiet marks
        ⟨q, Engines.mem_maskQueues.2 ⟨small, named⟩, some_⟩, Engines.count_eq, Engines.marks_push rfl, Engines.count_eq]
      simp only [Engines.mem_maskQueues, hk, true_and]
      by_cases name : m.testBit k = true
      · rw [if_pos name, if_pos name, List.length_append]
        rfl
      · rw [if_neg name, if_neg name]
        rfl
  · intro x n lo hi old set hc sa sb low high
    have operands : TagOperands s a b := ⟨⟨sa, sb⟩, low, high⟩
    refine ⟨fun op => ⟨_, tagset_reads hc operands op, ?_⟩, fun op defined => ⟨_, tagset_marks hc operands op defined, tagSet_spec ..⟩,
      fun op some_ aligned inside apart free => ⟨_, tagset_defines hc operands op some_ aligned inside apart free, tagSet_spec ..⟩⟩
    have result := LaneResult.of_writeRes s 1 d (fun _ => old.old) (Instr.tagset d a b).len
    have crew : ((s.writeRes 1 d fun _ => old.old).advance (Instr.tagset d a b).len).crew tok = c := by rw [result.only.rest]; rfl
    exact ⟨congrArg (fun c : Crew => c.tags.get n) crew, fun k _ => congrArg (fun c : Crew => c.tags.get k) crew, result.regs, result.lanes,
      result.only.other, result.only.memory⟩

end Sys2Proof

/-! ## Requests that end, and warps that do not wait: shared by the statements on tickets and on the answers of the fabric -/

namespace Sys2Proof.Machine

open Sys2Proof

/-! ### Sorted tables -/

theorem insertBy_perm {α : Type} (f : α → Nat) (a : α) (l : List α) : (insertBy f a l).Perm (a :: l) := by
  induction l with
  | nil => exact .refl _
  | cons b t ih =>
    rw [insertBy]
    split
    · exact .refl _
    · exact (ih.cons b).trans (.swap a b t)

/-- A list sorted holds what it held. -/
theorem sortBy_perm {α : Type} (f : α → Nat) (l : List α) : (sortBy f l).Perm l := by
  have fold : ∀ (l acc : List α), (l.foldl (fun acc a => insertBy f a acc) acc).Perm (acc ++ l) := by
    intro l
    induction l with
    | nil => exact fun acc => by rw [List.append_nil]; exact .refl _
    | cons a l ih => exact fun acc => (ih _).trans (((insertBy_perm f a acc).append_right l).trans List.perm_middle.symm)
  exact fold l []

/-- A table with distinct keys holds each of its entries. -/
theorem FMap.find_of_mem {α : Type} {m : FMap α} (nodup : (m.map (·.1)).Nodup) {k : Nat} {a : α} (h : (k, a) ∈ m) : m.find k = some a := by
  induction m with
  | nil => cases h
  | cons p m ih =>
    obtain ⟨j, b⟩ := p
    obtain ⟨fresh, nodup⟩ := List.nodup_cons.1 nodup
    rw [FMap.find_cons]
    obtain e | h := List.mem_cons.1 h
    · obtain ⟨rfl, rfl⟩ := Prod.mk.inj e
      rw [if_pos rfl]
    · have other : j ≠ k := by
        rintro rfl
        exact fresh (List.mem_map.2 ⟨_, h, rfl⟩)
      rw [if_neg other]
      exact ih nodup h

/-- Sorting a table with distinct keys changes no value. -/
theorem FMap.find_sortBy {α : Type} {m : FMap α} (nodup : (m.map (·.1)).Nodup) (k : Nat) : FMap.find (sortBy (·.1) m) k = m.find k := by
  have perm := sortBy_perm (fun p : Nat × α => p.1) m
  have nodup' : ((sortBy (fun p : Nat × α => p.1) m).map (·.1)).Nodup := (perm.map _).nodup_iff.2 nodup
  cases held : m.find k with
  | some a => exact FMap.find_of_mem nodup' (perm.mem_iff.2 (FMap.mem_of_find held))
  | none =>
    cases held' : FMap.find (sortBy (·.1) m) k with
    | none => rfl
    | some a =>
      rw [FMap.find_of_mem nodup (perm.mem_iff.1 (FMap.mem_of_find held'))] at held
      cases held

/-- An entry of a table after one was set is that one, or one it held. -/
theorem FMap.mem_set {α : Type} {m : FMap α} {k : Nat} {a : α} {p : Nat × α} (h : p ∈ m.set k a) : p = (k, a) ∨ p ∈ m := by
  induction m with
  | nil => exact .inl (List.mem_singleton.1 h)
  | cons q m ih =>
    obtain ⟨j, b⟩ := q
    rw [FMap.set] at h
    split at h
    · exact List.mem_cons.1 h
    · split at h
      · exact (List.mem_cons.1 h).imp_right (.tail _)
      · obtain rfl | h := List.mem_cons.1 h
        · exact .inr (.head _)
        · exact (ih h).imp_right (.tail _)

/-! ### A request that leaves the table (R97, R440) -/

theorem State.post_frame (s : State) (m : Message) : s.post m = { s with mgr := (s.post m).mgr } := by
  unfold State.post
  dsimp only
  split
  · rfl
  · split
    · rfl
    · split <;> rfl

theorem State.drainCheck_frame (s : State) (port : Nat) :
    s.drainCheck port = { s with ports := (s.drainCheck port).ports, mgr := (s.drainCheck port).mgr } := by
  unfold State.drainCheck
  dsimp only
  split
  · split
    · rw [State.reply, State.post_frame]
    · rw [State.post_frame]
  · rfl

/-- A wait that the end of a store leaves: neither a fence nor a store without room. -/
def WaitRec.still (r : WaitRec) : Prop := r.lanes ≠ 0 ∧ r.wait.onStores = false ∧ r.wait.onRoom = false

/-- A warp of which no wait ends by the end of a store. -/
theorem State.settleStores_still {s : State} {w : Nat} (h : ∀ r ∈ (s.warp w).waits, r.still) :
    s.settleStores w = s.setWarp w (s.warp w) := by
  have fences : (s.warp w).retry s.cycle ((s.warp w).waiting Wait.onStores) = s.warp w :=
    Warp.retry_nobody (fun r hr => ⟨(h r hr).1, (h r hr).2.1⟩) _
  have rooms : (s.warp w).retry s.cycle ((s.warp w).waiting Wait.onRoom) = s.warp w :=
    Warp.retry_nobody (fun r hr => ⟨(h r hr).1, (h r hr).2.2⟩) _
  unfold State.settleStores
  dsimp only
  rw [fences, ite_self, rooms, ite_self]

theorem State.settleStores_frame (s : State) (w : Nat) :
    let x := (s.settleStores w).warp w
    s.settleStores w = s.setWarp w x ∧ x = { s.warp w with waits := x.waits, lanes := x.lanes } := by
  have changed : ∃ y, s.settleStores w = s.setWarp w y ∧ ∃ ws ls, y = { s.warp w with waits := ws, lanes := ls } := by
    refine ⟨_, rfl, ?_⟩
    dsimp only
    split
    · split
      · exact ⟨_, _, rfl⟩
      · exact ⟨_, _, rfl⟩
    · split
      · exact ⟨_, _, rfl⟩
      · exact ⟨_, _, rfl⟩
  obtain ⟨y, run, ws, ls, rfl⟩ := changed
  rw [run]
  dsimp only
  rw [State.warp_setWarp_self]
  exact ⟨rfl, rfl⟩

/-- A request gone: of the other state only its port's drain, and what waited in its warp for stores. -/
structure ReqGone (s t : State) (id : Nat) (r : Req) : Prop where
  frame : t = { s with reqs := s.reqs.del id, ports := t.ports, mgr := t.mgr, warps := t.warps }
  warps : t.warps = s.warps.set r.warp (t.warp r.warp)
  own : t.warp r.warp = { s.warp r.warp with waits := (t.warp r.warp).waits, lanes := (t.warp r.warp).lanes }
  still : (∀ y ∈ (s.warp r.warp).waits, y.still) → t.warp r.warp = s.warp r.warp

namespace ReqGone
variable {s t : State} {id : Nat} {r : Req}

theorem gone (h : ReqGone s t id r) : t.reqs.find id = none := by
  rw [h.frame]
  exact (FMap.find_del ..).trans (if_pos rfl)

theorem other (h : ReqGone s t id r) {w : Nat} (hw : w ≠ r.warp) : t.warp w = s.warp w := by
  show t.warps.get w = s.warps.get w
  rw [h.warps]
  exact FMap.get_set_ne _ _ hw

/-- Registers are kept. -/
theorem regs (h : ReqGone s t id r) (w : Nat) : (∀ n l, (t.warp w).v n l = (s.warp w).v n l) ∧ ∀ n, (t.warp w).s n = (s.warp w).s n := by
  by_cases hw : w = r.warp
  · rw [hw, h.own]
    exact ⟨fun _ _ => rfl, fun _ => rfl⟩
  · rw [h.other hw]
    exact ⟨fun _ _ => rfl, fun _ => rfl⟩

end ReqGone

/-- A request leaves the table. -/
theorem State.dropReq_gone {s : State} {id : Nat} {r : Req} (found : s.reqs.find id = some r) : ReqGone s (s.dropReq id) id r := by
  have held : s.reqs.get id = r := by rw [FMap.get, found]; rfl
  let d := { s with reqs := s.reqs.del id }.drainCheck r.port
  have run : s.dropReq id = d.settleStores r.warp := by rw [State.dropReq, held]
  have drain : d = { s with reqs := s.reqs.del id, ports := d.ports, mgr := d.mgr } :=
    State.drainCheck_frame { s with reqs := s.reqs.del id } r.port
  have warp : ∀ w, d.warp w = s.warp w := fun w => by rw [drain]; rfl
  obtain ⟨settled, own⟩ := d.settleStores_frame r.warp
  have frame : d.settleStores r.warp = { d with warps := (d.settleStores r.warp).warps } := by
    rw [settled]
    rfl
  rw [run]
  refine ⟨by rw [frame, drain], ?_, by rw [← warp]; exact own, fun h => ?_⟩
  · rw [settled, State.warp_setWarp_self, drain]
    rfl
  · have same : d.settleStores r.warp = _ := State.settleStores_still (s := d) (w := r.warp) (by rw [warp]; exact h)
    rw [same, State.warp_setWarp_self, warp]

/-! ### No lane waits -/

/-- No warp's lanes wait. -/
def Idle (s : State) : Prop := ∀ p ∈ s.warps, p.2.waits = []

theorem Idle.waits {s : State} (h : Idle s) (w : Nat) : (s.warp w).waits = [] := by
  unfold State.warp FMap.get
  cases held : s.warps.find w with
  | none => rfl
  | some x => exact h _ (FMap.mem_of_find held)

theorem Idle.of_warps {s t : State} (h : Idle s) (e : t.warps = s.warps) : Idle t := by
  unfold Idle
  rw [e]
  exact h

theorem Idle.waitersOf {s : State} (h : Idle s) (f : Wait → Bool) : s.waitersOf f = [] := by
  have none : s.warps.filter (fun p => p.2.live && (s.crewOf p.1).resident && p.2.waits.any fun r => f r.wait) = [] :=
    List.filter_eq_nil_iff.2 fun p hp => by rw [h p hp]; simp
  unfold State.waitersOf
  dsimp only
  rw [none]
  rfl

/-- A ticket table wakes nobody. -/
theorem Idle.settleTicket {s : State} (h : Idle s) (key : Nat) : s.settleTicket key = s := by
  have redeems : s.wakeRedeems key = s := by
    unfold State.wakeRedeems
    rw [h.waitersOf]
    rfl
  unfold State.settleTicket State.wakeRoom
  rw [redeems, h.waitersOf]
  rfl

theorem Idle.redeemBlocked {s : State} (h : Idle s) (key : Nat) : s.redeemBlocked key = false := by
  unfold State.redeemBlocked
  rw [h.waitersOf]
  rfl

/-- Requests that leave while no lane waits: every warp stands as it did. -/
structure IdleDrop (s t : State) (ids : List Nat) : Prop where
  idle : Idle t
  frame : t = { s with reqs := t.reqs, ports := t.ports, mgr := t.mgr, warps := t.warps }
  warp : ∀ w, t.warp w = s.warp w
  gone : ∀ id, id ∈ ids ∨ s.reqs.find id = none → t.reqs.find id = none

theorem Idle.dropReq {s : State} (h : Idle s) (id : Nat) : IdleDrop s (s.dropReq id) [id] := by
  let r := s.reqs.get id
  let d := { s with reqs := s.reqs.del id }.drainCheck r.port
  have drain : d = { s with reqs := s.reqs.del id, ports := d.ports, mgr := d.mgr } :=
    State.drainCheck_frame { s with reqs := s.reqs.del id } r.port
  have warps : d.warps = s.warps := by rw [drain]
  have idle : Idle d := h.of_warps warps
  have run : s.dropReq id = d.setWarp r.warp (d.warp r.warp) :=
    State.settleStores_still (s := d) fun y hy => by rw [idle.waits] at hy; cases hy
  rw [run]
  refine ⟨fun p hp => ?_, by rw [drain]; rfl, fun w => ?_, fun j hj => ?_⟩
  · obtain rfl | hp := FMap.mem_set hp
    · exact idle.waits r.warp
    · exact idle p hp
  · have same : d.warp w = s.warp w := by rw [drain]; rfl
    by_cases hw : w = r.warp
    · rw [hw, State.warp_setWarp_self, ← hw, same]
    · rw [State.warp_setWarp_ne _ _ hw, same]
  · have reqs : (d.setWarp r.warp (d.warp r.warp)).reqs = s.reqs.del id := by rw [drain]; rfl
    rw [reqs, FMap.find_del]
    split
    case isTrue => rfl
    case isFalse other => exact hj.resolve_left fun mem => other (List.mem_singleton.1 mem)

theorem Idle.dropReqs {s : State} (h : Idle s) (ids : List Nat) : IdleDrop s (s.dropReqs ids) ids := by
  induction ids generalizing s with
  | nil => exact ⟨h, rfl, fun _ => rfl, fun _ hid => hid.resolve_left (by simp)⟩
  | cons id ids ih =>
    have first := h.dropReq id
    have rest := ih first.idle
    have run : s.dropReqs (id :: ids) = (s.dropReq id).dropReqs ids := rfl
    rw [run]
    refine ⟨rest.idle, by rw [rest.frame]; rw [first.frame], fun w => (rest.warp w).trans (first.warp w), fun j hj => rest.gone j ?_⟩
    obtain hj | none := hj
    · obtain rfl | hj := List.mem_cons.1 hj
      · exact .inr (first.gone j (.inl (.head _)))
      · exact .inl hj
    · exact .inr (first.gone j (.inr none))

/-- A ticket's entry freed while no lane waits. -/
structure IdleFreed (s t : State) (key : Nat) (e : TicketEntry) : Prop where
  tickets : t.tickets = s.tickets.set key e
  frame : t = { s with tickets := t.tickets, reqs := t.reqs, ports := t.ports, mgr := t.mgr, warps := t.warps, sliceCount := t.sliceCount }
  warp : ∀ w, t.warp w = s.warp w
  gone : ∀ id ∈ (s.tickets.get key).reqs, t.reqs.find id = none

theorem IdleFreed.mem {s t : State} {key : Nat} {e : TicketEntry} (h : IdleFreed s t key e) : t.mem = s.mem := by rw [h.frame]

theorem Idle.freeTicket {s : State} (h : Idle s) (key : Nat) (spent : Bool) :
    IdleFreed s (s.freeTicket key spent) key ((s.tickets.get key).free spent) := by
  let e := s.tickets.get key
  let s1 := { s with tickets := s.tickets.set key (e.free spent) }
  let s2 := s1.dropReqs e.reqs
  let s3 := if spent then s2 else s2.countSlice (key / 4096) 0x0104 1
  have dropped : IdleDrop s1 s2 e.reqs := Idle.dropReqs (s := s1) h e.reqs
  have counted : s3 = { s2 with sliceCount := s3.sliceCount } := by
    show (if spent then s2 else _) = { s2 with sliceCount := (if spent then s2 else _ : State).sliceCount }
    split
    · rfl
    · exact s2.countSlice_frame ..
  have run : s.freeTicket key spent = s3 := Idle.settleTicket (s := s3) (dropped.idle.of_warps (by rw [counted])) key
  rw [run]
  refine ⟨by rw [counted, dropped.frame], by rw [counted, dropped.frame], fun w => ?_, fun id hid => ?_⟩
  · rw [counted]
    exact dropped.warp w
  · rw [counted]
    exact dropped.gone id (.inl hid)

/-- One freed as spent that waits for no request changes nothing else. -/
theorem Idle.freeTicket_spent {s : State} (h : Idle s) {key : Nat} (none : (s.tickets.get key).reqs = []) :
    s.freeTicket key true = { s with tickets := s.tickets.set key ((s.tickets.get key).free true) } := by
  have ended : s.endTicket key true = { s with tickets := s.tickets.set key ((s.tickets.get key).free true) } := by
    unfold State.endTicket
    dsimp only
    rw [none]
    rfl
  unfold State.freeTicket
  rw [ended]
  exact Idle.settleTicket (s := { s with tickets := s.tickets.set key ((s.tickets.get key).free true) }) h key

end Sys2Proof.Machine

/-! ## O24: tickets

While no lane waits, a table wakes nobody (`Idle.settleTicket`): a redeem is the table's step on the entry (`State.redeemStep`), a read
stages its parts' bytes (`State.stageParts_sound`). -/

namespace Sys2Proof.Machine

open Sys2Proof

/-! ### What an entry holds for a ticket (R281) -/

section
variable {e : TicketEntry} {t : Nat}

theorem TicketEntry.live_iff : e.live t = true ↔ e.reuse = tkReuse t ∧ e.state ≠ 0 := by simp [TicketEntry.live]

/-- The status of a ticket whose entry is not live under it, as stated. -/
theorem TicketEntry.past_eq (e : TicketEntry) (t : Nat) : e.past t = if tkReuse t = (e.reuse + 255) % 256 ∧ e.spent = true then 2 else 3 := rfl

theorem TicketEntry.found_past (h : e.live t = false) : e.found t = .past (e.past t) := if_neg (ne_true_of_eq_false h)

theorem TicketEntry.found_pending (h : e.live t = true) (hs : e.state = 1) : e.found t = .pending :=
  (if_pos h).trans (if_neg (by rw [hs]; decide))

theorem TicketEntry.found_ready (h : e.live t = true) (hs : e.state = 2) : e.found t = .ready e.err := (if_pos h).trans (if_pos hs)

/-- A ticket of an entry freed as expired is expired. -/
theorem TicketEntry.found_expired (e : TicketEntry) (t : Nat) : (e.free false).found t = .past 3 := by
  have dead : (e.free false).live t = false := by simp [TicketEntry.live, TicketEntry.free]
  rw [TicketEntry.found_past dead, TicketEntry.past_eq]
  exact congrArg Found.past (if_neg fun h => Bool.false_ne_true h.2)

end

/-! ### The table's step (R106, R281) -/

/-- A status written, and the lanes moved on. -/
def State.answerStatus (s : State) (st : Operand) (x len : Nat) : State := (s.writeStatus st x).advance len

section
variable {s : State} {len t off : Nat} {try_ : Bool} {d st : Operand}

theorem State.redeemStep_past (h : (s.tickets.get (tkKey t)).live t = false) :
    s.redeemStep len try_ t d off st = .ok (s.answerStatus st ((s.tickets.get (tkKey t)).past t) len) := by
  unfold State.redeemStep
  dsimp only
  rw [h, TicketEntry.found_past h]
  rfl

section
variable (h : (s.tickets.get (tkKey t)).live t = true) (fits : s.redeemCheck (s.tickets.get (tkKey t)) d off = none)
include h fits

theorem State.redeemStep_pending (hs : (s.tickets.get (tkKey t)).state = 1) :
    s.redeemStep len try_ t d off st = .ok (if try_ then s.answerStatus st 1 len
      else s.block len (.redeem (BitVec.ofNat 64 t) d (if (s.tickets.get (tkKey t)).block then some off else none) st)) := by
  unfold State.redeemStep
  dsimp only
  rw [if_pos h, fits, TicketEntry.found_pending h hs]
  dsimp only
  split <;> rfl

/-- A ready entry is freed as spent, its bytes are given, the status is OK. -/
theorem State.redeemStep_ready (idle : Idle s) (noReqs : (s.tickets.get (tkKey t)).reqs = []) (hs : (s.tickets.get (tkKey t)).state = 2)
    (sound : (s.tickets.get (tkKey t)).err = none) :
    let e := s.tickets.get (tkKey t)
    let v := { s with tickets := s.tickets.set (tkKey t) (e.free true) }
    s.redeemStep len try_ t d off st = .ok ((v.giveTicket e s.cur.warp s.cur.lanes d off).answerStatus st 0 len) := by
  unfold State.redeemStep
  dsimp only
  rw [if_pos h, fits, TicketEntry.found_ready h hs, sound, idle.freeTicket_spent noReqs]
  rfl

end

/-- A lane ticket's destination fits its width (R281). -/
theorem State.redeemCheck_lanes {e : TicketEntry} (hb : e.block = false)
    (fits : e.width = .w64 → (∃ n, d = .v n ∧ n % 2 = 0) ∨ ∃ n, d = .s n) : s.redeemCheck e d off = none := by
  unfold State.redeemCheck
  rw [hb, if_neg Bool.false_ne_true]
  split
  case isTrue wide =>
    obtain ⟨n, rfl, even⟩ | ⟨n, rfl⟩ := fits wide
    · exact if_pos even
    · rfl
  case isFalse => rfl

/-- A block ticket's bytes fit the crew's allocation. -/
theorem State.redeemCheck_block {e : TicketEntry} (hb : e.block = true) (fits : off + e.bytes ≤ (s.crewOf s.cur.warp).size) :
    s.redeemCheck e d off = none := by
  have inside : s.ownPhys (crewTok s.cur.warp) off e.bytes = some ((s.crew (crewTok s.cur.warp)).phys off) := if_pos fits
  unfold State.redeemCheck
  rw [if_pos hb, inside]

end

/-! ### Values of a width (R123, R281) -/

theorem signedOf_mod (n x : Nat) : signedOf n (x % 2 ^ n) = signedOf n x := by simp [signedOf]

/-- A width's extension takes the width's bytes; of a value of four words its place keeps the low bits all the same. -/
theorem Width.extend_word (w : Width) (x : Nat) {n j : Nat} (h : n + j ≤ 128) :
    BitVec.ofNat n (Width.extend w x / 2 ^ j) = BitVec.ofNat n (loaded w (x % 2 ^ (8 * w.bytes)) / 2 ^ j) := by
  cases w with
  | n8 | n16 | w32 | w64 => rfl
  | i8 => exact congrArg (fun y => BitVec.ofNat n (wrapNat 64 y / 2 ^ j)) (signedOf_mod 8 x).symm
  | i16 => exact congrArg (fun y => BitVec.ofNat n (wrapNat 64 y / 2 ^ j)) (signedOf_mod 16 x).symm
  | w128 =>
    show BitVec.ofNat n (x / 2 ^ j) = BitVec.ofNat n (x % 2 ^ 128 / 2 ^ j)
    obtain ⟨k, hk⟩ := Nat.exists_eq_add_of_le h
    refine BitVec.eq_of_toNat_eq ?_
    have split : 2 ^ 128 = 2 ^ j * (2 ^ n * 2 ^ k) := by rw [hk]; ring
    rw [BitVec.toNat_ofNat, BitVec.toNat_ofNat, split, Nat.mod_mul_right_div_self, Nat.mod_mul_right_mod]

/-- The lane that a set of one lane leads. -/
theorem leader_laneBit {l : Nat} (h : l < 32) : laneBit l ≠ 0 ∧ leader (laneBit l) = l := by
  have some_ : laneBit l ≠ 0 := lanes_ne_zero.2 ⟨l, (laneBit_getLsbD_iff h).2 rfl⟩
  exact ⟨some_, (laneBit_getLsbD_iff h).1 (leader_mem some_)⟩

end Sys2Proof.Machine

namespace Sys2Proof

open Sys2Proof.Machine

/-! ### redeem, tkdrop, tkstat past their checks (R281 to R284) -/

section
variable {s : State} {d a b c : Operand} {t : Nat} {try_ : Bool}

theorem exec_redeem (s : State) : exec (.redeem try_ d a c) s = execRedeem try_ d a c s := rfl
theorem exec_redeemX (s : State) : exec (.redeemX try_ a b c) s = execRedeemX try_ a b c s := rfl
theorem exec_tkdrop (s : State) : exec (.tkdrop d a) s = execTkdrop d a s := rfl
theorem exec_tkstat (s : State) : exec (.tkstat d a) s = execTkstat d a s := rfl

/-- A redeem of a ticket that passes its checks is the table's step. -/
theorem redeem_step {u : State} (hc : clear (.redeem try_ d a c) s = true) (same : s.same64 a = true) (ht : s.lead64 a = t)
    (check : s.ticketCheck t (some false) = 0) (h : s.redeemStep (Instr.redeem try_ d a c).len try_ t d 0 c = .ok u) :
    exec (.redeem try_ d a c) s = .next u := by
  refine (exec_redeem s).trans (runOp_ok hc ?_)
  dsimp only
  rw [ht, if_neg (ne_false_of_eq_true same), if_neg (not_not.2 check)]
  exact h

theorem redeemX_step {u : State} (hc : clear (.redeemX try_ a b c) s = true) (same : s.same64 a = true) (ht : s.lead64 a = t)
    (check : s.ticketCheck t (some true) = 0) (aligned : s.lead32 b % 16 = 0)
    (h : s.redeemStep (Instr.redeemX try_ a b c).len try_ t .z (s.lead32 b) c = .ok u) : exec (.redeemX try_ a b c) s = .next u := by
  refine (exec_redeemX s).trans (runOp_ok hc ?_)
  dsimp only
  rw [ht, if_neg (ne_false_of_eq_true same), if_neg (not_not.2 check), if_neg (not_not.2 aligned)]
  exact h

/-- tkdrop and tkstat past their checks. -/
theorem tkOp_ok {i : Instr} {f : State → Nat → TicketEntry → State × Nat} {u : State} {x : Nat} (hc : clear i s = true)
    (same : s.same64 a = true) (ht : s.lead64 a = t) (check : s.ticketCheck t none = 0)
    (hf : f s t (s.tickets.get (tkKey t)) = (u, x)) : tkOp i d a f s = .next (u.answerStatus d x i.len) := by
  refine checkedOp_ok (f := fun s => _) hc ?_
  dsimp only
  rw [ht, if_neg (ne_false_of_eq_true same), if_neg (not_not.2 check), hf]

/-- A status given in a state that differs in other parts than warps. -/
theorem answerStatus_spec {s v : State} (cur : v.cur = s.cur) (warps : v.warps = s.warps) (st : Operand) (x len : Nat) :
    let u := v.answerStatus st x len
    u = { v with warps := u.warps } ∧ RegsWritten s u.curWarp 1 st (fun _ => x) ∧ Advanced s u len := by
  obtain ⟨frame, -, advanced, regs⟩ := result_after cur warps 1 st (fun _ => x) len
  exact ⟨frame, regs, advanced⟩

/-- A status and nothing else. -/
theorem answerStatus_result (s : State) (st : Operand) (x len : Nat) :
    (s.answerStatus st x len).tickets = s.tickets ∧ LaneResult s (s.answerStatus st x len) len 1 st (fun _ => x) := by
  have result := LaneResult.of_writeRes s 1 st (fun _ => x) len
  have frame : s.answerStatus st x len = _ := result.only.rest
  exact ⟨by rw [frame], result⟩

/-- An entry freed as spent, and no other changed. -/
theorem freed_spec {m : FMap TicketEntry} {s : State} {key : Nat} (h : m = s.tickets.set key ((s.tickets.get key).free true)) :
    (m.get key).state = 0 ∧ (m.get key).spent = true ∧ (m.get key).reuse = ((s.tickets.get key).reuse + 1) % 256
      ∧ ∀ k, k ≠ key → m.get k = s.tickets.get k := by
  rw [h, FMap.get_set_self]
  exact ⟨rfl, rfl, rfl, fun k hk => FMap.get_set_ne _ _ hk⟩

/-- What tkstat answers. -/
theorem tkstat_answers {x : Nat} (hc : clear (.tkstat d a) s = true) (same : s.same64 a = true) (ht : s.lead64 a = t)
    (check : s.ticketCheck t none = 0) (idle : Idle s)
    (h : (match (if (s.tickets.get (tkKey t)).state ≠ 0 ∧ (s.tickets.get (tkKey t)).deadline ≤ s.cycle
        then (s.tickets.get (tkKey t)).free false else s.tickets.get (tkKey t)).found t with
      | .pending => 1
      | .ready err => if err.isSome then 2 ^ 8 else 0
      | .past x => x) = x) :
    exec (.tkstat d a) s = .next (s.answerStatus d x (Instr.tkstat d a).len) := by
  refine (exec_tkstat s).trans (tkOp_ok hc same ht check ?_)
  have expired : s.ticketExpired (tkKey t) (s.tickets.get (tkKey t))
      = decide ((s.tickets.get (tkKey t)).state ≠ 0 ∧ (s.tickets.get (tkKey t)).deadline ≤ s.cycle) := by
    unfold State.ticketExpired
    rw [idle.redeemBlocked, Bool.not_false, Bool.and_true, Bool.decide_and]
    congr 1
    by_cases h0 : (s.tickets.get (tkKey t)).state = 0
    · rw [h0]
      rfl
    · rw [bne_iff_ne.2 h0, decide_eq_true h0]
  rw [expired]
  simp only [decide_eq_true_eq]
  subst h
  generalize (if (s.tickets.get (tkKey t)).state ≠ 0 ∧ (s.tickets.get (tkKey t)).deadline ≤ s.cycle
        then (s.tickets.get (tkKey t)).free false else s.tickets.get (tkKey t)).found t = f
  cases f with
  | pending => rfl
  | ready err => cases err <;> rfl
  | past x => rfl

end

/-! ### Registers outside a result -/

section
variable {d : Operand} {lanes : LaneSet} {nw k l : Nat}

theorem vecWritten_apart (h : ∀ n, d = .v n → k < n ∨ n + nw ≤ k) : vecWritten d lanes nw k l = false := by
  cases d with
  | v n =>
    have := h n rfl
    simp only [vecWritten, Bool.and_eq_false_iff, decide_eq_false_iff_not]
    omega
  | _ => rfl

theorem scaWritten_apart (h : d ≠ .s k) : scaWritten d lanes k = false := by
  cases d with
  | s n =>
    have other : n ≠ k := fun e => h (by rw [e])
    simp [scaWritten, other]
  | _ => rfl

theorem scaWritten_self (h : lanes ≠ 0) : scaWritten (.s k) lanes k = true := by
  rw [scaWritten, beq_self_eq_true, Bool.true_and, bne_iff_ne]
  exact h

end

/-- A lane ticket delivered, its status OK: each lane that redeems and was gathered takes its bytes, unless the status takes their place. -/
theorem giveTicket_lanes {s v : State} (cur : v.cur = s.cur) (warps : v.warps = s.warps) {e : TicketEntry} (hb : e.block = false)
    (d c : Operand) (off len : Nat) :
    let words := if e.width = .w128 then 4 else if e.width = .w64 then 2 else 1
    let value := fun (l : Nat) => loaded e.width (bytesToNat (e.data.get l) % 2 ^ (8 * e.width.bytes))
    let u := (v.giveTicket e s.cur.warp s.cur.lanes d off).answerStatus c 0 len
    u = { v with warps := u.warps } ∧ Advanced s u len
      ∧ (∀ m, c = .v m → ∀ l, s.cur.lanes.getLsbD l = true → u.curWarp.v m l = 0)
      ∧ (∀ m, c = .s m → s.cur.lanes ≠ 0 → u.curWarp.s m = 0)
      ∧ (∀ n, d = .v n → (∀ m, c = .v m → m < n ∨ n + words ≤ m) → ∀ l, s.cur.lanes.getLsbD l = true → e.lanes.getLsbD l = true →
          ∀ j, j < words → u.curWarp.v (n + j) l = BitVec.ofNat 32 (value l / 2 ^ (32 * j)))
      ∧ (∀ n, d = .s n → c ≠ .s n → s.cur.lanes ≠ 0 → e.lanes.getLsbD (leader s.cur.lanes) = true →
          u.curWarp.s n = BitVec.ofNat 64 (value (leader s.cur.lanes)))
      ∧ (∀ k l, l < 32 → (∀ n, d = .v n → k < n ∨ n + words ≤ k) → c ≠ .v k → u.curWarp.v k l = s.curWarp.v k l)
      ∧ (∀ k, d ≠ .s k → c ≠ .s k → u.curWarp.s k = s.curWarp.s k) := by
  intro words value u
  let f := fun l => Width.extend e.width (bytesToNat (e.data.get l))
  have hwords : widthWords e.width = words := by show _ = if _ then _ else _; cases e.width <;> rfl
  have own : v.warp s.cur.warp = s.curWarp := by unfold State.curWarp State.warp; rw [warps]
  let y := s.curWarp.writeLanes (e.takers s.cur.lanes d) words d f
  let g := v.setWarp s.cur.warp y
  have given : v.giveTicket e s.cur.warp s.cur.lanes d off = g := by
    unfold State.giveTicket
    rw [hb, if_neg Bool.false_ne_true, own, hwords]
  obtain ⟨vec, sca, -, vregs, sregs, badRegs, rest⟩ := writeLanes_spec s.curWarp (e.takers s.cur.lanes d) words d f
  have gcur : g.cur = s.cur := cur
  have gown : g.curWarp = y := by unfold State.curWarp; rw [gcur]; exact State.warp_setWarp_self ..
  have result := LaneResult.of_writeRes g 1 c (fun _ => 0) len
  have final : u = (g.writeRes 1 c fun _ => 0).advance len := by show State.answerStatus _ _ _ _ = _; rw [given]; rfl
  obtain ⟨only, ⟨cvec, csca, -⟩, advanced, -⟩ := result
  rw [← final, gown, gcur] at cvec csca
  rw [← final] at only advanced
  have zeroDiv : ∀ j : Nat, BitVec.ofNat 32 (0 / 2 ^ j) = 0 := fun j => by rw [Nat.zero_div]; rfl
  refine ⟨?_, fun l => ?_, fun m hm l hl => ?_, fun m hm some_ => ?_, fun n hn apart l hl taken j hj => ?_, fun n hn apart some_ taken => ?_,
    fun k l hl apart hk => ?_, fun k hd hk => ?_⟩
  · rw [only.rest]
    rfl
  · have lane : g.curWarp.lane l = s.curWarp.lane l := by
      rw [gown]
      show Warp.lane (s.curWarp.writeLanes _ _ _ _) l = _
      rw [rest]
      rfl
    rw [advanced l, gcur, lane]
  · rw [cvec m l (BitVec.lt_of_getLsbD hl), if_pos (by simp [vecWritten, hm, hl]), zeroDiv]
  · rw [csca m, if_pos (by rw [hm]; exact scaWritten_self some_)]
    rfl
  · have hl32 := BitVec.lt_of_getLsbD hl
    have status : vecWritten c s.cur.lanes 1 (n + j) l = false := vecWritten_apart fun m hm => by
      have := apart m hm
      omega
    have written : vecWritten d (e.takers s.cur.lanes d) words (n + j) l = true := by
      simp [hn, vecWritten, TicketEntry.takers, hl, taken, hj]
    rw [cvec _ l hl32, status, if_neg Bool.false_ne_true, vec _ l hl32, if_pos written, hn]
    show BitVec.ofNat 32 (f l / 2 ^ (32 * (n + j - n))) = _
    rw [Nat.add_sub_cancel_left]
    have inside : words ≤ 4 := by show (if _ then _ else _) ≤ 4; split_ifs <;> omega
    exact Width.extend_word e.width _ (by omega)
  · have lead := leader_mem some_
    obtain ⟨one, leads⟩ := leader_laneBit (BitVec.lt_of_getLsbD lead)
    have takers : e.takers s.cur.lanes d = laneBit (leader s.cur.lanes) := by rw [hn]; exact if_pos taken
    rw [csca n, scaWritten_apart apart, if_neg Bool.false_ne_true, sca n, takers, if_pos (by rw [hn]; exact scaWritten_self one), leads]
    simpa using Width.extend_word e.width (bytesToNat (e.data.get (leader s.cur.lanes))) (n := 64) (j := 0) (by decide)
  · have status : vecWritten c s.cur.lanes 1 k l = false := vecWritten_apart fun m hm => by
      have : m ≠ k := fun h => hk (by rw [hm, h])
      omega
    rw [cvec k l hl, status, if_neg Bool.false_ne_true, vec k l hl, vecWritten_apart apart, if_neg Bool.false_ne_true]
  · rw [csca k, scaWritten_apart hk, if_neg Bool.false_ne_true, sca k, scaWritten_apart hd, if_neg Bool.false_ne_true]

end Sys2Proof

namespace Sys2Proof

open Sys2Proof.Machine

theorem ticketRedeemed : Part.TicketUse := by
  intro s try_ d a b c t e past same ht quiet noReqs _ freed answers live
  have idle : Idle s := quiet
  have live_iff : e.live t = true ↔ live := TicketEntry.live_iff
  have dead : ¬ live → e.live t = false := fun h => Bool.eq_false_iff.2 (mt live_iff.1 h)
  have status : ∀ {i : Instr} {st : Operand} {x : Nat}, (clear i s = true → exec i s = .next (s.answerStatus st x i.len)) → answers i st x :=
    fun run hc => ⟨_, run hc, answerStatus_result ..⟩
  let v := { s with tickets := s.tickets.set (tkKey t) (e.free true) }
  refine ⟨fun check => ⟨fun h => ⟨status fun hc => ?_, fun young => status fun hc => ?_⟩, fun h old => status fun hc => ?_,
    fun h young hs => status fun hc => ?_, fun h young hs => status fun hc => ?_, fun h hc => ?_⟩, fun check hb => ?_, ?_⟩
  · refine (exec_tkdrop s).trans (tkOp_ok hc same ht check ?_)
    rw [if_neg (ne_true_of_eq_false (dead h))]
    rfl
  · refine tkstat_answers hc same ht check idle ?_
    rw [if_neg fun o => young.elim o.1 fun y => absurd o.2 (not_le.2 y), TicketEntry.found_past (dead h)]
    rfl
  · refine tkstat_answers hc same ht check idle ?_
    rw [if_pos ⟨h.2, old⟩, TicketEntry.found_expired]
  · refine tkstat_answers hc same ht check idle ?_
    rw [if_neg fun o => absurd o.2 (not_le.2 young), TicketEntry.found_pending (live_iff.2 h) hs]
  · refine tkstat_answers hc same ht check idle ?_
    rw [if_neg fun o => absurd o.2 (not_le.2 young), TicketEntry.found_ready (live_iff.2 h) hs]
    show (if e.err.isSome then 2 ^ 8 else 0) = if e.err = none then 0 else 2 ^ 8
    cases e.err <;> rfl
  · have run : exec (.tkdrop d a) s = .next (v.answerStatus d 0 (Instr.tkdrop d a).len) := by
      refine (exec_tkdrop s).trans (tkOp_ok hc same ht check ?_)
      rw [if_pos (live_iff.2 h), idle.freeTicket_spent noReqs]
      rfl
    obtain ⟨frame, regs, advanced⟩ := answerStatus_spec (s := s) (v := v) rfl rfl d 0 (Instr.tkdrop d a).len
    exact ⟨_, run, freed_spec (s := s) (by rw [frame]), regs, advanced, fun x => by rw [frame]⟩
  · intro words value fits
    have check' : fits → s.redeemCheck e d 0 = none := State.redeemCheck_lanes hb
    refine ⟨fun h => status fun hc => redeem_step hc same ht check (State.redeemStep_past (dead h)),
      fun h f hs => status fun hc => redeem_step hc same ht check (State.redeemStep_pending (live_iff.2 h) (check' f) hs),
      fun h f hs hc => ?_, fun h f hs sound hc => ?_⟩
    · have run := redeem_step hc same ht check (State.redeemStep_pending (try_ := false) (st := c) (live_iff.2 h) (check' f) hs)
      obtain ⟨only, waits⟩ := State.block_spec s (Instr.redeem false d a c).len (.redeem (BitVec.ofNat 64 t) d none c)
      refine ⟨_, run, ?_⟩
      rw [if_neg Bool.false_ne_true, show (s.tickets.get (tkKey t)).block = false from hb, if_neg Bool.false_ne_true]
      exact ⟨only, waits⟩
    · have run := redeem_step hc same ht check (State.redeemStep_ready (try_ := try_) (st := c) (live_iff.2 h) (check' f) idle noReqs hs sound)
      obtain ⟨frame, advanced, regs⟩ := giveTicket_lanes (s := s) (v := v) rfl rfl hb d c 0 (Instr.redeem try_ d a c).len
      exact ⟨_, run, freed_spec (s := s) (by rw [frame]), advanced, fun x => by rw [frame], regs⟩
  · intro off check hoff aligned hb fits
    subst hoff
    have check' : s.redeemCheck e .z (s.lead32 b) = none := State.redeemCheck_block hb fits
    refine ⟨fun h => status fun hc => redeemX_step hc same ht check aligned (State.redeemStep_past (dead h)),
      fun h hs => status fun hc => redeemX_step hc same ht check aligned (State.redeemStep_pending (live_iff.2 h) check' hs),
      fun h hs sound hc => ?_⟩
    have run := redeemX_step hc same ht check aligned (State.redeemStep_ready (try_ := try_) (st := c) (live_iff.2 h) check' idle noReqs hs sound)
    have given : v.giveTicket e s.cur.warp s.cur.lanes .z (s.lead32 b) = v.storeX ((s.crewOf s.cur.warp).phys (s.lead32 b)) (e.data.get 0) :=
      if_pos hb
    obtain ⟨frame, regs, advanced⟩ := answerStatus_spec (s := s) (v := v.giveTicket e s.cur.warp s.cur.lanes .z (s.lead32 b))
      (by rw [given]; rfl) (by rw [given]; rfl) c 0 (Instr.redeemX try_ a b c).len
    exact ⟨_, run, freed_spec (s := s) (by rw [frame, given]; rfl), regs, advanced, by rw [frame, given]; rfl⟩

end Sys2Proof

/-! ### The table's own steps (R105, R108) -/

namespace Sys2Proof.Machine

open Sys2Proof

section
variable {s : State} {key : Nat} {ops : List LaneOp}

theorem State.touch_plain {x : Xlat} (h : x.mig = false) (n : Nat) : s.touch x n = s := if_neg (ne_true_of_eq_false h)

theorem State.lineFault_plain {x : Xlat} (h : x.mig = false) (n : Nat) : s.lineFault x n = none := if_neg (ne_true_of_eq_false h)

/-- The L1 lines and the slices' counters that a read of parts leaves. -/
theorem State.servedParts_frame (s : State) (n : Nat) (ops : List LaneOp) :
    let t := ops.foldl (fun s o => (s.countServed o.pa).dropEveryL1 o.pa n) s
    t = { s with cores := t.cores, sliceCount := t.sliceCount } := by
  induction ops generalizing s with
  | nil => rfl
  | cons o ops ih =>
    have first := s.countServed_frame o.pa
    have rest := ih ((s.countServed o.pa).dropEveryL1 o.pa n)
    dsimp only at rest ⊢
    rw [List.foldl_cons, rest, first]
    rfl

/-- Sound parts of pages that do not migrate, read: their bytes are staged by lane (R105). -/
theorem State.stageParts_sound (h : ∀ o ∈ ops, o.mig = false ∧ s.readBad o.pa (s.tickets.get key).partBytes = false) :
    let e := s.tickets.get key
    let t := s.stageParts key ops
    t = { s with tickets := t.tickets, cores := t.cores, sliceCount := t.sliceCount }
      ∧ t.tickets = s.tickets.set key { e with data := e.data ++ ops.map fun o => (o.lane, s.readPhys o.pa e.partBytes) } := by
  intro e t
  let n := e.partBytes
  have touched : ∀ os : List LaneOp, (∀ o ∈ os, o ∈ ops) → os.foldl (fun s o => s.touch o.xlat n) s = s := by
    intro os
    induction os with
    | nil => exact fun _ => rfl
    | cons o os ih =>
      intro sub
      rw [List.foldl_cons, State.touch_plain (h o (sub o (.head _))).1]
      exact ih fun q hq => sub q (.tail _ hq)
  have sound : ops.filter (fun o => (s.lineFault o.xlat n).isNone) = ops :=
    List.filter_eq_self.2 fun o ho => by rw [State.lineFault_plain (h o ho).1]; rfl
  have line : ops.filterMap (fun o => (s.lineFault o.xlat n).map fun f => (⟨f.1, o.va, e.lanesOf [o], f.2⟩ : AccessFault)) = [] :=
    List.filterMap_eq_nil_iff.2 fun o ho => by rw [State.lineFault_plain (h o ho).1]; rfl
  have bad : ops.filter (fun o => s.readBad o.pa n) = [] := List.filter_eq_nil_iff.2 fun o ho => ne_true_of_eq_false (h o ho).2
  have good : ops.filter (fun o => !s.readBad o.pa n) = ops := List.filter_eq_self.2 fun o ho => by rw [(h o ho).2]; rfl
  let u := ops.foldl (fun s o => (s.countServed o.pa).dropEveryL1 o.pa n) s
  have frame : u = { s with cores := u.cores, sliceCount := u.sliceCount } := s.servedParts_frame n ops
  have run : t = { u with tickets := u.tickets.set key { e with data := e.data ++ ops.map fun o => (o.lane, s.readPhys o.pa n) } } := by
    show s.stageParts key ops = _
    unfold State.stageParts
    dsimp only
    rw [touched ops fun _ h => h]
    rw [sound, line, bad, show s.logReads (s.tickets.get key).ctx n [] = s from rfl, good]
    rfl
  rw [run]
  exact ⟨by rw [frame], by rw [frame]⟩

/-- An entry of which every part is read is ready, its bytes in the order of lanes. -/
theorem State.readied_ready (hs : (s.tickets.get key).state = 1) (noReqs : (s.tickets.get key).reqs = []) :
    let e := s.tickets.get key
    s.readied key = { s with tickets := s.tickets.set key { e with state := 2, data := sortBy (·.1) e.data } } := if_pos ⟨hs, noReqs⟩

/-- What the parts' bytes, sorted, hold for each lane. -/
theorem staged_get (nodup : (ops.map (·.lane)).Nodup) (f : LaneOp → List Byte) {o : LaneOp} (ho : o ∈ ops) :
    FMap.get (sortBy (·.1) (ops.map fun o => (o.lane, f o))) o.lane = f o := by
  have keys : ((ops.map fun o => (o.lane, f o)).map (·.1)).Nodup := by rw [List.map_map]; exact nodup
  rw [FMap.get, FMap.find_sortBy keys, FMap.find_of_mem keys (List.mem_map.2 ⟨o, ho, rfl⟩)]
  rfl

end

end Sys2Proof.Machine

namespace Sys2Proof

open Sys2Proof.Machine

section
variable {s : State} {table entry : Nat}

theorem exec_ticketReady (s : State) : exec (.ticketReady table entry) s = execTicketReady table entry s := rfl
theorem exec_ticketDeadline (s : State) : exec (.ticketDeadline table entry) s = execTicketDeadline table entry s := rfl

/-- A pending entry of local memory becomes ready with the bytes of its parts (R105). -/
theorem ticketReady_local (idle : Idle s) {ops : List LaneOp} :
    let k := table * 4096 + entry
    let e := s.tickets.get k
    e.parts = ops → e.state = 1 → e.reqs = [] → e.data = [] → (ops.map (·.lane)).Nodup →
    (∀ o ∈ ops, o.mig = false ∧ s.readBad o.pa e.partBytes = false) →
    ∃ t data, exec (.ticketReady table entry) s = .next t ∧ t.tickets = s.tickets.set k { e with state := 2, data := data, reqs := [] }
      ∧ (∀ o ∈ ops, data.get o.lane = s.readPhys o.pa e.partBytes)
      ∧ t = { s with tickets := t.tickets, cores := t.cores, sliceCount := t.sliceCount } := by
  intro k e hparts hs noReqs noData nodup sound
  let f := fun o : LaneOp => s.readPhys o.pa e.partBytes
  let data := sortBy (fun p : Nat × List Byte => p.1) (ops.map fun o => (o.lane, f o))
  let u := s.stageParts k ops
  obtain ⟨frame, tickets⟩ : u = { s with tickets := u.tickets, cores := u.cores, sliceCount := u.sliceCount }
    ∧ u.tickets = s.tickets.set k { e with data := e.data ++ ops.map fun o => (o.lane, f o) } := State.stageParts_sound sound
  have entry_ : u.tickets.get k = { e with data := ops.map fun o => (o.lane, f o) } := by
    rw [tickets, FMap.get_set_self, noData, List.nil_append]
  have readied : u.readied k = { u with tickets := u.tickets.set k { e with state := 2, data := data } } := by
    rw [State.readied_ready (by rw [entry_]; exact hs) (by rw [entry_]; exact noReqs), entry_]
  have idle' : Idle { u with tickets := u.tickets.set k { e with state := 2, data := data } } := idle.of_warps (by rw [frame])
  refine ⟨{ u with tickets := u.tickets.set k { e with state := 2, data := data } }, data, ?_, ?_, fun o ho => staged_get nodup f ho, ?_⟩
  · refine (exec_ticketReady s).trans ?_
    have pending : ¬ (s.tickets.get (entryKey table entry)).state ≠ 1 := not_not.2 hs
    have whole : (s.tickets.get (entryKey table entry)).reqs = [] := noReqs
    unfold execTicketReady
    dsimp only
    rw [if_neg pending, if_pos whole, show (s.tickets.get (entryKey table entry)).parts = ops from hparts,
      show (s.stageParts (entryKey table entry) ops).readied (entryKey table entry) = _ from readied, idle'.settleTicket]
  · show u.tickets.set k _ = _
    rw [tickets, FMap.set_set, ← noReqs]
  · show _ = _
    rw [frame]

/-- The answer of the last request of a pending entry makes it ready with the bytes of that request (R105). -/
theorem ticketReady_answered (idle : Idle s) {id : Nat} {r : Req} :
    let k := table * 4096 + entry
    let e := s.tickets.get k
    e.state = 1 → e.reqs = [id] → e.data = [] → s.reqs.find id = some r → s.answers id r = true →
    s.fabricFault r.ctx r.pa r.size false = none → (r.ops.map (·.lane)).Nodup →
    (∀ o ∈ r.ops, o.mig = false ∧ s.readBad o.pa e.partBytes = false) →
    ∃ t data, exec (.ticketReady table entry) s = .next t ∧ t.tickets = s.tickets.set k { e with state := 2, data := data, reqs := [] }
      ∧ (∀ o ∈ r.ops, data.get o.lane = s.readPhys o.pa e.partBytes) ∧ t.mem = s.mem ∧ t.reqs.find id = none
      ∧ ∀ v, t.warp v = s.warp v := by
  intro k e hs one noData found answers faultless nodup sound
  have held : s.reqs.get id = r := by rw [FMap.get, found]; rfl
  let f := fun o : LaneOp => s.readPhys o.pa e.partBytes
  let data := sortBy (fun p : Nat × List Byte => p.1) (r.ops.map fun o => (o.lane, f o))
  let staged : TicketEntry := { e with data := r.ops.map fun o => (o.lane, f o) }
  let u := s.stageParts k r.ops
  obtain ⟨frame, tickets⟩ : u = { s with tickets := u.tickets, cores := u.cores, sliceCount := u.sliceCount }
    ∧ u.tickets = s.tickets.set k { e with data := e.data ++ r.ops.map fun o => (o.lane, f o) } := State.stageParts_sound sound
  have entry_ : u.tickets.get k = staged := by rw [tickets, FMap.get_set_self, noData, List.nil_append]
  let u1 := { u with tickets := u.tickets.set k { staged with reqs := [] } }
  have idle1 : Idle u1 := idle.of_warps (by show u.warps = _; rw [frame])
  have dropped := idle1.dropReq id
  let u2 := u1.dropReq id
  have answered : u.answeredPart k id = u2 := by
    have left : staged.reqs.filter (· != id) = [] := by
      show e.reqs.filter _ = []
      rw [one]
      simp
    unfold State.answeredPart
    rw [entry_]
    dsimp only
    rw [left]
  have tickets2 : u2.tickets = u.tickets.set k { staged with reqs := [] } := by
    show (u1.dropReq id).tickets = _
    rw [dropped.frame]
  have entry2 : u2.tickets.get k = { staged with reqs := [] } := by rw [tickets2, FMap.get_set_self]
  let t := { u2 with tickets := u2.tickets.set k { e with state := 2, data := data, reqs := [] } }
  have readied : u2.readied k = t := by
    rw [State.readied_ready (by rw [entry2]; exact hs) (by rw [entry2]), entry2]
  have idle2 : Idle t := dropped.idle
  refine ⟨t, data, ?_, ?_, fun o ho => staged_get nodup f ho, ?_, dropped.gone id (.inl (.head _)), fun v => (dropped.warp v).trans ?_⟩
  · refine (exec_ticketReady s).trans ?_
    have pending : ¬ (s.tickets.get (entryKey table entry)).state ≠ 1 := not_not.2 hs
    have some_ : ¬ (s.tickets.get (entryKey table entry)).reqs = [] := by
      show ¬ e.reqs = []
      rw [one]
      exact List.cons_ne_nil _ _
    have first : (s.tickets.get (entryKey table entry)).reqs.find? (fun id => s.answers id (s.reqs.get id)) = some id := by
      show e.reqs.find? _ = _
      rw [one, List.find?_cons_of_pos (by rw [held]; exact answers)]
    unfold execTicketReady
    dsimp only
    rw [if_neg pending, if_neg some_, first]
    dsimp only
    rw [held, faultless]
    dsimp only
    rw [show (s.stageParts (entryKey table entry) r.ops).answeredPart (entryKey table entry) id = u2 from answered,
      show u2.readied (entryKey table entry) = t from readied, idle2.settleTicket]
  · show u2.tickets.set k _ = _
    rw [tickets2, FMap.set_set, tickets, FMap.set_set]
  · show u2.mem = _
    have mem : u2.mem = u1.mem := by show (u1.dropReq id).mem = _; rw [dropped.frame]
    rw [mem]
    show u.mem = _
    rw [frame]
  · show u.warp v = _
    rw [frame]
    rfl

end

/-- An entry set, as the statement describes it. -/
theorem ticketSet_spec {m : FMap TicketEntry} {s : State} {k : Nat} {x : TicketEntry} (h : m = s.tickets.set k x) :
    m.get k = x ∧ ∀ j, j ≠ k → m.get j = s.tickets.get j := by
  rw [h]
  exact ⟨FMap.get_set_self .., fun j hj => FMap.get_set_ne _ _ hj⟩

theorem ticketSteps : Part.TicketSteps := by
  intro s table entry k e others ready sound quiet
  have idle : Idle s := quiet
  refine ⟨fun hs noReqs noData hsound => ?_, fun id r hs one noData found answers faultless hsound => ?_, fun hs => ?_, fun hs old => ?_,
    fun hs young => ?_⟩
  · obtain ⟨t, data, run, tickets, bytes, frame⟩ := ticketReady_local (table := table) (entry := entry) idle rfl hs noReqs noData hsound.1 hsound.2
    obtain ⟨own, other⟩ := ticketSet_spec tickets
    exact ⟨t, run, ⟨data, own, bytes, other, fun x => by rw [frame]⟩, fun v => by rw [frame]; rfl⟩
  · obtain ⟨t, data, run, tickets, bytes, mem, gone, warps⟩ := ticketReady_answered (table := table) (entry := entry) idle hs one noData found answers
      faultless hsound.1 hsound.2
    obtain ⟨own, other⟩ := ticketSet_spec tickets
    exact ⟨t, run, ⟨data, own, bytes, other, fun x => by rw [mem]⟩, gone, warps⟩
  · exact (exec_ticketReady s).trans (if_pos hs)
  · have freed := idle.freeTicket k false
    obtain ⟨own, other⟩ := ticketSet_spec freed.tickets
    have expired : s.ticketExpired k e = true := by
      simp [State.ticketExpired, hs, old, idle.redeemBlocked]
    refine ⟨_, (exec_ticketDeadline s).trans (if_pos expired), ?_, ?_, ?_, ⟨other, fun x => congrArg (Memory.get · x) freed.mem⟩, freed.warp⟩
    · exact (congrArg TicketEntry.state own).trans rfl
    · exact (congrArg TicketEntry.spent own).trans rfl
    · exact (congrArg TicketEntry.reuse own).trans rfl
  · have young' : s.ticketExpired k e = false := by
      simp [State.ticketExpired, young]
    exact (exec_ticketDeadline s).trans (if_neg (ne_true_of_eq_false young'))

/-- Settles O24: a redeem is the table's step on its entry (`ticketRedeemed`); a read stages its parts' bytes and readies the entry, a deadline
frees it (`ticketSteps`). -/
theorem ticketUse : Obligations.TicketUse := ⟨ticketRedeemed, ticketSteps⟩

end Sys2Proof

/-! ## O26: the answers of the fabric

The other side performs a request (`State.performReq_load`, `_atom`, `_store`); its answer completes the lanes that wait for nothing else
(`SoleWait.completed`), or is noted; a timeout is a trap its lanes take (`SoleWait.timeout_taken`) or that is kept (`SoleWait.timeout_kept`). -/

namespace Sys2Proof.Machine

open Sys2Proof

/-! ### The lanes' values of a request -/

theorem FMap.set_perm {α : Type} {m : FMap α} {k : Nat} (fresh : k ∉ m.map (·.1)) (a : α) : (m.set k a).Perm ((k, a) :: m) := by
  induction m with
  | nil => exact .refl _
  | cons p m ih =>
    obtain ⟨j, b⟩ := p
    obtain ⟨other, fresh⟩ := not_or.1 (mt List.mem_cons.2 fresh)
    rw [FMap.set, if_neg other]
    split
    · exact .refl _
    · exact ((ih fresh).cons (j, b)).trans (.swap (k, a) (j, b) m)

/-- Each lane of distinct ones given a value: the keys are those lanes. -/
theorem keys_foldl {σ : Type} {step : σ → LaneOp → σ} {vals : σ → FMap Nat} (sets : ∀ a o, ∃ x, vals (step a o) = (vals a).set o.lane x)
    {ops : List LaneOp} {a : σ} (nodup : (ops.map (·.lane) ++ (vals a).map (·.1)).Nodup) :
    ((vals (ops.foldl step a)).map (·.1)).Perm (ops.map (·.lane) ++ (vals a).map (·.1)) := by
  induction ops generalizing a with
  | nil => exact .refl _
  | cons o ops ih =>
    obtain ⟨x, set⟩ := sets a o
    obtain ⟨fresh, nodup⟩ := List.nodup_cons.1 nodup
    have keys : ((vals (step a o)).map (·.1)).Perm (o.lane :: (vals a).map (·.1)) := by
      rw [set]
      exact (FMap.set_perm (fun h => fresh (List.mem_append_right _ h)) x).map _
    have moved : (ops.map (·.lane) ++ (vals (step a o)).map (·.1)).Perm (o.lane :: (ops.map (·.lane) ++ (vals a).map (·.1))) :=
      (keys.append_left _).trans List.perm_middle
    exact (ih (moved.nodup_iff.2 (List.nodup_cons.2 ⟨fresh, nodup⟩))).trans moved

theorem FMap.find_append {α : Type} (m n : FMap α) (k : Nat) : FMap.find (m ++ n) k = (m.find k).or (n.find k) := by
  induction m with
  | nil => rfl
  | cons p m ih =>
    obtain ⟨j, b⟩ := p
    rw [List.cons_append, FMap.find_cons, FMap.find_cons]
    split
    · rfl
    · exact ih

/-- Of lanes answered, each distinct one has the value of its access. -/
theorem Got.answered_find_eq {os : List LaneOp} (nodup : (os.map (·.lane)).Nodup) (f : LaneOp → Nat) (g : Got) (l : Nat) :
    (g.answered os f).vals.find l = ((os.find? fun o => o.lane == l).map f).or (g.vals.find l) := by
  induction os generalizing g with
  | nil => rfl
  | cons o os ih =>
    obtain ⟨fresh, nodup⟩ := List.nodup_cons.1 nodup
    refine (ih nodup { g with vals := g.vals.set o.lane (f o) }).trans ?_
    rw [List.find?_cons]
    by_cases e : o.lane = l
    · have none : os.find? (fun q => q.lane == l) = none :=
        List.find?_eq_none.2 fun q hq same => fresh (List.mem_map.2 ⟨q, hq, (beq_iff_eq.1 same).trans e.symm⟩)
      rw [none, beq_iff_eq.2 e]
      exact (FMap.find_set ..).trans (if_pos e.symm)
    · rw [beq_eq_false_iff_ne.2 e, FMap.find_set, if_neg (Ne.symm e)]

theorem Got.answered_new (os : List LaneOp) (f : LaneOp → Nat) : Got.answered ⟨[], []⟩ os f = ⟨(Got.answered ⟨[], []⟩ os f).vals, []⟩ :=
  congrArg (Got.mk _) (Got.answered_faults ..)

theorem Got.answered_keys {os : List LaneOp} (nodup : (os.map (·.lane)).Nodup) (f : LaneOp → Nat) :
    ((Got.answered ⟨[], []⟩ os f).vals.map (·.1)).Perm (os.map (·.lane)) := by
  have := keys_foldl (step := fun (g : Got) o => { g with vals := g.vals.set o.lane (f o) }) (vals := Got.vals) (fun _ _ => ⟨_, rfl⟩)
    (ops := os) (a := ⟨[], []⟩) (by rw [List.map_nil, List.append_nil]; exact nodup)
  rwa [List.map_nil, List.append_nil] at this

theorem atomsInOrder_keys {op : AtomOp} {ty : AtomTy} {m : Memory} {ops : List LaneOp} (nodup : (ops.map (·.lane)).Nodup) :
    ((atomsInOrder op ty m ops).2.map (·.1)).Perm (ops.map (·.lane)) := by
  have := keys_foldl (step := atomStep op ty) (vals := Prod.snd) (fun _ _ => ⟨_, rfl⟩)
    (ops := ops) (a := (m, [])) (by rw [List.map_nil, List.append_nil]; exact nodup)
  rwa [List.map_nil, List.append_nil] at this

/-! ### The request performed (R92, R424) -/

/-- What the other side performs changes: memory, its errors, L1 lines, counters of slices. -/
def ServedOnly (s u : State) : Prop := u = { s with
  mem := u.mem, poison := u.poison, dirty := u.dirty, weak := u.weak, chans := u.chans, cores := u.cores, sliceCount := u.sliceCount }

namespace ServedOnly
variable {s t u : State}

theorem trans (h : ServedOnly s t) (k : ServedOnly t u) : ServedOnly s u := by
  rw [ServedOnly, k]
  rw [h]

theorem of_stores (h : SoundStores s u) : ServedOnly s u := h.frame

theorem of_cores (h : CoresOnly s u) : ServedOnly s u := by rw [h]; rfl

theorem countServed (s : State) (pa : Nat) : ServedOnly s (s.countServed pa) := (Stores.countServed s pa).frame

end ServedOnly

section
variable {s : State} {r : Req}

theorem State.performReq_load (kind : r.kind = .load) (good : ∀ o ∈ r.ops, s.readBad o.pa r.bytes = false) :
    s.performReq r = (s.countServed r.pa, Got.answered ⟨[], []⟩ r.ops fun o => bytesToNat (s.readPhys o.pa r.bytes)) := by
  let u := s.countServed r.pa
  have frame : u = { s with sliceCount := u.sliceCount } := s.countServed_frame _
  have sound : ∀ o ∈ r.ops, u.readBad o.pa r.bytes = false := fun o ho => by rw [frame]; exact good o ho
  have none : r.ops.filter (fun o => u.readBad o.pa r.bytes) = [] :=
    List.filter_eq_nil_iff.2 fun o ho => ne_true_of_eq_false (sound o ho)
  unfold State.performReq
  rw [kind]
  dsimp only
  rw [show r.ops.filter (fun o => (s.countServed r.pa).readBad o.pa r.bytes) = [] from none]
  have unlogged : (s.countServed r.pa).logReads r.ctx r.bytes [] = s.countServed r.pa := rfl
  rw [unlogged]
  refine Prod.ext rfl (List.foldl_ext _ _ _ fun g o ho => ?_)
  rw [show (s.countServed r.pa).readBad o.pa r.bytes = false from sound o ho]
  rw [show s.countServed r.pa = { s with sliceCount := u.sliceCount } from frame]
  rfl

theorem State.performReq_atom {op : AtomOp} {ty : AtomTy} {ret : Bool} (kind : r.kind = .atom op ty ret) (bytes : r.bytes = ty.bytes)
    (hok : op.tyOk ty = true) (h : ∀ o ∈ r.ops, s.readBad o.pa r.bytes = false ∧ s.chanFailed (s.ownAddr o.pa) = false) :
    let all := atomsInOrder op ty s.mem (r.ops.map s.ownOp)
    ∃ u, s.performReq r = (u, ⟨all.2, []⟩) ∧ SoundStores s u ∧ u.mem = all.1 := by
  intro all
  let c := s.countServed r.pa
  have frame : c = { s with sliceCount := c.sliceCount } := s.countServed_frame _
  have counted : SoundStores s c := .of_cores (by rw [frame])
  obtain ⟨u, run, stores, mem⟩ := State.atomLanes_own (s := c) (ops := r.ops) hok (fun o ho => by
    rw [← bytes, counted.ownAddr, counted.chanFailed]
    exact ⟨counted.sound _ _ (h o ho).1, (h o ho).2⟩) r.ctx ⟨[], []⟩
  have own : r.ops.map c.ownOp = r.ops.map s.ownOp := List.map_congr_left fun o _ => by
    rw [State.ownOp, State.ownOp, counted.ownAddr]
  rw [own, show c.mem = s.mem by rw [frame]] at run mem
  refine ⟨u, ?_, counted.trans stores, mem⟩
  unfold State.performReq
  rw [kind, bytes]
  exact run

/-- A store performed writes each lane's bytes. -/
theorem State.performReq_store (kind : r.kind = .store) (good : Good s) (working : ∀ o ∈ r.ops, s.chanFailed (s.ownAddr o.pa) = false) :
    Stores s (s.performReq r).1 (r.ops.map fun o => (s.ownAddr o.pa, natToBytes r.bytes o.b)) := by
  let c := s.countServed r.pa
  have counted : Stores s c [] := .countServed ..
  have lanes : Stores c (r.ops.foldl (fun u o => u.storePhys r.ctx o.pa o.va (natToBytes r.bytes o.b)) c)
      (r.ops.flatMap fun o => [(s.ownAddr o.pa, natToBytes r.bytes o.b)]) := Stores.foldl r.ops fun t vs stored o ho => by
    have own : t.ownAddr o.pa = s.ownAddr o.pa := (stored.ownAddr _).trans (counted.ownAddr _)
    have works : ¬ t.chanFailed (t.ownAddr o.pa) = true := by
      rw [own, stored.chanFailed, counted.chanFailed, working o ho]
      exact Bool.false_ne_true
    have run : t.storePhys r.ctx o.pa o.va (natToBytes r.bytes o.b) = t.store (t.ownAddr o.pa) (natToBytes r.bytes o.b) := if_neg works
    rw [run, own]
    exact .store ..
  have all := counted.trans (lanes.trans (stores_wroteWhole ((counted.trans lanes).good good) r.ops r.bytes))
  rw [List.nil_append, List.append_nil, ← List.map_eq_flatMap] at all
  unfold State.performReq
  rw [kind]
  exact all

end

/-! ### Answers delivered (R271) -/

/-- The only wait of a request's warp is for its answer. -/
structure SoleWait (s : State) (id : Nat) (r : Req) (y : WaitRec) (m : MemWait) : Prop where
  found : s.reqs.find id = some r
  waits : (s.warp r.warp).waits = [y]
  wait : y.wait = .mem m
  asked : id ∈ m.reqs

/-- What lanes wait for once a request is answered. -/
def MemWait.answer (m : MemWait) (id : Nat) (g : Got) : MemWait := { m with
  reqs := m.reqs.filter (· != id), got := m.got ++ g.vals, faults := m.faults ++ g.faults, some_ := m.some_ || !g.vals.isEmpty }

/-- All answers in, as the instruction ends with them. -/
def MemWait.last (m : MemWait) (id : Nat) (g : Got) : MemWait :=
  { m.answer id g with got := sortBy (·.1) (m.got ++ g.vals) }

section
variable {s t u : State} {id : Nat} {r : Req} {y : WaitRec} {m : MemWait} {g : Got}

theorem SoleWait.congr (h : SoleWait s id r y m) (reqs : t.reqs = s.reqs) (warps : t.warps = s.warps) : SoleWait t id r y m :=
  ⟨by rw [reqs]; exact h.found, by rw [State.warp, warps]; exact h.waits, h.wait, h.asked⟩

theorem SoleWait.memWaiter (h : SoleWait s id r y m) : s.memWaiter id r = some (y, m) := by
  have listed : m.reqs.contains id = true := List.contains_iff_mem.2 h.asked
  unfold State.memWaiter
  rw [h.waits, List.findSome?_cons, h.wait]
  dsimp only
  rw [listed]
  rfl

/-- A request for which no lane waits. -/
theorem State.memWaiter_none (free : ∀ y ∈ (s.warp r.warp).waits, ∀ m, y.wait = .mem m → id ∉ m.reqs) : s.memWaiter id r = none := by
  refine List.findSome?_eq_none_iff.2 fun y hy => ?_
  split
  next m wait => exact if_neg (mt List.contains_iff_mem.1 (free y hy m wait))
  next => rfl

theorem SoleWait.deliver_last (h : SoleWait s id r y m) (last : m.reqs = [id]) (g : Got) :
    s.deliver id r g = s.finishMem r.warp y (m.last id g) := by
  have ends : m.reqs.filter (· != id) = [] := by rw [last]; simp
  unfold State.deliver
  rw [h.memWaiter]
  exact if_pos (by rw [ends]; rfl)

theorem SoleWait.deliver_more (h : SoleWait s id r y m) (more : ∃ k ∈ m.reqs, k ≠ id) (g : Got) :
    s.deliver id r g = s.setWarp r.warp { s.warp r.warp with waits := [{ y with wait := .mem (m.answer id g) }] } := by
  obtain ⟨k, hk, other⟩ := more
  have stays : ¬ (m.reqs.filter (· != id)).isEmpty = true := by
    rw [List.isEmpty_iff]
    exact List.ne_nil_of_mem (List.mem_filter.2 ⟨hk, bne_iff_ne.2 other⟩)
  unfold State.deliver
  rw [h.memWaiter]
  refine (if_neg stays).trans ?_
  dsimp only
  rw [h.waits, List.map_singleton, if_pos (beq_self_eq_true y)]
  rfl

theorem State.acquired_frame (s : State) (on : Bool) (core : Nat) :
    CoresOnly s (if on then s.emptyL1 core else s) := by
  split
  · exact s.emptyL1_frame core
  · exact .refl s

/-- Every answer in, without a fault: the lanes take their values and go on. -/
theorem State.finishMem_done (clean : m.faults = []) (w : Nat) : ∃ c : State, CoresOnly s c ∧ s.finishMem w y m =
    c.setWarp w (((s.warp w).writeLanes y.lanes m.words m.d fun l => m.value (m.got.get l)).release s.cycle y y.lanes) := by
  let c := if m.acq then s.emptyL1 (s.coreOf w) else s
  have cores : CoresOnly s c := s.acquired_frame m.acq (s.coreOf w)
  refine ⟨c, cores, ?_⟩
  have run : s.finishMem w y m = c.setWarp w (((c.warp w).writeMem y.lanes m).release c.cycle y y.lanes) :=
    if_pos (by rw [clean]; rfl)
  rw [run, show c.warp w = s.warp w by rw [cores]; rfl, show c.cycle = s.cycle by rw [cores]]
  rfl

/-- The trap of lanes whose instruction met faults. -/
def MemWait.trap (m : MemWait) (y : WaitRec) : Trap := { responseTrap m.faults (m.atomic && m.some_) with
  group := y.lanes, ret := some y.pc, port := y.port, slot := slotOfPc y.pc }

/-- What a load's lanes hold for a handler's values. -/
def MemWait.supply (m : MemWait) (y : WaitRec) : Option Supply :=
  if m.atomic then none else some { d := m.d, width := m.width, group := y.lanes, len := y.len, got := m.got, st := none }

/-- Every answer in, with a fault: the lanes take the response fault. -/
theorem State.finishMem_faults (faults : m.faults ≠ []) (w : Nat) : ∃ c : State, CoresOnly s c ∧ s.finishMem w y m =
    (c.setWarp w ((s.warp w).retry s.cycle y.lanes)).takeResponse w (m.trap y) (m.supply y) := by
  let c := if m.acq then s.emptyL1 (s.coreOf w) else s
  have cores : CoresOnly s c := s.acquired_frame m.acq (s.coreOf w)
  refine ⟨c, cores, ?_⟩
  have run : s.finishMem w y m = (c.setWarp w ((c.warp w).retry c.cycle y.lanes)).takeResponse w (m.trap y) (m.supply y) :=
    if_neg (by rw [List.isEmpty_iff]; exact faults)
  rw [run, show c.warp w = s.warp w by rw [cores]; rfl, show c.cycle = s.cycle by rw [cores]]

/-- Values given to waiting lanes, which go on. -/
structure Completed (s t : State) (id : Nat) (w : Nat) (y : WaitRec) (m : MemWait) (f : Nat → Nat) : Prop where
  gone : t.reqs.find id = none
  own : t.warp w = ((s.warp w).writeLanes y.lanes m.words m.d f).release s.cycle y y.lanes
  other : ∀ v, v ≠ w → t.warp v = s.warp v

/-- The last answer of an instruction: its lanes take what they were given before, or the answer's values (R271). -/
theorem SoleWait.completed (h : SoleWait s id r y m) (served : ServedOnly s u) (last : m.reqs = [id]) (clean : m.faults = [])
    {vals : FMap Nat} (nodup : (m.got.map (·.1) ++ vals.map (·.1)).Nodup) :
    let t := (u.deliver id r ⟨vals, []⟩).dropReq id
    Completed s t id r.warp y m (fun l => m.value ((m.got.find l).getD (vals.get l))) ∧ t.mem = u.mem := by
  intro t
  have sole : SoleWait u id r y m := h.congr (by rw [served]) (by rw [served])
  have nofault : (m.last id ⟨vals, []⟩).faults = [] := by
    show m.faults ++ [] = []
    rw [clean, List.append_nil]
  obtain ⟨c, cores, run⟩ := State.finishMem_done (s := u) (y := y) nofault r.warp
  have got : ∀ l, (m.last id ⟨vals, []⟩).got.get l = (m.got.find l).getD (vals.get l) := fun l => by
    have keys : ((m.got ++ vals).map (·.1)).Nodup := by rw [List.map_append]; exact nodup
    show ((FMap.find (sortBy (·.1) (m.got ++ vals)) l).getD default) = _
    rw [FMap.find_sortBy keys, FMap.find_append]
    cases m.got.find l <;> rfl
  let x := ((s.warp r.warp).writeLanes y.lanes m.words m.d fun l => m.value ((m.got.find l).getD (vals.get l))).release s.cycle y y.lanes
  have delivered : u.deliver id r ⟨vals, []⟩ = c.setWarp r.warp x := by
    rw [sole.deliver_last last, run, show u.warp r.warp = s.warp r.warp by rw [served]; rfl, show u.cycle = s.cycle by rw [served]]
    simp only [got]
    rfl
  have found : (c.setWarp r.warp x).reqs.find id = some r := by
    show c.reqs.find id = some r
    rw [cores]
    exact sole.found
  have released : x.waits = [] := by
    obtain ⟨_, _, _, regs⟩ := Warp.writeLanes_rest (s.warp r.warp) y.lanes m.words m.d fun l => m.value ((m.got.find l).getD (vals.get l))
    show ((Warp.writeLanes ..).release s.cycle y y.lanes).waits = []
    rw [regs, Warp.release_rest, Warp.unwait_single _ _ (by exact h.waits)]
  have dropped : ReqGone (c.setWarp r.warp x) t id r := by
    show ReqGone _ ((u.deliver id r ⟨vals, []⟩).dropReq id) id r
    rw [delivered]
    exact State.dropReq_gone found
  refine ⟨⟨dropped.gone, ?_, fun v hv => ?_⟩, ?_⟩
  · rw [dropped.still fun z hz => ?_, State.warp_setWarp_self]
    rw [State.warp_setWarp_self, released] at hz
    cases hz
  · rw [dropped.other hv, State.warp_setWarp_ne _ _ hv, cores, served]
    rfl
  · rw [dropped.frame, cores]
    rfl

end

section
variable {s t u : State} {id : Nat} {r : Req} {y : WaitRec} {m : MemWait} {f g : Nat → Nat} {w : Nat}

theorem Completed.congr (h : Completed s t id w y m f) (e : ∀ l, f l = g l) : Completed s t id w y m g := funext e ▸ h

/-- What the lanes of an instruction that its values complete have. -/
theorem Completed.results (h : Completed s t id w y m f) (waits : (s.warp w).waits = [y]) {all : List Nat}
    (given : ∀ l ∈ all, l < 32 ∧ y.lanes.getLsbD l = true) :
    t.reqs.find id = none ∧ (t.warp w).waits = []
      ∧ (∀ n, m.d = .v n → ∀ l ∈ all, ∀ j, j < m.words → (t.warp w).v (n + j) l = BitVec.ofNat 32 (f l / 2 ^ (32 * j)))
      ∧ (∀ n, m.d = .s n → leader y.lanes ∈ all → (t.warp w).s n = BitVec.ofNat 64 (f (leader y.lanes)))
      ∧ (∀ n l, l < 32 → (∀ k, m.d = .v k → n < k ∨ k + m.words ≤ n) → (t.warp w).v n l = (s.warp w).v n l)
      ∧ (∀ n, m.d ≠ .s n → (t.warp w).s n = (s.warp w).s n)
      ∧ (∀ j, y.lanes.getLsbD j = true → (t.warp w).lane j =
          { (s.warp w).lane j with pc := y.pc + BitVec.ofNat 64 y.len, readyAt := s.cycle + 1 })
      ∧ ∀ v, v ≠ w → t.warp v = s.warp v := by
  let z := (s.warp w).writeLanes y.lanes m.words m.d f
  obtain ⟨vec, sca, -, _, _, _, frame⟩ : (∀ n l, l < 32 → z.v n l = _) ∧ (∀ n, z.s n = _) ∧ _ ∧ ∃ v r b, z = _ :=
    writeLanes_spec (s.warp w) y.lanes m.words m.d f
  have own : t.warp w = z.release s.cycle y y.lanes := h.own
  have vkept : ∀ n l, (t.warp w).v n l = z.v n l := fun n l => by rw [own]; rfl
  have skept : ∀ n, (t.warp w).s n = z.s n := fun n => by rw [own]; rfl
  refine ⟨h.gone, ?_, fun n hn l hl j hj => ?_, fun n hn hl => ?_, fun n l hl apart => ?_, fun n hn => ?_, fun j hj => ?_, h.other⟩
  · rw [own, Warp.release_rest, Warp.unwait_single _ _ (by rw [frame]; exact waits)]
  · have written : vecWritten m.d y.lanes m.words (n + j) l = true := by
      simp [hn, vecWritten, (given l hl).2, hj]
    rw [vkept, vec _ _ (given l hl).1, if_pos written, hn, firstReg, Nat.add_sub_cancel_left]
  · have some_ : y.lanes ≠ 0 := fun e => by
      have := (given _ hl).2
      rw [e] at this
      simp at this
    rw [skept, sca, hn, if_pos (scaWritten_self some_)]
  · rw [vkept, vec n l hl, vecWritten_apart apart, if_neg Bool.false_ne_true]
  · rw [skept, sca, scaWritten_apart hn, if_neg Bool.false_ne_true]
  · rw [own, Warp.lane_release, if_pos hj, frame]
    rfl

/-! ### Traps of answers (R271, R290, R332) -/

/-- A warp whose trap is taken at once: outside the handler, with one to enter, no open chain, its crew not being saved. -/
structure TakesTraps (s : State) (w : Nat) : Prop where
  outside : (s.warp w).handler = none
  base : (s.ctx (s.ctxOf w)).trapbase ≠ 0
  chainA : (s.warp w).chainA = none
  chainB : (s.warp w).chainB = none
  stays : (s.crewOf w).saving = false
  alone : s.cur.pairs = false

theorem TakesTraps.takeResponse (h : TakesTraps s w) (t : Trap) (sup : Option Supply) :
    s.takeResponse w t sup = s.setWarp w ((s.warp w).enterHandler s.cycle (s.ctx (s.ctxOf w)).trapbase t sup) := by
  have strikes : (s.warp w).strikes s.cycle = s.cycle := by
    unfold Warp.strikes Warp.strikeCycle Warp.chain
    rw [h.chainA, h.chainB]
    exact Nat.max_self _
  have first : (s.warp w).firstTrap s.cycle t sup = (t, sup, s.warp w) := by
    unfold Warp.firstTrap Warp.wideTrap Warp.chain
    rw [h.chainA, h.chainB]
    rfl
  have entered : s.enterTrap w t sup = s.setWarp w ((s.warp w).enterHandler s.cycle (s.ctx (s.ctxOf w)).trapbase t sup) := by
    unfold State.enterTrap
    rw [strikes, if_neg (Nat.lt_irrefl _), first]
    exact if_neg h.base
  have taken : s.takeTrap w t sup = s.enterTrap w t sup := by
    unfold State.takeTrap
    dsimp only
    rw [h.alone, Bool.false_and, if_neg Bool.false_ne_true, h.outside]
  unfold State.takeResponse
  dsimp only
  rw [h.stays, if_neg (fun saving => Bool.false_ne_true saving.1), taken, entered]

/-- The lanes of a wait tried again, of a warp that takes traps at once. -/
theorem TakesTraps.retry (h : TakesTraps s w) (cur : t.cur = s.cur) (crews : t.crews = s.crews)
    (ctxs : t.ctxs = s.ctxs) (cycle : Nat) (lanes : LaneSet) : TakesTraps (t.setWarp w ((s.warp w).retry cycle lanes)) w := by
  obtain ⟨outside, base, chainA, chainB, stays, alone⟩ := h
  refine ⟨?_, ?_, ?_, ?_, ?_, ?_⟩
  · rw [State.warp_setWarp_self]
    exact outside
  · show (t.ctxs.get (t.crews.get (crewTok w)).ctx).trapbase ≠ 0
    rw [ctxs, crews]
    exact base
  · rw [State.warp_setWarp_self]
    exact chainA
  · rw [State.warp_setWarp_self]
    exact chainB
  · show (t.crews.get (crewTok w)).saving = false
    rw [crews]
    exact stays
  · show t.cur.pairs = false
    rw [cur]
    exact alone

/-- A warp that entered its handler with a fabric's timeout. -/
structure InTimeout (x : Warp) (lanes : DWord) : Prop where
  cause : x.trapcause.toNat % 256 = 0x0C
  lanes : x.traplanes = lanes
  inside : x.handler.isSome = true

/-- A trap of a request that timed out. -/
structure Trap.OfTimeout (t : Trap) : Prop where
  cause : t.cause = causeFabricTimeout
  plain : t.sub = 0 ∧ t.deferred = false ∧ t.bitoff = 0 ∧ t.block = 0 ∧ t.step = 0

theorem Warp.enterHandler_timeout {t : Trap} (h : t.OfTimeout) (x : Warp) (cycle : Nat) (base : DWord) (sup : Option Supply) :
    InTimeout (x.enterHandler cycle base t sup) t.lanesReg := by
  obtain ⟨cause, sub, deferred, bitoff, block, step⟩ := h
  refine ⟨?_, rfl, rfl⟩
  show t.causeReg.toNat % 256 = 0x0C
  unfold Trap.causeReg
  rw [cause, sub, deferred, bitoff, block, step]
  decide

theorem State.countLink_frame (s : State) (port source n : Nat) :
    s.countLink port source n = { s with ports := (s.countLink port source n).ports } := by
  unfold State.countLink
  dsimp only
  split <;> rfl

/-- A request that timed out unperformed: its tag is retired, its answer is late. -/
theorem State.timedOut_frame (s : State) (id : Nat) (r : Req) :
    s.timedOut id r false = { s with ports := (s.timedOut id r false).ports, late := (s.timedOut id r false).late } := by
  have unperformed : ¬ (false = true ∧ r.tag.isSome ∧ r.discarded = false ∧ s.fabricFault r.ctx r.pa r.size r.writes = none) :=
    fun h => Bool.false_ne_true h.1
  unfold State.timedOut
  rw [if_neg unperformed, State.countLink_frame]

end

section
variable {s t u : State} {id : Nat} {r : Req} {y : WaitRec} {m : MemWait}

theorem InTimeout.dropReq {lanes : DWord} (h : InTimeout (s.warp r.warp) lanes) (gone : ReqGone s t id r) :
    InTimeout (t.warp r.warp) lanes := by
  rw [gone.own]
  exact ⟨h.cause, h.lanes, h.inside⟩

/-- The fault of a load whose only request timed out (R67, R271). -/
def timeoutTrap (id : Nat) (r : Req) (y : WaitRec) (m : MemWait) : Trap := (m.last id (reqFault r causeFabricTimeout)).trap y

theorem timeoutTrap_ofTimeout (clean : m.faults = []) : (timeoutTrap id r y m).OfTimeout := by
  unfold timeoutTrap MemWait.trap MemWait.last MemWait.answer
  rw [clean]
  exact ⟨rfl, rfl, rfl, rfl, rfl, rfl⟩

theorem timeoutTrap_lanes (clean : m.faults = []) : (timeoutTrap id r y m).lanes = opLanes r.ops := by
  unfold timeoutTrap MemWait.trap MemWait.last MemWait.answer
  rw [clean]
  exact BitVec.zero_or

theorem timeoutTrap_lanesReg (clean : m.faults = []) (some_ : opLanes r.ops ≠ 0) :
    (timeoutTrap id r y m).lanesReg = (opLanes r.ops).setWidth 64 := by
  unfold Trap.lanesReg
  rw [timeoutTrap_lanes clean, if_neg some_]

/-- A load's only request times out: its lanes try again as they take the fault. -/
theorem SoleWait.timesOut (h : SoleWait s id r y m) (last : m.reqs = [id]) :
    ∃ (c : State) (sup : Option Supply), c = { s with ports := c.ports, late := c.late, cores := c.cores }
      ∧ (s.timedOut id r false).deliver id r (reqFault r causeFabricTimeout)
        = (c.setWarp r.warp ((s.warp r.warp).retry s.cycle y.lanes)).takeResponse r.warp (timeoutTrap id r y m) sup := by
  let u := s.timedOut id r false
  have frame : u = { s with ports := u.ports, late := u.late } := s.timedOut_frame id r
  have sole : SoleWait u id r y m := h.congr (by rw [frame]) (by rw [frame])
  obtain ⟨c, cores, run⟩ := State.finishMem_faults (s := u) (y := y) (m := m.last id (reqFault r causeFabricTimeout))
    (List.append_ne_nil_of_right_ne_nil _ (List.cons_ne_nil _ _)) r.warp
  refine ⟨c, (m.last id (reqFault r causeFabricTimeout)).supply y, by rw [cores, frame], ?_⟩
  rw [sole.deliver_last last, run, show u.warp r.warp = s.warp r.warp by rw [frame]; rfl, show u.cycle = s.cycle by rw [frame]]
  rfl

theorem SoleWait.timeout_taken (h : SoleWait s id r y m) (last : m.reqs = [id]) (clean : m.faults = []) (ready : TakesTraps s r.warp) :
    let t := ((s.timedOut id r false).deliver id r (reqFault r causeFabricTimeout)).dropReq id
    t.reqs.find id = none ∧ t.mem = s.mem ∧ InTimeout (t.warp r.warp) (timeoutTrap id r y m).lanesReg := by
  intro t
  obtain ⟨c, sup, frame, run⟩ := h.timesOut last
  let v := c.setWarp r.warp ((s.warp r.warp).retry s.cycle y.lanes)
  have takes : TakesTraps v r.warp := ready.retry (by rw [frame]) (by rw [frame]) (by rw [frame]) s.cycle y.lanes
  let x := (v.warp r.warp).enterHandler v.cycle (v.ctx (v.ctxOf r.warp)).trapbase (timeoutTrap id r y m) sup
  have taken : (s.timedOut id r false).deliver id r (reqFault r causeFabricTimeout) = v.setWarp r.warp x :=
    run.trans (takes.takeResponse ..)
  have found : (v.setWarp r.warp x).reqs.find id = some r := by
    show c.reqs.find id = some r
    rw [frame]
    exact h.found
  have gone : ReqGone (v.setWarp r.warp x) t id r := by
    show ReqGone _ (State.dropReq _ id) id r
    rw [taken]
    exact State.dropReq_gone found
  refine ⟨gone.gone, by rw [gone.frame]; show c.mem = s.mem; rw [frame], InTimeout.dropReq ?_ gone⟩
  rw [State.warp_setWarp_self]
  exact Warp.enterHandler_timeout (timeoutTrap_ofTimeout clean) ..

/-- A response fault of a warp whose crew is being saved is kept (R290). -/
theorem State.takeResponse_kept {w : Nat} (outside : (s.warp w).handler = none) (saving : (s.crewOf w).saving = true)
    (since : (s.crewOf w).savingAt < s.cycle) (f : Trap) (sup : Option Supply) :
    let x := s.warp w
    s.takeResponse w f sup = s.setWarp w { x with pendingFaults := x.pendingFaults ++ [({ f with deferred := true }, sup)] } :=
  if_pos ⟨saving, since, by rw [outside]⟩

/-- While the crew is being saved the fault is kept for its resume (R290, R328). -/
theorem SoleWait.timeout_kept (h : SoleWait s id r y m) (last : m.reqs = [id]) (outside : (s.warp r.warp).handler = none)
    (saving : (s.crewOf r.warp).saving = true) (since : (s.crewOf r.warp).savingAt < s.cycle) :
    let t := ((s.timedOut id r false).deliver id r (reqFault r causeFabricTimeout)).dropReq id
    t.reqs.find id = none ∧ t.mem = s.mem ∧ (t.warp r.warp).handler = none
      ∧ ∃ sup, (t.warp r.warp).pendingFaults = (s.warp r.warp).pendingFaults ++ [({ timeoutTrap id r y m with deferred := true }, sup)] := by
  intro t
  obtain ⟨c, sup, frame, run⟩ := h.timesOut last
  let z := (s.warp r.warp).retry s.cycle y.lanes
  let v := c.setWarp r.warp z
  let x : Warp := { z with pendingFaults := z.pendingFaults ++ [({ timeoutTrap id r y m with deferred := true }, sup)] }
  have own : v.warp r.warp = z := State.warp_setWarp_self ..
  have crew : v.crewOf r.warp = s.crewOf r.warp := by
    show c.crews.get (crewTok r.warp) = _
    rw [frame]
    rfl
  have taken : (s.timedOut id r false).deliver id r (reqFault r causeFabricTimeout) = v.setWarp r.warp x := by
    have kept := v.takeResponse_kept (w := r.warp) (by rw [own]; exact outside) (by rw [crew]; exact saving)
      (by rw [crew, show v.cycle = s.cycle by show c.cycle = _; rw [frame]]; exact since) (timeoutTrap id r y m) sup
    dsimp only at kept
    rw [own] at kept
    exact run.trans kept
  have found : (v.setWarp r.warp x).reqs.find id = some r := by
    show c.reqs.find id = some r
    rw [frame]
    exact h.found
  have gone : ReqGone (v.setWarp r.warp x) t id r := by
    show ReqGone _ (State.dropReq _ id) id r
    rw [taken]
    exact State.dropReq_gone found
  refine ⟨gone.gone, by rw [gone.frame]; show c.mem = s.mem; rw [frame], ?_, sup, ?_⟩
  · rw [gone.own, State.warp_setWarp_self]
    exact outside
  · rw [gone.own, State.warp_setWarp_self]
    rfl

/-! ### The other requests that end (R97, R98, R115, R439, R445) -/

/-- A quota request that fails: the lanes that wait for it take the trap. -/
theorem State.poolStop_lanes (kind : r.kind = .quota) (waiter : s.poolWaiter r.warp id = some y) (f : Trap) :
    s.poolStop id r f = ({ s with reqs := s.reqs.del id }.drainCheck r.port).poolTrap r.warp y { f with lanes := y.lanes } := by
  unfold State.poolStop
  rw [kind]
  dsimp only
  rw [waiter]

/-- The trap of a pool request's lanes that time out, taken at once. -/
theorem TakesTraps.poolTrap {w : Nat} (h : TakesTraps s w) (own : t.warp w = s.warp w) (cycle : t.cycle = s.cycle) (cur : t.cur = s.cur)
    (crews : t.crews = s.crews) (ctxs : t.ctxs = s.ctxs) {f : Trap} (timeout : f.OfTimeout) :
    ∃ x lanes, t.poolTrap w y f = t.setWarp w x ∧ InTimeout x lanes := by
  let v := t.setWarp w ((s.warp w).retry s.cycle y.lanes)
  have takes : TakesTraps v w := h.retry cur crews ctxs s.cycle y.lanes
  let f' : Trap := { f with group := y.lanes, ret := some y.pc, port := y.port, slot := slotOfPc y.pc }
  have run : t.poolTrap w y f = v.takeResponse w f' := by
    show (t.setWarp w ((t.warp w).retry t.cycle y.lanes)).takeResponse w f' = _
    rw [own, cycle]
  have timeout' : f'.OfTimeout := ⟨timeout.cause, timeout.plain⟩
  refine ⟨_, f'.lanesReg, run.trans ((takes.takeResponse f' none).trans (State.setWarp_setWarp ..)), Warp.enterHandler_timeout timeout' ..⟩

/-- A pool request that times out: its lanes take the fault. -/
theorem State.poolFault_taken {d st : Operand} (kind : r.kind = .quota) (waits : (s.warp r.warp).waits = [y])
    (wait : y.wait = .pool id d st) (ready : TakesTraps s r.warp) :
    let t := (s.timedOut id r false).poolFault id r causeFabricTimeout
    t.reqs.find id = none ∧ t.mem = s.mem ∧ ∃ lanes, InTimeout (t.warp r.warp) lanes := by
  intro t
  let u := s.timedOut id r false
  have frame : u = { s with ports := u.ports, late := u.late } := s.timedOut_frame id r
  obtain ⟨c, hc⟩ : ∃ c, c = { u with reqs := u.reqs.del id }.drainCheck r.port := ⟨_, rfl⟩
  have drained : c = { u with reqs := u.reqs.del id, ports := c.ports, mgr := c.mgr } := by
    rw [hc]
    exact State.drainCheck_frame { u with reqs := u.reqs.del id } r.port
  have waiter : u.poolWaiter r.warp id = some y := by
    unfold State.poolWaiter
    rw [show u.warp r.warp = s.warp r.warp by rw [frame]; rfl, waits, List.find?_cons, wait]
    dsimp only
    rw [beq_self_eq_true]
  let f : Trap := { cause := causeFabricTimeout, landing := if causeFabricTimeout = causeIllegalOperand then 0 else r.port }
  obtain ⟨x, lanes, run, inside⟩ := ready.poolTrap (t := c) (y := y) (f := { f with lanes := y.lanes }) (by rw [drained, frame]; rfl)
    (by rw [drained, frame]) (by rw [drained, frame]) (by rw [drained, frame]) (by rw [drained, frame]) ⟨rfl, rfl, rfl, rfl, rfl, rfl⟩
  have stopped : t = c.setWarp r.warp x := by
    rw [← run, hc]
    exact State.poolStop_lanes kind waiter f
  rw [stopped]
  refine ⟨?_, ?_, lanes, by rw [State.warp_setWarp_self]; exact inside⟩
  · show c.reqs.find id = none
    rw [drained]
    exact (FMap.find_del ..).trans (if_pos rfl)
  · show c.mem = s.mem
    rw [drained, frame]

/-- A request without response for which no lane waits ends: registers and memory are kept. -/
theorem State.endStore_gone (found : s.reqs.find id = some r) (free : ∀ y ∈ (s.warp r.warp).waits, ∀ m, y.wait = .mem m → id ∉ m.reqs) :
    ∃ c : State, CoresOnly s c ∧ ReqGone c (s.endStore id r) id r := by
  let c := s.dropL1 (s.coreOf r.warp) r.pa r.size
  have cores : CoresOnly s c := s.dropL1_frame ..
  have nobody : c.memWaiter id r = none := State.memWaiter_none (by rw [show c.warp r.warp = s.warp r.warp by rw [cores]; rfl]; exact free)
  have delivered : c.deliver id r ⟨[], []⟩ = c := by
    unfold State.deliver
    rw [nobody]
  refine ⟨c, cores, ?_⟩
  show ReqGone c ((c.deliver id r ⟨[], []⟩).dropReq id) id r
  rw [delivered]
  exact State.dropReq_gone (by rw [cores]; exact found)

/-- A store performed and ended: registers are kept. -/
theorem ServedOnly.ended (served : ServedOnly s u) (found : s.reqs.find id = some r)
    (free : ∀ y ∈ (s.warp r.warp).waits, ∀ m, y.wait = .mem m → id ∉ m.reqs) :
    let t := u.endStore id r
    t.reqs.find id = none ∧ t.mem = u.mem ∧ (∀ v n l, (t.warp v).v n l = (s.warp v).v n l) ∧ ∀ v n, (t.warp v).s n = (s.warp v).s n := by
  intro t
  have warp : ∀ v, u.warp v = s.warp v := fun v => by rw [served]; rfl
  obtain ⟨c, cores, gone⟩ := State.endStore_gone (s := u) (id := id) (r := r) (by rw [served]; exact found) (by rw [warp]; exact free)
  have same : ∀ v, c.warp v = s.warp v := fun v => by rw [← warp, cores]; rfl
  refine ⟨gone.gone, ?_, fun v n l => ?_, fun v n => ?_⟩
  · show (u.endStore id r).mem = u.mem
    rw [gone.frame, cores]
  · rw [(gone.regs v).1, same]
  · rw [(gone.regs v).2, same]

/-- Requests given tags change in nothing but the table of requests. -/
theorem State.sendWaiting_frame (s : State) : s.sendWaiting = { s with reqs := s.sendWaiting.reqs } := by
  have fold : ∀ (l : FMap Req) (f : State → Nat × Req → State), (∀ t p, f t p = { t with reqs := (f t p).reqs }) →
      ∀ t : State, l.foldl f t = { t with reqs := (l.foldl f t).reqs } := by
    intro l f hf
    induction l with
    | nil => exact fun t => rfl
    | cons p l ih =>
      intro t
      rw [List.foldl_cons, ih, hf t p]
  refine fold s.reqs _ (fun t p => ?_) s
  split
  · split <;> rfl
  · rfl

end

end Sys2Proof.Machine

namespace Sys2Proof

open Sys2Proof.Machine

section
variable {s : State} {id : Nat} {r : Req} {y : WaitRec} {m : MemWait}

/-- A request whose answer can come in this cycle, and that the other side performs. -/
structure Performed (s : State) (id : Nat) (r : Req) : Prop where
  found : s.reqs.find id = some r
  sent : r.open_ s = true
  front : s.behindWrite id r = false
  fault : s.fabricFault r.ctx r.pa r.size r.writes = none

theorem Performed.answers (h : Performed s id r) {on : Bool} (asks : on = true) :
    ¬ (on = false ∨ r.open_ s = false ∨ s.behindWrite id r = true) := by
  rw [asks, h.sent, h.front]
  decide

theorem Performed.memoryResponse (h : Performed s id r) (returns : r.kind = .load ∨ ∃ op ty, r.kind = .atom op ty true) :
    ∃ u : State, CoresOnly (s.performReq r).1 u
      ∧ exec (.memoryResponse id) s = .next ((u.deliver id r (s.performReq r).2).dropReq id) := by
  let p := (s.performReq r).1
  let u := if r.home = 0 ∧ r.kind = .load then p.fillL1 (p.coreOf r.warp) r.pa r.size true else p
  have cores : CoresOnly p u := by
    show CoresOnly p (if r.home = 0 ∧ r.kind = .load then p.fillL1 (p.coreOf r.warp) r.pa r.size true else p)
    split
    · exact .of_cores
    · exact .refl p
  refine ⟨u, cores, ?_⟩
  rw [exec_memoryResponse, execMemoryResponse, h.found]
  dsimp only
  rw [h.fault]
  refine if_neg (h.answers ?_)
  obtain load | ⟨op, ty, atom⟩ := returns
  · rw [load]
  · rw [atom]

theorem Performed.remoteStoreAck (h : Performed s id r) (writes : r.kind = .store ∨ ∃ op ty, r.kind = .atom op ty false) :
    exec (.remoteStoreAck id) s = .next ((s.performReq r).1.endStore id r) := by
  have fault : s.fabricFault r.ctx r.pa r.size true = none := by
    have writes : r.writes = true := by
      unfold Req.writes
      obtain store | ⟨op, ty, atom⟩ := writes
      · rw [store]
      · rw [atom]
    rw [← writes]
    exact h.fault
  rw [exec_remoteStoreAck, execRemoteStoreAck, h.found]
  dsimp only
  rw [fault]
  refine if_neg (h.answers ?_)
  obtain store | ⟨op, ty, atom⟩ := writes
  · rw [store]
  · rw [atom]
    rfl

/-! ### Loads (R271, R123) -/

theorem Width.extend_small {w : Width} {x : Nat} (h : x < 2 ^ (8 * w.bytes)) : Width.extend w x = loaded w x := by
  cases w with
  | i8 | i16 | w128 => rfl
  | n8 | n16 | w32 | w64 => exact Nat.mod_eq_of_lt h

/-- What a load's lanes read at its performer. -/
def loadedAt (s : State) (r : Req) (l : Nat) : Nat :=
  ((r.ops.find? fun o => o.lane == l).map fun o => bytesToNat (s.readPhys o.pa r.bytes)).getD 0

theorem bytesToNat_readPhys_lt (s : State) (pa n : Nat) : bytesToNat (s.readPhys pa n) < 2 ^ (8 * n) := by
  have := bytesToNat_lt (s.readPhys pa n)
  rw [show (s.readPhys pa n).length = n from Memory.read_length .., show 256 = 2 ^ 8 by decide, ← Nat.pow_mul] at this
  exact this

theorem loadedAt_lt (s : State) (r : Req) (l : Nat) : loadedAt s r l < 2 ^ (8 * r.bytes) := by
  unfold loadedAt
  cases r.ops.find? fun o => o.lane == l with
  | none => exact Nat.two_pow_pos _
  | some o => exact bytesToNat_readPhys_lt ..

/-- The last response of a load completes it. -/
theorem Performed.load_completes (h : Performed s id r) (kind : r.kind = .load) (sole : SoleWait s id r y m) (last : m.reqs = [id])
    (clean : m.faults = []) (load : m.atomic = false ∧ m.ext = none) (width : m.width.bytes = r.bytes)
    (nodup : (m.got.map (·.1) ++ r.ops.map (·.lane)).Nodup) (small : ∀ p ∈ m.got, p.2 < 2 ^ (8 * r.bytes))
    (good : ∀ o ∈ r.ops, s.readBad o.pa r.bytes = false) :
    ∃ t, exec (.memoryResponse id) s = .next t ∧ t.mem = s.mem
      ∧ Completed s t id r.warp y m fun l => loaded m.width ((m.got.find l).getD (loadedAt s r l)) := by
  obtain ⟨u, cores, run⟩ := h.memoryResponse (.inl kind)
  rw [State.performReq_load kind good] at cores run
  have served : ServedOnly s u := (ServedOnly.countServed s r.pa).trans (.of_cores cores)
  have lanes : (r.ops.map (·.lane)).Nodup := (List.nodup_append.1 nodup).2.1
  let f := fun o : LaneOp => bytesToNat (s.readPhys o.pa r.bytes)
  rw [Got.answered_new] at run
  obtain ⟨completed, mem⟩ := sole.completed served last clean
    (((Got.answered_keys lanes f).append_left (m.got.map (·.1))).nodup_iff.2 nodup)
  refine ⟨_, run, mem.trans ?_, completed.congr fun l => ?_⟩
  · rw [cores]
    exact (Stores.countServed s r.pa).mem
  · have given : (Got.answered ⟨[], []⟩ r.ops f).vals.get l = loadedAt s r l := by
      rw [FMap.get, Got.answered_find_eq lanes]
      exact congrArg (Option.getD · 0) (Option.or_none ..)
    have fits : (m.got.find l).getD (loadedAt s r l) < 2 ^ (8 * m.width.bytes) := by
      rw [width]
      cases held : m.got.find l with
      | none => exact loadedAt_lt s r l
      | some x => exact small _ (FMap.mem_of_find held)
    rw [given, MemWait.value, load.1, load.2]
    exact Width.extend_small fits

/-- A response that is not the last is noted. -/
theorem Performed.load_noted (h : Performed s id r) (kind : r.kind = .load) (sole : SoleWait s id r y m) (more : ∃ k ∈ m.reqs, k ≠ id)
    (some_ : y.lanes ≠ 0) (lanes : (r.ops.map (·.lane)).Nodup) (good : ∀ o ∈ r.ops, s.readBad o.pa r.bytes = false) :
    ∃ t vals, exec (.memoryResponse id) s = .next t ∧ t.reqs.find id = none ∧ t.mem = s.mem
      ∧ t.warp r.warp = { s.warp r.warp with waits := [{ y with wait := .mem (m.answer id ⟨vals, []⟩) }] }
      ∧ (∀ l x, (l, x) ∈ vals ↔ ∃ o ∈ r.ops, o.lane = l ∧ x = bytesToNat (s.readPhys o.pa r.bytes))
      ∧ ∀ v, v ≠ r.warp → t.warp v = s.warp v := by
  obtain ⟨u, cores, run⟩ := h.memoryResponse (.inl kind)
  rw [State.performReq_load kind good] at cores run
  have served : ServedOnly s u := (ServedOnly.countServed s r.pa).trans (.of_cores cores)
  have sole' : SoleWait u id r y m := sole.congr (by rw [served]) (by rw [served])
  let f := fun o : LaneOp => bytesToNat (s.readPhys o.pa r.bytes)
  let g := Got.answered ⟨[], []⟩ r.ops f
  have answer : g = ⟨g.vals, []⟩ := Got.answered_new ..
  let x : Warp := { s.warp r.warp with waits := [{ y with wait := .mem (m.answer id g) }] }
  have delivered : u.deliver id r g = u.setWarp r.warp x := by
    rw [sole'.deliver_more more, show u.warp r.warp = s.warp r.warp by rw [served]; rfl]
  have gone : ReqGone (u.setWarp r.warp x) ((u.deliver id r g).dropReq id) id r := by
    rw [delivered]
    exact State.dropReq_gone sole'.found
  refine ⟨_, g.vals, run, gone.gone, ?_, ?_, fun l v => ?_, fun v hv => ?_⟩
  · rw [gone.frame]
    show u.mem = s.mem
    rw [cores]
    exact (Stores.countServed s r.pa).mem
  · rw [← answer, gone.still fun z hz => ?_, State.warp_setWarp_self]
    rw [State.warp_setWarp_self] at hz
    obtain rfl := List.mem_singleton.1 hz
    exact ⟨some_, rfl, rfl⟩
  · have nodup : (g.vals.map (·.1)).Nodup := (Got.answered_keys lanes f).nodup_iff.2 lanes
    constructor
    · intro held
      obtain ⟨o, ho, lane, value⟩ | none := Got.answered_find (FMap.find_of_mem nodup held)
      · exact ⟨o, ho, lane, value.symm⟩
      · cases none
    · rintro ⟨o, ho, rfl, rfl⟩
      obtain ⟨v, held⟩ := Option.isSome_iff_exists.1
        (Got.answered_isSome (g := ⟨[], []⟩) (f := f) (l := o.lane) (.inr ⟨o, ho, rfl⟩))
      obtain ⟨q, hq, lane, value⟩ | none := Got.answered_find held
      · rw [List.inj_on_of_nodup_map lanes hq ho lane] at value
        show (o.lane, f o) ∈ g.vals
        rw [value]
        exact FMap.mem_of_find held
      · cases none
  · rw [gone.other hv, State.warp_setWarp_ne _ _ hv, served]
    rfl

/-- A request that waits for a response and passed its limit. -/
theorem fabricTimeout_load (found : s.reqs.find id = some r) (kind : r.kind = .load) (due : r.deadline ≤ s.cycle) :
    exec (.fabricTimeout id false) s
      = .next (((s.timedOut id r false).deliver id r (reqFault r causeFabricTimeout)).dropReq id) := by
  rw [exec_fabricTimeout, execFabricTimeout, found]
  dsimp only
  rw [if_neg (Nat.not_lt.2 due), kind]

/-! ### Atomics and stores (R97, R274) -/

section
variable {op : AtomOp} {ty : AtomTy}

/-- The last response of an atomic performs it and completes it. -/
theorem Performed.atom_completes (h : Performed s id r) (kind : r.kind = .atom op ty true) (bytes : r.bytes = ty.bytes)
    (hok : op.tyOk ty = true) (sole : SoleWait s id r y m) (last : m.reqs = [id]) (clean : m.faults = [])
    (atom : m.atomic = true ∧ m.ext = atomExt ty) (nodup : (m.got.map (·.1) ++ r.ops.map (·.lane)).Nodup)
    (good : ∀ o ∈ r.ops, s.readBad o.pa r.bytes = false ∧ s.chanFailed (s.ownAddr o.pa) = false) :
    let all := atomsInOrder op ty s.mem (r.ops.map s.ownOp)
    ∃ t, exec (.memoryResponse id) s = .next t ∧ t.mem = all.1
      ∧ Completed s t id r.warp y m fun l => atomValue ty ((m.got.find l).getD (all.2.get l)) := by
  intro all
  obtain ⟨p, performed, stores, mem⟩ := State.performReq_atom kind bytes hok good
  obtain ⟨u, cores, run⟩ := h.memoryResponse (.inr ⟨op, ty, kind⟩)
  rw [performed] at cores run
  have served : ServedOnly s u := (ServedOnly.of_stores stores).trans (.of_cores cores)
  have same : (r.ops.map s.ownOp).map (·.lane) = r.ops.map (·.lane) := List.map_map
  have keys : (all.2.map (·.1)).Perm (r.ops.map (·.lane)) := by
    rw [← same]
    exact atomsInOrder_keys (by rw [same]; exact (List.nodup_append.1 nodup).2.1)
  obtain ⟨completed, after⟩ := sole.completed served last clean ((keys.append_left (m.got.map (·.1))).nodup_iff.2 nodup)
  refine ⟨_, run, after.trans ?_, completed.congr fun l => MemWait.value_atomic ty m atom.1 atom.2 _⟩
  rw [cores]
  exact mem

/-- A store's acknowledgement ends it, its bytes written and no other. -/
theorem Performed.store_ends (h : Performed s id r) (kind : r.kind = .store) (good : Good s)
    (free : ∀ y ∈ (s.warp r.warp).waits, ∀ m, y.wait = .mem m → id ∉ m.reqs)
    (working : ∀ o ∈ r.ops, s.chanFailed (s.ownAddr o.pa) = false) :
    ∃ t, exec (.remoteStoreAck id) s = .next t ∧ t.reqs.find id = none
      ∧ (∀ x, (∀ o ∈ r.ops, x < s.ownAddr o.pa ∨ s.ownAddr o.pa + r.bytes ≤ x) → t.mem.get x = s.mem.get x)
      ∧ (∀ o, r.ops = [o] → t.mem.read (s.ownAddr o.pa) r.bytes = natToBytes r.bytes o.b)
      ∧ (∀ v n l, (t.warp v).v n l = (s.warp v).v n l) ∧ ∀ v n, (t.warp v).s n = (s.warp v).s n := by
  have stores := State.performReq_store kind good working
  obtain ⟨gone, after, regs⟩ := ServedOnly.ended stores.frame h.found free
  refine ⟨_, h.remoteStoreAck (.inl kind), gone, fun x apart => ?_, fun o only => ?_, regs⟩
  · rw [after, stores.mem]
    refine Memory.get_writes_ne _ fun p hp => ?_
    obtain ⟨o, ho, rfl⟩ := List.mem_map.1 hp
    rw [natToBytes_length]
    exact apart o ho
  · rw [after, stores.mem, only]
    have written := Memory.read_write good (s.ownAddr o.pa) (natToBytes r.bytes o.b)
    rwa [natToBytes_length] at written

/-- A store's limit passed: its failure is recorded in the warp's indicator (R98). -/
theorem store_timesOut (found : s.reqs.find id = some r) (kind : r.kind = .store) (due : r.deadline ≤ s.cycle)
    (silent : s.answers id r = false) (live : (s.warp r.warp).live = true) (first : (s.warp r.warp).remoteErr = none)
    (free : ∀ y ∈ (s.warp r.warp).waits, ∀ m, y.wait = .mem m → id ∉ m.reqs) :
    ∃ t, exec (.remoteStoreTimeout id false) s = .next t ∧ t.reqs.find id = none ∧ t.mem = s.mem
      ∧ (t.warp r.warp).remoteErr = some ⟨causeFabricTimeout, lowestVa r.ops, r.port⟩ := by
  let e : RemoteErr := ⟨causeFabricTimeout, lowestVa r.ops, r.port⟩
  let u := s.timedOut id r false
  let x : Warp := { s.warp r.warp with remoteErr := some e }
  have frame : u = { s with ports := u.ports, late := u.late } := s.timedOut_frame id r
  have warp : u.warp r.warp = s.warp r.warp := by rw [frame]; rfl
  have recorded : u.recordStore r causeFabricTimeout = u.setWarp r.warp x := by
    unfold State.recordStore
    rw [warp, if_pos live, Warp.recordRemote, first]
  obtain ⟨c, cores, gone⟩ := State.endStore_gone (s := u.setWarp r.warp x) (id := id) (r := r)
    (by show u.reqs.find id = _; rw [frame]; exact found) (by rw [State.warp_setWarp_self]; exact free)
  refine ⟨(u.setWarp r.warp x).endStore id r, ?_, gone.gone, ?_, ?_⟩
  · rw [exec_remoteStoreTimeout, execRemoteStoreTimeout, found]
    dsimp only
    have ends : ¬ (true = false ∨ s.cycle < r.deadline) := fun h => h.elim Bool.noConfusion (Nat.not_lt.2 due)
    rw [kind, if_neg ends, silent, if_neg Bool.false_ne_true, ← recorded]
  · rw [gone.frame, cores]
    show u.mem = s.mem
    rw [frame]
  · rw [gone.own, cores]
    show ((u.setWarp r.warp x).warp r.warp).remoteErr = some e
    rw [State.warp_setWarp_self]

end

end

section
variable {s : State} {id : Nat} {r : Req}

/-- A ticketed read's limit passed: its entry is free, its ticket expired (R115). -/
theorem ticket_timesOut {key : Nat} (found : s.reqs.find id = some r) (kind : r.kind = .ticket key)
    (asked : id ∈ (s.tickets.get key).reqs) (idle : Idle s) (due : r.deadline ≤ s.cycle) :
    ∃ t, exec (.fabricTimeout id false) s = .next t ∧ t.reqs.find id = none ∧ t.mem = s.mem
      ∧ (t.tickets.get key).state = 0 ∧ (t.tickets.get key).spent = false := by
  let u := s.timedOut id r false
  have frame : u = { s with ports := u.ports, late := u.late } := s.timedOut_frame id r
  have freed := Idle.freeTicket (s := u) (idle.of_warps (by rw [frame])) key false
  have tickets : u.tickets = s.tickets := by rw [frame]
  have entry : (u.freeTicket key false).tickets.get key = (s.tickets.get key).free false := by
    rw [freed.tickets, FMap.get_set_self, tickets]
  refine ⟨u.freeTicket key false, ?_, freed.gone id (by rw [tickets]; exact asked), freed.mem.trans (by rw [frame]), ?_, ?_⟩
  · rw [exec_fabricTimeout, execFabricTimeout, found]
    dsimp only
    rw [if_neg (Nat.not_lt.2 due), kind]
  · rw [entry]
    rfl
  · rw [entry]
    rfl

theorem fabricTimeout_quota (found : s.reqs.find id = some r) (kind : r.kind = .quota) (due : r.deadline ≤ s.cycle) :
    exec (.fabricTimeout id false) s = .next ((s.timedOut id r false).poolFault id r causeFabricTimeout) := by
  rw [exec_fabricTimeout, execFabricTimeout, found]
  dsimp only
  rw [if_neg (Nat.not_lt.2 due), kind]

/-- A request discarded is never performed (R439). -/
theorem discarded_unanswered (found : s.reqs.find id = some r) (discarded : r.discarded = true) :
    exec (.memoryResponse id) s = .next s ∧ exec (.remoteStoreAck id) s = .next s := by
  have shut : r.open_ s = false := by
    unfold Req.open_
    rw [discarded, Bool.not_true, Bool.and_false, Bool.false_and]
  refine ⟨?_, ?_⟩
  · rw [exec_memoryResponse, execMemoryResponse, found]
    exact if_pos (.inr (.inl shut))
  · rw [exec_remoteStoreAck, execRemoteStoreAck, found]
    exact if_pos (.inr (.inl shut))

theorem requestDeadlineExpiry_discards (found : s.reqs.find id = some r) (near : r.deadline ≤ s.cycle + 8000) :
    exec (.requestDeadlineExpiry id) s = .next { s with reqs := s.reqs.set id { r with discarded := true } } := by
  have due : ¬ s.cycle + 10 * Config.cyclesPerUs < r.deadline := Nat.not_lt.2 near
  rw [exec_requestDeadlineExpiry, execRequestDeadlineExpiry, found]
  exact if_neg due

/-- A retired tag whose time has come is free again (R445). -/
theorem retiredTagReuse_frees {port tag since : Nat} (retired : (s.ports.get port).retired.find tag = some since) (due : since ≤ s.cycle) :
    ∃ t, exec (.retiredTagReuse port tag) s = .next t ∧ (t.ports.get port).retired.find tag = none
      ∧ t = { s with ports := t.ports, reqs := t.reqs } := by
  let p := s.ports.get port
  let u : State := { s with ports := s.ports.set port { p with retired := p.retired.del tag } }
  have frame : u.sendWaiting = { u with reqs := u.sendWaiting.reqs } := u.sendWaiting_frame
  refine ⟨u.sendWaiting, ?_, ?_, by rw [frame]⟩
  · rw [exec_retiredTagReuse, execRetiredTagReuse, retired]
    exact if_neg (Nat.not_lt.2 due)
  · rw [frame]
    show ((s.ports.set port { p with retired := p.retired.del tag }).get port).retired.find tag = none
    rw [FMap.get_set_self]
    exact (FMap.find_del ..).trans (if_pos rfl)

end

/-- Settles O26: a response completes or is noted (`Performed.load_completes`, `Performed.load_noted`, `Performed.atom_completes`), an
acknowledgement ends what it performed (`ServedOnly.ended`), a timeout is a trap, a kept fault or a record of it. -/
theorem requestAnswers : Obligations.RequestAnswers := by
  intro s id r found w gone kept trapped ready answered words free sound completes
  have performed : answered → Performed s id r := fun ⟨sent, front, fault⟩ => ⟨found, sent, front, fault⟩
  have takes : ready → TakesTraps s w := fun ⟨outside, base, chainA, chainB, stays, alone⟩ => ⟨outside, base, chainA, chainB, stays, alone⟩
  have lanes : ∀ (y : WaitRec) (m : MemWait), sound y m → ∀ l ∈ m.got.map (·.1) ++ r.ops.map (·.lane), l < 32 ∧ y.lanes.getLsbD l = true := by
    rintro y m ⟨-, -, before, now⟩ l hl
    obtain hl | hl := List.mem_append.1 hl
    · obtain ⟨p, hp, rfl⟩ := List.mem_map.1 hl
      exact before p hp
    · obtain ⟨o, ho, rfl⟩ := List.mem_map.1 hl
      exact ⟨(now o ho).1, (now o ho).2.1⟩
  refine ⟨?_, ?_, ?_, ?_, ?_, ?_, ?_, ?_, ?_⟩
  · intro y m waits wait kind last clean plain ext
    have sole : SoleWait s id r y m := ⟨found, waits, wait, by rw [last]; exact .head _⟩
    refine ⟨?_, ?_, ?_⟩
    · intro answers hsound width small given
      have within := lanes y m hsound
      obtain ⟨bytes, nodup, -, now⟩ : m.bytes = r.bytes ∧ _ := hsound
      obtain ⟨t, run, mem, completed⟩ := (performed answers).load_completes kind sole last clean ⟨plain, ext⟩ width nodup small
        fun o ho => (now o ho).2.2
      refine ⟨t, run, fun a => by rw [mem], (completed.congr fun l => ?_).results waits within⟩
      have answer : loadedAt s r l = given l := by
        unfold loadedAt
        dsimp only [given]
        cases r.ops.find? fun o => o.lane == l <;> rfl
      rw [answer]
      cases m.got.find l <;> rfl
    · intro _ hready due
      obtain ⟨gone, mem, cause, traplanes, inside⟩ := sole.timeout_taken last clean (takes hready)
      exact ⟨_, fabricTimeout_load found kind due, ⟨gone, fun a => by rw [mem], cause, inside⟩,
        fun some_ => traplanes.trans (timeoutTrap_lanesReg clean some_)⟩
    · intro _ outside saving since due
      obtain ⟨gone, mem, handler, sup, faults⟩ := sole.timeout_kept last outside saving since
      exact ⟨_, _, fabricTimeout_load found kind due, gone, fun a => by rw [mem], handler, faults,
        (timeoutTrap_ofTimeout (y := y) clean).cause, rfl, rfl, rfl⟩
  · intro y m waits wait kind more asked answers some_ nodup good
    obtain ⟨t, vals, run, gone, mem, own, given, other⟩ :=
      (performed answers).load_noted kind ⟨found, waits, wait, asked⟩ more some_ nodup good
    exact ⟨t, m.answer id ⟨vals, []⟩, vals, run, gone, fun a => by rw [mem], by rw [own], rfl, rfl, List.append_nil _, rfl, given,
      by rw [own], other⟩
  · intro op ty own all answers bytes hok working
    refine ⟨fun y m kind waits wait last clean atomic ext hsound => ?_, fun kind hfree good => ?_⟩
    · have within := lanes y m hsound
      obtain ⟨-, nodup, -, now⟩ : m.bytes = r.bytes ∧ _ := hsound
      obtain ⟨t, run, mem, completed⟩ := (performed answers).atom_completes kind bytes hok
        ⟨found, waits, wait, by rw [last]; exact .head _⟩ last clean ⟨atomic, ext.trans (by cases ty <;> rfl)⟩ nodup
        fun o ho => ⟨(now o ho).2.2, working o ho⟩
      refine ⟨t, run, mem, (completed.congr fun l => ?_).results waits within⟩
      cases m.got.find l <;> rfl
    · obtain ⟨u, run, stores, mem⟩ := State.performReq_atom kind bytes hok fun o ho => ⟨good o ho, working o ho⟩
      have ack := (performed answers).remoteStoreAck (.inr ⟨op, ty, kind⟩)
      rw [run] at ack
      obtain ⟨gone, after, regs⟩ := (ServedOnly.of_stores stores).ended found hfree
      exact ⟨_, ack, gone, after.trans mem, regs⟩
  · intro kind sent front fault good hfree working
    have writes : r.writes = true := by rw [Req.writes, kind]
    obtain ⟨t, run, gone, others, one, regs⟩ :=
      Performed.store_ends ⟨found, sent, front, by rw [writes]; exact fault⟩ kind good hfree working
    exact ⟨t, run, gone, others, one, regs⟩
  · intro kind due silent live first hfree
    obtain ⟨t, run, gone, mem, err⟩ := store_timesOut found kind due silent live first hfree
    exact ⟨t, _, run, gone, fun a => by rw [mem], err, rfl, rfl⟩
  · intro y d st kind hready waits wait due
    obtain ⟨gone, mem, _, inside⟩ := State.poolFault_taken kind waits wait (takes hready)
    exact ⟨_, fabricTimeout_quota found kind due, gone, fun a => by rw [mem], inside.cause, inside.inside⟩
  · intro key kind asked idle due
    obtain ⟨t, run, gone, mem, free, unspent⟩ := ticket_timesOut found kind asked idle due
    exact ⟨t, run, gone, fun a => by rw [mem], free, unspent⟩
  · intro near
    have discarded : (s.reqs.set id { r with discarded := true }).find id = some { r with discarded := true } := FMap.find_set_self ..
    exact ⟨_, requestDeadlineExpiry_discards found near, discarded, rfl, discarded_unanswered discarded rfl⟩
  · intro port tag since retired
    refine ⟨fun early => ?_, retiredTagReuse_frees retired⟩
    rw [exec_retiredTagReuse, execRetiredTagReuse, retired]
    exact if_pos early

end Sys2Proof

/-! ## O7: a NaN operand gives the canonical NaN

Of every operation whose exact result is rounded, that exact result is a NaN when an operand is one (`Exact.IsNan`), and a NaN rounds to
the canonical one of the format whatever the mode. -/

namespace Sys2Proof.Machine

open Sys2Proof

/-- The exact result is a NaN, with NV or without. -/
def Exact.IsNan (e : Exact) : Prop := ∃ nv, e = .nan nv

theorem FVal.eq_nan {x : FVal} (h : x.isNan = true) : ∃ sig, x = .nan sig := by
  cases x with
  | nan sig => exact ⟨sig, rfl⟩
  | inf | fin => cases h

theorem FVal.isNan_negate {x : FVal} (h : x.isNan = true) : x.negate.isNan = true := by
  obtain ⟨sig, rfl⟩ := FVal.eq_nan h
  rfl

/-! ### Exact results -/

/-- Either operand decides alone. -/
theorem Exact.isNan_of_operand {f : FVal → FVal → Exact} (first : ∀ sig y, (f (.nan sig) y).IsNan)
    (second : ∀ x sig, (f x (.nan sig)).IsNan) {x y : FVal} (h : x.isNan = true ∨ y.isNan = true) : (f x y).IsNan := by
  rcases h with h | h
  · obtain ⟨sig, rfl⟩ := FVal.eq_nan h
    exact first sig y
  · obtain ⟨sig, rfl⟩ := FVal.eq_nan h
    exact second x sig

theorem exactAdd_isNan (rm : Rm) {x y : FVal} : x.isNan = true ∨ y.isNan = true → (exactAdd rm x y).IsNan :=
  Exact.isNan_of_operand (fun _ y => by cases y <;> exact ⟨_, rfl⟩) fun x _ => by cases x <;> exact ⟨_, rfl⟩

theorem exactMul_isNan {x y : FVal} : x.isNan = true ∨ y.isNan = true → (exactMul x y).IsNan :=
  Exact.isNan_of_operand (fun _ y => by cases y <;> exact ⟨_, rfl⟩) fun x _ => by cases x <;> exact ⟨_, rfl⟩

theorem exactDiv_isNan {x y : FVal} : x.isNan = true ∨ y.isNan = true → (exactDiv x y).IsNan :=
  Exact.isNan_of_operand (fun _ y => by cases y <;> exact ⟨_, rfl⟩) fun x _ => by cases x <;> exact ⟨_, rfl⟩

/-- A NaN addend beside any product, an invalid one among them (R245). -/
theorem exactFma_isNan (rm : Rm) {x y w : FVal} (h : x.isNan = true ∨ y.isNan = true ∨ w.isNan = true) : (exactFma rm x y w).IsNan := by
  have ofProduct : (exactMul x y).IsNan → (exactFma rm x y w).IsNan := by
    rintro ⟨nv, e⟩
    exact ⟨nv || w.isSnan, by rw [exactFma, e]⟩
  rcases h with h | h | h
  · exact ofProduct (exactMul_isNan (.inl h))
  · exact ofProduct (exactMul_isNan (.inr h))
  · obtain ⟨sig, rfl⟩ := FVal.eq_nan h
    cases product : exactMul x y with
    | nan nv => exact ofProduct ⟨nv, product⟩
    | inf | val => exact ⟨sig, by rw [exactFma, product]⟩

/-! ### Results in a format -/

/-- The canonical quiet NaNs (R127). -/
theorem nanBits_fmtOf (t : FTy) : (fmtOf t).nanBits = match t with | .f32 => 0x7FC00000 | .f16 => 0x7E00 | .bf16 => 0x7FC0 := by
  cases t <;> rfl

section
variable {op : FOp} {t : FTy} {rm : Rm} {a b c : Nat} {k : Int}

/-- An operation whose exact result is a NaN gives the canonical one. -/
theorem floatOp_val_of_isNan {e : Exact} (he : exactOf op rm ((fmtOf t).decode a) ((fmtOf t).decode b) ((fmtOf t).decode c) = some e)
    (h : e.IsNan) : (floatOp op t rm a b c k).val = (fmtOf t).nanBits := by
  obtain ⟨nv, rfl⟩ := h
  unfold floatOp
  dsimp only
  rw [he]
  rfl

theorem floatOp_binary_nan (hop : op = .fadd ∨ op = .fsub ∨ op = .fmul ∨ op = .fdiv)
    (h : ((fmtOf t).decode a).isNan = true ∨ ((fmtOf t).decode b).isNan = true) :
    (floatOp op t rm a b c k).val = (fmtOf t).nanBits := by
  rcases hop with rfl | rfl | rfl | rfl
  · exact floatOp_val_of_isNan rfl (exactAdd_isNan rm h)
  · exact floatOp_val_of_isNan rfl (exactAdd_isNan rm (h.imp_right FVal.isNan_negate))
  · exact floatOp_val_of_isNan rfl (exactMul_isNan h)
  · exact floatOp_val_of_isNan rfl (exactDiv_isNan h)

/-- Every operation of one float operand, fround and fscale among them, which are rounded by themselves (R249, R250). -/
theorem floatOp_unary_nan
    (hop : op = .fsqrt ∨ op = .frsq ∨ op = .frcp ∨ op = .fexp2 ∨ op = .flog2 ∨ op = .fround ∨ op = .fscale)
    (h : ((fmtOf t).decode a).isNan = true) : (floatOp op t rm a b c k).val = (fmtOf t).nanBits := by
  obtain ⟨sig, h⟩ := FVal.eq_nan h
  rcases hop with rfl | rfl | rfl | rfl | rfl | rfl | rfl
  · exact floatOp_val_of_isNan rfl ⟨sig, congrArg exactSqrt h⟩
  · exact floatOp_val_of_isNan rfl ⟨sig, congrArg exactRsq h⟩
  · exact floatOp_val_of_isNan rfl ⟨sig, congrArg exactRcp h⟩
  · exact floatOp_val_of_isNan rfl ⟨sig, congrArg exactExp2 h⟩
  · exact floatOp_val_of_isNan rfl ⟨sig, congrArg exactLog2 h⟩
  · exact congrArg (fun x => (froundOf (fmtOf t) rm x).val) h
  · exact congrArg (fun x => (fscaleOf (fmtOf t) rm x k).val) h

theorem floatOp_ffma_nan (h : ((fmtOf t).decode a).isNan = true ∨ ((fmtOf t).decode b).isNan = true ∨ ((fmtOf t).decode c).isNan = true) :
    (floatOp .ffma t rm a b c k).val = (fmtOf t).nanBits := floatOp_val_of_isNan rfl (exactFma_isNan rm h)

end

end Sys2Proof.Machine

namespace Sys2Proof

open Sys2Proof.Machine

/-- Settles O7: a NaN operand makes the exact result a NaN (`floatOp_binary_nan`, `floatOp_unary_nan`, `floatOp_ffma_nan`). -/
theorem nanCanonical : Obligations.NaNCanonical := by
  intro t rm a b c k nan canonical
  have bits : (fmtOf t).nanBits = canonical := nanBits_fmtOf t
  exact ⟨fun op hop h => (floatOp_binary_nan hop h).trans bits, fun op hop h => (floatOp_unary_nan hop h).trans bits,
    fun h => (floatOp_ffma_nan h).trans bits⟩

end Sys2Proof

/-! ## O35: control registers

What csrr and csrw do is decided by the register: a counter without permission faults, a value out of range faults, a register of a
context waits for its commit, and every other one is written by `State.setCsr`. -/

namespace Sys2Proof.Machine

open Sys2Proof

/-- The value that csrw writes: the writable bits of its source. -/
def State.csrValue (s : State) (a : Operand) (r : Nat) : Nat := Nat.land (s.csrSource a) (csrMask r)

section
variable {s : State} {d a : Operand} {r : Nat}

/-! ### Counter permission (R329) -/

theorem State.counterFault_plain (h : isCounter r = false) : s.counterFault r = false := by
  rw [State.counterFault, h, Bool.false_and]

theorem State.counterFault_counter (h : isCounter r = true) : s.counterFault r = !(s.launchOf s.cur.warp).spec.counters := by
  rw [State.counterFault, h, Bool.true_and]

theorem isCounter_select {k : Nat} (hk : k < 8) : isCounter (0x40 + k) = true := by
  simp only [isCounter, Bool.and_eq_true, decide_eq_true_eq]
  omega

theorem isCounter_count {k : Nat} (hk : k < 8) : isCounter (0x50 + k) = true := by
  simp only [isCounter, Bool.and_eq_true, decide_eq_true_eq]
  omega

theorem csrr_unpermitted (fault : s.counterFault r = true) (h : clear (.csrr d r) s = true) :
    exec (.csrr d r) s = .next (s.issueTrap (s.mkTrap causeProtection)) := by
  rw [exec_csrr, execCsrr]
  exact checkedOp_error h (if_pos fault)

theorem csrw_unpermitted (fault : s.counterFault r = true) (h : clear (.csrw a r) s = true) :
    exec (.csrw a r) s = .next (s.issueTrap (s.mkTrap causeProtection)) := by
  rw [exec_csrw, execCsrw]
  exact runOp_error h (if_pos fault)

/-! ### The registers' values (R329) -/

theorem csrr_completes (permitted : s.counterFault r = false) {x : DWord} (value : s.csr s.cur.warp r = x) :
    LaneCompletes (.csrr d r) s 1 d fun _ => x.toNat := by
  subst value
  intro h
  rw [exec_csrr, execCsrr]
  exact checkedOp_lane h (if_neg (by simp [permitted]))

/-- A register above those of the warp and the context is an event select, or an event count. -/
theorem State.csr_counter (s : State) (w : Nat) (h : 0x40 ≤ r) : s.csr w r
    = if r < 0x48 then (s.core (s.coreOf w)).evsel.get (r - 0x40) else (s.core (s.coreOf w)).evcount.get (r - 0x50) := by
  have other : ∀ {n}, n < 0x40 → r ≠ n := fun hn => by omega
  unfold State.csr
  simp [other]

/-! ### csrw past its permission (R330, R331) -/

section
variable (permitted : s.counterFault r = false) (h : clear (.csrw a r) s = true)
include permitted h

theorem csrw_outOfRange (out : csrInRange r (s.csrValue a r) = false) :
    exec (.csrw a r) s = .next (s.issueTrap (s.mkTrap causeIllegalOperand)) := by
  rw [exec_csrw, execCsrw]
  exact runOp_error h ((if_neg (by simp [permitted])).trans (if_pos out))

variable (within : csrInRange r (s.csrValue a r) = true)
include within

theorem csrw_waits (held : r = 0x10 ∨ r = 0x21 ∨ r = 0x22 ∨ r = 0x23) :
    exec (.csrw a r) s = .next (s.block (Instr.csrw a r).len (.csr r (BitVec.ofNat 64 (s.csrValue a r)))) := by
  rw [exec_csrw, execCsrw]
  exact runOp_ok h ((if_neg (by simp [permitted])).trans ((if_neg (ne_false_of_eq_true within)).trans (if_pos held)))

theorem csrw_writes (held : ¬ (r = 0x10 ∨ r = 0x21 ∨ r = 0x22 ∨ r = 0x23)) :
    exec (.csrw a r) s = .next ((s.setCsr s.cur.warp r (BitVec.ofNat 64 (s.csrValue a r))).advance (Instr.csrw a r).len) := by
  rw [exec_csrw, execCsrw]
  exact runOp_ok h ((if_neg (by simp [permitted])).trans ((if_neg (ne_false_of_eq_true within)).trans (if_neg held)))

end

end

/-! ### Registers written at once (R330, R331, R461) -/

/-- An event select takes effect for the context that wrote it. -/
theorem State.setCsr_select (s : State) (w : Nat) {k : Nat} (hk : k < 8) (x : DWord) : s.setCsr w (0x40 + k) x
    = s.setCore (s.coreOf w) { s.core (s.coreOf w) with
        evsel := (s.core (s.coreOf w)).evsel.set k x, evctx := (s.core (s.coreOf w)).evctx.set k (s.ctxOf w) } := by
  unfold State.setCsr
  rw [if_neg (by omega), if_neg (by omega), if_pos (by omega), Nat.add_sub_cancel_left]

theorem State.setCsr_count (s : State) (w k : Nat) (x : DWord) : s.setCsr w (0x50 + k) x
    = s.setCore (s.coreOf w) { s.core (s.coreOf w) with evcount := (s.core (s.coreOf w)).evcount.set k x } := by
  unfold State.setCsr
  rw [if_neg (by omega), if_neg (by omega), if_neg (by omega), Nat.add_sub_cancel_left]

/-- Every core source, and no other, may be selected (R460). -/
theorem csrInRange_select {k : Nat} (hk : k < 8) (v : Nat) : csrInRange (0x40 + k) (v &&& 0xC000FFFF) = decide (v % 2 ^ 16 ≤ 0x000E) := by
  have low : (v &&& 0xC000FFFF) % 2 ^ 16 = v % 2 ^ 16 := by
    rw [Nat.and_mod_two_pow, show 0xC000FFFF % 2 ^ 16 = 2 ^ 16 - 1 from rfl, Nat.and_two_pow_sub_one_eq_mod, Nat.mod_mod]
  unfold csrInRange
  rw [if_neg (by omega), if_neg (by omega), if_neg (by omega), if_pos (by omega), low]

theorem csrInRange_count (k v : Nat) : csrInRange (0x50 + k) v = true := by
  unfold csrInRange
  rw [if_neg (by omega), if_neg (by omega), if_neg (by omega), if_neg (by omega)]

theorem State.csrValue_select (s : State) (a : Operand) {k : Nat} (hk : k < 8) : s.csrValue a (0x40 + k) = s.csrSource a &&& 0xC000FFFF := by
  unfold State.csrValue csrMask
  rw [if_neg (by omega), if_neg (by omega), if_neg (by omega), if_neg (by omega), if_neg (by omega), if_neg (by omega),
    if_pos (by omega)]
  rfl

theorem State.csrValue_count (s : State) (a : Operand) (k : Nat) (h : s.csrSource a < 2 ^ 64) : s.csrValue a (0x50 + k) = s.csrSource a := by
  have mask : csrMask (0x50 + k) = 2 ^ 64 - 1 := by
    unfold csrMask
    rw [if_neg (by omega), if_neg (by omega), if_neg (by omega), if_neg (by omega), if_neg (by omega), if_neg (by omega),
      if_neg (by omega)]
  rw [State.csrValue, mask]
  exact (Nat.and_two_pow_sub_one_eq_mod ..).trans (Nat.mod_eq_of_lt h)

/-! ### The commit (R330) -/

theorem execCsrContextCommit_single {s : State} {w r : Nat} {y : DWord} {rec_ : WaitRec} (waits : (s.warp w).waits = [rec_])
    (wait : rec_.wait = .csr r y) : execCsrContextCommit w s
      = .next ((s.setWarp w ((s.warp w).release s.cycle rec_ rec_.lanes)).setCtxCsr (s.ctxOf w) r y) := by
  unfold execCsrContextCommit
  simp [waits, wait]

theorem Warp.release_single_waits (x : Warp) (cycle : Nat) {r : WaitRec} (waits : x.waits = [r]) :
    (x.release cycle r r.lanes).waits = [] := by
  rw [Warp.release_rest, x.unwait_single r waits]

end Sys2Proof.Machine

namespace Sys2Proof

open Sys2Proof.Machine

section
variable {s : State} {a : Operand}

/-- A register of the executing core written: the core is `c` then, and the lanes go on. -/
theorem csrw_core {r : Nat} {c : Core} (counter : isCounter r = true) (counters : (s.launchOf s.cur.warp).spec.counters = true)
    (within : csrInRange r (s.csrValue a r) = true)
    (set : s.setCsr s.cur.warp r (BitVec.ofNat 64 (s.csrValue a r)) = s.setCore (s.coreOf s.cur.warp) c)
    (h : clear (.csrw a r) s = true) :
    ∃ t, exec (.csrw a r) s = .next t ∧ t.core (s.coreOf s.cur.warp) = c ∧ Advanced s t (Instr.csrw a r).len
      ∧ t = { s with warps := t.warps, cores := t.cores } := by
  have permitted : s.counterFault r = false := by rw [State.counterFault_counter counter, counters]; rfl
  have low : ¬ (r = 0x10 ∨ r = 0x21 ∨ r = 0x22 ∨ r = 0x23) := by
    simp only [isCounter, Bool.and_eq_true, decide_eq_true_eq] at counter
    omega
  obtain ⟨frame, -, advanced, -⟩ := advance_after (s := s) (v := s.setCore (s.coreOf s.cur.warp) c) rfl rfl (Instr.csrw a r).len
  refine ⟨_, (csrw_writes permitted h within low).trans (by rw [set]), ?_, advanced, frame⟩
  exact FMap.get_set_self ..

/-- A register of the issuing warp written, and the lanes go on. -/
theorem csrw_warp {r : Nat} {f : Warp → Warp} (plain : isCounter r = false) (within : csrInRange r (s.csrValue a r) = true)
    (low : r < 0x10) (set : s.setCsr s.cur.warp r (BitVec.ofNat 64 (s.csrValue a r)) = s.upCur f)
    (lanes : (f s.curWarp).lanes = s.curWarp.lanes) (h : clear (.csrw a r) s = true) :
    ∃ t, exec (.csrw a r) s = .next t ∧ WarpOnly s t ∧ Advanced s t (Instr.csrw a r).len
      ∧ t.curWarp = { f s.curWarp with lanes := t.curWarp.lanes } := by
  refine ⟨(s.upCur f).advance (Instr.csrw a r).len,
    (csrw_writes (State.counterFault_plain plain) h within (by omega)).trans (by rw [set]),
    (WarpOnly.upCur _ _).trans (WarpOnly.upCur _ _), Advanced.upCur s f _ lanes, ?_⟩
  rw [curWarp_upCur_advance]
  rfl

/-- A register of the context: a value out of its field's range faults, any other waits for the commit. -/
theorem csrw_context {r y : Nat} {ok : Prop} (held : r = 0x10 ∨ r = 0x21 ∨ r = 0x22 ∨ r = 0x23) (value : s.csrValue a r = y)
    (range : csrInRange r y = true ↔ ok) :
    (¬ ok → clear (.csrw a r) s = true → exec (.csrw a r) s = .next (s.issueTrap (s.mkTrap causeIllegalOperand)))
      ∧ (ok → clear (.csrw a r) s = true → ∃ t, exec (.csrw a r) s = .next t ∧ WarpOnly s t
        ∧ t.curWarp = { s.curWarp with
            waits := s.curWarp.waits ++ [⟨s.cur.lanes, s.cur.pc, (Instr.csrw a r).len, s.cur.port, .csr r (BitVec.ofNat 64 y)⟩] }) := by
  subst value
  have permitted : s.counterFault r = false := State.counterFault_plain (by rcases held with rfl | rfl | rfl | rfl <;> rfl)
  refine ⟨fun out h => csrw_outOfRange permitted h (Bool.eq_false_iff.2 fun e => out (range.1 e)), fun within h => ?_⟩
  obtain ⟨only, warp⟩ := State.block_spec s (Instr.csrw a r).len (.csr r (BitVec.ofNat 64 (s.csrValue a r)))
  exact ⟨_, csrw_waits permitted h (range.2 within) held, only, warp⟩

/-- The commit of a context's register: the register is set, the waiting lanes go on in the next cycle, nothing else changes. -/
theorem csrContextCommit_commits {w r : Nat} {y : DWord} {rec_ : WaitRec} (waits : (s.warp w).waits = [rec_])
    (wait : rec_.wait = .csr r y) :
    ∃ t, exec (.csrContextCommit w) s = .next t
      ∧ t.ctx (s.ctxOf w) = (let c := s.ctx (s.ctxOf w)
          if r = 0x10 then { c with trapbase := y } else if r = 0x21 then { c with ticketlife := y }
          else if r = 0x22 then { c with reformage := y } else { c with fabrictimeout := y })
      ∧ (∀ k, k ≠ s.ctxOf w → t.ctx k = s.ctx k) ∧ (t.warp w).waits = []
      ∧ (∀ l, (t.warp w).lane l = if rec_.lanes.getLsbD l then
          { (s.warp w).lane l with pc := rec_.pc + BitVec.ofNat 64 rec_.len, readyAt := s.cycle + 1 } else (s.warp w).lane l)
      ∧ (∀ u, u ≠ w → t.warp u = s.warp u) ∧ t = { s with warps := t.warps, ctxs := t.ctxs } := by
  refine ⟨_, execCsrContextCommit_single waits wait, FMap.get_set_self .., fun k hk => FMap.get_set_ne _ _ hk, ?_, fun l => ?_,
    fun u hu => State.warp_setWarp_ne s _ hu, rfl⟩
  · exact (congrArg Warp.waits (State.warp_setWarp_self ..)).trans (Warp.release_single_waits _ _ waits)
  · exact (congrArg (Warp.lane · l) (State.warp_setWarp_self ..)).trans (Warp.lane_release ..)

end

/-- Settles O35: csrr gives `State.csr` (`csrr_completes`); csrw writes the core (`csrw_core`) or the warp (`csrw_warp`), or waits
(`csrw_context`) for its commit (`csrContextCommit_commits`). -/
theorem controlRegisters : Obligations.ControlRegisters := by
  intro s d a x c core counters v traps
  refine ⟨fun p hp => ?_, fun k hk => ⟨fun on => ⟨?_, ?_⟩, fun off => ?_, fun on h small => ?_, fun on h source => ?_⟩,
    fun h => ?_, fun h => ?_, fun r ok y hr => ?_, fun w rec_ r y waits wait _ => csrContextCommit_commits waits wait⟩
  · simp only [List.mem_cons, List.not_mem_nil, or_false] at hp
    rcases hp with rfl | rfl | rfl | rfl | rfl | rfl | rfl | rfl | rfl | rfl | rfl | rfl <;>
      exact csrr_completes (State.counterFault_plain rfl) rfl
  · refine csrr_completes (by rw [State.counterFault_counter (isCounter_select hk)]; exact congrArg (!·) on) ?_
    rw [State.csr_counter _ _ (by omega), if_pos (by omega), Nat.add_sub_cancel_left]
  · refine csrr_completes (by rw [State.counterFault_counter (isCounter_count hk)]; exact congrArg (!·) on) ?_
    rw [State.csr_counter _ _ (by omega), if_neg (by omega), Nat.add_sub_cancel_left]
  · have select : s.counterFault (0x40 + k) = true := (State.counterFault_counter (isCounter_select hk)).trans (congrArg (!·) off)
    have count : s.counterFault (0x50 + k) = true := (State.counterFault_counter (isCounter_count hk)).trans (congrArg (!·) off)
    exact ⟨csrr_unpermitted select, csrr_unpermitted count, csrw_unpermitted select, csrw_unpermitted count⟩
  · obtain ⟨t, run, written, advanced, frame⟩ := csrw_core (isCounter_count hk) on (csrInRange_count ..) (State.setCsr_count ..) h
    refine ⟨t, run, ?_, fun j hj => ?_, advanced, frame⟩
    · rw [written, State.csrValue_count s a k small]
      exact FMap.get_set_self ..
    · rw [written]
      exact FMap.get_set_ne _ _ hj
  · obtain ⟨t, run, written, advanced, frame⟩ := csrw_core (isCounter_select hk) on
      (by rw [State.csrValue_select s a hk, csrInRange_select hk]; exact decide_eq_true source) (State.setCsr_select _ _ hk _) h
    refine ⟨t, run, ?_, by rw [written], advanced, frame⟩
    rw [written, State.csrValue_select s a hk]
    exact FMap.get_set_self ..
  · exact csrw_warp (f := fun y => { y with fpmode := BitVec.ofNat 64 (s.csrValue a 0x01) }) rfl rfl (by omega) rfl rfl h
  · exact csrw_warp (f := fun y => { y with fpflags := BitVec.ofNat 64 (s.csrValue a 0x02) }) rfl rfl (by omega) rfl rfl h
  · simp only [List.mem_cons, List.not_mem_nil, or_false, Prod.mk.injEq] at hr
    rcases hr with ⟨rfl, rfl, rfl⟩ | ⟨rfl, rfl, rfl⟩ | ⟨rfl, rfl, rfl⟩ | ⟨rfl, rfl, rfl⟩
    · exact csrw_context (.inl rfl) rfl (by simp [csrInRange])
    · exact csrw_context (.inr (.inl rfl)) rfl (by simp [csrInRange])
    · exact csrw_context (.inr (.inr (.inl rfl))) rfl (by simp [csrInRange])
    · exact csrw_context (.inr (.inr (.inr rfl))) rfl (by simp [csrInRange])

end Sys2Proof

/-! ## O5: float instructions issue by opening a chain

Whatever the group is, its issue is `flumeOp` (`exec_of_flumeOf`), which counts its members and changes the issuing warp alone, as
`Warp.opens` says (`flumeOp_opens`). The counts change no operand, so the chain is that of the operands at issue
(`State.openChain_cores`). -/

namespace Sys2Proof.Machine

open Sys2Proof

theorem exec_of_flumeOf {i : Instr} (s : State) (h : (flumeOf i).isSome = true) : exec i s = flumeOp i s := by
  unfold flumeOf at h
  split at h
  case h_39 => cases h
  all_goals rfl

/-! ### The members' count (R460) -/

theorem State.countCore_frame (s : State) (core ctx source n : Nat) :
    s.countCore core ctx source n = { s with cores := (s.countCore core ctx source n).cores } := by
  unfold State.countCore
  dsimp only
  split <;> rfl

theorem State.countMembers_frame (s : State) (is : List FInst) : s.countMembers is = { s with cores := (s.countMembers is).cores } := by
  unfold State.countMembers
  dsimp only
  split
  · rfl
  · rw [State.countCore_frame, State.countCore_frame s]

theorem State.memberIn_cores (s : State) (c : FMap Core) (w l : Nat) (i : FInst) (zin : Option Nat) :
    ({ s with cores := c } : State).memberIn w l i zin = s.memberIn w l i zin := rfl

theorem State.runMembers_cores (s : State) (c : FMap Core) (w : Nat) (lanes : LaneSet) (fpmode : Nat) (is : List FInst)
    (prev : Option (FMap FRes)) :
    ({ s with cores := c } : State).runMembers w lanes fpmode is prev = s.runMembers w lanes fpmode is prev := by
  induction is generalizing prev with
  | nil => rfl
  | cons i is ih =>
    rw [State.runMembers, State.runMembers, ih]
    simp only [State.memberIn_cores]

theorem State.openChain_cores (s : State) (c : FMap Core) (is : List FInst) :
    ({ s with cores := c } : State).openChain is = s.openChain is := by
  unfold State.openChain
  dsimp only
  rw [State.runMembers_cores]
  rfl

theorem State.openChain_countMembers (s : State) (is : List FInst) : (s.countMembers is).openChain is = s.openChain is := by
  rw [State.countMembers_frame, State.openChain_cores]

/-! ### The issue of a group (R144, R150, R259) -/

/-- A chain opened on a port: its lanes go on past the group of `n` words, and hold for it when it may trap. -/
def Warp.opens (x : Warp) (port n : Nat) (c : Chain) : Warp :=
  { (x.setChain port (some c)).advance c.lanes n with
    waits := if c.enabled = 0 then x.waits else x.waits ++ [⟨c.lanes, c.pc, n, port, .chain port⟩] }

@[simp] theorem Warp.setChain_waits (x : Warp) (port : Nat) (c : Option Chain) : (x.setChain port c).waits = x.waits := by
  unfold Warp.setChain; split <;> rfl
@[simp] theorem Warp.lane_setChain (x : Warp) (port : Nat) (c : Option Chain) (l : Nat) : (x.setChain port c).lane l = x.lane l := by
  unfold Warp.setChain; split <;> rfl

theorem Warp.setChain_rest (x : Warp) (port : Nat) (c : Option Chain) :
    x.setChain port c = { x with chainA := (x.setChain port c).chainA, chainB := (x.setChain port c).chainB } := by
  unfold Warp.setChain; split <;> rfl

theorem Warp.chain_setChain_self (x : Warp) (port : Nat) (c : Option Chain) : (x.setChain port c).chain port = c := by
  unfold Warp.setChain Warp.chain; split <;> rfl

/-- Port A is 0, and every other number names port B. -/
theorem Warp.chain_setChain_other (x : Warp) {port p : Nat} (c : Option Chain) (h : p = 0 ↔ port ≠ 0) :
    (x.setChain port c).chain p = x.chain p := by
  unfold Warp.setChain Warp.chain
  by_cases first : p = 0
  · rw [if_pos first, if_neg (h.1 first), if_pos first]
  · rw [if_neg first, if_pos (not_not.1 (mt h.2 first)), if_neg first]

section
variable (x : Warp) (port n : Nat) (c : Chain)

theorem Warp.chain_opens (p : Nat) : (x.opens port n c).chain p = (x.setChain port (some c)).chain p := rfl

theorem Warp.lane_opens (l : Nat) : (x.opens port n c).lane l
    = if c.lanes.getLsbD l then { x.lane l with pc := (x.lane l).pc + BitVec.ofNat 64 n } else x.lane l := by
  rw [← Warp.lane_setChain x port (some c)]
  exact (x.setChain port (some c)).lane_mapLanes c.lanes (fun y => { y with pc := y.pc + BitVec.ofNat 64 n }) l

theorem Warp.opens_rest : x.opens port n c = { x with
    chainA := (x.opens port n c).chainA, chainB := (x.opens port n c).chainB
    lanes := (x.opens port n c).lanes, waits := (x.opens port n c).waits } := by
  unfold Warp.opens
  rw [Warp.advance_eq, Warp.setChain_rest]

end

theorem State.upCur_upCur (s : State) (f g : Warp → Warp) : (s.upCur f).upCur g = s.upCur fun x => g (f x) := by
  simp [State.upCur_eq]

/-- The two updates that `flumeOp` makes of the issuing warp are one. -/
theorem State.opens_eq (v : State) (is : List FInst) (n : Nat) :
    (let u := v.upCur fun x => x.setChain v.cur.port (some (v.openChain is))
      if (v.openChain is).enabled = 0 then u.advance n
      else (u.advance n).upCur fun x => { x with waits := x.waits ++ [⟨u.cur.lanes, u.cur.pc, n, u.cur.port, .chain u.cur.port⟩] })
      = v.upCur fun x => x.opens v.cur.port n (v.openChain is) := by
  by_cases enabled : (v.openChain is).enabled = 0
  · simp only [if_pos enabled, State.advance, State.upCur_upCur]
    refine congrArg v.upCur (funext fun x => ?_)
    rw [Warp.opens, if_pos enabled, ← Warp.setChain_waits x v.cur.port (some (v.openChain is))]
    rfl
  · simp only [if_neg enabled, State.advance, State.upCur_upCur]
    refine congrArg v.upCur (funext fun x => ?_)
    rw [Warp.opens, if_neg enabled, ← Warp.setChain_waits x v.cur.port (some (v.openChain is))]
    rfl

/-- A group that passes the checks of R199 counts its members, and opens their chain in the issuing warp. -/
theorem flumeOp_opens {i : Instr} {s : State} (h : clearGroup (i :: s.cur.tail) s = true) {is : List FInst}
    (members : (i :: s.cur.tail).filterMap flumeOf = is) :
    flumeOp i s = .next ((s.countMembers is).upCur fun x =>
      x.opens s.cur.port ((i :: s.cur.tail).map Instr.len).sum (s.openChain is)) := by
  subst members
  have opened := (s.countMembers ((i :: s.cur.tail).filterMap flumeOf)).opens_eq ((i :: s.cur.tail).filterMap flumeOf)
    ((i :: s.cur.tail).map Instr.len).sum
  rw [State.openChain_countMembers] at opened
  have cur : (s.countMembers ((i :: s.cur.tail).filterMap flumeOf)).cur = s.cur := by rw [State.countMembers_frame]
  rw [flumeOp, groupOp_clear h]
  dsimp only at opened ⊢
  rw [State.openChain_countMembers, opened, cur]

/-! ### The chain of a single member (R144, R259) -/

theorem FInst.run_of_not_quant {m : FInst} (h : ∀ d t, m.kind ≠ .quant d t) (fpmode : Nat) (ins : FMap (List Nat)) :
    m.run fpmode ins = ins.map fun p => (p.1, m.compute fpmode p.2) := by
  unfold FInst.run
  split
  · exact absurd ‹_› (h _ _)
  · rfl

/-- A member alone is not cancelled: its lane entry holds its words and all of its flags, whether it traps or not. -/
theorem laneOfChain_single (fpmode enabled l : Nat) (r : Ran) :
    (laneOfChain fpmode enabled l [r]).res = r.inst.resultWords (r.res.get l).val
      ∧ (laneOfChain fpmode enabled l [r]).flags = (r.res.get l).fl := by
  have flags : memberFlags fpmode l [r] = [((r.res.get l).fl, true)] := rfl
  refine ⟨List.append_nil _, ?_⟩
  rw [laneOfChain, flags]
  dsimp only
  split
  · exact Nat.zero_or _
  · exact Nat.zero_or _

theorem FInst.run_get {m : FInst} (h : ∀ d t, m.kind ≠ .quant d t) (fpmode : Nat) (f : Nat → List Nat) {lanes : LaneSet} {l : Nat}
    (hl : lanes.getLsbD l = true) :
    (m.run fpmode ((lanesOf lanes).map fun l => (l, f l))).get l = m.compute fpmode (f l) := by
  rw [FInst.run_of_not_quant h, List.map_map]
  exact FMap.get_map_of_mem (mem_lanesOf.2 hl) fun l => m.compute fpmode (f l)

/-- The lane entry that a chain of a single member latches. -/
theorem State.openChain_single_get (s : State) {m : FInst} (h : ∀ d t, m.kind ≠ .quant d t) {l : Nat} (hl : s.cur.lanes.getLsbD l = true) :
    ((s.openChain [m]).results.get l).res
        = m.resultWords (m.compute s.curWarp.fpmode.toNat (s.memberIn s.cur.warp l m none)).val
      ∧ ((s.openChain [m]).results.get l).flags = (m.compute s.curWarp.fpmode.toNat (s.memberIn s.cur.warp l m none)).fl := by
  have latched : (s.openChain [m]).results.get l = laneOfChain _ _ l _ := FMap.get_map_of_mem (mem_lanesOf.2 hl) _
  have computed := FInst.run_get h s.curWarp.fpmode.toNat (fun l => s.memberIn s.cur.warp l m none) hl
  obtain ⟨res, flags⟩ := laneOfChain_single s.curWarp.fpmode.toNat (s.curWarp.fpmode.toNat / 256 % 32) l
    ⟨m, _, m.run s.curWarp.fpmode.toNat ((lanesOf s.cur.lanes).map fun l => (l, s.memberIn s.cur.warp l m none))⟩
  rw [computed] at res flags
  exact ⟨(congrArg ChainLane.res latched).trans res, (congrArg ChainLane.flags latched).trans flags⟩

/-- The latched fpmode enables what the fpmode at issue does (R132). -/
theorem State.openChain_enabled (s : State) (is : List FInst) : (s.openChain is).enabled = s.curWarp.fpmode.toNat / 2 ^ 8 % 2 ^ 5 := by
  show s.curWarp.fpmode.toNat % 2 ^ 13 / 256 % 32 = _
  omega

end Sys2Proof.Machine

namespace Sys2Proof

open Sys2Proof.Machine

theorem Part.flumeIssue : Part.FlumeIssue := by
  intro i s flume _ passes group c n
  obtain ⟨counted, frame⟩ : ∃ cores, s.countMembers (group.filterMap flumeOf) = { s with cores := cores } := ⟨_, s.countMembers_frame _⟩
  have run : exec i s = .next (({ s with cores := counted } : State).upCur fun x => x.opens s.cur.port n c) := by
    rw [exec_of_flumeOf s flume, flumeOp_opens passes rfl, frame]
  have own : (({ s with cores := counted } : State).upCur fun x => x.opens s.cur.port n c).curWarp = s.curWarp.opens s.cur.port n c :=
    State.curWarp_upCur ..
  refine ⟨_, run, ?_, fun p hp => ?_, fun l => ?_, ?_, ?_, fun w hw => State.warp_setWarp_ne _ _ hw, fun _ => rfl, rfl⟩
  · rw [own, Warp.chain_opens, Warp.chain_setChain_self]
  · rw [own, Warp.chain_opens, Warp.chain_setChain_other _ _ hp]
  · rw [own, Warp.lane_opens]
    rfl
  · rw [own, ← State.openChain_enabled s (group.filterMap flumeOf)]
    rfl
  · rw [own]
    exact Warp.opens_rest ..

theorem Part.chainLatch : Part.ChainLatch := by
  intro s m h c r
  exact ⟨rfl, rfl, rfl, rfl, rfl, rfl, fun l hl => s.openChain_single_get h hl⟩

/-- Settles O5: a group of float instructions is `flumeOp`, which opens the chain and nothing else (`flumeOp_opens`); a single member's
chain latches what `FInst.compute` gives (`State.openChain_single_get`). -/
theorem flumeIssue : Obligations.FlumeIssue := ⟨Part.flumeIssue, Part.chainLatch⟩

end Sys2Proof

/-! ## O6: a chain's write-back

`Warp.dueChain` finds the chain of a port or of its record slot (`dueChain_open`, `dueChain_record`). What its members write is
`Warp.writeChain`, member by member: a register that no later member names holds what its member wrote
(`Warp.commitChain_committed`). A chain that traps is the warp's first trap, and nothing is left to park
(`State.takeTrap_chain`). -/

namespace Sys2Proof.Machine

open Sys2Proof

/-! ### The members' results written (R144) -/

section
variable (w : Warp) (c : Chain)

theorem ChainMember.value_eq (m : ChainMember) (ws : List Nat) : m.value ws
    = if m.words = 2 then ws.headD 0 + 2 ^ 32 * ws.tail.headD 0
      else if m.signExt then wrapNat 64 (signedOf 32 (ws.headD 0)) else ws.headD 0 := by
  cases ws with
  | cons x t => rfl
  | nil =>
    show 0 = _
    split
    · rfl
    · split <;> rfl

theorem Warp.writeChain_rest (ms : List ChainMember) (k : Nat) :
    ∃ v r b, w.writeChain c ms k = { w with vregs := v, sregs := r, badRegs := b } := by
  induction ms generalizing w k with
  | nil => exact ⟨_, _, _, rfl⟩
  | cons m ms ih =>
    obtain ⟨v, r, b, e⟩ := w.writeLanes_rest (w.chainLanes c m.dest) m.words m.dest fun l => m.value ((c.results.get l).res.drop k)
    obtain ⟨v', r', b', e'⟩ := ih (w.writeLanes (w.chainLanes c m.dest) m.words m.dest fun l => m.value ((c.results.get l).res.drop k))
      (k + m.words)
    exact ⟨v', r', b', by rw [Warp.writeChain, e', e]⟩

/-- The lanes that a result is written for do not depend on the registers. -/
theorem Warp.chainLanes_writeLanes (lanes : LaneSet) (nw : Nat) (d : Operand) (f : Nat → Nat) (e : Operand) :
    (w.writeLanes lanes nw d f).chainLanes c e = w.chainLanes c e := by
  obtain ⟨v, r, b, rest⟩ := w.writeLanes_rest lanes nw d f
  rw [rest]
  rfl

theorem Warp.chainLanes_writeChain (ms : List ChainMember) (k : Nat) (e : Operand) :
    (w.writeChain c ms k).chainLanes c e = w.chainLanes c e := by
  obtain ⟨v, r, b, rest⟩ := w.writeChain_rest c ms k
  rw [rest]
  rfl

theorem Warp.writeChain_append (ms ns : List ChainMember) (k : Nat) :
    w.writeChain c (ms ++ ns) k = (w.writeChain c ms k).writeChain c ns (k + (ms.map (·.words)).sum) := by
  induction ms generalizing w k with
  | nil => rfl
  | cons m ms ih => rw [List.cons_append, Warp.writeChain, ih, Warp.writeChain, List.map_cons, List.sum_cons, Nat.add_assoc]

/-- What no member's own write changes stays. -/
theorem Warp.writeChain_keeps {α : Type} (read : Warp → α) {ms : List ChainMember}
    (h : ∀ m ∈ ms, ∀ (x : Warp) f, read (x.writeLanes (w.chainLanes c m.dest) m.words m.dest f) = read x) (k : Nat) :
    read (w.writeChain c ms k) = read w := by
  induction ms generalizing w k with
  | nil => rfl
  | cons m ms ih =>
    rw [Warp.writeChain, ih, h m List.mem_cons_self]
    intro q hq
    rw [Warp.chainLanes_writeLanes]
    exact h q (List.mem_cons_of_mem _ hq)

theorem Warp.v_writeChain_of_not_written {ms : List ChainMember} {n l : Nat} (hl : l < 32)
    (h : ∀ m ∈ ms, vecWritten m.dest (w.chainLanes c m.dest) m.words n l = false) (k : Nat) : (w.writeChain c ms k).v n l = w.v n l :=
  w.writeChain_keeps c (fun x => x.v n l) (fun m hm x f => ((writeLanes_spec x _ _ _ f).1 n l hl).trans (if_neg (by simp [h m hm]))) k

theorem Warp.s_writeChain_of_not_written {ms : List ChainMember} {n : Nat}
    (h : ∀ m ∈ ms, scaWritten m.dest (w.chainLanes c m.dest) n = false) (k : Nat) : (w.writeChain c ms k).s n = w.s n :=
  w.writeChain_keeps c (fun x => x.s n) (fun m hm x f => ((writeLanes_spec x _ _ _ f).2.1 n).trans (if_neg (by simp [h m hm]))) k

/-- A member's write, with those before it and those after it. -/
theorem Warp.writeChain_split {pre post ms : List ChainMember} {m : ChainMember} (h : ms = pre ++ m :: post) :
    w.writeChain c ms 0 = ((w.writeChain c pre 0).writeLanes (w.chainLanes c m.dest) m.words m.dest
      fun l => m.value ((c.results.get l).res.drop (pre.map (·.words)).sum)).writeChain c post ((pre.map (·.words)).sum + m.words) := by
  rw [h, Warp.writeChain_append, Warp.writeChain, Warp.chainLanes_writeChain, Nat.zero_add]

theorem Warp.chainLanes_vector (n l : Nat) :
    (w.chainLanes c (.v n)).getLsbD l = true ↔ c.lanes.getLsbD l = true ∧ (w.lane l).live = true := by
  show (c.lanes &&& w.liveLanes).getLsbD l = true ↔ _
  rw [BitVec.getLsbD_and, Warp.liveLanes_getLsbD, Bool.and_eq_true, Bool.and_eq_true, decide_eq_true_eq]
  exact ⟨fun h => ⟨h.1, h.2.2⟩, fun h => ⟨h.1, BitVec.lt_of_getLsbD h.1, h.2⟩⟩

theorem Warp.chainLanes_scalar {n : Nat} (live : (w.lane (leader c.lanes)).live = true) : w.chainLanes c (.s n) = c.lanes := if_pos live

theorem vecWritten_eq_false {d : Operand} {lanes : LaneSet} {nw m l : Nat}
    (h : ∀ n, d = .v n → lanes.getLsbD l = true → m < n ∨ n + nw ≤ m) : vecWritten d lanes nw m l = false := by
  cases d with
  | v n =>
    refine Bool.eq_false_iff.2 fun e => ?_
    simp only [vecWritten, Bool.and_eq_true, decide_eq_true_eq] at e
    have := h n rfl e.1.1
    omega
  | _ => rfl

theorem scaWritten_eq_false {d : Operand} {lanes : LaneSet} {m : Nat} (h : d ≠ .s m) : scaWritten d lanes m = false := by
  cases d with
  | s n =>
    have other : n ≠ m := fun e => h (e ▸ rfl)
    simp [scaWritten, other]
  | _ => rfl

/-- The last member that names a vector register decides it. -/
theorem Warp.v_writeChain {pre post ms : List ChainMember} {m : ChainMember} {n l j : Nat} (h : ms = pre ++ m :: post) (dest : m.dest = .v n)
    (last : ∀ k ∈ post, ∀ i, k.dest = .v i → n + m.words ≤ i ∨ i + k.words ≤ n) (hl : c.lanes.getLsbD l = true)
    (live : (w.lane l).live = true) (hj : j < m.words) : (w.writeChain c ms 0).v (n + j) l
      = BitVec.ofNat 32 (m.value ((c.results.get l).res.drop (pre.map (·.words)).sum) / 2 ^ (32 * j)) := by
  have lt := BitVec.lt_of_getLsbD hl
  rw [Warp.writeChain_split w c h, Warp.v_writeChain_of_not_written _ _ lt, (writeLanes_spec _ _ _ _ _).1 _ l lt, dest]
  · have written : vecWritten (.v n) (w.chainLanes c (.v n)) m.words (n + j) l = true := by
      simp only [vecWritten, Bool.and_eq_true, decide_eq_true_eq]
      exact ⟨⟨(w.chainLanes_vector c n l).2 ⟨hl, live⟩, by omega⟩, by omega⟩
    rw [if_pos written, firstReg, Nat.add_sub_cancel_left]
  · intro k hk
    refine vecWritten_eq_false fun i hi _ => ?_
    have := last k hk i hi
    omega

/-- The last member that names a scalar register decides it. -/
theorem Warp.s_writeChain {pre post ms : List ChainMember} {m : ChainMember} {n : Nat} (h : ms = pre ++ m :: post) (dest : m.dest = .s n)
    (last : ∀ k ∈ post, k.dest ≠ .s n) (some_ : c.lanes ≠ 0) (live : (w.lane (leader c.lanes)).live = true) : (w.writeChain c ms 0).s n
      = BitVec.ofNat 64 (m.value ((c.results.get (leader c.lanes)).res.drop (pre.map (·.words)).sum)) := by
  rw [Warp.writeChain_split w c h, Warp.s_writeChain_of_not_written, (writeLanes_spec _ _ _ _ _).2.1 n, dest, w.chainLanes_scalar c live]
  · have written : scaWritten (.s n) c.lanes n = true := by
      rw [scaWritten, beq_self_eq_true, Bool.true_and]
      exact bne_iff_ne.2 some_
    exact if_pos written
  · exact fun k hk => scaWritten_eq_false (last k hk)

theorem Warp.commitChain_rest : ∃ v r b, w.commitChain c = { w with
    vregs := v, sregs := r, badRegs := b, fpflags := w.fpflags ||| BitVec.ofNat 64 c.flags
    waits := w.waits.filter fun r => r.wait != .chain c.port || r.lanes &&& c.lanes == 0 } := by
  obtain ⟨v, r, b, rest⟩ := w.writeChain_rest c c.members 0
  exact ⟨v, r, b, by rw [Warp.commitChain, rest]⟩

theorem Warp.commitChain_v (n l : Nat) : (w.commitChain c).v n l = (w.writeChain c c.members 0).v n l := rfl
theorem Warp.commitChain_s (n : Nat) : (w.commitChain c).s n = (w.writeChain c c.members 0).s n := rfl

end

/-! ### Places of chains -/

section
variable (x : Warp) (port : Nat) (c : Option Chain) (d : Chain)

theorem Warp.chain_congr {x y : Warp} {p : Nat} (a : x.chainA = y.chainA) (b : x.chainB = y.chainB) : x.chain p = y.chain p := by
  rw [Warp.chain, Warp.chain, a, b]

theorem Warp.chain_setParked (p : Nat) : (x.setParked port c).chain p = x.chain p := by
  unfold Warp.setParked; split <;> rfl
theorem Warp.parked_setChain (p : Nat) : (x.setChain port c).parked p = x.parked p := by
  unfold Warp.setChain; split <;> rfl
theorem Warp.parked_setParked_self : (x.setParked port c).parked port = c := by
  unfold Warp.setParked Warp.parked; split <;> rfl
theorem Warp.parked_setParked_other {p : Nat} (h : p = 0 ↔ port ≠ 0) : (x.setParked port c).parked p = x.parked p := by
  unfold Warp.setParked Warp.parked
  by_cases first : p = 0
  · rw [if_pos first, if_neg (h.1 first), if_pos first]
  · rw [if_neg first, if_pos (not_not.1 (mt h.2 first)), if_neg first]
theorem Warp.setParked_rest :
    x.setParked port c = { x with recA := (x.setParked port c).recA, recB := (x.setParked port c).recB } := by
  unfold Warp.setParked; split <;> rfl

theorem Warp.chain_commitChain (p : Nat) : (x.commitChain d).chain p = x.chain p := by
  obtain ⟨v, r, b, rest⟩ := x.commitChain_rest d
  rw [rest]
  rfl
theorem Warp.parked_commitChain (p : Nat) : (x.commitChain d).parked p = x.parked p := by
  obtain ⟨v, r, b, rest⟩ := x.commitChain_rest d
  rw [rest]
  rfl
theorem Warp.pendingFaults_commitChain : (x.commitChain d).pendingFaults = x.pendingFaults := by
  obtain ⟨v, r, b, rest⟩ := x.commitChain_rest d
  rw [rest]

end

/-! ### Which chain is due (R147, R151, R153) -/

theorem Chain.trapLanes_getLsbD (c : Chain) (l : Nat) :
    c.trapLanes.getLsbD l = true ↔ c.lanes.getLsbD l = true ∧ (c.results.get l).trapMember ≠ 0 := by
  rw [Chain.trapLanes, laneSet_getLsbD, Bool.and_eq_true, decide_eq_true_eq, decide_eq_true_eq, List.mem_filter, mem_lanesOf, bne_iff_ne]
  exact ⟨fun h => h.2, fun h => ⟨BitVec.lt_of_getLsbD h.1, h⟩⟩

theorem Chain.trapping_iff (c : Chain) : c.trapping = true ↔ ∃ l, c.lanes.getLsbD l = true ∧ (c.results.get l).trapMember ≠ 0 := by
  rw [Chain.trapping, bne_iff_ne, lanes_ne_zero]
  simp only [Chain.trapLanes_getLsbD]

section
variable {x : Warp} {cycle port : Nat} {c k : Chain}

theorem Warp.dueChain_none (open_ : ∀ c, x.chain port = some c → ¬ c.writeback ≤ cycle)
    (record : ∀ k, x.parked port = some k → k.counting = false ∨ ¬ k.writeback ≤ cycle) : x.dueChain cycle port = none := by
  have idle : ∀ k, x.parked port = some k → ¬ (k.counting && decide (k.writeback ≤ cycle)) = true := fun k hk h => by
    simp only [Bool.and_eq_true, decide_eq_true_eq] at h
    rcases record k hk with e | e
    · rw [e] at h; exact Bool.false_ne_true h.1
    · exact e h.2
  unfold Warp.dueChain
  cases hc : x.chain port with
  | none =>
    cases hk : x.parked port with
    | none => rfl
    | some k => exact if_neg (idle k hk)
  | some c =>
    refine (if_neg (by simp [open_ c hc])).trans ?_
    cases hk : x.parked port with
    | none => rfl
    | some k => exact if_neg (idle k hk)

/-- The open chain in its write-back cycle is due, unless it traps and waits for the other port's. -/
theorem Warp.dueChain_open (open_ : x.chain port = some c) (due : c.writeback ≤ cycle)
    (free : c.trapping = true → x.strikeCycle cycle (1 - port) ≤ cycle) : x.dueChain cycle port = some (c, false) := by
  unfold Warp.dueChain
  rw [open_]
  refine if_pos ?_
  cases traps : c.trapping with
  | false => simp [due]
  | true => simp [due, free traps]

/-- A chain counted out in the record slot is due where no open chain is. -/
theorem Warp.dueChain_record (record : x.parked port = some k) (counting : k.counting = true) (due : k.writeback ≤ cycle)
    (open_ : ∀ c, x.chain port = some c → ¬ c.writeback ≤ cycle) : x.dueChain cycle port = some (k, true) := by
  have ready : (k.counting && decide (k.writeback ≤ cycle)) = true := by simp [counting, due]
  unfold Warp.dueChain
  rw [record]
  cases hc : x.chain port with
  | none => exact if_pos ready
  | some c => exact (if_neg (by simp [open_ c hc])).trans (if_pos ready)

end

/-! ### The write-back -/

section
variable {s : State} {w port : Nat} {c : Chain}

theorem State.takePending_none (h : (s.warp w).pendingFaults = []) : s.takePending w = s := by
  unfold State.takePending
  dsimp only
  rw [h]

theorem execFlumeWriteback_none (h : (s.warp w).dueChain s.cycle port = none) : execFlumeWriteback w port s = .next s := by
  unfold execFlumeWriteback
  dsimp only
  rw [h]

theorem execFlumeWriteback_open (h : (s.warp w).dueChain s.cycle port = some (c, false)) (quiet : c.trapping = false)
    (pending : (s.warp w).pendingFaults = []) :
    execFlumeWriteback w port s = .next (s.setWarp w (((s.warp w).commitChain c).setChain port none)) := by
  have after : ((s.setWarp w (((s.warp w).commitChain c).setChain port none)).warp w).pendingFaults = [] := by
    rw [State.warp_setWarp_self, Warp.setChain_rest]
    exact ((s.warp w).pendingFaults_commitChain c).trans pending
  unfold execFlumeWriteback
  dsimp only
  rw [h]
  dsimp only
  rw [quiet, State.takePending_none after]
  exact if_neg Bool.false_ne_true

theorem execFlumeWriteback_record (h : (s.warp w).dueChain s.cycle port = some (c, true)) :
    execFlumeWriteback w port s = .next (s.setWarp w (((s.warp w).commitChain c).setParked port none)) := by
  unfold execFlumeWriteback
  dsimp only
  rw [h]

theorem execFlumeWriteback_traps (h : (s.warp w).dueChain s.cycle port = some (c, false)) (traps : c.trapping = true) :
    execFlumeWriteback w port s = .next (s.takeTrap w c.trap) := by
  unfold execFlumeWriteback
  dsimp only
  rw [h]
  exact if_pos traps

end

/-! ### FP_TRAP of an open chain (R134, R150, R332) -/

/-- An open chain in its write-back cycle that traps, in a warp with no other chain, open or counted out, and outside the handler. -/
structure Warp.TrapsAlone (x : Warp) (cycle port : Nat) (c : Chain) : Prop where
  port_lt : port < 2
  open_ : x.chain port = some c
  due : c.writeback ≤ cycle
  traps : c.trapping = true
  single : x.chain (1 - port) = none
  stopped : ∀ p k, x.parked p = some k → k.counting = false
  outside : x.handler = none

namespace Warp.TrapsAlone
variable {x : Warp} {cycle port : Nat} {c : Chain} (h : x.TrapsAlone cycle port c)
include h

/-- Either port holds the chain or nothing. -/
theorem chain_cases {p : Nat} (hp : p < 2) : p = port ∧ x.chain p = some c ∨ p = 1 - port ∧ x.chain p = none := by
  have lt := h.port_lt
  by_cases e : p = port
  · exact .inl ⟨e, e ▸ h.open_⟩
  · have other : p = 1 - port := by omega
    exact .inr ⟨other, other ▸ h.single⟩

theorem strikeCycle {p : Nat} (hp : p < 2) : x.strikeCycle cycle p = cycle := by
  unfold Warp.strikeCycle
  rcases h.chain_cases hp with ⟨-, e⟩ | ⟨-, e⟩
  · rw [e]
    dsimp only
    split
    · exact Nat.max_eq_left h.due
    · rfl
  · rw [e]

theorem strikes : x.strikes cycle = cycle := by
  rw [Warp.strikes, h.strikeCycle (by omega), h.strikeCycle (by omega)]
  exact Nat.max_self _

theorem dueChain : x.dueChain cycle port = some (c, false) :=
  Warp.dueChain_open h.open_ h.due fun _ => (h.strikeCycle (by omega)).le

theorem wideTrap : x.wideTrap cycle port = some c := by
  unfold Warp.wideTrap
  rw [h.open_]
  exact if_pos (by simp [h.due, h.traps])

theorem wideTrap_other : x.wideTrap cycle (1 - port) = none := by
  unfold Warp.wideTrap
  rw [h.single]

theorem takeChain : x.takeChain cycle port c = (c.trap, none, x.setChain port none) := by
  have lt := h.port_lt
  have none_ : (x.setChain port none).wideTrap cycle (1 - port) = none := by
    unfold Warp.wideTrap
    rw [Warp.chain_setChain_other _ _ (by omega), h.single]
  unfold Warp.takeChain
  dsimp only
  rw [none_]

theorem firstTrap (t : Trap) (sup : Option Supply) : x.firstTrap cycle t sup = (c.trap, none, x.setChain port none) := by
  have lt := h.port_lt
  have mine := h.wideTrap
  have other := h.wideTrap_other
  unfold Warp.firstTrap
  rcases (by omega : port = 0 ∨ port = 1) with rfl | rfl
  · rw [mine]
    exact h.takeChain
  · rw [show x.wideTrap cycle 0 = none from other, mine]
    exact h.takeChain

/-- With the chain gone there is none to park. -/
theorem parkChains : (x.setChain port none).parkChains cycle = x.setChain port none := by
  have lt := h.port_lt
  have idle : ∀ p, p < 2 → (x.setChain port none).parkPort cycle p = x.setChain port none := by
    intro p hp
    have empty : (x.setChain port none).chain p = none := by
      rcases h.chain_cases hp with ⟨rfl, -⟩ | ⟨e, single⟩
      · exact Warp.chain_setChain_self ..
      · rw [Warp.chain_setChain_other _ _ (by omega), single]
    have kept : (x.setChain port none).parkRecord cycle p = x.setChain port none := by
      unfold Warp.parkRecord
      rw [Warp.parked_setChain]
      cases record : x.parked p with
      | none => rfl
      | some k => exact if_pos (by rw [h.stopped p k record]; rfl)
    unfold Warp.parkPort
    rw [kept]
    dsimp only
    rw [empty]
  rw [Warp.parkChains, idle 0 (by omega), idle 1 (by omega)]

end Warp.TrapsAlone

/-- FP_TRAP of such a chain is taken at once, and the chain has left its place. -/
theorem State.takeTrap_chain {s : State} {w port : Nat} {c : Chain} (alone : s.cur.pairs = false)
    (h : (s.warp w).TrapsAlone s.cycle port c) (base : (s.ctx (s.ctxOf w)).trapbase ≠ 0) :
    s.takeTrap w c.trap
      = s.setWarp w (((s.warp w).setChain port none).enterHandler s.cycle (s.ctx (s.ctxOf w)).trapbase c.trap none) := by
  unfold State.takeTrap
  dsimp only
  rw [alone, Bool.false_and, if_neg Bool.false_ne_true, h.outside]
  dsimp only
  unfold State.enterTrap
  rw [h.strikes, if_neg (Nat.lt_irrefl _), h.firstTrap]
  exact if_neg base

/-- What a warp's entry into its handler with a chain's FP_TRAP leaves: the trap registers name its cause and its lanes, the chain's lanes
return to its first word, and nothing was written. -/
structure Warp.InFpTrap (x y : Warp) (port : Nat) (c : Chain) : Prop where
  cause : y.trapcause.toNat % 256 = 0x10
  chain : y.chain port = none
  lanes : ∀ l, l < 32 → (y.traplanes.getLsbD l = true ↔ c.lanes.getLsbD l = true ∧ (c.results.get l).trapMember ≠ 0)
  handler : y.handler = some ⟨c.lanes, (lanesOf c.lanes).map (fun l => (l, c.pc)), none, false⟩
  fpflags : y.fpflags = x.fpflags
  vregs : y.vregs = x.vregs
  sregs : y.sregs = x.sregs

theorem Chain.trap_lanesReg {c : Chain} (traps : c.trapping = true) : c.trap.lanesReg = c.trapLanes.setWidth 64 :=
  congrArg (BitVec.setWidth 64) (if_neg (bne_iff_ne.1 traps))

theorem Warp.mapLanes_rest (w : Warp) (m : LaneSet) (f : Lane → Lane) : w.mapLanes m f = { w with lanes := (w.mapLanes m f).lanes } := rfl

theorem Warp.writeTrap_eq (w : Warp) (t : Trap) : w.writeTrap t = { w with
    trapcause := t.causeReg, traplanes := t.lanesReg, trapaddr := t.addr, trapinfo := t.infoReg } := rfl

theorem Warp.returnPoints_of_ret (w : Warp) {t : Trap} {pc : DWord} (ret : t.ret = some pc) :
    w.returnPoints t = (lanesOf t.group).map fun l => (l, pc) := by
  rw [Warp.returnPoints, ret]
  rfl

/-- What entering the handler writes where there is no chain to park, for a trap that names its return point. -/
theorem Warp.enterHandler_rest {w : Warp} {cycle : Nat} (parked : w.parkChains cycle = w) {t : Trap} {pc : DWord} (ret : t.ret = some pc)
    (base : DWord) (sup : Option Supply) :
    ∃ waits walkFaults lanes, w.enterHandler cycle base t sup = { w with
      trapcause := t.causeReg, traplanes := t.lanesReg, trapaddr := t.addr, trapinfo := t.infoReg
      handler := some ⟨t.group, (lanesOf t.group).map fun l => (l, pc), sup, false⟩
      waits := waits, walkFaults := walkFaults, lanes := lanes } := by
  unfold Warp.enterHandler
  rw [parked]
  dsimp only
  rw [Warp.returnPoints_of_ret _ ret, Warp.writeTrap_eq, Warp.unwait_rest, Warp.mapLanes_rest]
  exact ⟨_, _, _, rfl⟩

theorem Warp.TrapsAlone.inFpTrap {x : Warp} {cycle port : Nat} {c : Chain} (h : x.TrapsAlone cycle port c) (base : DWord) :
    x.InFpTrap ((x.setChain port none).enterHandler cycle base c.trap none) port c := by
  obtain ⟨waits, walkFaults, lanes, entered⟩ := Warp.enterHandler_rest h.parkChains (t := c.trap) rfl base none
  have gone := x.chain_setChain_self port none
  have rest := x.setChain_rest port none
  rw [entered]
  generalize x.setChain port none = z at gone rest ⊢
  refine ⟨?_, gone, fun l hl => ?_, rfl, ?_, ?_, ?_⟩
  · show c.trap.causeReg.toNat % 256 = 0x10
    simp [Trap.causeReg, Chain.trap]
  · show c.trap.lanesReg.getLsbD l = true ↔ _
    rw [Chain.trap_lanesReg h.traps, BitVec.getLsbD_setWidth, ← Chain.trapLanes_getLsbD]
    simp [show l < 64 by omega]
  · show z.fpflags = x.fpflags
    rw [rest]
  · show z.vregs = x.vregs
    rw [rest]
  · show z.sregs = x.sregs
    rw [rest]

end Sys2Proof.Machine

namespace Sys2Proof

open Sys2Proof.Machine

/-- A chain committed, whatever its place and the other port's hold then. -/
theorem Machine.Warp.commitChain_committed (x : Warp) (c : Chain) (chainA chainB recA recB : Option Chain) :
    Part.Committed x { x.commitChain c with chainA := chainA, chainB := chainB, recA := recA, recB := recB } c := by
  obtain ⟨v, r, b, rest⟩ := x.commitChain_rest c
  refine ⟨fun pre m post n split dest last l hl live j hj => ?_, fun pre m post n split dest last some_ live => ?_,
    fun n l hl unnamed => ?_, fun n l hl dead => ?_, fun n unnamed => ?_, ?_, ?_, ?_⟩
  · exact (x.v_writeChain c split dest last hl live hj).trans (by rw [ChainMember.value_eq])
  · exact (x.s_writeChain c split dest last some_ live).trans (by rw [ChainMember.value_eq])
  · exact x.v_writeChain_of_not_written c hl (fun m hm => vecWritten_eq_false fun i hi _ => unnamed m hm i hi) 0
  · refine x.v_writeChain_of_not_written c hl (fun m _ => vecWritten_eq_false fun i hi written => ?_) 0
    rw [hi] at written
    exact absurd ((x.chainLanes_vector c i l).1 written) dead
  · exact x.s_writeChain_of_not_written c (fun m hm => scaWritten_eq_false (unnamed m hm)) 0
  all_goals rw [rest]

/-- Settles O6: a chain that is due is committed (`Warp.commitChain_committed`), or traps and is the warp's first trap
(`State.takeTrap_chain`). -/
theorem chainWriteback : Obligations.ChainWriteback := by
  intro s w port hp alone x due traps i only
  have moved : ∀ y : Warp, only (s.setWarp w y) := fun y => ⟨fun v hv => State.warp_setWarp_ne s y hv, rfl⟩
  have other : (1 - port = 0 ↔ port ≠ 0) := by omega
  refine ⟨fun open_ record => execFlumeWriteback_none (Warp.dueChain_none open_ record), fun c open_ hdue quiet pending => ?_,
    fun k record counting hdue open_ => ?_, fun c open_ _ hdue trapped outside single stopped base => ?_⟩
  · have silent : c.trapping = false := Bool.eq_false_iff.2 fun e => (c.trapping_iff.1 e).elim quiet
    have found : x.dueChain s.cycle port = some (c, false) :=
      Warp.dueChain_open open_ hdue fun e => absurd e (Bool.eq_false_iff.1 silent)
    refine ⟨_, execFlumeWriteback_open found silent pending, ?_, ?_, ?_, fun p => ?_, moved _⟩
    all_goals rw [State.warp_setWarp_self]
    · rw [Warp.setChain_rest]
      exact x.commitChain_committed c _ _ _ _
    · exact Warp.chain_setChain_self ..
    · rw [Warp.chain_setChain_other _ _ other, Warp.chain_commitChain]
    · rw [Warp.parked_setChain, Warp.parked_commitChain]
  · have found : x.dueChain s.cycle port = some (k, true) := Warp.dueChain_record record counting hdue open_
    refine ⟨_, execFlumeWriteback_record found, ?_, ?_, ?_, fun p => ?_, moved _⟩
    all_goals rw [State.warp_setWarp_self]
    · rw [Warp.setParked_rest]
      exact x.commitChain_committed k _ _ _ _
    · exact Warp.parked_setParked_self ..
    · rw [Warp.parked_setParked_other _ _ _ other, Warp.parked_commitChain]
    · rw [Warp.chain_setParked, Warp.chain_commitChain]
  · have takes : x.TrapsAlone s.cycle port c := ⟨hp, open_, hdue, c.trapping_iff.2 trapped, single, stopped, outside⟩
    have run := (execFlumeWriteback_traps takes.dueChain takes.traps).trans (congrArg _ (State.takeTrap_chain alone takes base))
    obtain ⟨cause, gone, lanes, handler, fpflags, vregs, sregs⟩ := takes.inFpTrap (s.ctx (s.ctxOf w)).trapbase
    refine ⟨_, run, ?_, ?_, ?_, ?_, ?_, fun n l => ?_, fun n => ?_, moved _⟩
    all_goals rw [State.warp_setWarp_self]
    · exact cause
    · exact gone
    · exact lanes
    · exact handler
    · exact fpflags
    · exact congrArg (FMap.get · (vkey n l)) vregs
    · exact congrArg (FMap.get · n) sregs

end Sys2Proof
